-- ==== Sys2Proof/Word.lean ====
section
/-! DEFINITION. The words of the machine (R9, R10): 64-bit registers, bytes, 256-byte cache lines, and the shape of
sparse tables keyed by a number. -/

namespace Sys2Proof

/-- A 64-bit register or address word. -/
abbrev W64 := BitVec 64

/-- One byte of storage. -/
abbrev Byte := BitVec 8

/-- One 256-byte line (R229); the byte at the lowest address is the most significant (R10). -/
abbrev Line := BitVec 2048

/-- A sparse table: ascending keys, at most one entry per key; a reader supplies what an absent key stands for. -/
abbrev Tab (α : Type) := List (Nat × α)

end Sys2Proof
end

