-- ==== Sys2Proof/Syntax.lean ====
section
/-! DEFINITION. The commands of the block: one constructor for each row of the table of commands, in the table's
order, and the operand forms they share (Table 3.2 for instructions, Table 9.4 for coherence messages, and the frame
and event operands of the other chapters). -/

namespace Sys2Proof

/-- Form A (Table 3.2): thread, register fields t, a, b. -/
structure FA where
  th : Nat
  t : Nat
  a : Nat
  b : Nat
deriving DecidableEq, Repr

/-- Form I: thread, t, a, 16-bit immediate. -/
structure FI where
  th : Nat
  t : Nat
  a : Nat
  imm : Nat
deriving DecidableEq, Repr

/-- Form M: thread, t, base a, 16-bit displacement. -/
structure FM where
  th : Nat
  t : Nat
  a : Nat
  disp : Nat
deriving DecidableEq, Repr

/-- Form X: thread, t, base a, index b, shift sc, nine-bit fn. -/
structure FX where
  th : Nat
  t : Nat
  a : Nat
  b : Nat
  sc : Nat
  fn : Nat
deriving DecidableEq, Repr

/-- Form S: thread, t, a, sr. -/
structure FS where
  th : Nat
  t : Nat
  a : Nat
  sr : Nat
deriving DecidableEq, Repr

/-- Form W: thread, length field x, base and displacement of both operands. -/
structure FW where
  th : Nat
  x : Nat
  b1 : Nat
  d1 : Nat
  b2 : Nat
  d2 : Nat
deriving DecidableEq, Repr

/-- A coherence message (Tables 9.3 and 9.4): agents, tag, line number PA[51:8], ACK count, state, poison, original
requester, auxiliary field, line data and byte mask. -/
structure Msg where
  src : Nat
  dst : Nat
  tag : Nat
  line : Nat
  acks : Nat
  st : Nat
  psn : Bool
  req : Nat
  aux : Nat
  data : Line
  mask : Nat
deriving DecidableEq, Repr

/-- The control store word that failed parity (R193, Table 6.5): address, segment mask, source (0 control store, 1
patch RAM, 2 match table), and whether the golden copy was 0 good, 1 corrected or 2 uncorrectable (R197). With codes 0x04 and
0x05 the address is the number of the entry in error, of an L1 for source 0 and else of the translation cache. -/
structure CsErr where
  addr : Nat
  seg : Nat
  src : Nat
  golden : Nat
deriving DecidableEq, Repr


/-- An exchange frame (Tables 17.2, 17.3 and 19.2) as its header cell and data cells carry it: device address or channel, exchange identifier,
command position, parameters A and B, device command code, flags, device status, sense bytes or identify data, and data. -/
structure XFrame where
  addr : Nat
  xid : Nat
  pos : Nat
  a : Nat
  b : Nat
  dcmd : Nat
  flags : Nat
  dstat : Nat
  sense : List Nat
  data : List Nat
deriving DecidableEq, Repr


/-- The commands: the effects that the spec gives to instructions, messages, register writes and events. -/
inductive Instr where
  | mcsRegisterWrite (off : Nat) (part : Nat) (val : Nat)  -- MCS_REGISTER_WRITE (R32)
  | mcsReservedAccess (off : Nat) (wr : Bool)  -- MCS_RESERVED_ACCESS (R26)
  | inboundMcsAccess (who : Nat) (port : Nat) (rid : Nat) (tag : Nat) (off : Nat) (wr : Bool)  -- INBOUND_MCS_ACCESS (R31)
  | modeRequest (val : Nat)  -- MODE_REQUEST (R66)
  | modeCancel (val : Nat)  -- MODE_CANCEL (R68)
  | epochDrainStep2  -- EPOCH_DRAIN_STEP_2 (R60)
  | epochDrainStep3  -- EPOCH_DRAIN_STEP_3 (R60)
  | epochDrainStep4  -- EPOCH_DRAIN_STEP_4 (R60)
  | epochDrainStep5  -- EPOCH_DRAIN_STEP_5 (R60)
  | epochBoundary (u : Nat)  -- EPOCH_BOUNDARY (R63)
  | drainTimeout  -- DRAIN_TIMEOUT (R64)
  | concurrentRepairButton (pressed : Bool)  -- CONCURRENT_REPAIR_BUTTON (R646)
  | qreq (ring : Nat) (num : Nat) (orig : Nat) (vote : Nat) (pay : Nat)  -- QREQ (R297)
  | qdrain (ring : Nat) (num : Nat) (orig : Nat) (vote : Nat) (pay : Nat)  -- QDRAIN (R297)
  | qpoll (ring : Nat) (num : Nat) (orig : Nat) (vote : Nat) (pay : Nat)  -- QPOLL (R297)
  | qcommit (ring : Nat) (num : Nat) (orig : Nat) (vote : Nat) (pay : Nat)  -- QCOMMIT (R297)
  | qabort (ring : Nat) (num : Nat) (orig : Nat) (vote : Nat) (pay : Nat)  -- QABORT (R297)
  | quiesceBoundarySlot (u : Nat)  -- QUIESCE_BOUNDARY_SLOT (R297)
  | sluiceSlotOriginate  -- SLUICE_SLOT_ORIGINATE (R295)
  | sluiceSlotForward (ring : Nat) (w : Nat)  -- SLUICE_SLOT_FORWARD (R295)
  | tod (ring : Nat) (num : Nat) (pay : Nat)  -- TOD (R296)
  | live (ring : Nat) (num : Nat) (vote : Nat) (peers : List Nat)  -- LIVE (R298)
  | missedLiveSlots (md : Nat)  -- MISSED_LIVE_SLOTS (R298)
  | sluiceInputLost (ring : Nat) (near : Bool)  -- SLUICE_INPUT_LOST (R298)
  | chk (ring : Nat) (num : Nat) (orig : Nat) (pay : Nat)  -- CHK (R300)
  | domainCheckstop (cause : Nat) (src : Nat)  -- DOMAIN_CHECKSTOP (R300)
  | add (i : FA)  -- ADD (R119)
  | addl (i : FA)  -- ADDL (R118)
  | sub (i : FA)  -- SUB (R119)
  | subl (i : FA)  -- SUBL (R118)
  | andI (i : FA)  -- AND (R118)
  | orI (i : FA)  -- OR (R118)
  | xorI (i : FA)  -- XOR (R118)
  | andc (i : FA)  -- ANDC (R118)
  | sll (i : FA)  -- SLL (R121)
  | srl (i : FA)  -- SRL (R121)
  | sra (i : FA)  -- SRA (R121)
  | rotl (i : FA)  -- ROTL (R121)
  | cmp (i : FA)  -- CMP (R118)
  | cmpl (i : FA)  -- CMPL (R118)
  | mul (i : FA)  -- MUL (R124)
  | mulh (i : FA)  -- MULH (R124)
  | mulhu (i : FA)  -- MULHU (R124)
  | div (i : FA)  -- DIV (R122)
  | divu (i : FA)  -- DIVU (R125)
  | rem (i : FA)  -- REM (R122)
  | remu (i : FA)  -- REMU (R125)
  | addi (i : FI)  -- ADDI (R84)
  | addis (i : FI)  -- ADDIS (R84)
  | andi (i : FI)  -- ANDI (R84)
  | ori (i : FI)  -- ORI (R84)
  | xori (i : FI)  -- XORI (R84)
  | cmpi (i : FI)  -- CMPI (R84)
  | cmpli (i : FI)  -- CMPLI (R84)
  | lb (i : FM)  -- LB (R78)
  | lh (i : FM)  -- LH (R78)
  | lw (i : FM)  -- LW (R78)
  | ld (i : FM)  -- LD (R78)
  | lq (i : FM)  -- LQ (R74)
  | lbs (i : FM)  -- LBS (R78)
  | lhs (i : FM)  -- LHS (R78)
  | lws (i : FM)  -- LWS (R78)
  | stb (i : FM)  -- STB (R78)
  | sth (i : FM)  -- STH (R78)
  | stw (i : FM)  -- STW (R78)
  | std (i : FM)  -- STD (R78)
  | stq (i : FM)  -- STQ (R74)
  | lfs (i : FM)  -- LFS (R75)
  | lfd (i : FM)  -- LFD (R84)
  | stfs (i : FM)  -- STFS (R84)
  | stfd (i : FM)  -- STFD (R84)
  | indexedAccess (i : FX)  -- INDEXED_ACCESS (R86)
  | nonTemporalStore (i : FX)  -- NON_TEMPORAL_STORE (R246)
  | br (th : Nat) (off : Nat)  -- B (R84)
  | brl (th : Nat) (off : Nat)  -- BL (R84)
  | brc (th : Nat) (cond : Nat) (a : Nat) (off : Nat)  -- BC (R87)
  | bgr (i : FI)  -- BGR (R85)
  | loop (th : Nat) (n : Nat) (z : Nat) (a : Nat) (off : Nat)  -- LOOP (R96)
  | mfsr (i : FS)  -- MFSR (R92)
  | mtsr (i : FS)  -- MTSR (R94)
  | svc (i : FS)  -- SVC (R91)
  | hvc (i : FS)  -- HVC (R91)
  | fwc (i : FS)  -- FWC (R91)
  | rfi (i : FS)  -- RFI (R113)
  | fenceL (i : FS)  -- FENCE_L (R254)
  | fenceS (i : FS)  -- FENCE_S (R254)
  | fenceF (i : FS)  -- FENCE_F (R254)
  | isync (i : FS)  -- ISYNC (R93)
  | wait (i : FS)  -- WAIT (R116)
  | waitWake (th : Nat)  -- WAIT_WAKE (R116)
  | rdtod (i : FS)  -- RDTOD (R91)
  | brk (i : FS)  -- BRK (R91)
  | undefinedInstruction (th : Nat) (word : Nat)  -- UNDEFINED_INSTRUCTION (R84)
  | lres (i : FA)  -- LRES (R257)
  | scond (i : FA)  -- SCOND (R259)
  | cas8 (i : FA)  -- CAS8 (R259)
  | cas16 (i : FA)  -- CAS16 (R259)
  | lcpy (i : FA)  -- LCPY (R148)
  | lcmp (i : FA)  -- LCMP (R148)
  | lmap (i : FA)  -- LMAP (R148)
  | dadd (i : FW)  -- DADD (R141)
  | dsub (i : FW)  -- DSUB (R141)
  | dcmp (i : FW)  -- DCMP (R141)
  | dmul (i : FW)  -- DMUL (R141)
  | ddiv (i : FW)  -- DDIV (R142)
  | dset (i : FW)  -- DSET (R141)
  | zdec (i : FW)  -- ZDEC (R143)
  | dzon (i : FW)  -- DZON (R143)
  | bcpy (i : FW)  -- BCPY (R147)
  | bcmp (i : FW)  -- BCMP (R147)
  | bmap (i : FW)  -- BMAP (R147)
  | bxor (i : FW)  -- BXOR (R147)
  | bfil (i : FW)  -- BFIL (R147)
  | fadd (i : FA) (sp : Bool)  -- FADD (R133)
  | fsub (i : FA) (sp : Bool)  -- FSUB (R133)
  | fmul (i : FA) (sp : Bool)  -- FMUL (R133)
  | fdiv (i : FA) (sp : Bool)  -- FDIV (R133)
  | fsqrt (i : FA) (sp : Bool)  -- FSQRT (R133)
  | fmadd (i : FA) (sp : Bool)  -- FMADD (R131)
  | fmsub (i : FA) (sp : Bool)  -- FMSUB (R131)
  | fcmp (i : FA) (sp : Bool)  -- FCMP (R134)
  | fcvtSD (i : FA)  -- FCVT_S_D (R131)
  | fcvtDS (i : FA)  -- FCVT_D_S (R131)
  | fcfi (i : FA) (sp : Bool)  -- FCFI (R132)
  | fcti (i : FA) (sp : Bool)  -- FCTI (R131)
  | fctiz (i : FA) (sp : Bool)  -- FCTIZ (R131)
  | fmov (i : FA) (sp : Bool)  -- FMOV (R130)
  | fneg (i : FA) (sp : Bool)  -- FNEG (R130)
  | fabs (i : FA) (sp : Bool)  -- FABS (R130)
  | mffs (i : FA)  -- MFFS (R129)
  | mtfs (i : FA)  -- MTFS (R136)
  | fmgf (i : FA)  -- FMGF (R130)
  | fmfg (i : FA)  -- FMFG (R130)
  | externalInterruption (th : Nat)  -- EXTERNAL_INTERRUPTION (R111)
  | machineCheck (th : Nat)  -- MACHINE_CHECK (R112)
  | checkpointCommit (th : Nat)  -- CHECKPOINT_COMMIT (R152)
  | runAheadEnter (th : Nat)  -- RUN_AHEAD_ENTER (R158)
  | runAheadEnd (th : Nat)  -- RUN_AHEAD_END (R158)
  | coreCheckError (core : Nat) (th : Nat) (code : Nat) (cs : CsErr)  -- CORE_CHECK_ERROR (R165)
  | hangTimerExpiry (th : Nat)  -- HANG_TIMER_EXPIRY (R163)
  | capsuleRead (core : Nat) (bad : Nat)  -- CAPSULE_READ (R171)
  | swapResumption (core : Nat) (delay : Nat) (excl : Nat)  -- SWAP_RESUMPTION (R171)
  | l2FlushComplete (core : Nat)  -- L2_FLUSH_COMPLETE (R174)
  | spareWarmed (core : Nat)  -- SPARE_WARMED (R170)
  | plannedSwap (core : Nat) (val : Nat)  -- PLANNED_SWAP (R179)
  | patchGo (val : Nat)  -- PATCH_GO (R201)
  | patchApplied  -- PATCH_APPLIED (R201)
  | ldtt (i : FS)  -- LDTT (R207)
  | sttt (i : FS)  -- STTT (R222)
  | tlbiva (i : FS)  -- TLBIVA (R222)
  | tlbiasid (i : FS)  -- TLBIASID (R222)
  | tlbip1 (i : FS)  -- TLBIP1 (R222)
  | tlbigpa (i : FS)  -- TLBIGPA (R222)
  | tlbipart (i : FS)  -- TLBIPART (R222)
  | tlbihva (i : FS)  -- TLBIHVA (R222)
  | tlbihall (i : FS)  -- TLBIHALL (R222)
  | tlbsync (i : FS)  -- TLBSYNC (R225)
  | tlbsyncComplete (th : Nat)  -- TLBSYNC_COMPLETE (R225)
  | adBitUpdate (th : Nat)  -- AD_BIT_UPDATE (R217)
  | shootdownReceive (core : Nat) (id : Nat)  -- SHOOTDOWN_RECEIVE (R224)
  | shootdownAck (core : Nat) (id : Nat)  -- SHOOTDOWN_ACK (R224)
  | tlbShootdownTimeout (th : Nat) (core : Nat)  -- TLB_SHOOTDOWN_TIMEOUT (R226)
  | storePerform (th : Nat)  -- STORE_PERFORM (R241)
  | combiningLineTimeout (core : Nat) (line : Nat)  -- COMBINING_LINE_TIMEOUT (R248)
  | prefetchRequest (core : Nat) (k : Nat)  -- PREFETCH_REQUEST (R250)
  | l2Eviction (core : Nat) (set : Nat) (way : Nat) (code : Nat)  -- L2_EVICTION (R237)
  | rds (x : Msg) (bsn : Nat) (dir : Nat)  -- RDS (R276)
  | rdx (x : Msg) (bsn : Nat) (dir : Nat)  -- RDX (R276)
  | upg (x : Msg)  -- UPG (R276)
  | own (x : Msg)  -- OWN (R276)
  | wrf (x : Msg)  -- WRF (R276)
  | wrm (x : Msg)  -- WRM (R276)
  | evc (x : Msg)  -- EVC (R276)
  | evd (x : Msg)  -- EVD (R276)
  | mov (x : Msg)  -- MOV (R280)
  | tlbi (x : Msg)  -- TLBI (R281)
  | prs (x : Msg)  -- PRS (R278)
  | prx (x : Msg)  -- PRX (R278)
  | pri (x : Msg)  -- PRI (R278)
  | prw (x : Msg)  -- PRW (R278)
  | ack (x : Msg)  -- ACK (R277)
  | cmpGrant (x : Msg)  -- CMP_GRANT (R277)
  | done (x : Msg)  -- DONE (R275)
  | pra (x : Msg)  -- PRA (R279)
  | eva (x : Msg)  -- EVA (R237)
  | evp (x : Msg)  -- EVP (R237)
  | wra (x : Msg)  -- WRA (R276)
  | tlba (x : Msg)  -- TLBA (R281)
  | err (x : Msg)  -- ERR (R267)
  | dataMsg (x : Msg)  -- DATA (R277)
  | dath (x : Msg)  -- DATH (R276)
  | wdat (x : Msg)  -- WDAT (R276)
  | holdExpiry (agent : Nat) (line : Nat)  -- HOLD_EXPIRY (R282)
  | probeTimeout (line : Nat)  -- PROBE_TIMEOUT (R285)
  | fabricFlit (port : Nat) (bytes : List Nat) (fixed : Bool)  -- FABRIC_FLIT (R290)
  | fabricLaneFailure (port : Nat) (lane : Nat)  -- FABRIC_LANE_FAILURE (R292)
  | fabricLanemap (port : Nat) (lane : Nat)  -- FABRIC_LANEMAP (R292)
  | fabricTrainingStart (port : Nat)  -- FABRIC_TRAINING_START (R293)
  | fabricEqualisationEnd (port : Nat) (locked : Nat)  -- FABRIC_EQUALISATION_END (R293)
  | fabricIdent (port : Nat) (md : Nat) (far : Nat) (size : Nat)  -- FABRIC_IDENT (R293)
  | fabricCrdinit (port : Nat)  -- FABRIC_CRDINIT (R291)
  | memRd (port : Nat) (addr : Nat)  -- MEM_RD (R318)
  | memWr (port : Nat) (addr : Nat)  -- MEM_WR (R318)
  | memCrd (port : Nat) (reg : Nat)  -- MEM_CRD (R319)
  | memCwr (port : Nat) (reg : Nat) (val : Nat)  -- MEM_CWR (R319)
  | memRdd (port : Nat) (tag : Nat) (piece : Nat) (crc : Nat) (psn : Bool) (ver : Nat)  -- MEM_RDD (R306)
  | memWra (port : Nat) (tag : Nat)  -- MEM_WRA (R319)
  | memCra (port : Nat) (tag : Nat) (val : Nat)  -- MEM_CRA (R318)
  | memRerr (port : Nat) (tag : Nat)  -- MEM_RERR (R306)
  | memResponseTimeout (port : Nat) (tag : Nat)  -- MEM_RESPONSE_TIMEOUT (R309)
  | memLaneFailure (port : Nat) (lane : Nat)  -- MEM_LANE_FAILURE (R320)
  | memLanemap (port : Nat) (lane : Nat)  -- MEM_LANEMAP (R320)
  | memIdent (port : Nat) (vendor : Nat) (part : Nat) (cap : Nat)  -- MEM_IDENT (R320)
  | memCrdinit (port : Nat)  -- MEM_CRDINIT (R318)
  | memReady (port : Nat) (kept : Bool)  -- MEM_READY (R621)
  | memTrainingStart (port : Nat)  -- MEM_TRAINING_START (R312)
  | memEqualisationEnd (port : Nat) (locked : Nat)  -- MEM_EQUALISATION_END (R320)
  | memPortDown (port : Nat)  -- MEM_PORT_DOWN (R312)
  | memPortUp (port : Nat)  -- MEM_PORT_UP (R312)
  | rebuildLine (g : Nat)  -- REBUILD_LINE (R313)
  | patrolScrubLine (g : Nat) (bad : List Nat) (parityBad : Bool)  -- PATROL_SCRUB_LINE (R314)
  | groupInit (g : Nat)  -- GROUP_INIT (R315)
  | groupInitComplete (g : Nat)  -- GROUP_INIT_COMPLETE (R315)
  | mapScanComplete  -- MAP_SCAN_COMPLETE (R331)
  | expansionComplete (page : Nat)  -- EXPANSION_COMPLETE (R344)
  | expansionWaitEnd (page : Nat)  -- EXPANSION_WAIT_END (R345)
  | pageEvictionComplete (page : Nat)  -- PAGE_EVICTION_COMPLETE (R346)
  | cisternDiscard  -- CISTERN_DISCARD (R352)
  | cisternEvict  -- CISTERN_EVICT (R352)
  | cisternQuery  -- CISTERN_QUERY (R352)
  | grottoCreate  -- GROTTO_CREATE (R359)
  | grottoAdd  -- GROTTO_ADD (R360)
  | grottoSeal  -- GROTTO_SEAL (R360)
  | grottoTeardown  -- GROTTO_TEARDOWN (R361)
  | grottoQuery  -- GROTTO_QUERY (R359)
  | genter (i : FS)  -- GENTER (R364)
  | gexit (i : FS)  -- GEXIT (R366)
  | gdetach (i : FS)  -- GDETACH (R362)
  | gquery (i : FS)  -- GQUERY (R362)
  | watchdogKick (monitor : Bool)  -- WATCHDOG_KICK (R372)
  | watchdogExpiry  -- WATCHDOG_EXPIRY (R373)
  | isolationComplete  -- ISOLATION_COMPLETE (R373)
  | isolationTimeout  -- ISOLATION_TIMEOUT (R374)
  | debugCertificate (cert : List Nat)  -- DEBUG_CERTIFICATE (R370)
  | debugEnablesClear  -- DEBUG_ENABLES_CLEAR (R371)
  | cmpSubmit (u : Nat) (i : Nat) (addr : Nat)  -- CMP_SUBMIT (R379)
  | rotationSlot (u : Nat) (i : Nat) (sram : Nat)  -- ROTATION_SLOT (R387)
  | cmpAbort (u : Nat) (i : Nat)  -- CMP_ABORT (R385)
  | crySubmit (u : Nat) (i : Nat) (addr : Nat)  -- CRY_SUBMIT (R405)
  | cryAbort (u : Nat) (i : Nat)  -- CRY_ABORT (R405)
  | wrappingKeyLoad (u : Nat) (i : Nat) (val : Nat)  -- WRAPPING_KEY_LOAD (R409)
  | entropyHealthFailure (u : Nat)  -- ENTROPY_HEALTH_FAILURE (R421)
  | entropyRestartEnd (u : Nat) (pass : Bool)  -- ENTROPY_RESTART_END (R421)
  | instanceAssign (u : Nat) (i : Nat)  -- INSTANCE_ASSIGN (R426)
  | instanceEnable (u : Nat) (i : Nat)  -- INSTANCE_ENABLE (R426)
  | instanceQuiesce (u : Nat) (i : Nat)  -- INSTANCE_QUIESCE (R427)
  | instanceQuiesced (u : Nat) (i : Nat)  -- INSTANCE_QUIESCED (R427)
  | instanceResume (u : Nat) (i : Nat)  -- INSTANCE_RESUME (R426)
  | instanceReset (u : Nat) (i : Nat)  -- INSTANCE_RESET (R428)
  | instanceRemove (u : Nat) (i : Nat)  -- INSTANCE_REMOVE (R426)
  | instanceSave (u : Nat) (i : Nat)  -- INSTANCE_SAVE (R426)
  | instanceRestore (u : Nat) (i : Nat)  -- INSTANCE_RESTORE (R426)
  | instanceRootWrite (u : Nat) (i : Nat) (one : Bool) (val : Nat)  -- INSTANCE_ROOT_WRITE (R435)
  | mtuRemoval (id : Nat)  -- MTU_REMOVAL (R436)
  | logCacheWriteback (u : Nat) (line : Nat)  -- LOG_CACHE_WRITEBACK (R438)
  | subchannelDefine (scid : Nat)  -- SUBCHANNEL_DEFINE (R444)
  | subchannelEnable (scid : Nat)  -- SUBCHANNEL_ENABLE (R444)
  | subchannelDisable (scid : Nat)  -- SUBCHANNEL_DISABLE (R444)
  | subchannelQuery (scid : Nat)  -- SUBCHANNEL_QUERY (R444)
  | varyOffline (scid : Nat) (path : Nat)  -- VARY_OFFLINE (R444)
  | varyOnline (scid : Nat) (path : Nat)  -- VARY_ONLINE (R444)
  | subchannelUndefine (scid : Nat)  -- SUBCHANNEL_UNDEFINE (R444)
  | channelSubmit (part : Nat) (addr : Nat) (pend : Nat)  -- CHANNEL_SUBMIT (R447)
  | recordConfirmed (slot : Nat) (parity : Nat)  -- RECORD_CONFIRMED (R491)
  | holdExpired (slot : Nat)  -- HOLD_EXPIRED (R467)
  | exchangeTimeout (slot : Nat) (scid : Nat)  -- EXCHANGE_TIMEOUT (R463)
  | pathProbeInterval (scid : Nat) (k : Nat)  -- PATH_PROBE_INTERVAL (R463)
  | deviceBusyWaitEnd (slot : Nat)  -- DEVICE_BUSY_WAIT_END (R464)
  | cmd (slot : Nat)  -- CMD (R483)
  | wdata (slot : Nat)  -- WDATA (R484)
  | halt (slot : Nat)  -- HALT (R469)
  | clear (slot : Nat) (scid : Nat)  -- CLEAR (R470)
  | identCmd (scid : Nat) (k : Nat)  -- IDENT (R483)
  | close (slot : Nat) (ack : Bool)  -- CLOSE (R484)
  | rdata (port : Nat) (f : XFrame)  -- RDATA (R484)
  | endCmd (port : Nat) (f : XFrame)  -- END (R455)
  | busy (port : Nat) (f : XFrame)  -- BUSY (R464)
  | free (port : Nat) (f : XFrame)  -- FREE (R464)
  | halta (port : Nat) (f : XFrame)  -- HALTA (R469)
  | cleara (port : Nat) (f : XFrame)  -- CLEARA (R470)
  | identr (port : Nat) (f : XFrame)  -- IDENTR (R463)
  | rej (port : Nat) (f : XFrame)  -- REJ (R463)
  | keep (port : Nat) (f : XFrame)  -- KEEP (R465)
  | jlCodeword (port : Nat) (hdr : Nat) (bytes : List Nat) (fixed : Bool) (ok : Bool)  -- JL_CODEWORD (R476)
  | jlReplayTimeout (port : Nat)  -- JL_REPLAY_TIMEOUT (R479)
  | jlLaneFailure (port : Nat) (lane : Nat)  -- JL_LANE_FAILURE (R486)
  | jlLanemap (port : Nat) (w : Nat) (first : Nat)  -- JL_LANEMAP (R486)
  | jlTs (port : Nat) (gens : Nat)  -- JL_TS (R487)
  | jlInit (port : Nat) (vendor : Nat) (part : Nat) (maxx : Nat) (frames : Nat) (cells : Nat)  -- JL_INIT (R487)
  | jlTrainingStart (port : Nat)  -- JL_TRAINING_START (R487)
  | jlEqualisationEnd (port : Nat) (locked : Nat)  -- JL_EQUALISATION_END (R487)
  | jlLinkDown (port : Nat)  -- JL_LINK_DOWN (R481)
  | jlPortDown (port : Nat)  -- JL_PORT_DOWN (R488)
  | jlPortUp (port : Nat)  -- JL_PORT_UP (R488)
  | reservoirAdopt (slot : Nat)  -- RESERVOIR_ADOPT (R493)
  | reservoirRelease (slot : Nat)  -- RESERVOIR_RELEASE (R493)
  | reservoirQuery (slot : Nat)  -- RESERVOIR_QUERY (R493)
  | pcieCompletion (port : Nat) (tag : Nat) (data : Nat) (ok : Bool) (ep : Bool)  -- PCIE_COMPLETION (R503)
  | pcieCompletionTimeout (port : Nat) (tag : Nat)  -- PCIE_COMPLETION_TIMEOUT (R504)
  | pcieInboundMemoryRead (port : Nat) (rid : Nat) (tag : Nat) (addr : Nat) (len : Nat)  -- PCIE_INBOUND_MEMORY_READ (R507)
  | pcieInboundMemoryWrite (port : Nat) (rid : Nat) (addr : Nat) (bytes : List Nat) (ep : Bool)  -- PCIE_INBOUND_MEMORY_WRITE (R507)
  | pcieInboundAtomicop (port : Nat) (rid : Nat) (tag : Nat) (addr : Nat) (op : Nat) (n : Nat) (a : Nat) (b : Nat)  -- PCIE_INBOUND_ATOMICOP (R499)
  | pcieInboundUnsupported (port : Nat) (rid : Nat) (tag : Nat) (addr : Nat)  -- PCIE_INBOUND_UNSUPPORTED (R505)
  | pcieErrorMessage (port : Nat) (rid : Nat) (kind : Nat)  -- PCIE_ERROR_MESSAGE (R515)
  | attentionButtonPressed (port : Nat) (pressed : Bool)  -- ATTENTION_BUTTON_PRESSED (R508)
  | presenceDetectChanged (port : Nat) (prsnt : Bool)  -- PRESENCE_DETECT_CHANGED (R512)
  | mrlSensorChanged (port : Nat) (closed : Bool)  -- MRL_SENSOR_CHANGED (R512)
  | powerFault (port : Nat) (present : Bool)  -- POWER_FAULT (R512)
  | slotPowerOn (port : Nat)  -- SLOT_POWER_ON (R510)
  | slotPowerOff (port : Nat)  -- SLOT_POWER_OFF (R510)
  | indicatorChange (port : Nat) (aind : Nat) (pind : Nat)  -- INDICATOR_CHANGE (R510)
  | perstRelease (port : Nat)  -- PERST_RELEASE (R510)
  | noLinkTimeout (port : Nat)  -- NO_LINK_TIMEOUT (R510)
  | pcieLinkDown (port : Nat)  -- PCIE_LINK_DOWN (R512)
  | containmentRelease (port : Nat)  -- CONTAINMENT_RELEASE (R513)
  | couplingSubmit (part : Nat) (addr : Nat) (th : Nat)  -- COUPLING_SUBMIT (R519)
  | sreq (port : Nat) (f : XFrame)  -- SREQ (R522)
  | srsp (port : Nat) (f : XFrame)  -- SRSP (R520)
  | areq (port : Nat) (f : XFrame)  -- AREQ (R522)
  | arsp (port : Nat) (f : XFrame)  -- ARSP (R520)
  | rbusy (port : Nat) (f : XFrame)  -- RBUSY (R521)
  | rrej (port : Nat) (f : XFrame)  -- RREJ (R521)
  | mupd (port : Nat) (f : XFrame)  -- MUPD (R525)
  | mack (port : Nat) (f : XFrame)  -- MACK (R495)
  | mnak (port : Nat) (f : XFrame)  -- MNAK (R524)
  | cp2Stop (port : Nat)  -- CP2_STOP (R527)
  | cp2Init (port : Nat) (sys : Nat) (frames : Nat) (cells : Nat)  -- CP2_INIT (R516)
  | couplingRequestTimeout (port : Nat) (xid : Nat)  -- COUPLING_REQUEST_TIMEOUT (R521)
  | partnerSilent (port : Nat)  -- PARTNER_SILENT (R527)
  | mirrorRelease (k : Nat)  -- MIRROR_RELEASE (R527)
  | couplingPortDown (port : Nat)  -- COUPLING_PORT_DOWN (R488)
  | couplingPortUp (port : Nat)  -- COUPLING_PORT_UP (R488)
  | doorbellRing (page : Nat) (off : Nat) (n : Nat) (val : Nat)  -- DOORBELL_RING (R531)
  | groupTimeLimit (g : Nat)  -- GROUP_TIME_LIMIT (R536)
  | groupLimitWrite (g : Nat) (val : Nat)  -- GROUP_LIMIT_WRITE (R538)
  | targetWrite (src : Nat)  -- TARGET_WRITE (R533)
  | targetRead (src : Nat)  -- TARGET_READ (R533)
  | rillEnable (r : Nat) (val : Nat)  -- RILL_ENABLE (R539)
  | rillPost (th : Nat) (val : Nat)  -- RILL_POST (R542)
  | rillWriterSlot  -- RILL_WRITER_SLOT (R545)
  | consumerWordRead (r : Nat)  -- CONSUMER_WORD_READ (R541)
  | vpDefine (vp : Nat)  -- VP_DEFINE (R551)
  | vpReady (vp : Nat)  -- VP_READY (R552)
  | vpStop (vp : Nat)  -- VP_STOP (R551)
  | vpUndefine (vp : Nat)  -- VP_UNDEFINE (R551)
  | cascadeSelection  -- CASCADE_SELECTION (R553)
  | sliceEnd (th : Nat)  -- SLICE_END (R555)
  | vpLeave (th : Nat)  -- VP_LEAVE (R556)
  | vpTimerWrite (vp : Nat) (val : Nat)  -- VP_TIMER_WRITE (R559)
  | vpTimerExpiry (vp : Nat)  -- VP_TIMER_EXPIRY (R559)
  | partitionStall (part : Nat)  -- PARTITION_STALL (R560)
  | budgetInterval (u : Nat) (avg : Nat) (peak : Nat) (low : Bool)  -- BUDGET_INTERVAL (R562)
  | powerSample (watts : Nat) (noncore : Nat) (perThread : List Nat) (perCore : List Nat)  -- POWER_SAMPLE (R566)
  | sensorReading (temps : List Nat) (stale : List Nat)  -- SENSOR_READING (R567)
  | thermalPark (core : Nat)  -- THERMAL_PARK (R568)
  | shallowPark (core : Nat)  -- SHALLOW_PARK (R569)
  | deepPark (core : Nat)  -- DEEP_PARK (R569)
  | coreUnpark (core : Nat)  -- CORE_UNPARK (R49)
  | spillwayEvent (n : Nat) (src : Nat) (ereg : Nat) (th : Nat)  -- SPILLWAY_EVENT (R577)
  | bucketUnitEnd (src : Nat)  -- BUCKET_UNIT_END (R575)
  | severeClear (src : Nat)  -- SEVERE_CLEAR (R576)
  | blockResetRequest (block : Nat)  -- BLOCK_RESET_REQUEST (R584)
  | fenceLimit (block : Nat)  -- FENCE_LIMIT (R584)
  | blockResetComplete (block : Nat)  -- BLOCK_RESET_COMPLETE (R584)
  | blockResetTimeout (block : Nat)  -- BLOCK_RESET_TIMEOUT (R585)
  | consequentialMarkExpiry (block : Nat)  -- CONSEQUENTIAL_MARK_EXPIRY (R586)
  | errnClear  -- ERRN_CLEAR (R580)
  | faultInjection (mode : Nat) (src : Nat)  -- FAULT_INJECTION (R590)
  | hubLost  -- HUB_LOST (R589)
  | nmtStart  -- NMT_START (R598)
  | nmtStop  -- NMT_STOP (R598)
  | nmtEnterPreOperational  -- NMT_ENTER_PRE_OPERATIONAL (R598)
  | nmtResetNode  -- NMT_RESET_NODE (R598)
  | nmtResetCommunication  -- NMT_RESET_COMMUNICATION (R598)
  | bootUpMessage  -- BOOT_UP_MESSAGE (R598)
  | heartbeat  -- HEARTBEAT (R599)
  | emcy  -- EMCY (R600)
  | usdoRequest (id : Nat) (wr : Bool) (index : Nat) (subx : Nat) (data : List Nat) (first : Bool) (last : Bool)  -- USDO_REQUEST (R601)
  | usdoTimeout (id : Nat)  -- USDO_TIMEOUT (R601)
  | tpdo1  -- TPDO1 (R608)
  | tpdo2 (timer : Bool)  -- TPDO2 (R608)
  | canErrorPassive  -- CAN_ERROR_PASSIVE (R600)
  | busOffRecovery  -- BUS_OFF_RECOVERY (R600)
  | odRead (index : Nat) (subx : Nat) (off : Nat) (len : Nat)  -- OD_READ (R615)
  | odWrite (index : Nat) (subx : Nat) (off : Nat) (bytes : List Nat) (fin : Bool)  -- OD_WRITE (R615)
  | imageWrite (bytes : List Nat)  -- IMAGE_WRITE (R613)
  | imageVerified (flashErr : Bool)  -- IMAGE_VERIFIED (R613)
  | activate (val : Nat)  -- ACTIVATE (R613)
  | moduleResetObject (val : Nat)  -- MODULE_RESET_OBJECT (R614)
  | debugStop  -- DEBUG_STOP (R609)
  | debugResume  -- DEBUG_RESUME (R609)
  | debugStep  -- DEBUG_STEP (R609)
  | debugRegisterAccess (wr : Bool) (subx : Nat) (val : Nat)  -- DEBUG_REGISTER_ACCESS (R611)
  | debugMemoryAccess (wr : Bool) (bytes : List Nat)  -- DEBUG_MEMORY_ACCESS (R611)
  | readoutItem  -- READOUT_ITEM (R612)
  | powerOnReset  -- POWER_ON_RESET (R617)
  | mainenAssert  -- MAINEN_ASSERT (R617)
  | pwrgdRise  -- PWRGD_RISE (R617)
  | pwrgdFall  -- PWRGD_FALL (R617)
  | resetNChange (level : Bool)  -- RESET_N_CHANGE (R617)
  | referenceClockLoss  -- REFERENCE_CLOCK_LOSS (R638)
  | moduleReset  -- MODULE_RESET (R620)
  | resetSequenceStart (module : Nat) (dsz : Nat) (node : Nat) (ftestN : Bool)  -- RESET_SEQUENCE_START (R620)
  | pllLock  -- PLL_LOCK (R620)
  | bootRomStart  -- BOOT_ROM_START (R627)
  | bootAreaChecked (readErr : Bool)  -- BOOT_AREA_CHECKED (R627)
  | directorySweep  -- DIRECTORY_SWEEP (R622)
  | directorySweepComplete  -- DIRECTORY_SWEEP_COMPLETE (R622)
  | bootSeal  -- BOOT_SEAL (R628)
  | threadStart (thread : Nat) (addr : Nat)  -- THREAD_START (R629)
  | supplyExcursion (mv : List Nat)  -- SUPPLY_EXCURSION (R636)
  | vAoLoss  -- V_AO_LOSS (R636)
  | fabricPortControlWrite (port : Nat) (val : Nat)  -- FABRIC_PORT_CONTROL_WRITE (R288)
  | fabricRetrainAtX8Done (port : Nat)  -- FABRIC_RETRAIN_AT_X8_DONE (R293)
  | jlNarrowingDone (port : Nat)  -- JL_NARROWING_DONE (R486)
  | memoryLinkFlit (port : Nat) (bytes : List Nat)  -- MEMORY_LINK_FLIT (R317)
  | pcieLinkUp (port : Nat) (rate : Nat) (width : Nat) (below : Bool)  -- PCIE_LINK_UP (R510)
  | pcieLinkError (port : Nat) (fatal : Bool)  -- PCIE_LINK_ERROR (R512)
  | sluiceReceiverLock (ring : Nat) (delay : Nat)  -- SLUICE_RECEIVER_LOCK (R296)
  | faultIndicatorTimeout  -- FAULT_INDICATOR_TIMEOUT (R646)
deriving DecidableEq, Repr

end Sys2Proof
end

