-- ==== Sys2Proof/Decode.lean ====
section
/-! DEFINITION. The words of the table of commands.  Its rows give no bits (spec/opcode_table.json: "fields" is empty for every command), so no word
spells a command. -/

namespace Sys2Proof

/-- The command that a word of the table spells: none, since no row gives bits. -/
def decodeTableWord (_nbits _w : Nat) : Option Instr := none

end Sys2Proof
end

