-- ==== Sys2Proof/Machine/Bits.lean ====
section
/-! DEFINITION. Bit fields (R9), byte order (R10), sign extension, and the operations of sparse tables. -/

namespace Sys2Proof.Machine

/-- Bits hi down to lo of a number (R9). -/
def bits (x hi lo : Nat) : Nat := (x >>> lo) % 2 ^ (hi + 1 - lo)

/-- `x` with bits hi down to lo replaced by the low bits of `v`. -/
def setBits (x hi lo v : Nat) : Nat :=
  (x >>> (hi + 1)) <<< (hi + 1) ||| (v % 2 ^ (hi + 1 - lo)) <<< lo ||| x % 2 ^ lo

/-- Bit i of a number. -/
def bit (x i : Nat) : Bool := x.testBit i

/-- A Bool as the value of a one-bit field. -/
def b2n (b : Bool) : Nat := if b then 1 else 0

/-- The signed value of the low n bits of x. -/
def sx (n x : Nat) : Int := if x % 2 ^ n < 2 ^ (n - 1) then (x % 2 ^ n : Nat) else ((x % 2 ^ n : Nat) : Int) - (2 ^ n : Nat)

/-- The low 64 bits of an integer. -/
def toW (i : Int) : W64 := BitVec.ofInt 64 i

/-- Byte `i` (0 the most significant) of an n-byte number, in storage order (R10). -/
def byteAt (n x i : Nat) : Nat := (x >>> (8 * (n - 1 - i))) % 256

/-- The n storage bytes of a number, lowest address first (R10). -/
def toBytes (n x : Nat) : List Nat := (List.range n).map (byteAt n x)

/-- The number that storage bytes spell, first byte most significant (R10). -/
def ofBytes (bs : List Nat) : Nat := bs.foldl (fun a b => a * 256 + b % 256) 0

/-- Byte `i` of a line. -/
def lineByte (l : Line) (i : Nat) : Nat := (l.toNat >>> (8 * (255 - i))) % 256

/-- The `n` bytes of a line from offset `o`, as a number. -/
def lineGet (l : Line) (o n : Nat) : Nat := (l.toNat >>> (8 * (256 - o - n))) % 2 ^ (8 * n)

/-- A line with `n` bytes from offset `o` replaced by the number `v`. -/
def linePut (l : Line) (o n v : Nat) : Line :=
  BitVec.ofNat 2048 (setBits l.toNat (8 * (256 - o) - 1) (8 * (256 - o - n)) v)

/-- Merge the bytes of `new` into `old` where `mask` says so; mask bit i covers line byte i. -/
def lineMerge (old new : Line) (mask : Nat) : Line :=
  BitVec.ofNat 2048 (ofBytes ((List.range 256).map fun i => if mask.testBit i then lineByte new i else lineByte old i))

/-- The entry of a sparse table, if present. -/
def tfind {α : Type} : Tab α → Nat → Option α
  | [], _ => none
  | (k, v) :: r, q => if k = q then some v else tfind r q

/-- The entry of a sparse table, with what an absent key stands for. -/
def tget {α : Type} (t : Tab α) (k : Nat) (d : α) : α := (tfind t k).getD d

/-- Set one entry, keeping keys ascending. -/
def tset {α : Type} : Tab α → Nat → α → Tab α
  | [], k, v => [(k, v)]
  | (k', v') :: r, k, v =>
    if k < k' then (k, v) :: (k', v') :: r
    else if k = k' then (k, v) :: r
    else (k', v') :: tset r k v

/-- Remove one entry. -/
def tdel {α : Type} : Tab α → Nat → Tab α
  | [], _ => []
  | (k', v') :: r, k => if k = k' then r else (k', v') :: tdel r k

/-- The first element of a list that satisfies p, with what is left without it. -/
def takeFirst {α : Type} (p : α → Bool) : List α → Option (α × List α)
  | [] => none
  | a :: r => if p a then some (a, r) else (takeFirst p r).map fun x => (x.1, a :: x.2)

/-- Replace every element that satisfies p. -/
def updWhere {α : Type} (p : α → Bool) (f : α → α) (l : List α) : List α := l.map fun a => if p a then f a else a

/-- Ceiling division. -/
def cdiv (a b : Nat) : Nat := (a + b - 1) / b

/-- The number of bits of x without leading zeros (R123). -/
def nbits (x : Nat) : Nat := if x = 0 then 0 else x.log2 + 1

end Sys2Proof.Machine
end

