-- ==== Sys2Proof/Machine/Flags.lean ====
section
/-! DEFINITION. Condition codes and the results of the integer operations (R118 to R125), and the loop and timing arithmetic. -/

namespace Sys2Proof.Machine

/-- The signed value of a register. -/
def sgn (x : W64) : Int := x.toInt

/-- cc of `add`, `sub` and `mul` from the exact result (R119): 0 zero, 1 negative, 2 positive, 3 overflow. -/
def ccSigned (exact : Int) : Nat :=
  if exact < -(2 ^ 63 : Int) ∨ (2 ^ 63 : Int) ≤ exact then 3 else if exact = 0 then 0 else if exact < 0 then 1 else 2

/-- cc of `addl` (Table 4.1): zero or not, plus 2 for a carry out of bit 63. -/
def ccAddl (a b : W64) : Nat := (if a + b = 0 then 0 else 1) + (if 2 ^ 64 ≤ a.toNat + b.toNat then 2 else 0)

/-- cc of `subl`: zero or not, plus 2 if no borrow occurred. -/
def ccSubl (a b : W64) : Nat := (if a - b = 0 then 0 else 1) + (if b.toNat ≤ a.toNat then 2 else 0)

/-- cc of a compare: 0 equal, 1 low, 2 high (R84). -/
def ccCmpS (a b : W64) : Nat := if a = b then 0 else if sgn a < sgn b then 1 else 2
def ccCmpU (a b : W64) : Nat := if a = b then 0 else if a.toNat < b.toNat then 1 else 2

/-- High 64 bits of a product. -/
def mulhS (a b : W64) : W64 := BitVec.ofInt 64 (sgn a * sgn b / 2 ^ 64)
def mulhU (a b : W64) : W64 := BitVec.ofNat 64 (a.toNat * b.toNat / 2 ^ 64)

/-- Signed quotient truncated toward zero and remainder with the dividend's sign, low 64 bits (R122). -/
def divS (a b : W64) : W64 := BitVec.ofInt 64 ((sgn a).tdiv (sgn b))
def remS (a b : W64) : W64 := BitVec.ofInt 64 ((sgn a).tmod (sgn b))
def divU (a b : W64) : W64 := BitVec.ofNat 64 (a.toNat / b.toNat)
def remU (a b : W64) : W64 := BitVec.ofNat 64 (a.toNat % b.toNat)

/-- The integer overflow of `div` (R122). -/
def divOvf (a b : W64) : Bool := a == 0x8000000000000000 && b == 0xffffffffffffffff

/-- Shift amounts are bits 5:0 (R121). -/
def shAmt (b : W64) : Nat := b.toNat % 64

/-- A condition-code predicate of `bc` (Table 3.22); codes 0xC to 0xF are refused before. -/
def ccPred (code cc : Nat) : Bool :=
  match code with
  | 0 => cc == 0 | 1 => cc != 0 | 2 => cc == 1 | 3 => cc == 0 || cc == 2 | 4 => cc == 2 | 5 => cc == 0 || cc == 1
  | 6 => cc == 3 | 7 => cc != 3 | 8 => cc == 1 || cc == 3 | 9 => cc == 2 || cc == 3 | 10 => cc == 0 || cc == 3 | _ => true

/-- A register test of `bc` (R87). -/
def regTest (code : Nat) (x : W64) : Bool :=
  match code with
  | 0 => x == 0 | 1 => x != 0 | 2 => decide (sgn x < 0) | 3 => decide (0 ≤ sgn x) | 4 => decide (0 < sgn x) | _ => decide (sgn x ≤ 0)

/-! ### Multiply and divide times in core cycles (R123 to R127) -/

def nS (x : W64) : Nat := nbits (sgn x).natAbs
def nU (x : W64) : Nat := nbits x.toNat

/-- Iterations of the multiplier, and the latency of each multiply form. -/
def mulIter (n : Nat) : Nat := max 1 (cdiv n 16)
def mulCycles (ct : Bool) (b : W64) : Nat := if ct then 7 else 3 + mulIter (nS b)
def mulhCycles (ct : Bool) (b : W64) : Nat := if ct then 8 else 4 + mulIter (nS b)
def mulhuCycles (ct : Bool) (b : W64) : Nat := if ct then 7 else 3 + mulIter (nU b)

/-- The latency of a divide or remainder with a nonzero divisor. -/
def divSCycles (ct : Bool) (a b : W64) : Nat :=
  if ct then 39 else 6 + cdiv (nS a + 1 - nS b) 2 + (if sgn a < 0 ∨ sgn b < 0 then 1 else 0)
def divUCycles (ct : Bool) (a b : W64) : Nat := if ct then 39 else 6 + cdiv (nU a + 1 - nU b) 2

/-- The cycle in which a divide by zero faults. -/
def divZeroCycles (ct : Bool) : Nat := if ct then 39 else 3

/-! ### Instruction words (Table 3.2) -/

def encA (op t a b fn : Nat) : Nat := op <<< 26 ||| t <<< 21 ||| a <<< 16 ||| b <<< 11 ||| fn
def encI (op t a imm : Nat) : Nat := op <<< 26 ||| t <<< 21 ||| a <<< 16 ||| imm
def encX (op t a b sc fn : Nat) : Nat := op <<< 26 ||| t <<< 21 ||| a <<< 16 ||| b <<< 11 ||| sc <<< 9 ||| fn
def encB (op off : Nat) : Nat := op <<< 26 ||| off
def encL (op n z a off : Nat) : Nat := op <<< 26 ||| n <<< 24 ||| z <<< 21 ||| a <<< 16 ||| off
def encS (op t a sr fn : Nat) : Nat := op <<< 26 ||| t <<< 21 ||| a <<< 16 ||| sr <<< 6 ||| fn
def encW (op fn x b1 d1 b2 d2 : Nat) : Nat :=
  op <<< 58 ||| fn <<< 52 ||| x <<< 42 ||| b1 <<< 37 ||| d1 <<< 21 ||| b2 <<< 16 ||| d2

end Sys2Proof.Machine
end

