-- ==== Sys2Proof/Machine/Crc.lean ====
section
/-! DEFINITION. Check sums that the spec names: CRC-32C, CRC-32, Adler-32, and the CRC-8 of a Sluice slot (Table 9.9). -/

namespace Sys2Proof.Machine

/-- One bit of a reflected CRC-32 with polynomial `p`. -/
def crcStep (p c : Nat) : Nat := if c % 2 = 1 then (c / 2) ^^^ p else c / 2

/-- One byte of a reflected CRC-32. -/
def crcByte (p c b : Nat) : Nat :=
  crcStep p (crcStep p (crcStep p (crcStep p (crcStep p (crcStep p (crcStep p (crcStep p (c ^^^ b % 256))))))))

/-- A reflected CRC-32, preset to ones and inverted. -/
def crc32r (p : Nat) (bs : List Nat) : Nat := (bs.foldl (crcByte p) 0xffffffff) ^^^ 0xffffffff

/-- The check of bytes that follow those whose check is c; the check of nothing is 0. -/
def crcMore (p c : Nat) (bs : List Nat) : Nat := (bs.foldl (crcByte p) (c ^^^ 0xffffffff)) ^^^ 0xffffffff

/-- CRC-32C (polynomial 0x1EDC6F41, reflected). -/
def crc32c (bs : List Nat) : Nat := crc32r 0x82f63b78 bs
/-- CRC-32 of gzip. -/
def crc32 (bs : List Nat) : Nat := crc32r 0xedb88320 bs

/-- Adler-32 of zlib over bytes that follow those whose check is c; the check of nothing is 1. -/
def adlerMore (c : Nat) (bs : List Nat) : Nat :=
  let r := bs.foldl (fun (x : Nat × Nat) b => ((x.1 + b) % 65521, (x.2 + x.1 + b) % 65521)) (c % 65536, c / 65536)
  r.2 * 65536 + r.1
/-- Adler-32 of zlib. -/
def adler32 (bs : List Nat) : Nat := adlerMore 1 bs

/-- CRC-8 with polynomial x^8 + x^2 + x + 1 over the n low bits of x, most significant first. -/
def crc8 (n x : Nat) : Nat :=
  (List.range n).foldl (fun c i =>
    let top := (c / 128 + x / 2 ^ (n - 1 - i)) % 2
    let c := c * 2 % 256
    if top = 1 then c ^^^ 0x07 else c) 0

end Sys2Proof.Machine
end

