-- ==== Sys2Proof/Machine/Frb.lean ====
section
/-! DEFINITION. The FRB code of 4 KiB pages (spec/11, R335 to R339). -/

namespace Sys2Proof.Machine

/-! ### Encoding (R337, R338) -/

/-- The 32 words of a line. -/
def lineWords (l : Line) : List Nat := (List.range 32).map fun j => lineGet l (8 * j) 8

/-- The tag of a word, after its predecessor: zero, repeat, narrow, literal (Table 11.4). -/
def frbTag (prev : Option Nat) (w : Nat) : Nat :=
  if w = 0 then 0 else if prev = some w then 1 else if w / 2 ^ 31 = 0 ∨ w / 2 ^ 31 = 2 ^ 33 - 1 then 2 else 3

/-- The tags of a list of words. -/
def frbTags : Option Nat → List Nat → List (Nat × Nat)
  | _, [] => []
  | p, w :: r => (frbTag p w, w) :: frbTags (some w) r

/-- The payload of a tagged word. -/
def frbPayload (t : Nat × Nat) : List Nat := if t.1 = 2 then toBytes 4 (t.2 % 2 ^ 32) else if t.1 = 3 then toBytes 8 t.2 else []

/-- The block of a line (R336, R338): empty for a zero line, the original bytes when a tagged block is no shorter. -/
def frbLine (l : Line) : List Nat :=
  let ts := frbTags none (lineWords l)
  if ts.all fun t => t.1 == 0 then []
  else
    let body := toBytes 8 (ts.foldl (fun a t => a * 4 + t.1) 0) ++ ts.flatMap frbPayload
    if body.length ≥ 256 then toBytes 256 l.toNat else body

/-- The blocks of a page. -/
def frbBlocks (ls : List Line) : List (List Nat) := ls.map frbLine

/-- The payload length of a page. -/
def frbLen (ls : List Line) : Nat := ((frbBlocks ls).map List.length).sum

/-- The 4,096 bytes of a page. -/
def pageBytes (ls : List Line) : List Nat := ls.flatMap fun l => toBytes 256 l.toNat

/-- The image of a page in a class (R335, R336). -/
def frbImage (cls : Nat) (ls : List Line) : List Nat :=
  let bl := frbBlocks ls
  toBytes 24 (bl.foldl (fun a b => a * 4096 + b.length) 0) ++ [1, cls] ++ toBytes 2 (frbLen ls) ++ toBytes 4 (crc32c (pageBytes ls)) ++ bl.flatten

/-! ### Decoding (R336, R337, R339) -/

/-- Decode tagged words: the tags left, the word before, the payload left; none when the payload runs out. -/
def frbWords : List Nat → Nat → List Nat → Option (List Nat × List Nat)
  | [], _, p => some ([], p)
  | t :: ts, prev, p =>
    let n := if t = 2 then 4 else if t = 3 then 8 else 0
    if p.length < n then none
    else
      let v := ofBytes (p.take n)
      let w := if t = 0 then 0 else if t = 1 then prev else if t = 2 then (sx 32 v % (2 ^ 64 : Int)).toNat else v
      (frbWords ts w (p.drop n)).map fun x => (w :: x.1, x.2)

/-- Decode one block; none when its length is wrong. -/
def frbUnline (b : List Nat) : Option Line :=
  if b.length = 0 then some 0
  else if b.length = 256 then some (BitVec.ofNat 2048 (ofBytes b))
  else if b.length < 8 ∨ b.length > 256 then none
  else
    let tw := ofBytes (b.take 8)
    let tags := (List.range 32).map fun j => bits tw (63 - 2 * j) (62 - 2 * j)
    match frbWords tags 0 (b.drop 8) with
    | some (ws, []) => some (BitVec.ofNat 2048 (ws.foldl (fun a w => a * 2 ^ 64 + w) 0))
    | _ => none

/-- Cut a payload into blocks by lengths and decode each. -/
def frbUnlines : List Nat → List Nat → Option (List Line)
  | [], _ => some []
  | n :: ns, p =>
    match frbUnline (p.take n) with
    | none => none
    | some l => (frbUnlines ns (p.drop n)).map (l :: ·)

/-- Why an image does not decode. -/
inductive FrbErr where
  | invalid | crc
deriving DecidableEq, Repr

/-- Decode an image of a class in a slot of `cap` bytes (R339); the second result is the bytes used. -/
def frbDecode (img : List Nat) (cls cap : Nat) : Except FrbErr (List Line × Nat) :=
  if img.length < 32 then .error .invalid
  else
    let lw := ofBytes (img.take 24)
    let lens := (List.range 16).map fun l => (lw >>> (12 * (15 - l))) % 4096
    let pay := ofBytes ((img.drop 26).take 2)
    if img.getD 24 0 ≠ 1 ∨ img.getD 25 0 ≠ cls ∨ lens.any (256 < ·) ∨ pay ≠ lens.sum ∨ cap < 32 + pay ∨ img.length < 32 + pay then .error .invalid
    else match frbUnlines lens (img.drop 32) with
      | none => .error .invalid
      | some ls => if crc32c (pageBytes ls) = ofBytes ((img.drop 28).take 4) then .ok (ls, 32 + pay) else .error .crc

end Sys2Proof.Machine
end

