-- ==== Sys2Proof/Config.lean ====
section
/-! DEFINITION. What the spec leaves open and the model leaves free: opaque constants that no proof can look into. -/

namespace Sys2Proof.Config

/-- The value of an unstated or undefined 64-bit result; the argument is the number of free values drawn before
(State's counter `seed`, log entry 2). -/
opaque freeWord : Nat → W64

/-- An unstated or undefined byte string of line length. -/
opaque freeLine : Nat → Line

/-- A byte string that an unspecified transformation gives: the first argument names the transformation and its
parameters, the second is the free-value counter, the third the input bytes, the last the output length. -/
opaque freeBytes : List Nat → Nat → List Nat → Nat → List (BitVec 8)

/-- The body of a Huffman block after its three header bits, with dynamic codes or fixed: the matches and code lengths that the compressor chooses
for a segment after a history (R392). -/
opaque huffBits : Bool → List Nat → List Nat → List Bool

/-- A verdict that the spec leaves to keys it does not give (signature and authentication checks). -/
opaque verify : List Nat → List Nat → Bool

/-- The fused power curve of a core in watts at a frequency in units of 25 MHz (R564); the spec gives no values. -/
opaque corePower : Nat → Nat → Nat

/-- The voltage in mV that Weir sets for a core at a frequency in units of 25 MHz (Table 25.2); the spec gives its range only. -/
opaque coreVolt : Nat → Nat → Nat

/-- The serial number of the module, fused (object 0x1018.4). -/
opaque serial : Nat

end Sys2Proof.Config
end

