-- ==== Sys2Proof/Machine/State.lean ====
section
/-! DEFINITION. The state of the module, as plain data: the register file of the module control space (MCS), memory, and
the state of every unit that the spec gives beyond its registers.  A sparse table (`Tab`) lists only what differs from
the value its reader supplies for an absent key. -/

namespace Sys2Proof.Machine

/-- The blocks of the MCS (Table 1.6); `acc` is the four accelerator units' range. -/
inductive Blk where
  | id | mode | dbell | rill | casc | weir | spill | grotto | acc | chan | mem | aq | pcie | cpl | od | core
deriving DecidableEq, Repr

/-- The register file of the MCS, one sparse table per block, keyed by MCS offset; an absent register holds the reset
value of its field map (R12). -/
structure Regs where
  id : Tab W64
  mode : Tab W64
  dbell : Tab W64
  rill : Tab W64
  casc : Tab W64
  weir : Tab W64
  spill : Tab W64
  grotto : Tab W64
  acc : Tab W64
  chan : Tab W64
  mem : Tab W64
  aq : Tab W64
  pcie : Tab W64
  cpl : Tab W64
  od : Tab W64
  core : Tab W64
deriving DecidableEq, Repr

/-- Byte-addressed physical memory in canonical form: addresses strictly rising, no byte 0 listed. -/
abbrev Memory := List Host.Cell

/-! ### Threads and cores (spec/03 to spec/08) -/

/-- Architected state of one thread (R72, Table 3.1), with the root registers of R205.  The per-level registers are
keyed by level: 1 S, 2 H, 3 F. -/
structure Arch where
  g : Tab W64
  f : Tab W64
  ia : W64
  psw : W64
  lsa : Tab W64
  lea : Tab W64
  lct : Tab W64
  spsw : Tab W64
  sia : Tab W64
  ecode : Tab W64
  eaddr : Tab W64
  ivb : Tab W64
  scr0 : Tab W64
  scr1 : Tab W64
  fpsr : W64
  ttr1 : W64
  ttr2 : W64
  ttrh : W64
  resv : Option Nat
deriving DecidableEq, Repr

/-- Reset values of Tables 3.7 to 3.19: `psw.pl` is F, `ecode_L.prec` is 1, all else 0. -/
def Arch.reset : Arch :=
  { g := [], f := [], ia := 0, psw := 3, lsa := [], lea := [], lct := [], spsw := [], sia := [],
    ecode := [(1, 0x100000), (2, 0x100000), (3, 0x100000)], eaddr := [], ivb := [], scr0 := [], scr1 := [],
    fpsr := 0, ttr1 := 0, ttr2 := 0, ttrh := 0, resv := none }

/-- One store of a thread: physical address, length, value (first byte most significant), non-temporal. -/
structure StoreE where
  pa : Nat
  len : Nat
  val : Nat
  nt : Bool
deriving DecidableEq, Repr

/-- One checkpoint of the window (R149): instructions and micro-operations held, whether it is closed, its stores in
program order, and the architected state at its end. -/
structure Ckpt where
  n : Nat
  uops : Nat
  closed : Bool
  stores : List StoreE
  fin : Arch
deriving DecidableEq, Repr

/-- What a hardware thread is doing: held since boot (R629), vacant, running a virtual processor, running as a physical
thread, stopped by R112, or without state (R177). -/
inductive Run where
  | held | vacant | placed (vp : Nat) | physical | stopped | lost
deriving DecidableEq, Repr

/-- The streaming-store detector of a thread (R244). -/
structure Detector where
  cnt : Nat
  dir : Int
  last : Nat
deriving DecidableEq, Repr

/-- The enclave context that a thread runs in (R364, R366): enclave, context, `genter` address, its t field, the
`psw` before it, and the enclave debug enables that cover it, as they stood at the entry (R371). -/
structure EnclCtx where
  encl : Nat
  ctx : Nat
  gaddr : W64
  t : Nat
  psw : W64
  ni : Bool
  inv : Bool
deriving DecidableEq, Repr

/-- A resume link (R363). -/
structure Link where
  encl : Nat
  ctx : Nat
deriving DecidableEq, Repr

/-- A domain-scope TLB removal (R224): kind (the fn of Table 7.9), operands, and the receivers still to acknowledge
(cores 0 to 47 of this module, 48 its translation unit, 64 + m module m). -/
structure Removal where
  id : Nat
  fn : Nat
  addr : Nat
  asid : Nat
  part : Nat
  waits : List Nat
deriving DecidableEq, Repr

/-- What a thread waits for besides a line: the completion of an outbound PCIe load, of a coupling store, of a
`tlbsync`, an interruption in `wait`. -/
inductive Wait where
  | none | waitInsn | tlbsync | pcieLoad (port tag : Nat) | coupling
deriving DecidableEq, Repr

/-- One retry episode (R165): attempts made, instructions to commit, instructions committed, serial mode, errors' code
and whether a local checker fired. -/
structure Episode where
  attempts : Nat
  n : Nat
  done : Nat
  both : Bool
  code : Nat
  atts : List Nat
deriving DecidableEq, Repr

/-- A hardware thread: current state, commit copy (R162), window, retired stores (R241), and the rest. -/
structure Thread where
  run : Run
  cur : Arch
  com : Arch
  win : List Ckpt
  sbuf : List StoreE
  wait : Wait
  paused : Bool
  runAhead : Bool
  pendPhys : Bool
  pendMck : Option (Nat × Bool)
  det : Detector
  removals : List Removal
  encl : Option EnclCtx
  link : Option Link
  ep : Option Episode
  dbg : Nat
  serial : Bool
  adWait : Option (Nat × Nat × Nat)
  got : List Nat
  gotIx : Nat
  nowSync : Bool
  seen : List Nat
deriving DecidableEq, Repr

def Thread.init : Thread :=
  { run := .held, cur := Arch.reset, com := Arch.reset, win := [], sbuf := [], wait := .none, paused := false,
    runAhead := false, pendPhys := false, pendMck := none, det := ⟨0, 0, 0⟩, removals := [], encl := none, link := none,
    ep := none, dbg := 0, serial := false, adWait := none, got := [], gotIx := 0, nowSync := false, seen := [] }

/-- L2 states of Table 9.2 other than I, which is absence. -/
inductive LSt where
  | s | e | m
deriving DecidableEq, Repr

/-- One L2 way (R229, R234): line number, state, data, poison, age, prefetched and not yet hit. -/
structure L2Way where
  line : Nat
  st : LSt
  data : Line
  psn : Bool
  age : Nat
  pf : Bool
deriving DecidableEq, Repr

/-- One eviction-buffer entry (R237): its flow has been sent, or not. -/
structure EvEntry where
  line : Nat
  st : LSt
  data : Line
  psn : Bool
  sent : Bool
deriving DecidableEq, Repr

/-- One open line of the combining buffer (R246); mask bit i covers line byte i. -/
structure CombLine where
  line : Nat
  data : Line
  mask : Nat
  th : Nat
deriving DecidableEq, Repr

/-- What an outstanding L2 request is for. -/
inductive MissFor where
  | demand | store | prefetch | wround
deriving DecidableEq, Repr

/-- An outstanding L2 request (R233, R276): line, tag, exclusive, purpose, requester thread, ACKs awaited once known,
ACKs received, and the grant received (state, data, poison; no data for CMP). -/
structure Miss where
  line : Nat
  tag : Nat
  excl : Bool
  why : MissFor
  th : Nat
  acks : Option Nat
  got : Nat
  grant : Option (LSt × Option (Line × Bool))
deriving DecidableEq, Repr

/-- A prefetch stream (R250): thread, line of the last demand miss, its effective address divided by 256 when an instruction gave one, stride, misses
seen, lines requested since the last demand hit on one of them. -/
structure PfStream where
  th : Nat
  last : Nat
  va : Option Nat
  stride : Int
  seen : Nat
  asked : List Nat
deriving DecidableEq, Repr

/-- A way of an L1 (R229, R230, R234): the line, whose data is that of the L2, and its age. -/
structure L1Way where
  line : Nat
  age : Nat
deriving DecidableEq, Repr

/-- A translation-cache entry (Table 7.10, R205, R218): regime (0 host or partition, 1 hypervisor, 2 enclave window), partition
tag, stage-2 on, ASID, global, first input page, size in 4 KiB pages, guest frame, final frame, permissions and attribute
bits of each stage (Table 7.7 layout), and the leaf level of each stage. -/
structure TlbE where
  regime : Nat
  s2on : Bool
  part : Nat
  asid : Nat
  glob : Bool
  stage2only : Bool
  vpn : Nat
  pages : Nat
  frame : Nat
  gframe : Nat
  leaf1 : Nat
  leaf2 : Nat
  lvl1 : Nat
  lvl2 : Nat
deriving DecidableEq, Repr

/-- A walk-cache entry (Table 7.10): regime tag (a partition, 64 for P and S without stage 2, 65 for the hypervisor), ASID, level, the bits of the
input address that choose it, whether it is the stage-2 leaf that translates a stage-1 table, and the entry read. -/
structure WalkE where
  tag : Nat
  asid : Nat
  lvl : Nat
  key : Nat
  leaf : Bool
  val : Nat
deriving DecidableEq, Repr

/-- A state capsule (R171, Tables 5.5 to 5.7), as the data its sections hold. -/
structure Capsule where
  src : Nat
  dst : Nat
  present : Nat
  cause : Nat
  tod : Nat
  err : W64
  arch0 : Arch
  arch1 : Arch
  stores0 : List StoreE
  stores1 : List StoreE
  comb : List CombLine
  misses : List Miss
  frame : Nat
deriving DecidableEq, Repr

/-- A spare-core swap in progress at its source core (R171): the replacement, cause, capsule, and whether the capsule has been read. The threads stay
in the thread table, stopped, until they resume. -/
structure Swap where
  repl : Nat
  cause : Nat
  cap : Capsule
  read : Bool
deriving DecidableEq, Repr

/-- Power state of a core (R49, R174). -/
inductive Park where
  | running | shallow | deep | gated
deriving DecidableEq, Repr

/-- A physical core: L1s keyed by 8 × set + way, L2 keyed by 16 × set + way, its buffers and queues, its translation cache and stage-1 and stage-2
walk caches, the state of parking and sparing, and the home writes that await WRA (line, thread, whether of the store buffer). -/
structure Core where
  l1i : Tab L1Way
  l1d : Tab L1Way
  l2 : Tab L2Way
  delWays : List Nat
  wayErrs : Tab Nat
  evb : List EvEntry
  comb : List CombLine
  miss : List Miss
  holds : List Nat
  probes : List (Nat × Msg)
  pf : List PfStream
  tlb : List TlbE
  walk1 : List WalkE
  walk2 : List WalkE
  shoot : List Removal

  park : Park
  flushing : Bool
  swap : Option Swap
  relMarks : List (Nat × Nat)
  wpend : List (Nat × Nat × Bool)
deriving DecidableEq, Repr

def Core.init : Core :=
  { l1i := [], l1d := [], l2 := [], delWays := [], wayErrs := [], evb := [], comb := [], miss := [], holds := [], probes := [], pf := [],
    tlb := [], walk1 := [], walk2 := [], shoot := [], park := .running, flushing := false, swap := none,
    relMarks := [], wpend := [] }

/-- The applied patch set of the hub patch store (R188, R199): core and channel match tables and words. -/
structure Patch where
  coreMatch : List (Nat × Nat)
  coreWords : List Nat
  chanMatch : List (Nat × Nat)
  chanWords : List Nat
deriving DecidableEq, Repr

/-! ### Homes, fabric, Sluice ring (spec/09) -/

/-- Directory states of Table 9.2. -/
inductive DirSt where
  | u | s | x
deriving DecidableEq, Repr

/-- A directory entry (Table 9.1): state, 256-bit agent vector, poison. -/
structure DirE where
  st : DirSt
  vec : Nat
  psn : Bool
deriving DecidableEq, Repr

/-- A Basin way (R231): line, data, newer than memory, poison, age. -/
structure BsnWay where
  line : Nat
  data : Line
  newer : Bool
  psn : Bool
  age : Nat
deriving DecidableEq, Repr

/-- A transaction at a home (R275): op of Table 9.3, the request, agents whose PRA the home awaits, write data with byte mask and poison (WDAT),
DATHs announced and received, eviction data, whether DONE has come, and the agent that answers for the requester after a MOV. -/
structure HomeTxn where
  op : Nat
  req : Msg
  awaits : List Nat
  wdata : Option (Line × Nat × Bool)
  dath : Nat
  dgot : Nat
  done : Bool
  agent : Nat
deriving DecidableEq, Repr

/-- The home slices of the module (R268): directory, Basin keyed by (slice × 16384 + set) × 32 + way, busy lines, waiting
requests in arrival order with their op, data that came before its request was accepted, deleted Basin ways, corrected errors per way, and whether
the directory sweep of boot runs (R622). -/
structure HomeSt where
  dir : Tab DirE
  bsn : Tab BsnWay
  txn : Tab HomeTxn
  waitq : List (Nat × Msg)
  early : List (Nat × Msg)
  bsnDel : List Nat
  bsnErrs : Tab Nat
  sweeping : Bool
deriving DecidableEq, Repr

/-- The transmit and receive state of one link port: next sequence to send and to accept, unacknowledged units with their
resend counts, the units waiting for credit with their virtual channel, credits per virtual channel, whether a nak stands sent, and the received
slots of a message not yet complete. -/
structure LinkSt (α : Type) where
  txSeq : Nat
  rxSeq : Nat
  replay : List (Nat × Nat × α)
  waiting : List (Nat × α)
  credits : List Nat
  nakSent : Bool
  rx : List Nat
deriving DecidableEq, Repr

/-- What a fabric message flit carries (R289, R291): its virtual channel and its slots. -/
structure FabUnit where
  vc : Nat
  slots : List Nat
deriving DecidableEq, Repr

/-- A coherence message with its op (Table 9.3). -/
structure OpMsg where
  op : Nat
  msg : Msg
deriving DecidableEq, Repr

/-- A domain quiesce (R297): requesting module, phase (1 QREQ, 2 QDRAIN, 3 QPOLL, 4 QCOMMIT, 5 QABORT), target mode, cause, and
the boundary slot once named. -/
structure Quiesce where
  orig : Nat
  phase : Nat
  target : Nat
  cause : Nat
  slot : Option Nat
deriving DecidableEq, Repr

/-- The Sluice state (R294 to R300): measured delay from module 0 on rings A and B, whether each receiver has locked, the quiesce in progress, LIVE
misses per module, tokens (kind, payload) that wait for an empty slot, the token written and not yet returned (kind, payload, slot number), and the
ring whose slots this module turns onto the other one, and the region entries (`mem.rgn.base`, `mem.rgn.lim` words) of the other modules of a formed
domain (R321, R630). -/
structure SluiceSt where
  delayA : Nat
  delayB : Nat
  lockA : Bool
  lockB : Bool
  quiesce : Option Quiesce
  misses : Tab Nat
  out : List (Nat × Nat)
  wait : Option (Nat × Nat × Nat)
  turn : Option Nat
  rgn : List (Nat × Nat)
deriving DecidableEq, Repr

/-! ### Modes and epochs (spec/02) -/

/-- Mode-block state beyond its registers: target and cause of the request accepted, the mask of M2 in force, what was latched at acceptance (mask,
`weir.cstage`, staged shares; R71, R187, R570), the M4 cap in force, the drain step begun (0 when none), whether the drain belongs to a domain
quiesce, and whether the concurrent-repair button was refused less than 2 s ago (R646). -/
structure ModeSt where
  target : Nat
  cause : Nat
  m2mask : Nat
  newMask : Nat
  cstage : Nat
  nshare : List Nat
  eco : Nat
  stage : Nat
  dom : Bool
  press : Bool
deriving DecidableEq, Repr

/-! ### Doorbells and Rills (spec/20) -/

/-- One source group (R536): rings since the last fire, open, the time of day at which it opened, and the targets named (physical, number). -/
structure GrpSt where
  count : Nat
  isOpen : Bool
  since : Nat
  targets : List (Bool × Nat)
deriving DecidableEq, Repr

/-- Doorbell logic: groups, rings deferred since step 4 of a drain (source, target), and whether rings are being deferred (R538). -/
structure DbellSt where
  grp : Tab GrpSt
  deferred : List (Nat × Bool × Nat)
  holding : Bool
deriving DecidableEq, Repr

/-- A Rill record (Table 20.2) before its phase is known: Rill, kind, time of day, event part as (offset, size, value), its
producer (Table 20.4, numbered in the round-robin order of R544), whether the producer stalls, and whether `spill.cfg.src` is rung once the
record has been performed (Table 22.4). -/
structure RillRec where
  rill : Nat
  kind : Nat
  tod : Nat
  body : List (Nat × Nat × Nat)
  prod : Nat
  stall : Bool
  ring : Bool
deriving DecidableEq, Repr

/-- The Rill writer (R543 to R546): staging queues T0 to T3 and hub, records kept by stalled producers, the round-robin
positions, and the consumer indices held. -/
structure RillSt where
  q : Tab (List RillRec)
  kept : List RillRec
  nextProd : Nat
  nextQ : Nat
  cons : Tab Nat
  consBad : List Nat
deriving DecidableEq, Repr

/-! ### Spillway (spec/22) -/

/-- An event on its way to the Spillway: source, error register as written, thread concerned, injected, and the event part of a core swap record
(R582, Table 20.3). -/
structure SpEvent where
  src : Nat
  err : W64
  thread : Option Nat
  inj : Bool
  extra : List (Nat × Nat × Nat)
deriving DecidableEq, Repr

/-- One block of Table 22.5 that is fenced or under reset, or whose marks are in force: the ERR_N bit of the reaction that started it, the sources
it marks, and whether it is a concurrent-repair power-down instead (R584). -/
structure BlkReset where
  errn : Bool
  marks : List Nat
  repair : Bool
deriving DecidableEq, Repr

/-- Spillway state beyond its registers: events detected and not yet taken, block resets, a checker that an injection has armed (R590), and the
block that `spill.brst` waits for. -/
structure SpillSt where
  inbox : List SpEvent
  blks : Tab BlkReset
  inj : Option Nat
  brst : Option Nat
deriving DecidableEq, Repr

/-! ### Memory ports (spec/10) -/

/-- A command outstanding at a memory buffer (R308, Table 10.6): tag, op, piece address. -/
structure MemCmd where
  tag : Nat
  op : Nat
  addr : Nat
deriving DecidableEq, Repr

/-- One memory port: outstanding commands, link state, the next tag, and the last buffer register data returned (register, data). -/
structure MemPort where
  out : List MemCmd
  link : LinkSt FabUnit
  tag : Nat
  cra : Option (Nat × Nat)
  kept : Bool
deriving DecidableEq, Repr

def MemPort.init : MemPort :=
  { out := [], link := ⟨0, 0, [], [], [0, 0], false, []⟩, tag := 0, cra := none, kept := false }

/-- The read of one line's pieces in progress (R306): pieces arrived with their poison marks, keyed 0 to 3 for data and 4 for parity, and pieces
that failed. -/
structure MemRead where
  got : Tab (Nat × Bool)
  bad : List Nat
deriving DecidableEq, Repr

def MemRead.init : MemRead := ⟨[], []⟩

/-- The memory groups: ports, line reads in progress keyed by group × 2^42 + line index, the groups' scrub positions, ports whose `up` request is
pending, and groups initialised since the reset (R622). -/
structure MemSt where
  ports : Tab MemPort
  rd : Tab MemRead
  scrub : Tab Nat
  upReq : List Nat
  inited : List Nat
deriving DecidableEq, Repr

/-! ### The Cistern (spec/11) -/

/-- An expanded page (R343): its Basin way, age, whether it is busy (1 expanding, 2 being evicted), and for an eviction its purpose: 0 the way is
for another page's expansion, 1 an evict command, 2 a discard. -/
structure ExpPage where
  way : Nat
  age : Nat
  busy : Nat
  why : Nat
  next : Option (Nat × Nat)
deriving DecidableEq, Repr

/-- The Cistern: expanded pages by page number PA[51:12], used slots of the assigned chunks (class, one bit for each slot), held pages oldest first,
whether the low-water report stands, expansions that wait for a way (page, age), and a command that waits for its page. -/
structure CisSt where
  exp : Tab ExpPage
  chunks : Tab (Nat × Nat)
  held : List Nat
  lowSaid : Bool
  waits : List (Nat × Nat)
  cmd : Option Nat
deriving DecidableEq, Repr

/-! ### Grotto (spec/12) -/

/-- A saved enclave context frame (R358, R366): registers, `psw`, `fpsr`, resume address, and the last fault reason and address. -/
structure SaveFrame where
  g : Tab W64
  f : Tab W64
  lsa : Tab W64
  lea : Tab W64
  lct : Tab W64
  psw : W64
  fpsr : W64
  ia : W64
  reason : Nat
  addr : W64
deriving DecidableEq, Repr

/-- State of a context (R358). -/
inductive CtxSt where
  | idle | running | suspended
deriving DecidableEq, Repr

/-- One enclave (R358): state (0 free, 1 building, 2 ready, 3 tearing), range, code part, window base, entry offset, contexts,
measurement and the key pair's generation (R356: the keys themselves are drawn values no one reads). -/
structure Enclave where
  st : Nat
  base : Nat
  size : Nat
  csize : Nat
  vbase : Nat
  entry : Nat
  nctx : Nat
  ctxs : Tab (CtxSt × SaveFrame)
  meas : Nat
  key : Nat
deriving DecidableEq, Repr

def SaveFrame.init : SaveFrame := ⟨[], [], [], [], [], 0, 0, 0, 0, 0⟩
def Enclave.init : Enclave := ⟨0, 0, 0, 0, 0, 0, 0, [], 0, 0⟩

/-- The Grotto monitor (R354 to R374): enclave table, generation of the monitor's own key pair. -/
structure GrottoSt where
  encl : Tab Enclave
  monKey : Nat
deriving DecidableEq, Repr

/-! ### Compression and cryptographic units (spec/13 to spec/15) -/

/-- Where a decompression stream stands within its blocks (R390): 0 between blocks, 1 in a stored block with `left` bytes to come, 2 in a block
with the code lengths `lit` and `dist`; whether the block is the last; bits read and not consumed, oldest first (for a compression stream, its
pending bits); bytes decoded that found no room in the output area. -/
structure InfSt where
  kind : Nat
  left : Nat
  lit : List Nat
  dist : List Nat
  last : Bool
  bits : List Bool
  owed : List Nat
deriving DecidableEq, Repr

def InfSt.init : InfSt := ⟨0, 0, [], [], false, [], []⟩

/-- An active stream (R389, R390): operation, format, phase (0 before the header, 1 in blocks, 2 in the trailer, 3 ended), totals, running check,
history with its newest byte last, and the rest. -/
structure Stream where
  op : Nat
  fmt : Nat
  phase : Nat
  inTot : Nat
  outTot : Nat
  check : Nat
  hist : List Nat
  inf : InfSt
deriving DecidableEq, Repr

/-- An accepted request (R379): block address, bytes 0x00 to 0x3F as read, and the work left in it once it has started. -/
structure AccReq where
  blk : Nat
  hdr : List Nat
  left : Option Nat
deriving DecidableEq, Repr

/-- An instance (R376, R404, R425): accepted requests in order, active stream, restored stream, wrapping key, its parts written through
`cryu.wkey` and not yet loaded, and whether the DRBG is instantiated. -/
structure AccInst where
  q : List AccReq
  stream : Option Stream
  held : Option Stream
  wkey : Option (List Nat)
  wpart : Tab Nat
  drbg : Bool
deriving DecidableEq, Repr

def AccInst.init : AccInst := ⟨[], none, none, none, [], false⟩

/-- A line of a log cache (R438): held in M under the unit's agent slot. -/
structure LogLine where
  line : Nat
  data : Line
deriving DecidableEq, Repr

/-- What a context record of a chain carries (R413): operation, algorithm, mode byte, input so far and aux data of the first request. -/
structure CryCtx where
  op : Nat
  alg : Nat
  mode : Nat
  data : List Nat
  aux : List Nat
deriving DecidableEq, Repr

/-- Units 0 to 3 (`cmp0`, `cmp1`, `cry0`, `cry1`): instances keyed by 64 × unit + number, log caches, input and output bytes counted and not yet a
whole 4 KiB, failed restarts in a row of the entropy sources, the translation cache and walk caches of the module translation unit (owner 64 × unit +
instance, or 256 + root port), stream records written with what their undefined part stands for, and context records written with the key
that protects them. -/
structure AccSt where
  inst : Tab AccInst
  log : Tab (List LogLine)
  kin : Tab Nat
  kout : Tab Nat
  rbgFails : Tab Nat
  tlb : List (Nat × TlbE)
  walk1 : List (Nat × WalkE)
  walk2 : List (Nat × WalkE)
  recs : List (List Nat × InfSt)
  ctxs : List (List Nat × List Nat × CryCtx)
deriving DecidableEq, Repr

/-! ### Jalper and coupling ports, channel subsystem, Reservoir (spec/16, spec/17, spec/19) -/

/-- A frame on a port: its type (Tables 17.3 and 19.2) and contents. -/
structure TFrame where
  typ : Nat
  f : XFrame
deriving DecidableEq, Repr

/-- A Jalper port (0 to 31) or coupling port (32 + p): its link (credits: frames, data cells), the credits granted at link-up, whether cells were
lost and the next header cell is awaited, the generation that training may target at most, the far side's generations (bit g − 1), whether it is
fenced, whether an `up` waits for its first training attempt, and whether the partner has sent MNAK since its last INIT. -/
structure JlPort where
  link : LinkSt TFrame
  grant : Nat × Nat
  gap : Bool
  cap : Nat
  far : Nat
  target : Nat
  fenced : Bool
  upReq : Bool
  mnak : Bool
deriving DecidableEq, Repr

def JlPort.init : JlPort :=
  { link := ⟨0, 0, [], [], [0, 0], false, []⟩, grant := (0, 0), gap := false, cap := 3, far := 0, target := 0, fenced := false, upReq := false,
    mnak := false }

/-- A path of a subchannel (Table 16.9): state, reason, and whether a probe is due. -/
structure ChPath where
  st : Nat
  reason : Nat
  due : Bool
deriving DecidableEq, Repr

/-- A halt or clear that is pending: its block, tag, partition and `note`. -/
structure FnBlk where
  blk : Nat
  tag : Nat
  part : Nat
  note : Bool
deriving DecidableEq, Repr

/-- Dynamic state of a subchannel (R443): its paths, the path used last, a pending halt, a pending clear, and for a clear the path
on which CLEAR goes, the identifier that it carries, and whether it has been sent. -/
structure ChSub where
  paths : List ChPath
  last : Nat
  halt : Option FnBlk
  clear : Option FnBlk
  clrPath : Option (Nat × Nat × Bool)
deriving DecidableEq, Repr

def ChSub.init : ChSub := ⟨[], 7, none, none, none⟩

/-- A command word being carried out (Table 16.4): its address, kind, device command, exactness, and its extents (address, length, discarded). -/
structure ChWord where
  at_ : Nat
  kind : Nat
  dcmd : Nat
  exact : Bool
  mark : Bool
  exts : List (Nat × Nat × Bool)
deriving DecidableEq, Repr

/-- What an operation does once its record update is confirmed: fetch the next word, send HALT, write its status, or close. -/
inductive ChDue where
  | nothing | fetch | halt | status | close
deriving DecidableEq, Repr

/-- What an operation is at: between commands, CMD to be sent, command on the device, waiting after busy, HALT to be sent, awaiting HALTA, CLOSE to
be sent, awaiting the link's acknowledgement of CLOSE. -/
inductive ChRun where
  | idle | cmd | busy | wait | halt | halta | close | closed
deriving DecidableEq, Repr

/-- An operation, as its Reservoir record holds it (Table 17.7), with what the processor keeps beside: word, data moved, final status once known (with
its detail and word address), status to give when HALTA arrives, re-drive flag, paths that answered busy, whether an update awaits confirmation or
the peer's MACK, CLEAR and HALT still owed to the device after the
status, and `chan.rsv.peer` as it stood at acceptance (R495). -/
structure ChOp where
  slot : Nat
  upd : Nat
  st : Nat
  flags : Nat
  xid : Nat
  scid : Nat
  part : Nat
  cp : Nat
  path : Nat
  mask : Nat
  blk : Nat
  tag : Nat
  first : Nat
  next : Nat
  pos : Nat
  ended : Nat
  redrv : Nat
  hold : Nat
  tod : Nat
  paths : List Nat
  fin : Nat
  dev : Nat
  sense : List Nat
  resid : Nat
  run : ChRun
  due : ChDue
  unconf : Bool
  mack : Bool
  word : Option ChWord
  moved : Nat
  detail : Nat
  where_ : Nat
  stop : Nat
  redrive : Bool
  busy : List Nat
  owedClear : Bool
  owedHalt : Bool
  peer : Nat
deriving DecidableEq, Repr

/-- The channel subsystem: whether the subchannel table and the Reservoir are in force, subchannels, operations keyed by Reservoir slot, exchange
counts of the processors, and states of the records whose slots are not free. -/
structure ChanSt where
  tableOk : Bool
  subs : Tab ChSub
  ops : Tab ChOp
  cnt : Tab Nat
  slots : Tab Nat
deriving DecidableEq, Repr

/-- A coupling request that is accepted and not complete (R519 to R521): port, identifier, partition, block address, its bytes, and the thread whose
submit store waits. -/
structure CplReq where
  port : Nat
  xid : Nat
  part : Nat
  blk : Nat
  hdr : List Nat
  th : Option Nat
deriving DecidableEq, Repr

/-- The coupling ports: requests outstanding, identifier counts by port, mirror updates not acknowledged (port or 31 for none, slot, update count,
record), and inbound requests not yet answered (port, identifier, kind). -/
structure CplSt where
  reqs : List CplReq
  cnt : Tab Nat
  mupd : List (Nat × Nat × Nat × List Nat)
  inb : List (Nat × Nat × Nat)
deriving DecidableEq, Repr

/-! ### PCIe root ports (spec/18) -/

/-- An outbound load waiting for its completion (R503): tag, thread, bus address, length. -/
structure PcieLoad where
  tag : Nat
  th : Nat
  addr : Nat
  len : Nat
deriving DecidableEq, Repr

/-- One root port: outstanding loads, the next tag, its Slot Control register (Table 18.4), the event bits of its Slot Status register, and the bytes of
the rest of its own configuration space that were written. -/
structure PciePort where
  loads : List PcieLoad
  nextTag : Nat
  slotCtl : Nat
  slotSts : Nat
  cfg : Tab Nat
deriving DecidableEq, Repr

/-- Slot power off, both indicators off (R511). -/
def PciePort.init : PciePort := ⟨[], 0, 0x7C0, 0, []⟩

/-! ### Cascade and Weir (spec/21) -/

/-- What Cascade keeps of a virtual processor beyond its registers: external interruption pending, partition-stall wake pending
(together `casc.vp.st.pend`), its virtual time in 1/256 ns up to
the time of day `since` which its present run is counted from, and the state to take when it has left its thread. -/
structure VpX where
  ext : Bool
  wake : Bool
  vt : Nat
  since : Nat
  after : Nat
deriving DecidableEq, Repr

def VpX.init : VpX := ⟨false, false, 0, 0, 2⟩

/-! ### TLB removals in flight (spec/07) -/

/-- A removal that a core has applied and not acknowledged: id, the core, and what it still has to perform of the stores retired before it. -/
structure ShootDone where
  id : Nat
  who : Nat
  n0 : Nat
  n1 : Nat
  comb : List Nat
deriving DecidableEq, Repr

/-- Removals between the units of this module: the next id, those of other modules (their id names module and tag) with the local
units that must still acknowledge, those waiting at the module translation unit, and those applied at each core. -/
structure ShootSt where
  next : Nat
  inbound : List Removal
  mtu : List Removal
  done : Tab (List ShootDone)
deriving DecidableEq, Repr

/-- A patch image that passed its checks and is being written to the stores, with its level (R201). -/
structure PatchIn where
  patch : Patch
  level : Nat
deriving DecidableEq, Repr

/-- What Weir keeps beyond its registers: steps of 25 MHz that the fast throttle has taken off (R566), and u of the last 1 µs sample (R562). -/
structure WeirSt where
  off : Nat
  lastU : Nat
deriving DecidableEq, Repr

/-! ### Boot, reset and power (spec/24, spec/25) -/

/-- The samples of a rail (R636): consecutive samples out of its operating range, in it, and out of its absolute range, whether an excursion is in
progress, and whether its fault has been reported. -/
structure Excursion where
  outRun : Nat
  inRun : Nat
  absRun : Nat
  now : Bool
  fault : Bool
deriving DecidableEq, Repr

/-- FTEST_N as sampled, V_AO in range, the levels of PWRGD, RESET_N and MAINEN (R617), the phase (0 V_AO absent, 1 held in module reset, 2 sequence
begun, 3 PLLs locked, 4 boot ROM at work, 5 boot code started or no area valid), the boot scratch, the bytes of the boot flash that are not erased
(R623), the rails, and the module reset called for. -/
structure BootSt where
  ftestN : Bool
  vao : Bool
  pwrgd : Bool
  resetN : Bool
  mainen : Bool
  phase : Nat
  scratch : Tab Nat
  flash : Tab Nat
  rails : Tab Excursion
  pendReset : Option (Nat × Nat)
deriving DecidableEq, Repr

/-! ### The service network (spec/23) -/

/-- An EMCY that waits (R600): code, error register, source, action, flags, time of day. -/
structure Emcy where
  code : Nat
  reg : Nat
  src : Nat
  act : Nat
  flags : Nat
  tod : Nat
deriving DecidableEq, Repr

/-- A USDO session whose request is not complete (R601): client and session number, whether a write, object, and bytes so far. -/
structure Usdo where
  id : Nat
  wr : Bool
  index : Nat
  sub : Nat
  data : List Nat
deriving DecidableEq, Repr

/-- The CAN FD service controller and the object dictionary: NMT state (0 initialisation, 1 pre-operational, 2 operational, 3 stopped, 4 controller not
started), writable communication, debug and readout objects by index × 256 + subindex, waiting EMCYs, EMCYs dropped, sessions, the values of TPDO2
last compared (R608), error passive, the image status and the area of the next boot where one was named (R613), the length of the image in the
inactive area, the result of the last debug command, the bytes of a DOMAIN write through the window (index × 256 + subindex, bytes), and whether the hub
is lost (R589). -/
structure OdSt where
  nmt : Nat
  objs : Tab Nat
  emcy : List Emcy
  drops : Nat
  sess : List Usdo
  tpdo2 : List Nat
  passive : Bool
  img : Nat
  next : Option Nat
  imgLen : Nat
  dbg : Nat
  dom : Option (Nat × List Nat)
  hubLost : Bool
deriving DecidableEq, Repr

/-! ### The whole module -/

/-- What the module sends or asserts outside: a log, oldest first (log entry 6). -/
inductive Out where
  | aq (m : OpMsg)
  | frame (kind port : Nat) (words : List Nat)
  | can (words : List Nat)
  | pin (name : Nat) (level : Bool)
  | mcs (module off val : Nat)
  | pcie (port : Nat) (words : List Nat) (bytes : List Nat)
deriving DecidableEq, Repr

/-- The state of the machine proper; `State` adds the queue of commands that wait. -/
structure Mach where
  regs : Regs
  mem : Memory
  thr : Tab Thread
  cores : Tab Core
  patch : Option Patch
  home : HomeSt
  fab : Tab (LinkSt FabUnit)
  sl : SluiceSt
  mode : ModeSt
  db : DbellSt
  rill : RillSt
  spill : SpillSt
  memp : MemSt
  tod : Nat
  seed : Nat
  sent : List Out
  frozen : Bool
  grotto : GrottoSt
  pcie : Tab PciePort
  boot : BootSt
  od : OdSt
  vp : Tab VpX
  shoot : ShootSt
  weir : WeirSt
  patchIn : Option PatchIn
  cis : CisSt
  acc : AccSt
  jl : Tab JlPort
  chan : ChanSt
  cpl : CplSt
deriving DecidableEq, Repr

/-- The state of the block: the commands waiting, first in first out, and the machine. -/
structure State where
  pending : List Instr
  m : Mach
deriving DecidableEq, Repr

/-- Why a step faults. -/
inductive Fault where
  /-- The command names a port, core, thread or entry that the module does not have (raised by a meaning whose operand is
  out of range; safe: no such event exists). -/
  | noSuchUnit
deriving DecidableEq, Repr

/-- Why a step is refused. -/
inductive Refusal where
  /-- The command has no meaning yet (raised by the dispatch; safe). -/
  | notModelled (mnemonic : String)
deriving DecidableEq, Repr

/-- The machine right after power-on reset and the module reset that goes with it, before the sequence of R620 begins: every
register at its reset value, memory with nothing listed, no command waiting. -/
def Mach.reset : Mach :=
  { regs := ⟨[], [], [], [], [], [], [], [], [], [], [], [], [], [], [], []⟩,
    mem := [],
    thr := [],
    cores := [],
    patch := none,
    home := ⟨[], [], [], [], [], [], [], false⟩,
    fab := [],
    sl := ⟨0, 0, false, false, none, [], [], none, none, []⟩,
    mode := ⟨0, 0, 0, 0, 0, [], 0x4B0, 0, false, false⟩,
    db := ⟨[], [], false⟩,
    rill := ⟨[], [], 0, 0, [], []⟩,
    spill := ⟨[], [], none, none⟩,
    memp := ⟨[], [], [], [], []⟩,
    tod := 0,
    seed := 1,
    sent := [],
    frozen := false,
    grotto := ⟨[], 0⟩,
    pcie := [],
    boot := ⟨true, true, false, true, false, 1, [], [], [], none⟩,
    od := ⟨4, [], [], 0, [], [], false, 0, none, 0, 0, none, false⟩,
    vp := [],
    shoot := ⟨0, [], [], []⟩,
    weir := ⟨0, 0⟩,
    patchIn := none,
    cis := ⟨[], [], [], false, [], none⟩,
    acc := ⟨[], [], [], [], [], [], [], [], [], []⟩,
    jl := [],
    chan := ⟨false, [], [], [], []⟩,
    cpl := ⟨[], [], [], []⟩ }

def State.reset : State := { pending := [], m := Mach.reset }

end Sys2Proof.Machine
end

