-- ==== Sys2Proof/Machine/Regs.lean ====
section
/-! DEFINITION. The fields of the module control space registers by name (spec/01, R25 to R45, and the field maps
of every chapter): each `def` names the block, the MCS offset, and the bits of one field.  An index argument is the
index of the register's own caption (core, port, instance, source). -/

namespace Sys2Proof.Machine

/-- One field of one MCS register: its block, the register's MCS offset and its bits hi down to lo (R9). -/
structure Fld where
  blk : Blk
  off : Nat
  hi : Nat
  lo : Nat
deriving DecidableEq, Repr

namespace R

-- Table 1.7 (spec/01_module_map.md): id.part
abbrev id_part : Fld := ⟨.id, 0x0, 63, 0⟩
abbrev id_part_vendor : Fld := ⟨.id, 0x0, 63, 48⟩
abbrev id_part_part : Fld := ⟨.id, 0x0, 47, 32⟩
abbrev id_part_step_major : Fld := ⟨.id, 0x0, 31, 24⟩
abbrev id_part_step_minor : Fld := ⟨.id, 0x0, 23, 16⟩
abbrev id_part_mcs_rev : Fld := ⟨.id, 0x0, 15, 8⟩
-- Table 1.8 (spec/01_module_map.md): id.cores
abbrev id_cores : Fld := ⟨.id, 0x8, 63, 0⟩
abbrev id_cores_phys : Fld := ⟨.id, 0x8, 63, 56⟩
abbrev id_cores_assign : Fld := ⟨.id, 0x8, 55, 48⟩
abbrev id_cores_spare : Fld := ⟨.id, 0x8, 47, 40⟩
abbrev id_cores_failed : Fld := ⟨.id, 0x8, 39, 32⟩
-- Table 1.9 (spec/01_module_map.md): id.coremask
abbrev id_coremask : Fld := ⟨.id, 0x10, 63, 0⟩
abbrev id_coremask_assignable : Fld := ⟨.id, 0x10, 47, 0⟩
-- Table 1.10 (spec/01_module_map.md): id.healthmask
abbrev id_healthmask : Fld := ⟨.id, 0x18, 63, 0⟩
abbrev id_healthmask_healthy : Fld := ⟨.id, 0x18, 47, 0⟩
-- Table 1.11 (spec/01_module_map.md): id.place
abbrev id_place : Fld := ⟨.id, 0x20, 63, 0⟩
abbrev id_place_can_node : Fld := ⟨.id, 0x20, 14, 8⟩
abbrev id_place_dsize : Fld := ⟨.id, 0x20, 4, 2⟩
abbrev id_place_module : Fld := ⟨.id, 0x20, 1, 0⟩
-- Table 1.12 (spec/01_module_map.md): id.ports
abbrev id_ports : Fld := ⟨.id, 0x28, 63, 0⟩
abbrev id_ports_cpl : Fld := ⟨.id, 0x28, 49, 32⟩
abbrev id_ports_fab : Fld := ⟨.id, 0x28, 31, 20⟩
abbrev id_ports_mem : Fld := ⟨.id, 0x28, 19, 0⟩
-- Table 1.13 (spec/01_module_map.md): id.ioports
abbrev id_ioports : Fld := ⟨.id, 0x30, 63, 0⟩
abbrev id_ioports_bonded : Fld := ⟨.id, 0x30, 47, 32⟩
abbrev id_ioports_io : Fld := ⟨.id, 0x30, 31, 0⟩
-- Table 1.14 (spec/01_module_map.md): id.mfeat
abbrev id_mfeat : Fld := ⟨.id, 0x38, 63, 0⟩
abbrev id_mfeat_paired : Fld := ⟨.id, 0x38, 11, 11⟩
abbrev id_mfeat_helnal : Fld := ⟨.id, 0x38, 10, 10⟩
abbrev id_mfeat_cistern : Fld := ⟨.id, 0x38, 9, 9⟩
abbrev id_mfeat_grotto : Fld := ⟨.id, 0x38, 8, 8⟩
abbrev id_mfeat_cry : Fld := ⟨.id, 0x38, 7, 6⟩
abbrev id_mfeat_cmp : Fld := ⟨.id, 0x38, 5, 4⟩
abbrev id_mfeat_chp : Fld := ⟨.id, 0x38, 3, 0⟩
-- Table 2.7 (spec/02_modes_and_epochs.md): mode.cur
abbrev mode_cur : Fld := ⟨.mode, 0x10000, 63, 0⟩
abbrev mode_cur_step : Fld := ⟨.mode, 0x10000, 11, 9⟩
abbrev mode_cur_drain : Fld := ⟨.mode, 0x10000, 8, 8⟩
abbrev mode_cur_base : Fld := ⟨.mode, 0x10000, 6, 4⟩
abbrev mode_cur_cur : Fld := ⟨.mode, 0x10000, 2, 0⟩
-- Table 2.8 (spec/02_modes_and_epochs.md): mode.req
abbrev mode_req : Fld := ⟨.mode, 0x10008, 63, 0⟩
abbrev mode_req_cancel : Fld := ⟨.mode, 0x10008, 9, 9⟩
abbrev mode_req_go : Fld := ⟨.mode, 0x10008, 8, 8⟩
abbrev mode_req_cause : Fld := ⟨.mode, 0x10008, 6, 4⟩
abbrev mode_req_target : Fld := ⟨.mode, 0x10008, 2, 0⟩
-- Table 2.9 (spec/02_modes_and_epochs.md): mode.stat
abbrev mode_stat : Fld := ⟨.mode, 0x10010, 63, 0⟩
abbrev mode_stat_units : Fld := ⟨.mode, 0x10010, 23, 16⟩
abbrev mode_stat_done : Fld := ⟨.mode, 0x10010, 15, 15⟩
abbrev mode_stat_step : Fld := ⟨.mode, 0x10010, 6, 4⟩
abbrev mode_stat_result : Fld := ⟨.mode, 0x10010, 3, 0⟩
-- Table 2.11 (spec/02_modes_and_epochs.md): mode.epoch
abbrev mode_epoch : Fld := ⟨.mode, 0x10018, 63, 0⟩
abbrev mode_epoch_count : Fld := ⟨.mode, 0x10018, 63, 0⟩
-- Table 2.12 (spec/02_modes_and_epochs.md): mode.cause
abbrev mode_cause : Fld := ⟨.mode, 0x10020, 63, 0⟩
abbrev mode_cause_tod : Fld := ⟨.mode, 0x10020, 63, 8⟩
abbrev mode_cause_old : Fld := ⟨.mode, 0x10020, 6, 4⟩
abbrev mode_cause_cause : Fld := ⟨.mode, 0x10020, 2, 0⟩
-- Table 2.13 (spec/02_modes_and_epochs.md): mode.cfg
abbrev mode_cfg : Fld := ⟨.mode, 0x10028, 63, 0⟩
abbrev mode_cfg_eco_cap : Fld := ⟨.mode, 0x10028, 27, 16⟩
abbrev mode_cfg_drain_lim : Fld := ⟨.mode, 0x10028, 15, 0⟩
-- Table 2.14 (spec/02_modes_and_epochs.md): mode.m2mask
abbrev mode_m2mask : Fld := ⟨.mode, 0x10030, 63, 0⟩
abbrev mode_m2mask_cores : Fld := ⟨.mode, 0x10030, 47, 0⟩
-- Table 2.15 (spec/02_modes_and_epochs.md): mode.rill
abbrev mode_rill : Fld := ⟨.mode, 0x10038, 63, 0⟩
abbrev mode_rill_en : Fld := ⟨.mode, 0x10038, 15, 15⟩
abbrev mode_rill_rill : Fld := ⟨.mode, 0x10038, 11, 0⟩
-- Table 6.7 (spec/06_control_store.md): mode.patch
abbrev mode_patch : Fld := ⟨.mode, 0x10100, 63, 0⟩
abbrev mode_patch_addr : Fld := ⟨.mode, 0x10100, 51, 3⟩
abbrev mode_patch_go : Fld := ⟨.mode, 0x10100, 0, 0⟩
-- Table 6.8 (spec/06_control_store.md): mode.patchst
abbrev mode_patchst : Fld := ⟨.mode, 0x10108, 63, 0⟩
abbrev mode_patchst_level : Fld := ⟨.mode, 0x10108, 63, 32⟩
abbrev mode_patchst_applied : Fld := ⟨.mode, 0x10108, 16, 16⟩
abbrev mode_patchst_done : Fld := ⟨.mode, 0x10108, 15, 15⟩
abbrev mode_patchst_result : Fld := ⟨.mode, 0x10108, 3, 0⟩
-- Table 24.6 (spec/24_boot_and_reset.md): mode.seal
abbrev mode_seal : Fld := ⟨.mode, 0x10200, 63, 0⟩
abbrev mode_seal_done : Fld := ⟨.mode, 0x10200, 15, 15⟩
abbrev mode_seal_state : Fld := ⟨.mode, 0x10200, 9, 8⟩
abbrev mode_seal_result : Fld := ⟨.mode, 0x10200, 4, 1⟩
abbrev mode_seal_go : Fld := ⟨.mode, 0x10200, 0, 0⟩
-- Table 24.7 (spec/24_boot_and_reset.md): mode.boot
abbrev mode_boot : Fld := ⟨.mode, 0x10208, 63, 0⟩
abbrev mode_boot_minsvn : Fld := ⟨.mode, 0x10208, 47, 32⟩
abbrev mode_boot_svn : Fld := ⟨.mode, 0x10208, 31, 16⟩
abbrev mode_boot_sweep : Fld := ⟨.mode, 0x10208, 12, 12⟩
abbrev mode_boot_fb : Fld := ⟨.mode, 0x10208, 11, 11⟩
abbrev mode_boot_resb : Fld := ⟨.mode, 0x10208, 10, 8⟩
abbrev mode_boot_resa : Fld := ⟨.mode, 0x10208, 6, 4⟩
abbrev mode_boot_area : Fld := ⟨.mode, 0x10208, 1, 0⟩
-- Table 24.8 (spec/24_boot_and_reset.md): mode.meas
abbrev mode_meas (i : Nat) : Fld := ⟨.mode, 0x10210 + 0x8 * i, 63, 0⟩
abbrev mode_meas_digest (i : Nat) : Fld := ⟨.mode, 0x10210 + 0x8 * i, 63, 0⟩
-- Table 24.9 (spec/24_boot_and_reset.md): mode.tstart
abbrev mode_tstart : Fld := ⟨.mode, 0x10240, 63, 0⟩
abbrev mode_tstart_done : Fld := ⟨.mode, 0x10240, 63, 63⟩
abbrev mode_tstart_result : Fld := ⟨.mode, 0x10240, 62, 60⟩
abbrev mode_tstart_thread : Fld := ⟨.mode, 0x10240, 59, 53⟩
abbrev mode_tstart_go : Fld := ⟨.mode, 0x10240, 52, 52⟩
abbrev mode_tstart_addr : Fld := ⟨.mode, 0x10240, 51, 2⟩
-- Table 24.10 (spec/24_boot_and_reset.md): mode.fcarry
abbrev mode_fcarry : Fld := ⟨.mode, 0x10248, 63, 0⟩
abbrev mode_fcarry_failed : Fld := ⟨.mode, 0x10248, 47, 0⟩
-- Table 24.11 (spec/24_boot_and_reset.md): mode.fwload
abbrev mode_fwload : Fld := ⟨.mode, 0x10250, 63, 0⟩
abbrev mode_fwload_en : Fld := ⟨.mode, 0x10250, 63, 63⟩
abbrev mode_fwload_addr : Fld := ⟨.mode, 0x10250, 51, 12⟩
-- Table 25.7 (spec/25_electrical_and_package.md): mode.ind
abbrev mode_ind : Fld := ⟨.mode, 0x10258, 63, 0⟩
abbrev mode_ind_crb : Fld := ⟨.mode, 0x10258, 8, 8⟩
abbrev mode_ind_flt : Fld := ⟨.mode, 0x10258, 5, 4⟩
abbrev mode_ind_idst : Fld := ⟨.mode, 0x10258, 3, 2⟩
abbrev mode_ind_id : Fld := ⟨.mode, 0x10258, 1, 0⟩
-- Table 20.7 (spec/20_interrupts_and_rills.md): dbell.ttab
abbrev dbell_ttab : Fld := ⟨.dbell, 0x1f0000, 63, 0⟩
abbrev dbell_ttab_en : Fld := ⟨.dbell, 0x1f0000, 63, 63⟩
abbrev dbell_ttab_base : Fld := ⟨.dbell, 0x1f0000, 51, 23⟩
abbrev dbell_ttab_res : Fld := ⟨.dbell, 0x1f0000, 3, 0⟩
-- Table 20.8 (spec/20_interrupts_and_rills.md): dbell.tcmd
abbrev dbell_tcmd : Fld := ⟨.dbell, 0x1f0008, 63, 0⟩
abbrev dbell_tcmd_done : Fld := ⟨.dbell, 0x1f0008, 31, 31⟩
abbrev dbell_tcmd_result : Fld := ⟨.dbell, 0x1f0008, 30, 27⟩
abbrev dbell_tcmd_op : Fld := ⟨.dbell, 0x1f0008, 23, 21⟩
abbrev dbell_tcmd_go : Fld := ⟨.dbell, 0x1f0008, 20, 20⟩
abbrev dbell_tcmd_src : Fld := ⟨.dbell, 0x1f0008, 19, 0⟩
-- Table 20.9 (spec/20_interrupts_and_rills.md): dbell.tdata
abbrev dbell_tdata : Fld := ⟨.dbell, 0x1f0010, 63, 0⟩
abbrev dbell_tdata_value : Fld := ⟨.dbell, 0x1f0010, 63, 0⟩
-- Table 20.10 (spec/20_interrupts_and_rills.md): dbell.err
abbrev dbell_err : Fld := ⟨.dbell, 0x1f0018, 63, 0⟩
abbrev dbell_err_page : Fld := ⟨.dbell, 0x1f0018, 43, 36⟩
abbrev dbell_err_src : Fld := ⟨.dbell, 0x1f0018, 35, 16⟩
abbrev dbell_err_new : Fld := ⟨.dbell, 0x1f0018, 15, 15⟩
abbrev dbell_err_code : Fld := ⟨.dbell, 0x1f0018, 7, 0⟩
-- Table 20.11 (spec/20_interrupts_and_rills.md): dbell.cnt
abbrev dbell_cnt : Fld := ⟨.dbell, 0x1f0020, 63, 0⟩
abbrev dbell_cnt_rings : Fld := ⟨.dbell, 0x1f0020, 63, 32⟩
abbrev dbell_cnt_fires : Fld := ⟨.dbell, 0x1f0020, 31, 0⟩
-- Table 20.12 (spec/20_interrupts_and_rills.md): dbell.pg
abbrev dbell_pg (i : Nat) : Fld := ⟨.dbell, 0x1f1000 + 0x8 * i, 63, 0⟩
abbrev dbell_pg_en (i : Nat) : Fld := ⟨.dbell, 0x1f1000 + 0x8 * i, 63, 63⟩
abbrev dbell_pg_first (i : Nat) : Fld := ⟨.dbell, 0x1f1000 + 0x8 * i, 51, 32⟩
abbrev dbell_pg_last (i : Nat) : Fld := ⟨.dbell, 0x1f1000 + 0x8 * i, 19, 0⟩
-- Table 20.13 (spec/20_interrupts_and_rills.md): dbell.sumv
abbrev dbell_sumv (i : Nat) : Fld := ⟨.dbell, 0x1f2000 + 0x8 * i, 63, 0⟩
abbrev dbell_sumv_en (i : Nat) : Fld := ⟨.dbell, 0x1f2000 + 0x8 * i, 63, 63⟩
abbrev dbell_sumv_addr (i : Nat) : Fld := ⟨.dbell, 0x1f2000 + 0x8 * i, 51, 12⟩
-- Table 20.13 (spec/20_interrupts_and_rills.md): dbell.sumt
abbrev dbell_sumt (i : Nat) : Fld := ⟨.dbell, 0x1f4000 + 0x8 * i, 63, 0⟩
abbrev dbell_sumt_en (i : Nat) : Fld := ⟨.dbell, 0x1f4000 + 0x8 * i, 63, 63⟩
abbrev dbell_sumt_addr (i : Nat) : Fld := ⟨.dbell, 0x1f4000 + 0x8 * i, 51, 12⟩
-- Table 20.14 (spec/20_interrupts_and_rills.md): dbell.grp
abbrev dbell_grp (i : Nat) : Fld := ⟨.dbell, 0x1f8000 + 0x8 * i, 63, 0⟩
abbrev dbell_grp_tlim (i : Nat) : Fld := ⟨.dbell, 0x1f8000 + 0x8 * i, 26, 16⟩
abbrev dbell_grp_climit (i : Nat) : Fld := ⟨.dbell, 0x1f8000 + 0x8 * i, 7, 0⟩
-- Table 20.15 (spec/20_interrupts_and_rills.md): rill.post
abbrev rill_post : Fld := ⟨.rill, 0x200000, 63, 0⟩
abbrev rill_post_payload : Fld := ⟨.rill, 0x200000, 63, 32⟩
abbrev rill_post_rill : Fld := ⟨.rill, 0x200000, 11, 0⟩
-- Table 20.16 (spec/20_interrupts_and_rills.md): rill.err
abbrev rill_err : Fld := ⟨.rill, 0x200008, 63, 0⟩
abbrev rill_err_rill : Fld := ⟨.rill, 0x200008, 27, 16⟩
abbrev rill_err_new : Fld := ⟨.rill, 0x200008, 15, 15⟩
abbrev rill_err_code : Fld := ⟨.rill, 0x200008, 7, 0⟩
-- Table 20.17 (spec/20_interrupts_and_rills.md): rill.cnt
abbrev rill_cnt : Fld := ⟨.rill, 0x200010, 63, 0⟩
abbrev rill_cnt_written : Fld := ⟨.rill, 0x200010, 63, 32⟩
abbrev rill_cnt_dropped : Fld := ⟨.rill, 0x200010, 31, 0⟩
-- Table 20.18 (spec/20_interrupts_and_rills.md): rill.r.base
abbrev rill_r_base (i : Nat) : Fld := ⟨.rill, 0x210000 + 0x20 * i, 63, 0⟩
abbrev rill_r_base_en (i : Nat) : Fld := ⟨.rill, 0x210000 + 0x20 * i, 63, 63⟩
abbrev rill_r_base_base (i : Nat) : Fld := ⟨.rill, 0x210000 + 0x20 * i, 51, 12⟩
abbrev rill_r_base_lsize (i : Nat) : Fld := ⟨.rill, 0x210000 + 0x20 * i, 4, 0⟩
-- Table 20.19 (spec/20_interrupts_and_rills.md): rill.r.ci
abbrev rill_r_ci (i : Nat) : Fld := ⟨.rill, 0x210008 + 0x20 * i, 63, 0⟩
abbrev rill_r_ci_addr (i : Nat) : Fld := ⟨.rill, 0x210008 + 0x20 * i, 51, 3⟩
-- Table 20.20 (spec/20_interrupts_and_rills.md): rill.r.ring
abbrev rill_r_ring (i : Nat) : Fld := ⟨.rill, 0x210010 + 0x20 * i, 63, 0⟩
abbrev rill_r_ring_src (i : Nat) : Fld := ⟨.rill, 0x210010 + 0x20 * i, 63, 44⟩
abbrev rill_r_ring_ring (i : Nat) : Fld := ⟨.rill, 0x210010 + 0x20 * i, 43, 43⟩
abbrev rill_r_ring_prod (i : Nat) : Fld := ⟨.rill, 0x210010 + 0x20 * i, 31, 0⟩
-- Table 20.21 (spec/20_interrupts_and_rills.md): rill.r.stat
abbrev rill_r_stat (i : Nat) : Fld := ⟨.rill, 0x210018 + 0x20 * i, 63, 0⟩
abbrev rill_r_stat_pend (i : Nat) : Fld := ⟨.rill, 0x210018 + 0x20 * i, 63, 48⟩
abbrev rill_r_stat_full (i : Nat) : Fld := ⟨.rill, 0x210018 + 0x20 * i, 32, 32⟩
abbrev rill_r_stat_dropped (i : Nat) : Fld := ⟨.rill, 0x210018 + 0x20 * i, 31, 0⟩
-- Table 21.6 (spec/21_cascade_and_weir.md): casc.cfg
abbrev casc_cfg : Fld := ⟨.casc, 0x300000, 63, 0⟩
abbrev casc_cfg_rill_en : Fld := ⟨.casc, 0x300000, 31, 31⟩
abbrev casc_cfg_rill : Fld := ⟨.casc, 0x300000, 27, 16⟩
abbrev casc_cfg_slice : Fld := ⟨.casc, 0x300000, 15, 0⟩
-- Table 21.7 (spec/21_cascade_and_weir.md): casc.ttrh
abbrev casc_ttrh : Fld := ⟨.casc, 0x300008, 63, 0⟩
abbrev casc_ttrh_base : Fld := ⟨.casc, 0x300008, 51, 12⟩
abbrev casc_ttrh_lv : Fld := ⟨.casc, 0x300008, 1, 0⟩
-- Table 21.8 (spec/21_cascade_and_weir.md): casc.vcmd
abbrev casc_vcmd : Fld := ⟨.casc, 0x300010, 63, 0⟩
abbrev casc_vcmd_done : Fld := ⟨.casc, 0x300010, 31, 31⟩
abbrev casc_vcmd_result : Fld := ⟨.casc, 0x300010, 30, 27⟩
abbrev casc_vcmd_op : Fld := ⟨.casc, 0x300010, 23, 21⟩
abbrev casc_vcmd_go : Fld := ⟨.casc, 0x300010, 20, 20⟩
abbrev casc_vcmd_vp : Fld := ⟨.casc, 0x300010, 9, 0⟩
-- Table 21.9 (spec/21_cascade_and_weir.md): casc.cnt
abbrev casc_cnt : Fld := ⟨.casc, 0x300018, 63, 0⟩
abbrev casc_cnt_place : Fld := ⟨.casc, 0x300018, 63, 32⟩
abbrev casc_cnt_preempt : Fld := ⟨.casc, 0x300018, 31, 0⟩
-- Table 21.10 (spec/21_cascade_and_weir.md): casc.err
abbrev casc_err : Fld := ⟨.casc, 0x300020, 63, 0⟩
abbrev casc_err_part : Fld := ⟨.casc, 0x300020, 41, 36⟩
abbrev casc_err_vp : Fld := ⟨.casc, 0x300020, 25, 16⟩
abbrev casc_err_new : Fld := ⟨.casc, 0x300020, 15, 15⟩
abbrev casc_err_code : Fld := ⟨.casc, 0x300020, 7, 0⟩
-- Table 21.11 (spec/21_cascade_and_weir.md): casc.part.ctl
abbrev casc_part_ctl (i : Nat) : Fld := ⟨.casc, 0x300400 + 0x20 * i, 63, 0⟩
abbrev casc_part_ctl_nshare (i : Nat) : Fld := ⟨.casc, 0x300400 + 0x20 * i, 58, 48⟩
abbrev casc_part_ctl_share (i : Nat) : Fld := ⟨.casc, 0x300400 + 0x20 * i, 42, 32⟩
abbrev casc_part_ctl_wake (i : Nat) : Fld := ⟨.casc, 0x300400 + 0x20 * i, 31, 31⟩
abbrev casc_part_ctl_stall (i : Nat) : Fld := ⟨.casc, 0x300400 + 0x20 * i, 15, 0⟩
-- Table 21.12 (spec/21_cascade_and_weir.md): casc.part.ttr2
abbrev casc_part_ttr2 (i : Nat) : Fld := ⟨.casc, 0x300408 + 0x20 * i, 63, 0⟩
abbrev casc_part_ttr2_base (i : Nat) : Fld := ⟨.casc, 0x300408 + 0x20 * i, 51, 12⟩
abbrev casc_part_ttr2_lv (i : Nat) : Fld := ⟨.casc, 0x300408 + 0x20 * i, 1, 0⟩
-- Table 21.13 (spec/21_cascade_and_weir.md): casc.part.st
abbrev casc_part_st (i : Nat) : Fld := ⟨.casc, 0x300410 + 0x20 * i, 63, 0⟩
abbrev casc_part_st_credit (i : Nat) : Fld := ⟨.casc, 0x300410 + 0x20 * i, 63, 32⟩
abbrev casc_part_st_stalled (i : Nat) : Fld := ⟨.casc, 0x300410 + 0x20 * i, 31, 31⟩
abbrev casc_part_st_running (i : Nat) : Fld := ⟨.casc, 0x300410 + 0x20 * i, 17, 11⟩
abbrev casc_part_st_ready (i : Nat) : Fld := ⟨.casc, 0x300410 + 0x20 * i, 10, 0⟩
-- Table 21.14 (spec/21_cascade_and_weir.md): casc.thr
abbrev casc_thr (i : Nat) : Fld := ⟨.casc, 0x300c00 + 0x8 * i, 63, 0⟩
abbrev casc_thr_held (i : Nat) : Fld := ⟨.casc, 0x300c00 + 0x8 * i, 63, 63⟩
abbrev casc_thr_placed (i : Nat) : Fld := ⟨.casc, 0x300c00 + 0x8 * i, 10, 10⟩
abbrev casc_thr_vp (i : Nat) : Fld := ⟨.casc, 0x300c00 + 0x8 * i, 9, 0⟩
-- Table 21.15 (spec/21_cascade_and_weir.md): casc.vp.ctl
abbrev casc_vp_ctl (i : Nat) : Fld := ⟨.casc, 0x308000 + 0x20 * i, 63, 0⟩
abbrev casc_vp_ctl_part (i : Nat) : Fld := ⟨.casc, 0x308000 + 0x20 * i, 61, 56⟩
abbrev casc_vp_ctl_prio (i : Nat) : Fld := ⟨.casc, 0x308000 + 0x20 * i, 51, 48⟩
abbrev casc_vp_ctl_weight (i : Nat) : Fld := ⟨.casc, 0x308000 + 0x20 * i, 47, 40⟩
-- Table 21.16 (spec/21_cascade_and_weir.md): casc.vp.save
abbrev casc_vp_save (i : Nat) : Fld := ⟨.casc, 0x308008 + 0x20 * i, 63, 0⟩
abbrev casc_vp_save_addr (i : Nat) : Fld := ⟨.casc, 0x308008 + 0x20 * i, 51, 10⟩
-- Table 21.17 (spec/21_cascade_and_weir.md): casc.vp.st
abbrev casc_vp_st (i : Nat) : Fld := ⟨.casc, 0x308010 + 0x20 * i, 63, 0⟩
abbrev casc_vp_st_pend (i : Nat) : Fld := ⟨.casc, 0x308010 + 0x20 * i, 15, 15⟩
abbrev casc_vp_st_thread (i : Nat) : Fld := ⟨.casc, 0x308010 + 0x20 * i, 14, 8⟩
abbrev casc_vp_st_reason (i : Nat) : Fld := ⟨.casc, 0x308010 + 0x20 * i, 7, 4⟩
abbrev casc_vp_st_state (i : Nat) : Fld := ⟨.casc, 0x308010 + 0x20 * i, 3, 0⟩
-- Table 21.18 (spec/21_cascade_and_weir.md): casc.vp.tmr
abbrev casc_vp_tmr (i : Nat) : Fld := ⟨.casc, 0x308018 + 0x20 * i, 63, 0⟩
abbrev casc_vp_tmr_tod (i : Nat) : Fld := ⟨.casc, 0x308018 + 0x20 * i, 63, 0⟩
-- Table 21.19 (spec/21_cascade_and_weir.md): weir.limit
abbrev weir_limit : Fld := ⟨.weir, 0x310000, 63, 0⟩
abbrev weir_limit_watts : Fld := ⟨.weir, 0x310000, 11, 0⟩
-- Table 21.20 (spec/21_cascade_and_weir.md): weir.stat
abbrev weir_stat : Fld := ⟨.weir, 0x310008, 63, 0⟩
abbrev weir_stat_avg : Fld := ⟨.weir, 0x310008, 63, 52⟩
abbrev weir_stat_noncore : Fld := ⟨.weir, 0x310008, 51, 40⟩
abbrev weir_stat_peak : Fld := ⟨.weir, 0x310008, 39, 28⟩
abbrev weir_stat_throttle : Fld := ⟨.weir, 0x310008, 16, 16⟩
abbrev weir_stat_inforce : Fld := ⟨.weir, 0x310008, 11, 0⟩
-- Table 21.21 (spec/21_cascade_and_weir.md): weir.cfg
abbrev weir_cfg : Fld := ⟨.weir, 0x310010, 63, 0⟩
abbrev weir_cfg_deep : Fld := ⟨.weir, 0x310010, 31, 16⟩
abbrev weir_cfg_idle : Fld := ⟨.weir, 0x310010, 15, 0⟩
-- Table 21.22 (spec/21_cascade_and_weir.md): weir.cnt
abbrev weir_cnt : Fld := ⟨.weir, 0x310018, 63, 0⟩
abbrev weir_cnt_over : Fld := ⟨.weir, 0x310018, 63, 32⟩
abbrev weir_cnt_thr : Fld := ⟨.weir, 0x310018, 31, 0⟩
-- Table 21.23 (spec/21_cascade_and_weir.md): weir.err
abbrev weir_err : Fld := ⟨.weir, 0x310020, 63, 0⟩
abbrev weir_err_sensor : Fld := ⟨.weir, 0x310020, 40, 32⟩
abbrev weir_err_core : Fld := ⟨.weir, 0x310020, 21, 16⟩
abbrev weir_err_new : Fld := ⟨.weir, 0x310020, 15, 15⟩
abbrev weir_err_code : Fld := ⟨.weir, 0x310020, 7, 0⟩
-- Table 25.3 (spec/25_electrical_and_package.md): weir.supply
abbrev weir_supply : Fld := ⟨.weir, 0x310028, 63, 0⟩
abbrev weir_supply_mv : Fld := ⟨.weir, 0x310028, 63, 48⟩
abbrev weir_supply_rail : Fld := ⟨.weir, 0x310028, 39, 32⟩
abbrev weir_supply_kind : Fld := ⟨.weir, 0x310028, 17, 16⟩
abbrev weir_supply_new : Fld := ⟨.weir, 0x310028, 15, 15⟩
-- Table 21.24 (spec/21_cascade_and_weir.md): weir.core
abbrev weir_core (i : Nat) : Fld := ⟨.weir, 0x311000 + 0x8 * i, 63, 0⟩
abbrev weir_core_ccred (i : Nat) : Fld := ⟨.weir, 0x311000 + 0x8 * i, 63, 48⟩
abbrev weir_core_trim (i : Nat) : Fld := ⟨.weir, 0x311000 + 0x8 * i, 47, 47⟩
abbrev weir_core_head (i : Nat) : Fld := ⟨.weir, 0x311000 + 0x8 * i, 39, 32⟩
abbrev weir_core_ceil (i : Nat) : Fld := ⟨.weir, 0x311000 + 0x8 * i, 23, 16⟩
abbrev weir_core_park (i : Nat) : Fld := ⟨.weir, 0x311000 + 0x8 * i, 9, 8⟩
abbrev weir_core_freq (i : Nat) : Fld := ⟨.weir, 0x311000 + 0x8 * i, 7, 0⟩
-- Table 21.25 (spec/21_cascade_and_weir.md): weir.temp
abbrev weir_temp (i : Nat) : Fld := ⟨.weir, 0x312000 + 0x8 * i, 63, 0⟩
abbrev weir_temp_fail (i : Nat) : Fld := ⟨.weir, 0x312000 + 0x8 * i, 16, 16⟩
abbrev weir_temp_temp (i : Nat) : Fld := ⟨.weir, 0x312000 + 0x8 * i, 15, 0⟩
-- Table 5.15 (spec/05_checkpoint_window_and_retry.md): weir.cstage
abbrev weir_cstage : Fld := ⟨.weir, 0x31f000, 63, 0⟩
abbrev weir_cstage_assign : Fld := ⟨.weir, 0x31f000, 47, 0⟩
-- Table 22.9 (spec/22_spillway_faults.md): spill.cfg
abbrev spill_cfg : Fld := ⟨.spill, 0x400000, 63, 0⟩
abbrev spill_cfg_rill_en : Fld := ⟨.spill, 0x400000, 63, 63⟩
abbrev spill_cfg_rill : Fld := ⟨.spill, 0x400000, 59, 48⟩
abbrev spill_cfg_fence : Fld := ⟨.spill, 0x400000, 43, 32⟩
abbrev spill_cfg_mcthr : Fld := ⟨.spill, 0x400000, 26, 20⟩
abbrev spill_cfg_src : Fld := ⟨.spill, 0x400000, 19, 0⟩
-- Table 22.10 (spec/22_spillway_faults.md): spill.stat
abbrev spill_stat : Fld := ⟨.spill, 0x400008, 63, 0⟩
abbrev spill_stat_lost : Fld := ⟨.spill, 0x400008, 63, 32⟩
abbrev spill_stat_events : Fld := ⟨.spill, 0x400008, 31, 0⟩
-- Table 22.11 (spec/22_spillway_faults.md): spill.errn
abbrev spill_errn : Fld := ⟨.spill, 0x400010, 63, 0⟩
abbrev spill_errn_first : Fld := ⟨.spill, 0x400010, 19, 8⟩
abbrev spill_errn_clr : Fld := ⟨.spill, 0x400010, 1, 1⟩
abbrev spill_errn_asserted : Fld := ⟨.spill, 0x400010, 0, 0⟩
-- Table 22.12 (spec/22_spillway_faults.md): spill.rcause
abbrev spill_rcause : Fld := ⟨.spill, 0x400018, 63, 0⟩
abbrev spill_rcause_tod : Fld := ⟨.spill, 0x400018, 63, 32⟩
abbrev spill_rcause_src : Fld := ⟨.spill, 0x400018, 27, 16⟩
abbrev spill_rcause_cause : Fld := ⟨.spill, 0x400018, 3, 0⟩
-- Table 22.13 (spec/22_spillway_faults.md): spill.brst
abbrev spill_brst : Fld := ⟨.spill, 0x400020, 63, 0⟩
abbrev spill_brst_done : Fld := ⟨.spill, 0x400020, 23, 23⟩
abbrev spill_brst_result : Fld := ⟨.spill, 0x400020, 22, 20⟩
abbrev spill_brst_go : Fld := ⟨.spill, 0x400020, 8, 8⟩
abbrev spill_brst_block : Fld := ⟨.spill, 0x400020, 7, 0⟩
-- Table 22.14 (spec/22_spillway_faults.md): spill.inj
abbrev spill_inj : Fld := ⟨.spill, 0x400028, 63, 0⟩
abbrev spill_inj_res : Fld := ⟨.spill, 0x400028, 30, 28⟩
abbrev spill_inj_mode : Fld := ⟨.spill, 0x400028, 25, 24⟩
abbrev spill_inj_go : Fld := ⟨.spill, 0x400028, 20, 20⟩
abbrev spill_inj_src : Fld := ⟨.spill, 0x400028, 11, 0⟩
-- Table 22.15 (spec/22_spillway_faults.md): spill.blk
abbrev spill_blk (i : Nat) : Fld := ⟨.spill, 0x400100 + 0x8 * i, 63, 0⟩
abbrev spill_blk_resets (i : Nat) : Fld := ⟨.spill, 0x400100 + 0x8 * i, 63, 32⟩
abbrev spill_blk_src (i : Nat) : Fld := ⟨.spill, 0x400100 + 0x8 * i, 19, 8⟩
abbrev spill_blk_state (i : Nat) : Fld := ⟨.spill, 0x400100 + 0x8 * i, 2, 0⟩
-- Table 22.16 (spec/22_spillway_faults.md): spill.src.ctl
abbrev spill_src_ctl (i : Nat) : Fld := ⟨.spill, 0x410000 + 0x20 * i, 63, 0⟩
abbrev spill_src_ctl_min (i : Nat) : Fld := ⟨.spill, 0x410000 + 0x20 * i, 59, 57⟩
abbrev spill_src_ctl_latch (i : Nat) : Fld := ⟨.spill, 0x410000 + 0x20 * i, 56, 56⟩
abbrev spill_src_ctl_wsc (i : Nat) : Fld := ⟨.spill, 0x410000 + 0x20 * i, 55, 55⟩
abbrev spill_src_ctl_w (i : Nat) : Fld := ⟨.spill, 0x410000 + 0x20 * i, 47, 24⟩
abbrev spill_src_ctl_n (i : Nat) : Fld := ⟨.spill, 0x410000 + 0x20 * i, 23, 16⟩
abbrev spill_src_ctl_sev_errn (i : Nat) : Fld := ⟨.spill, 0x410000 + 0x20 * i, 11, 11⟩
abbrev spill_src_ctl_sev (i : Nat) : Fld := ⟨.spill, 0x410000 + 0x20 * i, 10, 8⟩
abbrev spill_src_ctl_ord_errn (i : Nat) : Fld := ⟨.spill, 0x410000 + 0x20 * i, 3, 3⟩
abbrev spill_src_ctl_ord (i : Nat) : Fld := ⟨.spill, 0x410000 + 0x20 * i, 2, 0⟩
-- Table 22.17 (spec/22_spillway_faults.md): spill.src.st
abbrev spill_src_st (i : Nat) : Fld := ⟨.spill, 0x410008 + 0x20 * i, 63, 0⟩
abbrev spill_src_st_cons (i : Nat) : Fld := ⟨.spill, 0x410008 + 0x20 * i, 41, 41⟩
abbrev spill_src_st_severe (i : Nat) : Fld := ⟨.spill, 0x410008 + 0x20 * i, 40, 40⟩
abbrev spill_src_st_bucket (i : Nat) : Fld := ⟨.spill, 0x410008 + 0x20 * i, 31, 0⟩
-- Table 22.18 (spec/22_spillway_faults.md): spill.src.cnt
abbrev spill_src_cnt (i : Nat) : Fld := ⟨.spill, 0x410010 + 0x20 * i, 63, 0⟩
abbrev spill_src_cnt_count (i : Nat) : Fld := ⟨.spill, 0x410010 + 0x20 * i, 63, 32⟩
abbrev spill_src_cnt_cons (i : Nat) : Fld := ⟨.spill, 0x410010 + 0x20 * i, 31, 0⟩
-- Table 12.9 (spec/12_grotto_enclaves.md): grotto.ctl
abbrev grotto_ctl : Fld := ⟨.grotto, 0x500000, 63, 0⟩
abbrev grotto_ctl_en : Fld := ⟨.grotto, 0x500000, 63, 63⟩
abbrev grotto_ctl_noesc : Fld := ⟨.grotto, 0x500000, 62, 62⟩
-- Table 12.10 (spec/12_grotto_enclaves.md): grotto.stat
abbrev grotto_stat : Fld := ⟨.grotto, 0x500008, 63, 0⟩
abbrev grotto_stat_inuse : Fld := ⟨.grotto, 0x500008, 28, 16⟩
abbrev grotto_stat_cause : Fld := ⟨.grotto, 0x500008, 11, 8⟩
abbrev grotto_stat_state : Fld := ⟨.grotto, 0x500008, 3, 0⟩
-- Table 12.11 (spec/12_grotto_enclaves.md): grotto.wd
abbrev grotto_wd : Fld := ⟨.grotto, 0x500010, 63, 0⟩
abbrev grotto_wd_left : Fld := ⟨.grotto, 0x500010, 43, 32⟩
abbrev grotto_wd_kick : Fld := ⟨.grotto, 0x500010, 0, 0⟩
-- Table 12.12 (spec/12_grotto_enclaves.md): grotto.dbg
abbrev grotto_dbg : Fld := ⟨.grotto, 0x500018, 63, 0⟩
abbrev grotto_dbg_all : Fld := ⟨.grotto, 0x500018, 28, 28⟩
abbrev grotto_dbg_scope : Fld := ⟨.grotto, 0x500018, 23, 12⟩
abbrev grotto_dbg_clr : Fld := ⟨.grotto, 0x500018, 8, 8⟩
abbrev grotto_dbg_f_inv : Fld := ⟨.grotto, 0x500018, 5, 5⟩
abbrev grotto_dbg_f_ni : Fld := ⟨.grotto, 0x500018, 4, 4⟩
abbrev grotto_dbg_e_inv : Fld := ⟨.grotto, 0x500018, 3, 3⟩
abbrev grotto_dbg_e_ni : Fld := ⟨.grotto, 0x500018, 2, 2⟩
abbrev grotto_dbg_n_inv : Fld := ⟨.grotto, 0x500018, 1, 1⟩
abbrev grotto_dbg_n_ni : Fld := ⟨.grotto, 0x500018, 0, 0⟩
-- Table 12.13 (spec/12_grotto_enclaves.md): grotto.dbgst
abbrev grotto_dbgst : Fld := ⟨.grotto, 0x500020, 63, 0⟩
abbrev grotto_dbgst_done : Fld := ⟨.grotto, 0x500020, 4, 4⟩
abbrev grotto_dbgst_result : Fld := ⟨.grotto, 0x500020, 3, 0⟩
-- Table 12.14 (spec/12_grotto_enclaves.md): grotto.nonce
abbrev grotto_nonce : Fld := ⟨.grotto, 0x500028, 63, 0⟩
abbrev grotto_nonce_nonce : Fld := ⟨.grotto, 0x500028, 63, 0⟩
-- Table 12.15 (spec/12_grotto_enclaves.md): grotto.owner
abbrev grotto_owner (i : Nat) : Fld := ⟨.grotto, 0x500030 + 0x8 * i, 63, 0⟩
abbrev grotto_owner_digest (i : Nat) : Fld := ⟨.grotto, 0x500030 + 0x8 * i, 63, 0⟩
-- Table 12.16 (spec/12_grotto_enclaves.md): grotto.cmd
abbrev grotto_cmd : Fld := ⟨.grotto, 0x500060, 63, 0⟩
abbrev grotto_cmd_done : Fld := ⟨.grotto, 0x500060, 60, 60⟩
abbrev grotto_cmd_result : Fld := ⟨.grotto, 0x500060, 59, 56⟩
abbrev grotto_cmd_addr : Fld := ⟨.grotto, 0x500060, 51, 7⟩
abbrev grotto_cmd_op : Fld := ⟨.grotto, 0x500060, 3, 1⟩
abbrev grotto_cmd_go : Fld := ⟨.grotto, 0x500060, 0, 0⟩
-- Table 12.17 (spec/12_grotto_enclaves.md): grotto.frz
abbrev grotto_frz : Fld := ⟨.grotto, 0x500068, 63, 0⟩
abbrev grotto_frz_tiers : Fld := ⟨.grotto, 0x500068, 51, 48⟩
abbrev grotto_frz_cores : Fld := ⟨.grotto, 0x500068, 47, 0⟩
-- Table 12.18 (spec/12_grotto_enclaves.md): grotto.err
abbrev grotto_err : Fld := ⟨.grotto, 0x500070, 63, 0⟩
abbrev grotto_err_encl : Fld := ⟨.grotto, 0x500070, 27, 16⟩
abbrev grotto_err_new : Fld := ⟨.grotto, 0x500070, 15, 15⟩
abbrev grotto_err_code : Fld := ⟨.grotto, 0x500070, 7, 0⟩
-- Table 13.7 (spec/13_compression_unit.md): cmpu.err
abbrev cmpu_err (i : Nat) : Fld := ⟨.acc, 0x600000 + 0x80000 * i, 63, 0⟩
abbrev cmpu_err_inst (i : Nat) : Fld := ⟨.acc, 0x600000 + 0x80000 * i, 21, 16⟩
abbrev cmpu_err_new (i : Nat) : Fld := ⟨.acc, 0x600000 + 0x80000 * i, 15, 15⟩
abbrev cmpu_err_code (i : Nat) : Fld := ⟨.acc, 0x600000 + 0x80000 * i, 7, 0⟩
-- Table 13.8 (spec/13_compression_unit.md): cmpu.cnt
abbrev cmpu_cnt (i : Nat) : Fld := ⟨.acc, 0x600008 + 0x80000 * i, 63, 0⟩
abbrev cmpu_cnt_kin (i : Nat) : Fld := ⟨.acc, 0x600008 + 0x80000 * i, 63, 32⟩
abbrev cmpu_cnt_kout (i : Nat) : Fld := ⟨.acc, 0x600008 + 0x80000 * i, 31, 0⟩
-- Table 13.9 (spec/13_compression_unit.md): cmpu.rate
abbrev cmpu_rate (i : Nat) : Fld := ⟨.acc, 0x600010 + 0x80000 * i, 63, 0⟩
abbrev cmpu_rate_slot (i : Nat) : Fld := ⟨.acc, 0x600010 + 0x80000 * i, 10, 0⟩
-- Table 13.10 (spec/13_compression_unit.md): cmpu.irill
abbrev cmpu_irill (i j : Nat) : Fld := ⟨.acc, 0x600800 + 0x80000 * i + 0x8 * j, 63, 0⟩
abbrev cmpu_irill_en (i j : Nat) : Fld := ⟨.acc, 0x600800 + 0x80000 * i + 0x8 * j, 15, 15⟩
abbrev cmpu_irill_rill (i j : Nat) : Fld := ⟨.acc, 0x600800 + 0x80000 * i + 0x8 * j, 11, 0⟩
-- Table 15.7 (spec/15_shared_instances.md): u.ictl
abbrev u_ictl (i j : Nat) : Fld := ⟨.acc, 0x602000 + 0x80000 * i + 0x40 * j, 63, 0⟩
abbrev u_ictl_done (i j : Nat) : Fld := ⟨.acc, 0x602000 + 0x80000 * i + 0x40 * j, 31, 31⟩
abbrev u_ictl_result (i j : Nat) : Fld := ⟨.acc, 0x602000 + 0x80000 * i + 0x40 * j, 27, 24⟩
abbrev u_ictl_asg (i j : Nat) : Fld := ⟨.acc, 0x602000 + 0x80000 * i + 0x40 * j, 17, 17⟩
abbrev u_ictl_state (i j : Nat) : Fld := ⟨.acc, 0x602000 + 0x80000 * i + 0x40 * j, 11, 8⟩
abbrev u_ictl_op (i j : Nat) : Fld := ⟨.acc, 0x602000 + 0x80000 * i + 0x40 * j, 7, 4⟩
abbrev u_ictl_go (i j : Nat) : Fld := ⟨.acc, 0x602000 + 0x80000 * i + 0x40 * j, 0, 0⟩
-- Table 15.8 (spec/15_shared_instances.md): u.ittr2
abbrev u_ittr2 (i j : Nat) : Fld := ⟨.acc, 0x602008 + 0x80000 * i + 0x40 * j, 63, 0⟩
abbrev u_ittr2_part (i j : Nat) : Fld := ⟨.acc, 0x602008 + 0x80000 * i + 0x40 * j, 57, 52⟩
abbrev u_ittr2_base (i j : Nat) : Fld := ⟨.acc, 0x602008 + 0x80000 * i + 0x40 * j, 51, 12⟩
abbrev u_ittr2_lv (i j : Nat) : Fld := ⟨.acc, 0x602008 + 0x80000 * i + 0x40 * j, 1, 0⟩
-- Table 15.9 (spec/15_shared_instances.md): u.idlog
abbrev u_idlog (i j : Nat) : Fld := ⟨.acc, 0x602010 + 0x80000 * i + 0x40 * j, 63, 0⟩
abbrev u_idlog_en (i j : Nat) : Fld := ⟨.acc, 0x602010 + 0x80000 * i + 0x40 * j, 63, 63⟩
abbrev u_idlog_base (i j : Nat) : Fld := ⟨.acc, 0x602010 + 0x80000 * i + 0x40 * j, 51, 12⟩
abbrev u_idlog_over (i j : Nat) : Fld := ⟨.acc, 0x602010 + 0x80000 * i + 0x40 * j, 0, 0⟩
-- Table 15.10 (spec/15_shared_instances.md): u.idlim
abbrev u_idlim (i j : Nat) : Fld := ⟨.acc, 0x602018 + 0x80000 * i + 0x40 * j, 63, 0⟩
abbrev u_idlim_size (i j : Nat) : Fld := ⟨.acc, 0x602018 + 0x80000 * i + 0x40 * j, 39, 0⟩
-- Table 15.11 (spec/15_shared_instances.md): u.isave
abbrev u_isave (i j : Nat) : Fld := ⟨.acc, 0x602020 + 0x80000 * i + 0x40 * j, 63, 0⟩
abbrev u_isave_addr (i j : Nat) : Fld := ⟨.acc, 0x602020 + 0x80000 * i + 0x40 * j, 51, 8⟩
-- Table 13.11 (spec/13_compression_unit.md): cmpu.i.sub
abbrev cmpu_i_sub (i j : Nat) : Fld := ⟨.acc, 0x610000 + 0x80000 * i + 0x1000 * j, 63, 0⟩
abbrev cmpu_i_sub_addr (i j : Nat) : Fld := ⟨.acc, 0x610000 + 0x80000 * i + 0x1000 * j, 63, 7⟩
-- Table 13.12 (spec/13_compression_unit.md): cmpu.i.stat
abbrev cmpu_i_stat (i j : Nat) : Fld := ⟨.acc, 0x610008 + 0x80000 * i + 0x1000 * j, 63, 0⟩
abbrev cmpu_i_stat_refused (i j : Nat) : Fld := ⟨.acc, 0x610008 + 0x80000 * i + 0x1000 * j, 63, 32⟩
abbrev cmpu_i_stat_lstat (i j : Nat) : Fld := ⟨.acc, 0x610008 + 0x80000 * i + 0x1000 * j, 23, 16⟩
abbrev cmpu_i_stat_lnew (i j : Nat) : Fld := ⟨.acc, 0x610008 + 0x80000 * i + 0x1000 * j, 15, 15⟩
abbrev cmpu_i_stat_aborting (i j : Nat) : Fld := ⟨.acc, 0x610008 + 0x80000 * i + 0x1000 * j, 12, 12⟩
abbrev cmpu_i_stat_stream (i j : Nat) : Fld := ⟨.acc, 0x610008 + 0x80000 * i + 0x1000 * j, 11, 10⟩
abbrev cmpu_i_stat_queued (i j : Nat) : Fld := ⟨.acc, 0x610008 + 0x80000 * i + 0x1000 * j, 4, 0⟩
-- Table 13.13 (spec/13_compression_unit.md): cmpu.i.last
abbrev cmpu_i_last (i j : Nat) : Fld := ⟨.acc, 0x610010 + 0x80000 * i + 0x1000 * j, 63, 0⟩
abbrev cmpu_i_last_addr (i j : Nat) : Fld := ⟨.acc, 0x610010 + 0x80000 * i + 0x1000 * j, 63, 7⟩
-- Table 13.14 (spec/13_compression_unit.md): cmpu.i.ctl
abbrev cmpu_i_ctl (i j : Nat) : Fld := ⟨.acc, 0x610018 + 0x80000 * i + 0x1000 * j, 63, 0⟩
abbrev cmpu_i_ctl_abort (i j : Nat) : Fld := ⟨.acc, 0x610018 + 0x80000 * i + 0x1000 * j, 0, 0⟩
-- Table 13.15 (spec/13_compression_unit.md): cmpu.i.cnt
abbrev cmpu_i_cnt (i j : Nat) : Fld := ⟨.acc, 0x610020 + 0x80000 * i + 0x1000 * j, 63, 0⟩
abbrev cmpu_i_cnt_done (i j : Nat) : Fld := ⟨.acc, 0x610020 + 0x80000 * i + 0x1000 * j, 63, 32⟩
abbrev cmpu_i_cnt_err (i j : Nat) : Fld := ⟨.acc, 0x610020 + 0x80000 * i + 0x1000 * j, 31, 0⟩
-- Table 15.12 (spec/15_shared_instances.md): u.i.ttr1
abbrev u_i_ttr1 (i j : Nat) : Fld := ⟨.acc, 0x610028 + 0x80000 * i + 0x1000 * j, 63, 0⟩
abbrev u_i_ttr1_asid (i j : Nat) : Fld := ⟨.acc, 0x610028 + 0x80000 * i + 0x1000 * j, 63, 52⟩
abbrev u_i_ttr1_base (i j : Nat) : Fld := ⟨.acc, 0x610028 + 0x80000 * i + 0x1000 * j, 51, 12⟩
abbrev u_i_ttr1_usr (i j : Nat) : Fld := ⟨.acc, 0x610028 + 0x80000 * i + 0x1000 * j, 2, 2⟩
abbrev u_i_ttr1_lv (i j : Nat) : Fld := ⟨.acc, 0x610028 + 0x80000 * i + 0x1000 * j, 1, 0⟩
-- Table 15.13 (spec/15_shared_instances.md): u.i.flt
abbrev u_i_flt (i j : Nat) : Fld := ⟨.acc, 0x610030 + 0x80000 * i + 0x1000 * j, 63, 0⟩
abbrev u_i_flt_new (i j : Nat) : Fld := ⟨.acc, 0x610030 + 0x80000 * i + 0x1000 * j, 23, 23⟩
abbrev u_i_flt_wrej (i j : Nat) : Fld := ⟨.acc, 0x610030 + 0x80000 * i + 0x1000 * j, 22, 22⟩
abbrev u_i_flt_lvl (i j : Nat) : Fld := ⟨.acc, 0x610030 + 0x80000 * i + 0x1000 * j, 18, 16⟩
abbrev u_i_flt_kind (i j : Nat) : Fld := ⟨.acc, 0x610030 + 0x80000 * i + 0x1000 * j, 15, 12⟩
abbrev u_i_flt_s2 (i j : Nat) : Fld := ⟨.acc, 0x610030 + 0x80000 * i + 0x1000 * j, 8, 8⟩
abbrev u_i_flt_reason (i j : Nat) : Fld := ⟨.acc, 0x610030 + 0x80000 * i + 0x1000 * j, 7, 0⟩
-- Table 15.14 (spec/15_shared_instances.md): u.i.fta
abbrev u_i_fta (i j : Nat) : Fld := ⟨.acc, 0x610038 + 0x80000 * i + 0x1000 * j, 63, 0⟩
abbrev u_i_fta_va (i j : Nat) : Fld := ⟨.acc, 0x610038 + 0x80000 * i + 0x1000 * j, 63, 0⟩
-- Table 14.12 (spec/14_cryptographic_unit.md): cryu.err
abbrev cryu_err (i : Nat) : Fld := ⟨.acc, 0x700000 + 0x80000 * i, 63, 0⟩
abbrev cryu_err_inst (i : Nat) : Fld := ⟨.acc, 0x700000 + 0x80000 * i, 21, 16⟩
abbrev cryu_err_new (i : Nat) : Fld := ⟨.acc, 0x700000 + 0x80000 * i, 15, 15⟩
abbrev cryu_err_code (i : Nat) : Fld := ⟨.acc, 0x700000 + 0x80000 * i, 7, 0⟩
-- Table 14.13 (spec/14_cryptographic_unit.md): cryu.rate
abbrev cryu_rate (i : Nat) : Fld := ⟨.acc, 0x700010 + 0x80000 * i, 63, 0⟩
abbrev cryu_rate_slot (i : Nat) : Fld := ⟨.acc, 0x700010 + 0x80000 * i, 10, 0⟩
-- Table 14.14 (spec/14_cryptographic_unit.md): cryu.rbg
abbrev cryu_rbg (i : Nat) : Fld := ⟨.acc, 0x700018 + 0x80000 * i, 63, 0⟩
abbrev cryu_rbg_fails (i : Nat) : Fld := ⟨.acc, 0x700018 + 0x80000 * i, 63, 32⟩
abbrev cryu_rbg_state (i : Nat) : Fld := ⟨.acc, 0x700018 + 0x80000 * i, 1, 0⟩
-- Table 14.15 (spec/14_cryptographic_unit.md): cryu.irill
abbrev cryu_irill (i j : Nat) : Fld := ⟨.acc, 0x700800 + 0x80000 * i + 0x8 * j, 63, 0⟩
abbrev cryu_irill_en (i j : Nat) : Fld := ⟨.acc, 0x700800 + 0x80000 * i + 0x8 * j, 15, 15⟩
abbrev cryu_irill_rill (i j : Nat) : Fld := ⟨.acc, 0x700800 + 0x80000 * i + 0x8 * j, 11, 0⟩
-- Table 14.16 (spec/14_cryptographic_unit.md): cryu.kpol
abbrev cryu_kpol (i j : Nat) : Fld := ⟨.acc, 0x700c00 + 0x80000 * i + 0x8 * j, 63, 0⟩
abbrev cryu_kpol_wkerr (i j : Nat) : Fld := ⟨.acc, 0x700c00 + 0x80000 * i + 0x8 * j, 2, 2⟩
abbrev cryu_kpol_wkset (i j : Nat) : Fld := ⟨.acc, 0x700c00 + 0x80000 * i + 0x8 * j, 1, 1⟩
abbrev cryu_kpol_plain (i j : Nat) : Fld := ⟨.acc, 0x700c00 + 0x80000 * i + 0x8 * j, 0, 0⟩
-- Table 14.17 (spec/14_cryptographic_unit.md): cryu.wkey
abbrev cryu_wkey (i j k : Nat) : Fld := ⟨.acc, 0x701000 + 0x80000 * i + 0x20 * j + 0x8 * k, 63, 0⟩
abbrev cryu_wkey_key (i j k : Nat) : Fld := ⟨.acc, 0x701000 + 0x80000 * i + 0x20 * j + 0x8 * k, 63, 0⟩
-- Table 14.18 (spec/14_cryptographic_unit.md): cryu.i.sub
abbrev cryu_i_sub (i j : Nat) : Fld := ⟨.acc, 0x710000 + 0x80000 * i + 0x1000 * j, 63, 0⟩
abbrev cryu_i_sub_addr (i j : Nat) : Fld := ⟨.acc, 0x710000 + 0x80000 * i + 0x1000 * j, 63, 7⟩
-- Table 14.19 (spec/14_cryptographic_unit.md): cryu.i.stat
abbrev cryu_i_stat (i j : Nat) : Fld := ⟨.acc, 0x710008 + 0x80000 * i + 0x1000 * j, 63, 0⟩
abbrev cryu_i_stat_refused (i j : Nat) : Fld := ⟨.acc, 0x710008 + 0x80000 * i + 0x1000 * j, 63, 32⟩
abbrev cryu_i_stat_lstat (i j : Nat) : Fld := ⟨.acc, 0x710008 + 0x80000 * i + 0x1000 * j, 23, 16⟩
abbrev cryu_i_stat_lnew (i j : Nat) : Fld := ⟨.acc, 0x710008 + 0x80000 * i + 0x1000 * j, 15, 15⟩
abbrev cryu_i_stat_aborting (i j : Nat) : Fld := ⟨.acc, 0x710008 + 0x80000 * i + 0x1000 * j, 12, 12⟩
abbrev cryu_i_stat_queued (i j : Nat) : Fld := ⟨.acc, 0x710008 + 0x80000 * i + 0x1000 * j, 4, 0⟩
-- Table 14.20 (spec/14_cryptographic_unit.md): cryu.i.last
abbrev cryu_i_last (i j : Nat) : Fld := ⟨.acc, 0x710010 + 0x80000 * i + 0x1000 * j, 63, 0⟩
abbrev cryu_i_last_addr (i j : Nat) : Fld := ⟨.acc, 0x710010 + 0x80000 * i + 0x1000 * j, 63, 7⟩
-- Table 14.21 (spec/14_cryptographic_unit.md): cryu.i.ctl
abbrev cryu_i_ctl (i j : Nat) : Fld := ⟨.acc, 0x710018 + 0x80000 * i + 0x1000 * j, 63, 0⟩
abbrev cryu_i_ctl_abort (i j : Nat) : Fld := ⟨.acc, 0x710018 + 0x80000 * i + 0x1000 * j, 0, 0⟩
-- Table 14.22 (spec/14_cryptographic_unit.md): cryu.i.cnt
abbrev cryu_i_cnt (i j : Nat) : Fld := ⟨.acc, 0x710020 + 0x80000 * i + 0x1000 * j, 63, 0⟩
abbrev cryu_i_cnt_done (i j : Nat) : Fld := ⟨.acc, 0x710020 + 0x80000 * i + 0x1000 * j, 63, 32⟩
abbrev cryu_i_cnt_err (i j : Nat) : Fld := ⟨.acc, 0x710020 + 0x80000 * i + 0x1000 * j, 31, 0⟩
-- Table 16.13 (spec/16_channel_subsystem.md): chan.cfg
abbrev chan_cfg : Fld := ⟨.chan, 0x800000, 63, 0⟩
abbrev chan_cfg_pxhold : Fld := ⟨.chan, 0x800000, 47, 32⟩
abbrev chan_cfg_probe : Fld := ⟨.chan, 0x800000, 31, 24⟩
abbrev chan_cfg_xtmo : Fld := ⟨.chan, 0x800000, 19, 0⟩
-- Table 16.14 (spec/16_channel_subsystem.md): chan.sct
abbrev chan_sct : Fld := ⟨.chan, 0x800008, 63, 0⟩
abbrev chan_sct_en : Fld := ⟨.chan, 0x800008, 63, 63⟩
abbrev chan_sct_base : Fld := ⟨.chan, 0x800008, 51, 25⟩
-- Table 16.15 (spec/16_channel_subsystem.md): chan.err
abbrev chan_err : Fld := ⟨.chan, 0x800010, 63, 0⟩
abbrev chan_err_scid : Fld := ⟨.chan, 0x800010, 41, 24⟩
abbrev chan_err_path : Fld := ⟨.chan, 0x800010, 23, 21⟩
abbrev chan_err_port : Fld := ⟨.chan, 0x800010, 20, 16⟩
abbrev chan_err_new : Fld := ⟨.chan, 0x800010, 15, 15⟩
abbrev chan_err_cp : Fld := ⟨.chan, 0x800010, 14, 11⟩
abbrev chan_err_code : Fld := ⟨.chan, 0x800010, 7, 0⟩
-- Table 16.16 (spec/16_channel_subsystem.md): chan.cpst
abbrev chan_cpst : Fld := ⟨.chan, 0x800018, 63, 0⟩
abbrev chan_cpst_stopped : Fld := ⟨.chan, 0x800018, 47, 32⟩
abbrev chan_cpst_present : Fld := ⟨.chan, 0x800018, 15, 0⟩
-- Table 16.17 (spec/16_channel_subsystem.md): chan.cnt
abbrev chan_cnt : Fld := ⟨.chan, 0x800020, 63, 0⟩
abbrev chan_cnt_starts : Fld := ⟨.chan, 0x800020, 63, 32⟩
abbrev chan_cnt_redrv : Fld := ⟨.chan, 0x800020, 31, 0⟩
-- Table 16.18 (spec/16_channel_subsystem.md): chan.cnt1
abbrev chan_cnt1 : Fld := ⟨.chan, 0x800028, 63, 0⟩
abbrev chan_cnt1_pxdone : Fld := ⟨.chan, 0x800028, 63, 32⟩
abbrev chan_cnt1_pfail : Fld := ⟨.chan, 0x800028, 31, 0⟩
-- Table 16.19 (spec/16_channel_subsystem.md): chan.scmd
abbrev chan_scmd : Fld := ⟨.chan, 0x800030, 63, 0⟩
abbrev chan_scmd_done : Fld := ⟨.chan, 0x800030, 31, 31⟩
abbrev chan_scmd_result : Fld := ⟨.chan, 0x800030, 30, 27⟩
abbrev chan_scmd_path : Fld := ⟨.chan, 0x800030, 26, 24⟩
abbrev chan_scmd_op : Fld := ⟨.chan, 0x800030, 23, 21⟩
abbrev chan_scmd_go : Fld := ⟨.chan, 0x800030, 20, 20⟩
abbrev chan_scmd_scid : Fld := ⟨.chan, 0x800030, 17, 0⟩
-- Table 16.20 (spec/16_channel_subsystem.md): chan.scmda
abbrev chan_scmda : Fld := ⟨.chan, 0x800038, 63, 0⟩
abbrev chan_scmda_addr : Fld := ⟨.chan, 0x800038, 51, 7⟩
-- Table 16.21 (spec/16_channel_subsystem.md): chan.pttr2
abbrev chan_pttr2 (i : Nat) : Fld := ⟨.chan, 0x801000 + 0x8 * i, 63, 0⟩
abbrev chan_pttr2_base (i : Nat) : Fld := ⟨.chan, 0x801000 + 0x8 * i, 51, 12⟩
abbrev chan_pttr2_lv (i : Nat) : Fld := ⟨.chan, 0x801000 + 0x8 * i, 1, 0⟩
-- Table 16.22 (spec/16_channel_subsystem.md): chan.pdlog
abbrev chan_pdlog (i : Nat) : Fld := ⟨.chan, 0x801200 + 0x8 * i, 63, 0⟩
abbrev chan_pdlog_en (i : Nat) : Fld := ⟨.chan, 0x801200 + 0x8 * i, 63, 63⟩
abbrev chan_pdlog_base (i : Nat) : Fld := ⟨.chan, 0x801200 + 0x8 * i, 51, 12⟩
abbrev chan_pdlog_over (i : Nat) : Fld := ⟨.chan, 0x801200 + 0x8 * i, 0, 0⟩
-- Table 16.23 (spec/16_channel_subsystem.md): chan.pdlim
abbrev chan_pdlim (i : Nat) : Fld := ⟨.chan, 0x801400 + 0x8 * i, 63, 0⟩
abbrev chan_pdlim_size (i : Nat) : Fld := ⟨.chan, 0x801400 + 0x8 * i, 39, 0⟩
-- Table 17.15 (spec/17_jalper_link_and_reservoir.md): chan.rsv.base
abbrev chan_rsv_base : Fld := ⟨.chan, 0x803000, 63, 0⟩
abbrev chan_rsv_base_en : Fld := ⟨.chan, 0x803000, 63, 63⟩
abbrev chan_rsv_base_base : Fld := ⟨.chan, 0x803000, 51, 20⟩
-- Table 17.16 (spec/17_jalper_link_and_reservoir.md): chan.rsv.lim
abbrev chan_rsv_lim : Fld := ⟨.chan, 0x803008, 63, 0⟩
abbrev chan_rsv_lim_lim : Fld := ⟨.chan, 0x803008, 51, 20⟩
-- Table 17.17 (spec/17_jalper_link_and_reservoir.md): chan.rsv.peer
abbrev chan_rsv_peer : Fld := ⟨.chan, 0x803010, 63, 0⟩
abbrev chan_rsv_peer_en : Fld := ⟨.chan, 0x803010, 63, 63⟩
abbrev chan_rsv_peer_strict : Fld := ⟨.chan, 0x803010, 62, 62⟩
abbrev chan_rsv_peer_pb : Fld := ⟨.chan, 0x803010, 12, 8⟩
abbrev chan_rsv_peer_pa : Fld := ⟨.chan, 0x803010, 4, 0⟩
-- Table 17.18 (spec/17_jalper_link_and_reservoir.md): chan.rsv.stat
abbrev chan_rsv_stat : Fld := ⟨.chan, 0x803018, 63, 0⟩
abbrev chan_rsv_stat_gen : Fld := ⟨.chan, 0x803018, 63, 48⟩
abbrev chan_rsv_stat_used : Fld := ⟨.chan, 0x803018, 47, 24⟩
abbrev chan_rsv_stat_peer : Fld := ⟨.chan, 0x803018, 7, 6⟩
abbrev chan_rsv_stat_cfg : Fld := ⟨.chan, 0x803018, 3, 0⟩
-- Table 17.19 (spec/17_jalper_link_and_reservoir.md): chan.rsv.orph
abbrev chan_rsv_orph : Fld := ⟨.chan, 0x803020, 63, 0⟩
abbrev chan_rsv_orph_orphan : Fld := ⟨.chan, 0x803020, 63, 32⟩
abbrev chan_rsv_orph_ceded : Fld := ⟨.chan, 0x803020, 31, 0⟩
-- Table 17.20 (spec/17_jalper_link_and_reservoir.md): chan.rsv.cmd
abbrev chan_rsv_cmd : Fld := ⟨.chan, 0x803028, 63, 0⟩
abbrev chan_rsv_cmd_slot : Fld := ⟨.chan, 0x803028, 63, 32⟩
abbrev chan_rsv_cmd_done : Fld := ⟨.chan, 0x803028, 31, 31⟩
abbrev chan_rsv_cmd_result : Fld := ⟨.chan, 0x803028, 30, 27⟩
abbrev chan_rsv_cmd_op : Fld := ⟨.chan, 0x803028, 23, 21⟩
abbrev chan_rsv_cmd_go : Fld := ⟨.chan, 0x803028, 20, 20⟩
-- Table 17.21 (spec/17_jalper_link_and_reservoir.md): chan.rsv.cmda
abbrev chan_rsv_cmda : Fld := ⟨.chan, 0x803030, 63, 0⟩
abbrev chan_rsv_cmda_addr : Fld := ⟨.chan, 0x803030, 51, 8⟩
-- Table 17.22 (spec/17_jalper_link_and_reservoir.md): chan.rsv.cnt
abbrev chan_rsv_cnt : Fld := ⟨.chan, 0x803038, 63, 0⟩
abbrev chan_rsv_cnt_upd : Fld := ⟨.chan, 0x803038, 63, 32⟩
abbrev chan_rsv_cnt_pack : Fld := ⟨.chan, 0x803038, 31, 0⟩
-- Table 17.23 (spec/17_jalper_link_and_reservoir.md): chan.lerr
abbrev chan_lerr : Fld := ⟨.chan, 0x803040, 63, 0⟩
abbrev chan_lerr_slot : Fld := ⟨.chan, 0x803040, 63, 32⟩
abbrev chan_lerr_port : Fld := ⟨.chan, 0x803040, 20, 16⟩
abbrev chan_lerr_new : Fld := ⟨.chan, 0x803040, 15, 15⟩
abbrev chan_lerr_code : Fld := ⟨.chan, 0x803040, 7, 0⟩
-- Table 17.11 (spec/17_jalper_link_and_reservoir.md): chan.jl.ctl
abbrev chan_jl_ctl (i : Nat) : Fld := ⟨.chan, 0x804000 + 0x40 * i, 63, 0⟩
abbrev chan_jl_ctl_pers (i : Nat) : Fld := ⟨.chan, 0x804000 + 0x40 * i, 63, 62⟩
abbrev chan_jl_ctl_bond (i : Nat) : Fld := ⟨.chan, 0x804000 + 0x40 * i, 61, 61⟩
abbrev chan_jl_ctl_gmax (i : Nat) : Fld := ⟨.chan, 0x804000 + 0x40 * i, 57, 56⟩
abbrev chan_jl_ctl_lthr (i : Nat) : Fld := ⟨.chan, 0x804000 + 0x40 * i, 39, 24⟩
abbrev chan_jl_ctl_down (i : Nat) : Fld := ⟨.chan, 0x804000 + 0x40 * i, 1, 1⟩
abbrev chan_jl_ctl_up (i : Nat) : Fld := ⟨.chan, 0x804000 + 0x40 * i, 0, 0⟩
-- Table 17.12 (spec/17_jalper_link_and_reservoir.md): chan.jl.stat
abbrev chan_jl_stat (i : Nat) : Fld := ⟨.chan, 0x804008 + 0x40 * i, 63, 0⟩
abbrev chan_jl_stat_res (i : Nat) : Fld := ⟨.chan, 0x804008 + 0x40 * i, 43, 40⟩
abbrev chan_jl_stat_failed (i : Nat) : Fld := ⟨.chan, 0x804008 + 0x40 * i, 31, 16⟩
abbrev chan_jl_stat_first (i : Nat) : Fld := ⟨.chan, 0x804008 + 0x40 * i, 12, 8⟩
abbrev chan_jl_stat_width (i : Nat) : Fld := ⟨.chan, 0x804008 + 0x40 * i, 7, 6⟩
abbrev chan_jl_stat_wlog (i : Nat) : Fld := ⟨.chan, 0x804008 + 0x40 * i, 5, 4⟩
abbrev chan_jl_stat_state (i : Nat) : Fld := ⟨.chan, 0x804008 + 0x40 * i, 3, 0⟩
-- Table 17.13 (spec/17_jalper_link_and_reservoir.md): chan.jl.gen
abbrev chan_jl_gen (i : Nat) : Fld := ⟨.chan, 0x804010 + 0x40 * i, 63, 0⟩
abbrev chan_jl_gen_vendor (i : Nat) : Fld := ⟨.chan, 0x804010 + 0x40 * i, 63, 48⟩
abbrev chan_jl_gen_part (i : Nat) : Fld := ⟨.chan, 0x804010 + 0x40 * i, 47, 32⟩
abbrev chan_jl_gen_maxx (i : Nat) : Fld := ⟨.chan, 0x804010 + 0x40 * i, 31, 16⟩
abbrev chan_jl_gen_open (i : Nat) : Fld := ⟨.chan, 0x804010 + 0x40 * i, 15, 4⟩
abbrev chan_jl_gen_fgen (i : Nat) : Fld := ⟨.chan, 0x804010 + 0x40 * i, 3, 2⟩
abbrev chan_jl_gen_gen (i : Nat) : Fld := ⟨.chan, 0x804010 + 0x40 * i, 1, 0⟩
-- Table 17.14 (spec/17_jalper_link_and_reservoir.md): chan.jl.cnt
abbrev chan_jl_cnt (i : Nat) : Fld := ⟨.chan, 0x804018 + 0x40 * i, 63, 0⟩
abbrev chan_jl_cnt_resend (i : Nat) : Fld := ⟨.chan, 0x804018 + 0x40 * i, 63, 32⟩
abbrev chan_jl_cnt_fecc (i : Nat) : Fld := ⟨.chan, 0x804018 + 0x40 * i, 31, 0⟩
-- Table 16.24 (spec/16_channel_subsystem.md): chan.p.sub
abbrev chan_p_sub (i : Nat) : Fld := ⟨.chan, 0x810000 + 0x1000 * i, 63, 0⟩
abbrev chan_p_sub_addr (i : Nat) : Fld := ⟨.chan, 0x810000 + 0x1000 * i, 63, 7⟩
-- Table 16.25 (spec/16_channel_subsystem.md): chan.p.stat
abbrev chan_p_stat (i : Nat) : Fld := ⟨.chan, 0x810008 + 0x1000 * i, 63, 0⟩
abbrev chan_p_stat_refused (i : Nat) : Fld := ⟨.chan, 0x810008 + 0x1000 * i, 63, 32⟩
abbrev chan_p_stat_lstat (i : Nat) : Fld := ⟨.chan, 0x810008 + 0x1000 * i, 23, 16⟩
abbrev chan_p_stat_lnew (i : Nat) : Fld := ⟨.chan, 0x810008 + 0x1000 * i, 15, 15⟩
abbrev chan_p_stat_pending (i : Nat) : Fld := ⟨.chan, 0x810008 + 0x1000 * i, 4, 0⟩
-- Table 16.26 (spec/16_channel_subsystem.md): chan.p.last
abbrev chan_p_last (i : Nat) : Fld := ⟨.chan, 0x810010 + 0x1000 * i, 63, 0⟩
abbrev chan_p_last_addr (i : Nat) : Fld := ⟨.chan, 0x810010 + 0x1000 * i, 63, 7⟩
-- Table 16.27 (spec/16_channel_subsystem.md): chan.p.cnt
abbrev chan_p_cnt (i : Nat) : Fld := ⟨.chan, 0x810018 + 0x1000 * i, 63, 0⟩
abbrev chan_p_cnt_done (i : Nat) : Fld := ⟨.chan, 0x810018 + 0x1000 * i, 63, 32⟩
abbrev chan_p_cnt_err (i : Nat) : Fld := ⟨.chan, 0x810018 + 0x1000 * i, 31, 0⟩
-- Table 10.10 (spec/10_memory_ports.md): mem.cfg
abbrev mem_cfg : Fld := ⟨.mem, 0x900000, 63, 0⟩
abbrev mem_cfg_scrub_h : Fld := ⟨.mem, 0x900000, 39, 32⟩
abbrev mem_cfg_cap : Fld := ⟨.mem, 0x900000, 26, 24⟩
abbrev mem_cfg_rb_rate : Fld := ⟨.mem, 0x900000, 23, 16⟩
abbrev mem_cfg_rtmo : Fld := ⟨.mem, 0x900000, 7, 0⟩
-- Table 10.11 (spec/10_memory_ports.md): mem.rgnst
abbrev mem_rgnst : Fld := ⟨.mem, 0x900008, 63, 0⟩
abbrev mem_rgnst_bad : Fld := ⟨.mem, 0x900008, 19, 16⟩
abbrev mem_rgnst_result : Fld := ⟨.mem, 0x900008, 3, 0⟩
-- Table 10.12 (spec/10_memory_ports.md): mem.err
abbrev mem_err : Fld := ⟨.mem, 0x900010, 63, 0⟩
abbrev mem_err_line : Fld := ⟨.mem, 0x900010, 59, 16⟩
abbrev mem_err_new : Fld := ⟨.mem, 0x900010, 15, 15⟩
abbrev mem_err_port : Fld := ⟨.mem, 0x900010, 12, 8⟩
abbrev mem_err_code : Fld := ⟨.mem, 0x900010, 7, 0⟩
-- Table 10.13 (spec/10_memory_ports.md): mem.rgn.base
abbrev mem_rgn_base (i : Nat) : Fld := ⟨.mem, 0x900100 + 0x10 * i, 63, 0⟩
abbrev mem_rgn_base_en (i : Nat) : Fld := ⟨.mem, 0x900100 + 0x10 * i, 63, 63⟩
abbrev mem_rgn_base_base (i : Nat) : Fld := ⟨.mem, 0x900100 + 0x10 * i, 51, 20⟩
abbrev mem_rgn_base_kind (i : Nat) : Fld := ⟨.mem, 0x900100 + 0x10 * i, 3, 0⟩
-- Table 10.14 (spec/10_memory_ports.md): mem.rgn.lim
abbrev mem_rgn_lim (i : Nat) : Fld := ⟨.mem, 0x900108 + 0x10 * i, 63, 0⟩
abbrev mem_rgn_lim_lim (i : Nat) : Fld := ⟨.mem, 0x900108 + 0x10 * i, 51, 20⟩
-- Table 10.15 (spec/10_memory_ports.md): mem.grp.ctl
abbrev mem_grp_ctl (i : Nat) : Fld := ⟨.mem, 0x900200 + 0x20 * i, 63, 0⟩
abbrev mem_grp_ctl_init (i : Nat) : Fld := ⟨.mem, 0x900200 + 0x20 * i, 0, 0⟩
-- Table 10.16 (spec/10_memory_ports.md): mem.grp.stat
abbrev mem_grp_stat (i : Nat) : Fld := ⟨.mem, 0x900208 + 0x20 * i, 63, 0⟩
abbrev mem_grp_stat_lost (i : Nat) : Fld := ⟨.mem, 0x900208 + 0x20 * i, 10, 8⟩
abbrev mem_grp_stat_state (i : Nat) : Fld := ⟨.mem, 0x900208 + 0x20 * i, 3, 0⟩
-- Table 10.17 (spec/10_memory_ports.md): mem.grp.rb
abbrev mem_grp_rb (i : Nat) : Fld := ⟨.mem, 0x900210 + 0x20 * i, 63, 0⟩
abbrev mem_grp_rb_ptr (i : Nat) : Fld := ⟨.mem, 0x900210 + 0x20 * i, 33, 0⟩
-- Table 10.18 (spec/10_memory_ports.md): mem.port.ctl
abbrev mem_port_ctl (i : Nat) : Fld := ⟨.mem, 0x900400 + 0x20 * i, 63, 0⟩
abbrev mem_port_ctl_lthr (i : Nat) : Fld := ⟨.mem, 0x900400 + 0x20 * i, 17, 2⟩
abbrev mem_port_ctl_down (i : Nat) : Fld := ⟨.mem, 0x900400 + 0x20 * i, 1, 1⟩
abbrev mem_port_ctl_up (i : Nat) : Fld := ⟨.mem, 0x900400 + 0x20 * i, 0, 0⟩
-- Table 10.19 (spec/10_memory_ports.md): mem.port.stat
abbrev mem_port_stat (i : Nat) : Fld := ⟨.mem, 0x900408 + 0x20 * i, 63, 0⟩
abbrev mem_port_stat_cap (i : Nat) : Fld := ⟨.mem, 0x900408 + 0x20 * i, 31, 28⟩
abbrev mem_port_stat_res (i : Nat) : Fld := ⟨.mem, 0x900408 + 0x20 * i, 23, 20⟩
abbrev mem_port_stat_failed (i : Nat) : Fld := ⟨.mem, 0x900408 + 0x20 * i, 17, 9⟩
abbrev mem_port_stat_spare_used (i : Nat) : Fld := ⟨.mem, 0x900408 + 0x20 * i, 8, 8⟩
abbrev mem_port_stat_spare_for (i : Nat) : Fld := ⟨.mem, 0x900408 + 0x20 * i, 7, 4⟩
abbrev mem_port_stat_state (i : Nat) : Fld := ⟨.mem, 0x900408 + 0x20 * i, 3, 0⟩
-- Table 10.20 (spec/10_memory_ports.md): mem.port.cnt
abbrev mem_port_cnt (i : Nat) : Fld := ⟨.mem, 0x900410 + 0x20 * i, 63, 0⟩
abbrev mem_port_cnt_replay (i : Nat) : Fld := ⟨.mem, 0x900410 + 0x20 * i, 63, 32⟩
abbrev mem_port_cnt_corr (i : Nat) : Fld := ⟨.mem, 0x900410 + 0x20 * i, 31, 0⟩
-- Table 12.20 (spec/12_grotto_enclaves.md): mem.port.perf
abbrev mem_port_perf (i : Nat) : Fld := ⟨.mem, 0x900418 + 0x20 * i, 63, 0⟩
abbrev mem_port_perf_rd (i : Nat) : Fld := ⟨.mem, 0x900418 + 0x20 * i, 63, 32⟩
abbrev mem_port_perf_wr (i : Nat) : Fld := ⟨.mem, 0x900418 + 0x20 * i, 31, 0⟩
-- Table 11.10 (spec/11_cistern.md): mem.cis.ctl
abbrev mem_cis_ctl : Fld := ⟨.mem, 0x901000, 63, 0⟩
abbrev mem_cis_ctl_en : Fld := ⟨.mem, 0x901000, 63, 63⟩
abbrev mem_cis_ctl_lowat : Fld := ⟨.mem, 0x901000, 31, 16⟩
abbrev mem_cis_ctl_demote : Fld := ⟨.mem, 0x901000, 0, 0⟩
-- Table 11.11 (spec/11_cistern.md): mem.cis.ap
abbrev mem_cis_ap (i : Nat) : Fld := ⟨.mem, 0x901008 + 0x8 * i, 63, 0⟩
abbrev mem_cis_ap_en (i : Nat) : Fld := ⟨.mem, 0x901008 + 0x8 * i, 63, 63⟩
abbrev mem_cis_ap_base (i : Nat) : Fld := ⟨.mem, 0x901008 + 0x8 * i, 51, 30⟩
abbrev mem_cis_ap_size (i : Nat) : Fld := ⟨.mem, 0x901008 + 0x8 * i, 14, 0⟩
-- Table 11.12 (spec/11_cistern.md): mem.cis.pool
abbrev mem_cis_pool : Fld := ⟨.mem, 0x901028, 63, 0⟩
abbrev mem_cis_pool_base : Fld := ⟨.mem, 0x901028, 51, 20⟩
-- Table 11.13 (spec/11_cistern.md): mem.cis.plim
abbrev mem_cis_plim : Fld := ⟨.mem, 0x901030, 63, 0⟩
abbrev mem_cis_plim_lim : Fld := ⟨.mem, 0x901030, 51, 20⟩
-- Table 11.14 (spec/11_cistern.md): mem.cis.stat
abbrev mem_cis_stat : Fld := ⟨.mem, 0x901038, 63, 0⟩
abbrev mem_cis_stat_ready : Fld := ⟨.mem, 0x901038, 8, 8⟩
abbrev mem_cis_stat_cfg : Fld := ⟨.mem, 0x901038, 3, 0⟩
-- Table 11.15 (spec/11_cistern.md): mem.cis.free0
abbrev mem_cis_free0 : Fld := ⟨.mem, 0x901040, 63, 0⟩
abbrev mem_cis_free0_s1 : Fld := ⟨.mem, 0x901040, 63, 32⟩
abbrev mem_cis_free0_s2 : Fld := ⟨.mem, 0x901040, 31, 0⟩
-- Table 11.16 (spec/11_cistern.md): mem.cis.free1
abbrev mem_cis_free1 : Fld := ⟨.mem, 0x901048, 63, 0⟩
abbrev mem_cis_free1_s3 : Fld := ⟨.mem, 0x901048, 63, 32⟩
abbrev mem_cis_free1_chunks : Fld := ⟨.mem, 0x901048, 31, 0⟩
-- Table 11.17 (spec/11_cistern.md): mem.cis.pages0
abbrev mem_cis_pages0 : Fld := ⟨.mem, 0x901050, 63, 0⟩
abbrev mem_cis_pages0_c1 : Fld := ⟨.mem, 0x901050, 63, 32⟩
abbrev mem_cis_pages0_c2 : Fld := ⟨.mem, 0x901050, 31, 0⟩
-- Table 11.18 (spec/11_cistern.md): mem.cis.pages1
abbrev mem_cis_pages1 : Fld := ⟨.mem, 0x901058, 63, 0⟩
abbrev mem_cis_pages1_c3 : Fld := ⟨.mem, 0x901058, 63, 32⟩
abbrev mem_cis_pages1_held : Fld := ⟨.mem, 0x901058, 31, 16⟩
abbrev mem_cis_pages1_exp : Fld := ⟨.mem, 0x901058, 15, 0⟩
-- Table 11.19 (spec/11_cistern.md): mem.cis.cnt0
abbrev mem_cis_cnt0 : Fld := ⟨.mem, 0x901060, 63, 0⟩
abbrev mem_cis_cnt0_exp : Fld := ⟨.mem, 0x901060, 63, 32⟩
abbrev mem_cis_cnt0_place : Fld := ⟨.mem, 0x901060, 31, 0⟩
-- Table 11.20 (spec/11_cistern.md): mem.cis.cnt1
abbrev mem_cis_cnt1 : Fld := ⟨.mem, 0x901068, 63, 0⟩
abbrev mem_cis_cnt1_prom : Fld := ⟨.mem, 0x901068, 63, 32⟩
abbrev mem_cis_cnt1_waitn : Fld := ⟨.mem, 0x901068, 31, 0⟩
-- Table 11.21 (spec/11_cistern.md): mem.cis.cmd
abbrev mem_cis_cmd : Fld := ⟨.mem, 0x901070, 63, 0⟩
abbrev mem_cis_cmd_done : Fld := ⟨.mem, 0x901070, 20, 20⟩
abbrev mem_cis_cmd_result : Fld := ⟨.mem, 0x901070, 19, 16⟩
abbrev mem_cis_cmd_qclass : Fld := ⟨.mem, 0x901070, 14, 12⟩
abbrev mem_cis_cmd_qexp : Fld := ⟨.mem, 0x901070, 11, 11⟩
abbrev mem_cis_cmd_qdirty : Fld := ⟨.mem, 0x901070, 10, 10⟩
abbrev mem_cis_cmd_qpsn : Fld := ⟨.mem, 0x901070, 9, 9⟩
abbrev mem_cis_cmd_op : Fld := ⟨.mem, 0x901070, 3, 1⟩
abbrev mem_cis_cmd_go : Fld := ⟨.mem, 0x901070, 0, 0⟩
-- Table 11.22 (spec/11_cistern.md): mem.cis.cmda
abbrev mem_cis_cmda : Fld := ⟨.mem, 0x901078, 63, 0⟩
abbrev mem_cis_cmda_addr : Fld := ⟨.mem, 0x901078, 51, 12⟩
-- Table 11.23 (spec/11_cistern.md): mem.cis.err
abbrev mem_cis_err : Fld := ⟨.mem, 0x901080, 63, 0⟩
abbrev mem_cis_err_page : Fld := ⟨.mem, 0x901080, 59, 20⟩
abbrev mem_cis_err_new : Fld := ⟨.mem, 0x901080, 15, 15⟩
abbrev mem_cis_err_slice : Fld := ⟨.mem, 0x901080, 9, 8⟩
abbrev mem_cis_err_code : Fld := ⟨.mem, 0x901080, 7, 0⟩
-- Table 11.24 (spec/11_cistern.md): mem.cis.rill
abbrev mem_cis_rill : Fld := ⟨.mem, 0x901088, 63, 0⟩
abbrev mem_cis_rill_en : Fld := ⟨.mem, 0x901088, 15, 15⟩
abbrev mem_cis_rill_rill : Fld := ⟨.mem, 0x901088, 11, 0⟩
-- Table 9.13 (spec/09_aqueduct_coherence.md): aq.cfg
abbrev aq_cfg : Fld := ⟨.aq, 0xa00000, 63, 0⟩
abbrev aq_cfg_ptmo : Fld := ⟨.aq, 0xa00000, 47, 32⟩
abbrev aq_cfg_hold : Fld := ⟨.aq, 0xa00000, 10, 0⟩
-- Table 9.14 (spec/09_aqueduct_coherence.md): aq.home
abbrev aq_home (i : Nat) : Fld := ⟨.aq, 0xa00008 + 0x8 * i, 63, 0⟩
abbrev aq_home_en (i : Nat) : Fld := ⟨.aq, 0xa00008 + 0x8 * i, 63, 63⟩
abbrev aq_home_base (i : Nat) : Fld := ⟨.aq, 0xa00008 + 0x8 * i, 51, 30⟩
abbrev aq_home_size (i : Nat) : Fld := ⟨.aq, 0xa00008 + 0x8 * i, 14, 0⟩
-- Table 9.15 (spec/09_aqueduct_coherence.md): aq.dom
abbrev aq_dom : Fld := ⟨.aq, 0xa00028, 63, 0⟩
abbrev aq_dom_chk_src : Fld := ⟨.aq, 0xa00028, 53, 42⟩
abbrev aq_dom_chk_mod : Fld := ⟨.aq, 0xa00028, 41, 40⟩
abbrev aq_dom_chk_cause : Fld := ⟨.aq, 0xa00028, 39, 32⟩
abbrev aq_dom_fold : Fld := ⟨.aq, 0xa00028, 9, 9⟩
abbrev aq_dom_sl_up : Fld := ⟨.aq, 0xa00028, 8, 8⟩
abbrev aq_dom_joined : Fld := ⟨.aq, 0xa00028, 7, 4⟩
-- Table 9.16 (spec/09_aqueduct_coherence.md): aq.err
abbrev aq_err : Fld := ⟨.aq, 0xa00038, 63, 0⟩
abbrev aq_err_line : Fld := ⟨.aq, 0xa00038, 59, 16⟩
abbrev aq_err_new : Fld := ⟨.aq, 0xa00038, 15, 15⟩
abbrev aq_err_unit : Fld := ⟨.aq, 0xa00038, 14, 8⟩
abbrev aq_err_code : Fld := ⟨.aq, 0xa00038, 7, 0⟩
-- Table 9.17 (spec/09_aqueduct_coherence.md): aq.fab.ctl
abbrev aq_fab_ctl (i : Nat) : Fld := ⟨.aq, 0xa01000 + 0x20 * i, 63, 0⟩
abbrev aq_fab_ctl_lthr (i : Nat) : Fld := ⟨.aq, 0xa01000 + 0x20 * i, 23, 8⟩
abbrev aq_fab_ctl_retrain (i : Nat) : Fld := ⟨.aq, 0xa01000 + 0x20 * i, 2, 2⟩
abbrev aq_fab_ctl_spare_en (i : Nat) : Fld := ⟨.aq, 0xa01000 + 0x20 * i, 1, 1⟩
abbrev aq_fab_ctl_en (i : Nat) : Fld := ⟨.aq, 0xa01000 + 0x20 * i, 0, 0⟩
-- Table 9.18 (spec/09_aqueduct_coherence.md): aq.fab.stat
abbrev aq_fab_stat (i : Nat) : Fld := ⟨.aq, 0xa01008 + 0x20 * i, 63, 0⟩
abbrev aq_fab_stat_peer_mod (i : Nat) : Fld := ⟨.aq, 0xa01008 + 0x20 * i, 39, 38⟩
abbrev aq_fab_stat_peer_port (i : Nat) : Fld := ⟨.aq, 0xa01008 + 0x20 * i, 35, 32⟩
abbrev aq_fab_stat_failed (i : Nat) : Fld := ⟨.aq, 0xa01008 + 0x20 * i, 28, 12⟩
abbrev aq_fab_stat_width (i : Nat) : Fld := ⟨.aq, 0xa01008 + 0x20 * i, 11, 10⟩
abbrev aq_fab_stat_spare_used (i : Nat) : Fld := ⟨.aq, 0xa01008 + 0x20 * i, 9, 9⟩
abbrev aq_fab_stat_spare_for (i : Nat) : Fld := ⟨.aq, 0xa01008 + 0x20 * i, 8, 4⟩
abbrev aq_fab_stat_state (i : Nat) : Fld := ⟨.aq, 0xa01008 + 0x20 * i, 3, 0⟩
-- Table 9.19 (spec/09_aqueduct_coherence.md): aq.fab.cnt
abbrev aq_fab_cnt (i : Nat) : Fld := ⟨.aq, 0xa01010 + 0x20 * i, 63, 0⟩
abbrev aq_fab_cnt_replay (i : Nat) : Fld := ⟨.aq, 0xa01010 + 0x20 * i, 63, 32⟩
abbrev aq_fab_cnt_fecc (i : Nat) : Fld := ⟨.aq, 0xa01010 + 0x20 * i, 31, 0⟩
-- Table 9.20 (spec/09_aqueduct_coherence.md): aq.sl.ctl
abbrev aq_sl_ctl : Fld := ⟨.aq, 0xa03000, 63, 0⟩
abbrev aq_sl_ctl_miss_lim : Fld := ⟨.aq, 0xa03000, 11, 8⟩
abbrev aq_sl_ctl_en : Fld := ⟨.aq, 0xa03000, 0, 0⟩
-- Table 9.21 (spec/09_aqueduct_coherence.md): aq.sl.stat
abbrev aq_sl_stat : Fld := ⟨.aq, 0xa03008, 63, 0⟩
abbrev aq_sl_stat_crcerr : Fld := ⟨.aq, 0xa03008, 63, 32⟩
abbrev aq_sl_stat_tod_step : Fld := ⟨.aq, 0xa03008, 31, 16⟩
abbrev aq_sl_stat_lost_b : Fld := ⟨.aq, 0xa03008, 3, 3⟩
abbrev aq_sl_stat_lost_a : Fld := ⟨.aq, 0xa03008, 2, 2⟩
-- Table 15.15 (spec/15_shared_instances.md): aq.mtu.err
abbrev aq_mtu_err : Fld := ⟨.aq, 0xa04000, 63, 0⟩
abbrev aq_mtu_err_unit : Fld := ⟨.aq, 0xa04000, 23, 22⟩
abbrev aq_mtu_err_inst : Fld := ⟨.aq, 0xa04000, 21, 16⟩
abbrev aq_mtu_err_new : Fld := ⟨.aq, 0xa04000, 15, 15⟩
abbrev aq_mtu_err_code : Fld := ⟨.aq, 0xa04000, 7, 0⟩
-- Table 8.14 (spec/08_caches_and_ordering.md): aq.bsn.err
abbrev aq_bsn_err (i : Nat) : Fld := ⟨.aq, 0xa0f000 + 0x8 * i, 63, 0⟩
abbrev aq_bsn_err_line (i : Nat) : Fld := ⟨.aq, 0xa0f000 + 0x8 * i, 59, 16⟩
abbrev aq_bsn_err_new (i : Nat) : Fld := ⟨.aq, 0xa0f000 + 0x8 * i, 15, 15⟩
abbrev aq_bsn_err_way (i : Nat) : Fld := ⟨.aq, 0xa0f000 + 0x8 * i, 14, 10⟩
abbrev aq_bsn_err_code (i : Nat) : Fld := ⟨.aq, 0xa0f000 + 0x8 * i, 7, 0⟩
-- Table 12.19 (spec/12_grotto_enclaves.md): aq.bsn.cnt
abbrev aq_bsn_cnt (i : Nat) : Fld := ⟨.aq, 0xa0f100 + 0x8 * i, 63, 0⟩
abbrev aq_bsn_cnt_hit (i : Nat) : Fld := ⟨.aq, 0xa0f100 + 0x8 * i, 63, 32⟩
abbrev aq_bsn_cnt_miss (i : Nat) : Fld := ⟨.aq, 0xa0f100 + 0x8 * i, 31, 0⟩
-- Table 18.7 (spec/18_pcie_ports_and_hotplug.md): pcie.ecam
abbrev pcie_ecam : Fld := ⟨.pcie, 0xb00000, 63, 0⟩
abbrev pcie_ecam_en : Fld := ⟨.pcie, 0xb00000, 63, 63⟩
abbrev pcie_ecam_base : Fld := ⟨.pcie, 0xb00000, 51, 33⟩
abbrev pcie_ecam_res : Fld := ⟨.pcie, 0xb00000, 3, 0⟩
-- Table 18.8 (spec/18_pcie_ports_and_hotplug.md): pcie.p.ctl
abbrev pcie_p_ctl (i : Nat) : Fld := ⟨.pcie, 0xb01000 + 0x80 * i, 63, 0⟩
abbrev pcie_p_ctl_spl (i : Nat) : Fld := ⟨.pcie, 0xb01000 + 0x80 * i, 39, 32⟩
abbrev pcie_p_ctl_cto (i : Nat) : Fld := ⟨.pcie, 0xb01000 + 0x80 * i, 29, 16⟩
abbrev pcie_p_ctl_gmax (i : Nat) : Fld := ⟨.pcie, 0xb01000 + 0x80 * i, 5, 4⟩
abbrev pcie_p_ctl_l0p (i : Nat) : Fld := ⟨.pcie, 0xb01000 + 0x80 * i, 3, 3⟩
abbrev pcie_p_ctl_ecrc (i : Nat) : Fld := ⟨.pcie, 0xb01000 + 0x80 * i, 2, 2⟩
abbrev pcie_p_ctl_release (i : Nat) : Fld := ⟨.pcie, 0xb01000 + 0x80 * i, 0, 0⟩
-- Table 18.9 (spec/18_pcie_ports_and_hotplug.md): pcie.p.stat
abbrev pcie_p_stat (i : Nat) : Fld := ⟨.pcie, 0xb01008 + 0x80 * i, 63, 0⟩
abbrev pcie_p_stat_cause (i : Nat) : Fld := ⟨.pcie, 0xb01008 + 0x80 * i, 31, 24⟩
abbrev pcie_p_stat_cont (i : Nat) : Fld := ⟨.pcie, 0xb01008 + 0x80 * i, 19, 19⟩
abbrev pcie_p_stat_dlla (i : Nat) : Fld := ⟨.pcie, 0xb01008 + 0x80 * i, 18, 18⟩
abbrev pcie_p_stat_pwr (i : Nat) : Fld := ⟨.pcie, 0xb01008 + 0x80 * i, 17, 17⟩
abbrev pcie_p_stat_prs (i : Nat) : Fld := ⟨.pcie, 0xb01008 + 0x80 * i, 16, 16⟩
abbrev pcie_p_stat_width (i : Nat) : Fld := ⟨.pcie, 0xb01008 + 0x80 * i, 12, 8⟩
abbrev pcie_p_stat_flit (i : Nat) : Fld := ⟨.pcie, 0xb01008 + 0x80 * i, 7, 7⟩
abbrev pcie_p_stat_rate (i : Nat) : Fld := ⟨.pcie, 0xb01008 + 0x80 * i, 5, 4⟩
abbrev pcie_p_stat_state (i : Nat) : Fld := ⟨.pcie, 0xb01008 + 0x80 * i, 3, 0⟩
-- Table 18.10 (spec/18_pcie_ports_and_hotplug.md): pcie.p.mwin
abbrev pcie_p_mwin (i : Nat) : Fld := ⟨.pcie, 0xb01010 + 0x80 * i, 63, 0⟩
abbrev pcie_p_mwin_en (i : Nat) : Fld := ⟨.pcie, 0xb01010 + 0x80 * i, 63, 63⟩
abbrev pcie_p_mwin_base (i : Nat) : Fld := ⟨.pcie, 0xb01010 + 0x80 * i, 51, 30⟩
abbrev pcie_p_mwin_size (i : Nat) : Fld := ⟨.pcie, 0xb01010 + 0x80 * i, 14, 0⟩
-- Table 18.11 (spec/18_pcie_ports_and_hotplug.md): pcie.p.boff
abbrev pcie_p_boff (i : Nat) : Fld := ⟨.pcie, 0xb01018 + 0x80 * i, 63, 0⟩
abbrev pcie_p_boff_off (i : Nat) : Fld := ⟨.pcie, 0xb01018 + 0x80 * i, 63, 30⟩
-- Table 18.12 (spec/18_pcie_ports_and_hotplug.md): pcie.p.ttr2
abbrev pcie_p_ttr2 (i : Nat) : Fld := ⟨.pcie, 0xb01020 + 0x80 * i, 63, 0⟩
abbrev pcie_p_ttr2_part (i : Nat) : Fld := ⟨.pcie, 0xb01020 + 0x80 * i, 57, 52⟩
abbrev pcie_p_ttr2_base (i : Nat) : Fld := ⟨.pcie, 0xb01020 + 0x80 * i, 51, 12⟩
abbrev pcie_p_ttr2_lv (i : Nat) : Fld := ⟨.pcie, 0xb01020 + 0x80 * i, 1, 0⟩
-- Table 18.13 (spec/18_pcie_ports_and_hotplug.md): pcie.p.err
abbrev pcie_p_err (i : Nat) : Fld := ⟨.pcie, 0xb01028 + 0x80 * i, 63, 0⟩
abbrev pcie_p_err_rid (i : Nat) : Fld := ⟨.pcie, 0xb01028 + 0x80 * i, 47, 32⟩
abbrev pcie_p_err_tlp (i : Nat) : Fld := ⟨.pcie, 0xb01028 + 0x80 * i, 23, 16⟩
abbrev pcie_p_err_new (i : Nat) : Fld := ⟨.pcie, 0xb01028 + 0x80 * i, 15, 15⟩
abbrev pcie_p_err_code (i : Nat) : Fld := ⟨.pcie, 0xb01028 + 0x80 * i, 7, 0⟩
-- Table 18.14 (spec/18_pcie_ports_and_hotplug.md): pcie.p.erra
abbrev pcie_p_erra (i : Nat) : Fld := ⟨.pcie, 0xb01030 + 0x80 * i, 63, 0⟩
abbrev pcie_p_erra_addr (i : Nat) : Fld := ⟨.pcie, 0xb01030 + 0x80 * i, 63, 0⟩
-- Table 18.15 (spec/18_pcie_ports_and_hotplug.md): pcie.p.cnt
abbrev pcie_p_cnt (i : Nat) : Fld := ⟨.pcie, 0xb01038 + 0x80 * i, 63, 0⟩
abbrev pcie_p_cnt_corr (i : Nat) : Fld := ⟨.pcie, 0xb01038 + 0x80 * i, 63, 32⟩
abbrev pcie_p_cnt_discard (i : Nat) : Fld := ⟨.pcie, 0xb01038 + 0x80 * i, 31, 0⟩
-- Table 18.16 (spec/18_pcie_ports_and_hotplug.md): pcie.p.hp
abbrev pcie_p_hp (i : Nat) : Fld := ⟨.pcie, 0xb01040 + 0x80 * i, 63, 0⟩
abbrev pcie_p_hp_perst (i : Nat) : Fld := ⟨.pcie, 0xb01040 + 0x80 * i, 12, 12⟩
abbrev pcie_p_hp_abtn (i : Nat) : Fld := ⟨.pcie, 0xb01040 + 0x80 * i, 11, 11⟩
abbrev pcie_p_hp_mrl (i : Nat) : Fld := ⟨.pcie, 0xb01040 + 0x80 * i, 10, 10⟩
abbrev pcie_p_hp_prsnt (i : Nat) : Fld := ⟨.pcie, 0xb01040 + 0x80 * i, 9, 9⟩
abbrev pcie_p_hp_pflt (i : Nat) : Fld := ⟨.pcie, 0xb01040 + 0x80 * i, 8, 8⟩
abbrev pcie_p_hp_aind (i : Nat) : Fld := ⟨.pcie, 0xb01040 + 0x80 * i, 7, 6⟩
abbrev pcie_p_hp_pind (i : Nat) : Fld := ⟨.pcie, 0xb01040 + 0x80 * i, 5, 4⟩
abbrev pcie_p_hp_pwren (i : Nat) : Fld := ⟨.pcie, 0xb01040 + 0x80 * i, 3, 3⟩
-- Table 19.7 (spec/19_coupling_ports.md): cpl.cfg
abbrev cpl_cfg : Fld := ⟨.cpl, 0xc00000, 63, 0⟩
abbrev cpl_cfg_atmo : Fld := ⟨.cpl, 0xc00000, 47, 32⟩
abbrev cpl_cfg_stmo : Fld := ⟨.cpl, 0xc00000, 15, 0⟩
-- Table 19.8 (spec/19_coupling_ports.md): cpl.sysid
abbrev cpl_sysid : Fld := ⟨.cpl, 0xc00008, 63, 0⟩
abbrev cpl_sysid_id : Fld := ⟨.cpl, 0xc00008, 63, 0⟩
-- Table 19.9 (spec/19_coupling_ports.md): cpl.err
abbrev cpl_err : Fld := ⟨.cpl, 0xc00010, 63, 0⟩
abbrev cpl_err_chan : Fld := ⟨.cpl, 0xc00010, 26, 21⟩
abbrev cpl_err_port : Fld := ⟨.cpl, 0xc00010, 20, 16⟩
abbrev cpl_err_new : Fld := ⟨.cpl, 0xc00010, 15, 15⟩
abbrev cpl_err_code : Fld := ⟨.cpl, 0xc00010, 7, 0⟩
-- Table 19.10 (spec/19_coupling_ports.md): cpl.pmask
abbrev cpl_pmask (i : Nat) : Fld := ⟨.cpl, 0xc00100 + 0x8 * i, 63, 0⟩
abbrev cpl_pmask_ports (i : Nat) : Fld := ⟨.cpl, 0xc00100 + 0x8 * i, 17, 0⟩
-- Table 19.11 (spec/19_coupling_ports.md): cpl.mir
abbrev cpl_mir (i : Nat) : Fld := ⟨.cpl, 0xc00400 + 0x10 * i, 63, 0⟩
abbrev cpl_mir_en (i : Nat) : Fld := ⟨.cpl, 0xc00400 + 0x10 * i, 63, 63⟩
abbrev cpl_mir_frozen (i : Nat) : Fld := ⟨.cpl, 0xc00400 + 0x10 * i, 62, 62⟩
abbrev cpl_mir_release (i : Nat) : Fld := ⟨.cpl, 0xc00400 + 0x10 * i, 61, 61⟩
abbrev cpl_mir_base (i : Nat) : Fld := ⟨.cpl, 0xc00400 + 0x10 * i, 51, 20⟩
abbrev cpl_mir_size (i : Nat) : Fld := ⟨.cpl, 0xc00400 + 0x10 * i, 9, 0⟩
-- Table 19.12 (spec/19_coupling_ports.md): cpl.mirid
abbrev cpl_mirid (i : Nat) : Fld := ⟨.cpl, 0xc00408 + 0x10 * i, 63, 0⟩
abbrev cpl_mirid_sys (i : Nat) : Fld := ⟨.cpl, 0xc00408 + 0x10 * i, 63, 0⟩
-- Table 19.13 (spec/19_coupling_ports.md): cpl.rq
abbrev cpl_rq (i : Nat) : Fld := ⟨.cpl, 0xc00800 + 0x10 * i, 63, 0⟩
abbrev cpl_rq_en (i : Nat) : Fld := ⟨.cpl, 0xc00800 + 0x10 * i, 63, 63⟩
abbrev cpl_rq_part (i : Nat) : Fld := ⟨.cpl, 0xc00800 + 0x10 * i, 61, 56⟩
abbrev cpl_rq_base (i : Nat) : Fld := ⟨.cpl, 0xc00800 + 0x10 * i, 51, 13⟩
abbrev cpl_rq_lsize (i : Nat) : Fld := ⟨.cpl, 0xc00800 + 0x10 * i, 3, 0⟩
-- Table 19.14 (spec/19_coupling_ports.md): cpl.rqi
abbrev cpl_rqi (i : Nat) : Fld := ⟨.cpl, 0xc00808 + 0x10 * i, 63, 0⟩
abbrev cpl_rqi_src (i : Nat) : Fld := ⟨.cpl, 0xc00808 + 0x10 * i, 63, 44⟩
abbrev cpl_rqi_prod (i : Nat) : Fld := ⟨.cpl, 0xc00808 + 0x10 * i, 31, 16⟩
abbrev cpl_rqi_cons (i : Nat) : Fld := ⟨.cpl, 0xc00808 + 0x10 * i, 15, 0⟩
-- Table 19.15 (spec/19_coupling_ports.md): cpl.p.ctl
abbrev cpl_p_ctl (i : Nat) : Fld := ⟨.cpl, 0xc01000 + 0x40 * i, 63, 0⟩
abbrev cpl_p_ctl_lthr (i : Nat) : Fld := ⟨.cpl, 0xc01000 + 0x40 * i, 39, 24⟩
abbrev cpl_p_ctl_down (i : Nat) : Fld := ⟨.cpl, 0xc01000 + 0x40 * i, 1, 1⟩
abbrev cpl_p_ctl_up (i : Nat) : Fld := ⟨.cpl, 0xc01000 + 0x40 * i, 0, 0⟩
-- Table 19.16 (spec/19_coupling_ports.md): cpl.p.stat
abbrev cpl_p_stat (i : Nat) : Fld := ⟨.cpl, 0xc01008 + 0x40 * i, 63, 0⟩
abbrev cpl_p_stat_res (i : Nat) : Fld := ⟨.cpl, 0xc01008 + 0x40 * i, 43, 40⟩
abbrev cpl_p_stat_mirok (i : Nat) : Fld := ⟨.cpl, 0xc01008 + 0x40 * i, 34, 34⟩
abbrev cpl_p_stat_partner (i : Nat) : Fld := ⟨.cpl, 0xc01008 + 0x40 * i, 33, 32⟩
abbrev cpl_p_stat_failed (i : Nat) : Fld := ⟨.cpl, 0xc01008 + 0x40 * i, 31, 16⟩
abbrev cpl_p_stat_first (i : Nat) : Fld := ⟨.cpl, 0xc01008 + 0x40 * i, 15, 12⟩
abbrev cpl_p_stat_width (i : Nat) : Fld := ⟨.cpl, 0xc01008 + 0x40 * i, 8, 4⟩
abbrev cpl_p_stat_state (i : Nat) : Fld := ⟨.cpl, 0xc01008 + 0x40 * i, 3, 0⟩
-- Table 19.17 (spec/19_coupling_ports.md): cpl.p.peer
abbrev cpl_p_peer (i : Nat) : Fld := ⟨.cpl, 0xc01010 + 0x40 * i, 63, 0⟩
abbrev cpl_p_peer_sys (i : Nat) : Fld := ⟨.cpl, 0xc01010 + 0x40 * i, 63, 0⟩
-- Table 19.18 (spec/19_coupling_ports.md): cpl.p.cnt
abbrev cpl_p_cnt (i : Nat) : Fld := ⟨.cpl, 0xc01018 + 0x40 * i, 63, 0⟩
abbrev cpl_p_cnt_resend (i : Nat) : Fld := ⟨.cpl, 0xc01018 + 0x40 * i, 63, 32⟩
abbrev cpl_p_cnt_fecc (i : Nat) : Fld := ⟨.cpl, 0xc01018 + 0x40 * i, 31, 0⟩
-- Table 19.19 (spec/19_coupling_ports.md): cpl.q.sub
abbrev cpl_q_sub (i : Nat) : Fld := ⟨.cpl, 0xc10000 + 0x1000 * i, 63, 0⟩
abbrev cpl_q_sub_addr (i : Nat) : Fld := ⟨.cpl, 0xc10000 + 0x1000 * i, 63, 7⟩
-- Table 19.20 (spec/19_coupling_ports.md): cpl.q.stat
abbrev cpl_q_stat (i : Nat) : Fld := ⟨.cpl, 0xc10008 + 0x1000 * i, 63, 0⟩
abbrev cpl_q_stat_refused (i : Nat) : Fld := ⟨.cpl, 0xc10008 + 0x1000 * i, 63, 32⟩
abbrev cpl_q_stat_async (i : Nat) : Fld := ⟨.cpl, 0xc10008 + 0x1000 * i, 5, 0⟩
-- Table 23.10 (spec/23_object_dictionary.md): od.cmd
abbrev od_cmd : Fld := ⟨.od, 0xd00000, 63, 0⟩
abbrev od_cmd_index : Fld := ⟨.od, 0xd00000, 63, 48⟩
abbrev od_cmd_sub : Fld := ⟨.od, 0xd00000, 47, 40⟩
abbrev od_cmd_op : Fld := ⟨.od, 0xd00000, 35, 34⟩
abbrev od_cmd_fin : Fld := ⟨.od, 0xd00000, 33, 33⟩
abbrev od_cmd_done : Fld := ⟨.od, 0xd00000, 31, 31⟩
abbrev od_cmd_result : Fld := ⟨.od, 0xd00000, 27, 24⟩
abbrev od_cmd_go : Fld := ⟨.od, 0xd00000, 0, 0⟩
-- Table 23.11 (spec/23_object_dictionary.md): od.xfer
abbrev od_xfer : Fld := ⟨.od, 0xd00008, 63, 0⟩
abbrev od_xfer_off : Fld := ⟨.od, 0xd00008, 63, 32⟩
abbrev od_xfer_len : Fld := ⟨.od, 0xd00008, 12, 0⟩
-- Table 23.12 (spec/23_object_dictionary.md): od.buf
abbrev od_buf (i : Nat) : Fld := ⟨.od, 0xd01000 + 0x8 * i, 63, 0⟩
abbrev od_buf_data (i : Nat) : Fld := ⟨.od, 0xd01000 + 0x8 * i, 63, 0⟩
-- Table 5.10 (spec/05_checkpoint_window_and_retry.md): core.state
abbrev core_state (c : Nat) : Fld := ⟨.core, 0x1000000 + 0x10000 * c, 63, 0⟩
abbrev core_state_lead (c : Nat) : Fld := ⟨.core, 0x1000000 + 0x10000 * c, 30, 30⟩
abbrev core_state_pair (c : Nat) : Fld := ⟨.core, 0x1000000 + 0x10000 * c, 29, 24⟩
abbrev core_state_stands_for (c : Nat) : Fld := ⟨.core, 0x1000000 + 0x10000 * c, 21, 16⟩
abbrev core_state_replaced_by (c : Nat) : Fld := ⟨.core, 0x1000000 + 0x10000 * c, 13, 8⟩
abbrev core_state_episode (c : Nat) : Fld := ⟨.core, 0x1000000 + 0x10000 * c, 7, 7⟩
abbrev core_state_swap (c : Nat) : Fld := ⟨.core, 0x1000000 + 0x10000 * c, 6, 6⟩
abbrev core_state_warm (c : Nat) : Fld := ⟨.core, 0x1000000 + 0x10000 * c, 5, 5⟩
abbrev core_state_role (c : Nat) : Fld := ⟨.core, 0x1000000 + 0x10000 * c, 1, 0⟩
-- Table 5.11 (spec/05_checkpoint_window_and_retry.md): core.err
abbrev core_err (c : Nat) : Fld := ⟨.core, 0x1000008 + 0x10000 * c, 63, 0⟩
abbrev core_err_tod (c : Nat) : Fld := ⟨.core, 0x1000008 + 0x10000 * c, 63, 32⟩
abbrev core_err_new (c : Nat) : Fld := ⟨.core, 0x1000008 + 0x10000 * c, 31, 31⟩
abbrev core_err_ninstr (c : Nat) : Fld := ⟨.core, 0x1000008 + 0x10000 * c, 23, 16⟩
abbrev core_err_both (c : Nat) : Fld := ⟨.core, 0x1000008 + 0x10000 * c, 15, 15⟩
abbrev core_err_thread (c : Nat) : Fld := ⟨.core, 0x1000008 + 0x10000 * c, 14, 14⟩
abbrev core_err_attempts (c : Nat) : Fld := ⟨.core, 0x1000008 + 0x10000 * c, 13, 12⟩
abbrev core_err_outcome (c : Nat) : Fld := ⟨.core, 0x1000008 + 0x10000 * c, 11, 8⟩
abbrev core_err_code (c : Nat) : Fld := ⟨.core, 0x1000008 + 0x10000 * c, 7, 0⟩
-- Table 5.12 (spec/05_checkpoint_window_and_retry.md): core.rty
abbrev core_rty (c : Nat) : Fld := ⟨.core, 0x1000010 + 0x10000 * c, 63, 0⟩
abbrev core_rty_ok (c : Nat) : Fld := ⟨.core, 0x1000010 + 0x10000 * c, 63, 32⟩
abbrev core_rty_corr (c : Nat) : Fld := ⟨.core, 0x1000010 + 0x10000 * c, 31, 0⟩
-- Table 5.13 (spec/05_checkpoint_window_and_retry.md): core.swap
abbrev core_swap (c : Nat) : Fld := ⟨.core, 0x1000018 + 0x10000 * c, 63, 0⟩
abbrev core_swap_done (c : Nat) : Fld := ⟨.core, 0x1000018 + 0x10000 * c, 20, 20⟩
abbrev core_swap_result (c : Nat) : Fld := ⟨.core, 0x1000018 + 0x10000 * c, 19, 16⟩
abbrev core_swap_target (c : Nat) : Fld := ⟨.core, 0x1000018 + 0x10000 * c, 13, 8⟩
abbrev core_swap_go (c : Nat) : Fld := ⟨.core, 0x1000018 + 0x10000 * c, 0, 0⟩
-- Table 5.14 (spec/05_checkpoint_window_and_retry.md): core.last
abbrev core_last (c : Nat) : Fld := ⟨.core, 0x1000020 + 0x10000 * c, 63, 0⟩
abbrev core_last_excl (c : Nat) : Fld := ⟨.core, 0x1000020 + 0x10000 * c, 63, 40⟩
abbrev core_last_delay (c : Nat) : Fld := ⟨.core, 0x1000020 + 0x10000 * c, 39, 16⟩
abbrev core_last_dest (c : Nat) : Fld := ⟨.core, 0x1000020 + 0x10000 * c, 13, 8⟩
abbrev core_last_cause (c : Nat) : Fld := ⟨.core, 0x1000020 + 0x10000 * c, 1, 0⟩
-- Table 6.5 (spec/06_control_store.md): core.cs
abbrev core_cs (c : Nat) : Fld := ⟨.core, 0x1000028 + 0x10000 * c, 63, 0⟩
abbrev core_cs_addr (c : Nat) : Fld := ⟨.core, 0x1000028 + 0x10000 * c, 62, 48⟩
abbrev core_cs_seg (c : Nat) : Fld := ⟨.core, 0x1000028 + 0x10000 * c, 47, 40⟩
abbrev core_cs_src (c : Nat) : Fld := ⟨.core, 0x1000028 + 0x10000 * c, 35, 34⟩
abbrev core_cs_mc (c : Nat) : Fld := ⟨.core, 0x1000028 + 0x10000 * c, 33, 33⟩
abbrev core_cs_new (c : Nat) : Fld := ⟨.core, 0x1000028 + 0x10000 * c, 32, 32⟩
abbrev core_cs_reloads (c : Nat) : Fld := ⟨.core, 0x1000028 + 0x10000 * c, 31, 0⟩
-- Table 7.11 (spec/07_translation.md): core.tfd
abbrev core_tfd (c h : Nat) : Fld := ⟨.core, 0x1000040 + 0x10000 * c + 0x10 * h, 63, 0⟩
abbrev core_tfd_new (c h : Nat) : Fld := ⟨.core, 0x1000040 + 0x10000 * c + 0x10 * h, 23, 23⟩
abbrev core_tfd_s1lvl (c h : Nat) : Fld := ⟨.core, 0x1000040 + 0x10000 * c + 0x10 * h, 22, 20⟩
abbrev core_tfd_lvl (c h : Nat) : Fld := ⟨.core, 0x1000040 + 0x10000 * c + 0x10 * h, 18, 16⟩
abbrev core_tfd_kind (c h : Nat) : Fld := ⟨.core, 0x1000040 + 0x10000 * c + 0x10 * h, 15, 12⟩
abbrev core_tfd_s2 (c h : Nat) : Fld := ⟨.core, 0x1000040 + 0x10000 * c + 0x10 * h, 8, 8⟩
abbrev core_tfd_reason (c h : Nat) : Fld := ⟨.core, 0x1000040 + 0x10000 * c + 0x10 * h, 7, 0⟩
-- Table 7.13 (spec/07_translation.md): core.tfa
abbrev core_tfa (c h : Nat) : Fld := ⟨.core, 0x1000048 + 0x10000 * c + 0x10 * h, 63, 0⟩
abbrev core_tfa_va (c h : Nat) : Fld := ⟨.core, 0x1000048 + 0x10000 * c + 0x10 * h, 63, 0⟩
-- Table 8.9 (spec/08_caches_and_ordering.md): core.l2cfg
abbrev core_l2cfg (c : Nat) : Fld := ⟨.core, 0x1000100 + 0x10000 * c, 63, 0⟩
abbrev core_l2cfg_pf_dist (c : Nat) : Fld := ⟨.core, 0x1000100 + 0x10000 * c, 11, 8⟩
abbrev core_l2cfg_pf_en (c : Nat) : Fld := ⟨.core, 0x1000100 + 0x10000 * c, 1, 1⟩
abbrev core_l2cfg_st_en (c : Nat) : Fld := ⟨.core, 0x1000100 + 0x10000 * c, 0, 0⟩
-- Table 8.10 (spec/08_caches_and_ordering.md): core.l2err
abbrev core_l2err (c : Nat) : Fld := ⟨.core, 0x1000108 + 0x10000 * c, 63, 0⟩
abbrev core_l2err_line (c : Nat) : Fld := ⟨.core, 0x1000108 + 0x10000 * c, 59, 16⟩
abbrev core_l2err_new (c : Nat) : Fld := ⟨.core, 0x1000108 + 0x10000 * c, 15, 15⟩
abbrev core_l2err_way (c : Nat) : Fld := ⟨.core, 0x1000108 + 0x10000 * c, 14, 11⟩
abbrev core_l2err_code (c : Nat) : Fld := ⟨.core, 0x1000108 + 0x10000 * c, 7, 0⟩
-- Table 8.11 (spec/08_caches_and_ordering.md): core.cstat0
abbrev core_cstat0 (c : Nat) : Fld := ⟨.core, 0x1000110 + 0x10000 * c, 63, 0⟩
abbrev core_cstat0_hit (c : Nat) : Fld := ⟨.core, 0x1000110 + 0x10000 * c, 63, 32⟩
abbrev core_cstat0_miss (c : Nat) : Fld := ⟨.core, 0x1000110 + 0x10000 * c, 31, 0⟩
-- Table 8.12 (spec/08_caches_and_ordering.md): core.cstat1
abbrev core_cstat1 (c : Nat) : Fld := ⟨.core, 0x1000118 + 0x10000 * c, 63, 0⟩
abbrev core_cstat1_wround (c : Nat) : Fld := ⟨.core, 0x1000118 + 0x10000 * c, 63, 32⟩
abbrev core_cstat1_evbstall (c : Nat) : Fld := ⟨.core, 0x1000118 + 0x10000 * c, 31, 0⟩
-- Table 8.13 (spec/08_caches_and_ordering.md): core.cstat2
abbrev core_cstat2 (c : Nat) : Fld := ⟨.core, 0x1000120 + 0x10000 * c, 63, 0⟩
abbrev core_cstat2_ntfull (c : Nat) : Fld := ⟨.core, 0x1000120 + 0x10000 * c, 63, 48⟩
abbrev core_cstat2_ntpart (c : Nat) : Fld := ⟨.core, 0x1000120 + 0x10000 * c, 47, 32⟩
abbrev core_cstat2_scfail (c : Nat) : Fld := ⟨.core, 0x1000120 + 0x10000 * c, 31, 16⟩
abbrev core_cstat2_ovf_sc (c : Nat) : Fld := ⟨.core, 0x1000120 + 0x10000 * c, 1, 1⟩
abbrev core_cstat2_ovf_nt (c : Nat) : Fld := ⟨.core, 0x1000120 + 0x10000 * c, 0, 0⟩

end R
end Sys2Proof.Machine
end

