-- ==== Sys2Proof/Machine/RegTable.lean ====
section
/-! DEFINITION. The field maps of the module control space as one table (R41, Table 1.17): for every register its
offset, its index ranges and, for every field that is not reserved, its bits, access class, reset value and, where its
field map clamps a written value, the clamp.  Reset values that the field maps call fused, strap, kept or random are
those of log entries 3 and 4. -/

namespace Sys2Proof.Machine

/-- Access classes of Table 1.17. -/
inductive Cls where
  | rw | ro | wo | w1c | w1s | cnt | rsl
deriving DecidableEq, Repr

/-- One field of a field map: bits, class, reset value and the clamp of a written value, if any. -/
structure FDesc where
  hi : Nat
  lo : Nat
  cls : Cls
  rst : Nat
  lim : Option (Nat × Nat)
deriving DecidableEq, Repr

/-- One register or register array: MCS offset of its first element, (count, stride) of each index, fields. -/
structure RDesc where
  base : Nat
  dims : List (Nat × Nat)
  fields : List FDesc
deriving DecidableEq, Repr

namespace RT

def id_part : RDesc := ⟨0x0, [], [⟨63, 48, .ro, 0x4e4b, none⟩, ⟨47, 32, .ro, 0x25b0, none⟩, ⟨31, 24, .ro, 0x2, none⟩, ⟨23, 16, .ro, 0x1, none⟩, ⟨15, 8, .ro, 0x1, none⟩]⟩  -- Table 1.7
def id_cores : RDesc := ⟨0x8, [], [⟨63, 56, .ro, 0x30, none⟩, ⟨55, 48, .ro, 0x2c, none⟩, ⟨47, 40, .ro, 0x4, none⟩, ⟨39, 32, .ro, 0x0, none⟩]⟩  -- Table 1.8
def id_coremask : RDesc := ⟨0x10, [], [⟨47, 0, .ro, 0x7ff7ff7ff7ff, none⟩]⟩  -- Table 1.9
def id_healthmask : RDesc := ⟨0x18, [], [⟨47, 0, .ro, 0xffffffffffff, none⟩]⟩  -- Table 1.10
def id_place : RDesc := ⟨0x20, [], [⟨14, 8, .ro, 0x1, none⟩, ⟨4, 2, .ro, 0x1, none⟩, ⟨1, 0, .ro, 0x0, none⟩]⟩  -- Table 1.11
def id_ports : RDesc := ⟨0x28, [], [⟨49, 32, .ro, 0x0, none⟩, ⟨31, 20, .ro, 0x0, none⟩, ⟨19, 0, .ro, 0x0, none⟩]⟩  -- Table 1.12
def id_ioports : RDesc := ⟨0x30, [], [⟨47, 32, .ro, 0x0, none⟩, ⟨31, 0, .ro, 0x0, none⟩]⟩  -- Table 1.13
def id_mfeat : RDesc := ⟨0x38, [], [⟨11, 11, .ro, 0x1, none⟩, ⟨10, 10, .ro, 0x1, none⟩, ⟨9, 9, .ro, 0x1, none⟩, ⟨8, 8, .ro, 0x1, none⟩, ⟨7, 6, .ro, 0x2, none⟩, ⟨5, 4, .ro, 0x2, none⟩, ⟨3, 0, .ro, 0xf, none⟩]⟩  -- Table 1.14
def mode_cur : RDesc := ⟨0x10000, [], [⟨11, 9, .ro, 0x0, none⟩, ⟨8, 8, .ro, 0x0, none⟩, ⟨6, 4, .ro, 0x0, none⟩, ⟨2, 0, .ro, 0x0, none⟩]⟩  -- Table 2.7
def mode_req : RDesc := ⟨0x10008, [], [⟨9, 9, .w1s, 0x0, none⟩, ⟨8, 8, .w1s, 0x0, none⟩, ⟨6, 4, .rw, 0x1, none⟩, ⟨2, 0, .rw, 0x1, none⟩]⟩  -- Table 2.8
def mode_stat : RDesc := ⟨0x10010, [], [⟨23, 16, .ro, 0x0, none⟩, ⟨15, 15, .w1c, 0x0, none⟩, ⟨6, 4, .ro, 0x0, none⟩, ⟨3, 0, .ro, 0x0, none⟩]⟩  -- Table 2.9
def mode_epoch : RDesc := ⟨0x10018, [], [⟨63, 0, .ro, 0x0, none⟩]⟩  -- Table 2.11
def mode_cause : RDesc := ⟨0x10020, [], [⟨63, 8, .ro, 0x0, none⟩, ⟨6, 4, .ro, 0x0, none⟩, ⟨2, 0, .ro, 0x0, none⟩]⟩  -- Table 2.12
def mode_cfg : RDesc := ⟨0x10028, [], [⟨27, 16, .rw, 0x4b0, (some (900, 2400))⟩, ⟨15, 0, .rw, 0x64, (some (1, 65535))⟩]⟩  -- Table 2.13
def mode_m2mask : RDesc := ⟨0x10030, [], [⟨47, 0, .rw, 0x0, none⟩]⟩  -- Table 2.14
def mode_rill : RDesc := ⟨0x10038, [], [⟨15, 15, .rw, 0x0, none⟩, ⟨11, 0, .rw, 0x0, none⟩]⟩  -- Table 2.15
def mode_patch : RDesc := ⟨0x10100, [], [⟨51, 3, .rsl, 0x0, none⟩, ⟨0, 0, .w1s, 0x0, none⟩]⟩  -- Table 6.7
def mode_patchst : RDesc := ⟨0x10108, [], [⟨63, 32, .ro, 0x0, none⟩, ⟨16, 16, .ro, 0x0, none⟩, ⟨15, 15, .w1c, 0x0, none⟩, ⟨3, 0, .ro, 0x0, none⟩]⟩  -- Table 6.8
def mode_seal : RDesc := ⟨0x10200, [], [⟨15, 15, .w1c, 0x0, none⟩, ⟨9, 8, .ro, 0x0, none⟩, ⟨4, 1, .ro, 0x0, none⟩, ⟨0, 0, .w1s, 0x0, none⟩]⟩  -- Table 24.6
def mode_boot : RDesc := ⟨0x10208, [], [⟨47, 32, .ro, 0x0, none⟩, ⟨31, 16, .ro, 0x0, none⟩, ⟨12, 12, .ro, 0x0, none⟩, ⟨11, 11, .ro, 0x0, none⟩, ⟨10, 8, .ro, 0x0, none⟩, ⟨6, 4, .ro, 0x0, none⟩, ⟨1, 0, .ro, 0x0, none⟩]⟩  -- Table 24.7
def mode_meas : RDesc := ⟨0x10210, [(6, 0x8)], [⟨63, 0, .ro, 0x0, none⟩]⟩  -- Table 24.8
def mode_tstart : RDesc := ⟨0x10240, [], [⟨63, 63, .w1c, 0x0, none⟩, ⟨62, 60, .ro, 0x0, none⟩, ⟨59, 53, .rw, 0x0, none⟩, ⟨52, 52, .w1s, 0x0, none⟩, ⟨51, 2, .rw, 0x0, none⟩]⟩  -- Table 24.9
def mode_fcarry : RDesc := ⟨0x10248, [], [⟨47, 0, .w1c, 0x0, none⟩]⟩  -- Table 24.10
def mode_fwload : RDesc := ⟨0x10250, [], [⟨63, 63, .rw, 0x0, none⟩, ⟨51, 12, .rw, 0x0, none⟩]⟩  -- Table 24.11
def mode_ind : RDesc := ⟨0x10258, [], [⟨8, 8, .ro, 0x0, none⟩, ⟨5, 4, .ro, 0x0, none⟩, ⟨3, 2, .ro, 0x0, none⟩, ⟨1, 0, .rw, 0x0, none⟩]⟩  -- Table 25.7
def dbell_ttab : RDesc := ⟨0x1f0000, [], [⟨63, 63, .rsl, 0x0, none⟩, ⟨51, 23, .rsl, 0x0, none⟩, ⟨3, 0, .ro, 0x0, none⟩]⟩  -- Table 20.7
def dbell_tcmd : RDesc := ⟨0x1f0008, [], [⟨31, 31, .w1c, 0x0, none⟩, ⟨30, 27, .ro, 0x0, none⟩, ⟨23, 21, .rw, 0x0, none⟩, ⟨20, 20, .w1s, 0x0, none⟩, ⟨19, 0, .rw, 0x0, none⟩]⟩  -- Table 20.8
def dbell_tdata : RDesc := ⟨0x1f0010, [], [⟨63, 0, .rw, 0x0, none⟩]⟩  -- Table 20.9
def dbell_err : RDesc := ⟨0x1f0018, [], [⟨43, 36, .ro, 0xff, none⟩, ⟨35, 16, .ro, 0x0, none⟩, ⟨15, 15, .w1c, 0x0, none⟩, ⟨7, 0, .ro, 0x0, none⟩]⟩  -- Table 20.10
def dbell_cnt : RDesc := ⟨0x1f0020, [], [⟨63, 32, .cnt, 0x0, none⟩, ⟨31, 0, .cnt, 0x0, none⟩]⟩  -- Table 20.11
def dbell_pg : RDesc := ⟨0x1f1000, [(240, 0x8)], [⟨63, 63, .rw, 0x0, none⟩, ⟨51, 32, .rw, 0x0, none⟩, ⟨19, 0, .rw, 0x0, none⟩]⟩  -- Table 20.12
def dbell_sumv : RDesc := ⟨0x1f2000, [(1024, 0x8)], [⟨63, 63, .rw, 0x0, none⟩, ⟨51, 12, .rw, 0x0, none⟩]⟩  -- Table 20.13
def dbell_sumt : RDesc := ⟨0x1f4000, [(96, 0x8)], [⟨63, 63, .rw, 0x0, none⟩, ⟨51, 12, .rw, 0x0, none⟩]⟩  -- Table 20.13
def dbell_grp : RDesc := ⟨0x1f8000, [(4096, 0x8)], [⟨26, 16, .rw, 0x2, (some (1, 2000))⟩, ⟨7, 0, .rw, 0x1, (some (1, 255))⟩]⟩  -- Table 20.14
def rill_post : RDesc := ⟨0x200000, [], [⟨63, 32, .wo, 0x0, none⟩, ⟨11, 0, .wo, 0x0, none⟩]⟩  -- Table 20.15
def rill_err : RDesc := ⟨0x200008, [], [⟨27, 16, .ro, 0x0, none⟩, ⟨15, 15, .w1c, 0x0, none⟩, ⟨7, 0, .ro, 0x0, none⟩]⟩  -- Table 20.16
def rill_cnt : RDesc := ⟨0x200010, [], [⟨63, 32, .cnt, 0x0, none⟩, ⟨31, 0, .cnt, 0x0, none⟩]⟩  -- Table 20.17
def rill_r_base : RDesc := ⟨0x210000, [(4096, 0x20)], [⟨63, 63, .rw, 0x0, none⟩, ⟨51, 12, .rw, 0x0, none⟩, ⟨4, 0, .rw, 0x6, (some (6, 16))⟩]⟩  -- Table 20.18
def rill_r_ci : RDesc := ⟨0x210008, [(4096, 0x20)], [⟨51, 3, .rw, 0x0, none⟩]⟩  -- Table 20.19
def rill_r_ring : RDesc := ⟨0x210010, [(4096, 0x20)], [⟨63, 44, .rw, 0x0, none⟩, ⟨43, 43, .rw, 0x0, none⟩, ⟨31, 0, .ro, 0x0, none⟩]⟩  -- Table 20.20
def rill_r_stat : RDesc := ⟨0x210018, [(4096, 0x20)], [⟨63, 48, .ro, 0x0, none⟩, ⟨32, 32, .ro, 0x0, none⟩, ⟨31, 0, .cnt, 0x0, none⟩]⟩  -- Table 20.21
def casc_cfg : RDesc := ⟨0x300000, [], [⟨31, 31, .rw, 0x0, none⟩, ⟨27, 16, .rw, 0x0, none⟩, ⟨15, 0, .rw, 0x64, (some (10, 10000))⟩]⟩  -- Table 21.6
def casc_ttrh : RDesc := ⟨0x300008, [], [⟨51, 12, .rw, 0x0, none⟩, ⟨1, 0, .rw, 0x0, none⟩]⟩  -- Table 21.7
def casc_vcmd : RDesc := ⟨0x300010, [], [⟨31, 31, .w1c, 0x0, none⟩, ⟨30, 27, .ro, 0x0, none⟩, ⟨23, 21, .rw, 0x0, none⟩, ⟨20, 20, .w1s, 0x0, none⟩, ⟨9, 0, .rw, 0x0, none⟩]⟩  -- Table 21.8
def casc_cnt : RDesc := ⟨0x300018, [], [⟨63, 32, .cnt, 0x0, none⟩, ⟨31, 0, .cnt, 0x0, none⟩]⟩  -- Table 21.9
def casc_err : RDesc := ⟨0x300020, [], [⟨41, 36, .ro, 0x0, none⟩, ⟨25, 16, .ro, 0x0, none⟩, ⟨15, 15, .w1c, 0x0, none⟩, ⟨7, 0, .ro, 0x0, none⟩]⟩  -- Table 21.10
def casc_part_ctl : RDesc := ⟨0x300400, [(64, 0x20)], [⟨58, 48, .rw, 0x10, none⟩, ⟨42, 32, .ro, 0x10, none⟩, ⟨31, 31, .rw, 0x0, none⟩, ⟨15, 0, .rw, 0x3e8, none⟩]⟩  -- Table 21.11
def casc_part_ttr2 : RDesc := ⟨0x300408, [(64, 0x20)], [⟨51, 12, .rw, 0x0, none⟩, ⟨1, 0, .rw, 0x0, none⟩]⟩  -- Table 21.12
def casc_part_st : RDesc := ⟨0x300410, [(64, 0x20)], [⟨63, 32, .ro, 0x0, none⟩, ⟨31, 31, .w1c, 0x0, none⟩, ⟨17, 11, .ro, 0x0, none⟩, ⟨10, 0, .ro, 0x0, none⟩]⟩  -- Table 21.13
def casc_thr : RDesc := ⟨0x300c00, [(96, 0x8)], [⟨63, 63, .rw, 0x0, none⟩, ⟨10, 10, .ro, 0x0, none⟩, ⟨9, 0, .ro, 0x0, none⟩]⟩  -- Table 21.14
def casc_vp_ctl : RDesc := ⟨0x308000, [(1024, 0x20)], [⟨61, 56, .rw, 0x0, none⟩, ⟨51, 48, .rw, 0x8, none⟩, ⟨47, 40, .rw, 0x10, (some (1, 255))⟩]⟩  -- Table 21.15
def casc_vp_save : RDesc := ⟨0x308008, [(1024, 0x20)], [⟨51, 10, .rw, 0x0, none⟩]⟩  -- Table 21.16
def casc_vp_st : RDesc := ⟨0x308010, [(1024, 0x20)], [⟨15, 15, .ro, 0x0, none⟩, ⟨14, 8, .ro, 0x0, none⟩, ⟨7, 4, .ro, 0x0, none⟩, ⟨3, 0, .ro, 0x0, none⟩]⟩  -- Table 21.17
def casc_vp_tmr : RDesc := ⟨0x308018, [(1024, 0x20)], [⟨63, 0, .rw, 0x0, none⟩]⟩  -- Table 21.18
def weir_limit : RDesc := ⟨0x310000, [], [⟨11, 0, .rw, 0x7d0, (some (900, 2400))⟩]⟩  -- Table 21.19
def weir_stat : RDesc := ⟨0x310008, [], [⟨63, 52, .ro, 0x0, none⟩, ⟨51, 40, .ro, 0x0, none⟩, ⟨39, 28, .ro, 0x0, none⟩, ⟨16, 16, .ro, 0x0, none⟩, ⟨11, 0, .ro, 0x7d0, none⟩]⟩  -- Table 21.20
def weir_cfg : RDesc := ⟨0x310010, [], [⟨31, 16, .rw, 0xa, none⟩, ⟨15, 0, .rw, 0xc8, (some (1, 65535))⟩]⟩  -- Table 21.21
def weir_cnt : RDesc := ⟨0x310018, [], [⟨63, 32, .cnt, 0x0, none⟩, ⟨31, 0, .cnt, 0x0, none⟩]⟩  -- Table 21.22
def weir_err : RDesc := ⟨0x310020, [], [⟨40, 32, .ro, 0x0, none⟩, ⟨21, 16, .ro, 0x3f, none⟩, ⟨15, 15, .w1c, 0x0, none⟩, ⟨7, 0, .ro, 0x0, none⟩]⟩  -- Table 21.23
def weir_supply : RDesc := ⟨0x310028, [], [⟨63, 48, .ro, 0x0, none⟩, ⟨39, 32, .ro, 0x0, none⟩, ⟨17, 16, .ro, 0x0, none⟩, ⟨15, 15, .w1c, 0x0, none⟩]⟩  -- Table 25.3
def weir_core : RDesc := ⟨0x311000, [(48, 0x8)], [⟨63, 48, .ro, 0x0, none⟩, ⟨47, 47, .ro, 0x0, none⟩, ⟨39, 32, .ro, 0x0, none⟩, ⟨23, 16, .ro, 0xc8, none⟩, ⟨9, 8, .ro, 0x0, none⟩, ⟨7, 0, .ro, 0xc8, none⟩]⟩  -- Table 21.24
def weir_temp : RDesc := ⟨0x312000, [(272, 0x8)], [⟨16, 16, .ro, 0x0, none⟩, ⟨15, 0, .ro, 0x0, none⟩]⟩  -- Table 21.25
def weir_cstage : RDesc := ⟨0x31f000, [], [⟨47, 0, .rw, 0x7ff7ff7ff7ff, none⟩]⟩  -- Table 5.15
def spill_cfg : RDesc := ⟨0x400000, [], [⟨63, 63, .rw, 0x0, none⟩, ⟨59, 48, .rw, 0x0, none⟩, ⟨43, 32, .rw, 0x64, (some (1, 4095))⟩, ⟨26, 20, .rw, 0x0, none⟩, ⟨19, 0, .rw, 0x0, none⟩]⟩  -- Table 22.9
def spill_stat : RDesc := ⟨0x400008, [], [⟨63, 32, .cnt, 0x0, none⟩, ⟨31, 0, .cnt, 0x0, none⟩]⟩  -- Table 22.10
def spill_errn : RDesc := ⟨0x400010, [], [⟨19, 8, .ro, 0x0, none⟩, ⟨1, 1, .wo, 0x0, none⟩, ⟨0, 0, .ro, 0x0, none⟩]⟩  -- Table 22.11
def spill_rcause : RDesc := ⟨0x400018, [], [⟨63, 32, .ro, 0x0, none⟩, ⟨27, 16, .ro, 0x0, none⟩, ⟨3, 0, .ro, 0x0, none⟩]⟩  -- Table 22.12
def spill_brst : RDesc := ⟨0x400020, [], [⟨23, 23, .w1c, 0x0, none⟩, ⟨22, 20, .ro, 0x0, none⟩, ⟨8, 8, .w1s, 0x0, none⟩, ⟨7, 0, .rw, 0x0, none⟩]⟩  -- Table 22.13
def spill_inj : RDesc := ⟨0x400028, [], [⟨30, 28, .ro, 0x0, none⟩, ⟨25, 24, .rw, 0x0, none⟩, ⟨20, 20, .w1s, 0x0, none⟩, ⟨11, 0, .rw, 0x0, none⟩]⟩  -- Table 22.14
def spill_blk : RDesc := ⟨0x400100, [(150, 0x8)], [⟨63, 32, .cnt, 0x0, none⟩, ⟨19, 8, .ro, 0x0, none⟩, ⟨2, 0, .ro, 0x0, none⟩]⟩  -- Table 22.15
def spill_src_ctl : RDesc := ⟨0x410000, [(4096, 0x20)], [⟨59, 57, .ro, 0x0, none⟩, ⟨56, 56, .rw, 0x0, none⟩, ⟨55, 55, .rw, 0x1, none⟩, ⟨47, 24, .rw, 0x3e8, (some (1, 16777215))⟩, ⟨23, 16, .rw, 0x10, none⟩, ⟨11, 11, .rw, 0x0, none⟩, ⟨10, 8, .rw, 0x2, none⟩, ⟨3, 3, .rw, 0x0, none⟩, ⟨2, 0, .rw, 0x1, none⟩]⟩  -- Table 22.16
def spill_src_st : RDesc := ⟨0x410008, [(4096, 0x20)], [⟨41, 41, .ro, 0x0, none⟩, ⟨40, 40, .w1c, 0x0, none⟩, ⟨31, 0, .ro, 0x0, none⟩]⟩  -- Table 22.17
def spill_src_cnt : RDesc := ⟨0x410010, [(4096, 0x20)], [⟨63, 32, .cnt, 0x0, none⟩, ⟨31, 0, .cnt, 0x0, none⟩]⟩  -- Table 22.18
def grotto_ctl : RDesc := ⟨0x500000, [], [⟨63, 63, .rsl, 0x0, none⟩, ⟨62, 62, .rsl, 0x0, none⟩]⟩  -- Table 12.9
def grotto_stat : RDesc := ⟨0x500008, [], [⟨28, 16, .ro, 0x0, none⟩, ⟨11, 8, .ro, 0x0, none⟩, ⟨3, 0, .ro, 0x0, none⟩]⟩  -- Table 12.10
def grotto_wd : RDesc := ⟨0x500010, [], [⟨43, 32, .ro, 0x7d0, none⟩, ⟨0, 0, .wo, 0x0, none⟩]⟩  -- Table 12.11
def grotto_dbg : RDesc := ⟨0x500018, [], [⟨28, 28, .ro, 0x0, none⟩, ⟨23, 12, .ro, 0x0, none⟩, ⟨8, 8, .wo, 0x0, none⟩, ⟨5, 5, .ro, 0x0, none⟩, ⟨4, 4, .ro, 0x0, none⟩, ⟨3, 3, .ro, 0x0, none⟩, ⟨2, 2, .ro, 0x0, none⟩, ⟨1, 1, .rw, 0x0, none⟩, ⟨0, 0, .rw, 0x0, none⟩]⟩  -- Table 12.12
def grotto_dbgst : RDesc := ⟨0x500020, [], [⟨4, 4, .w1c, 0x0, none⟩, ⟨3, 0, .ro, 0x0, none⟩]⟩  -- Table 12.13
def grotto_nonce : RDesc := ⟨0x500028, [], [⟨63, 0, .ro, 0x0, none⟩]⟩  -- Table 12.14
def grotto_owner : RDesc := ⟨0x500030, [(6, 0x8)], [⟨63, 0, .rsl, 0x0, none⟩]⟩  -- Table 12.15
def grotto_cmd : RDesc := ⟨0x500060, [], [⟨60, 60, .w1c, 0x0, none⟩, ⟨59, 56, .ro, 0x0, none⟩, ⟨51, 7, .rw, 0x0, none⟩, ⟨3, 1, .rw, 0x0, none⟩, ⟨0, 0, .w1s, 0x0, none⟩]⟩  -- Table 12.16
def grotto_frz : RDesc := ⟨0x500068, [], [⟨51, 48, .ro, 0x0, none⟩, ⟨47, 0, .ro, 0x0, none⟩]⟩  -- Table 12.17
def grotto_err : RDesc := ⟨0x500070, [], [⟨27, 16, .ro, 0x0, none⟩, ⟨15, 15, .w1c, 0x0, none⟩, ⟨7, 0, .ro, 0x0, none⟩]⟩  -- Table 12.18
def cmpu_err : RDesc := ⟨0x600000, [(2, 0x80000)], [⟨21, 16, .ro, 0x0, none⟩, ⟨15, 15, .w1c, 0x0, none⟩, ⟨7, 0, .ro, 0x0, none⟩]⟩  -- Table 13.7
def cmpu_cnt : RDesc := ⟨0x600008, [(2, 0x80000)], [⟨63, 32, .cnt, 0x0, none⟩, ⟨31, 0, .cnt, 0x0, none⟩]⟩  -- Table 13.8
def cmpu_rate : RDesc := ⟨0x600010, [(2, 0x80000)], [⟨10, 0, .ro, 0x100, none⟩]⟩  -- Table 13.9
def cmpu_irill : RDesc := ⟨0x600800, [(2, 0x80000), (64, 0x8)], [⟨15, 15, .rw, 0x0, none⟩, ⟨11, 0, .rw, 0x0, none⟩]⟩  -- Table 13.10
def u_ictl : RDesc := ⟨0x602000, [(4, 0x80000), (64, 0x40)], [⟨31, 31, .w1c, 0x0, none⟩, ⟨27, 24, .ro, 0x0, none⟩, ⟨17, 17, .ro, 0x0, none⟩, ⟨11, 8, .ro, 0x0, none⟩, ⟨7, 4, .rw, 0x0, none⟩, ⟨0, 0, .w1s, 0x0, none⟩]⟩  -- Table 15.7
def u_ittr2 : RDesc := ⟨0x602008, [(4, 0x80000), (64, 0x40)], [⟨57, 52, .rw, 0x0, none⟩, ⟨51, 12, .rw, 0x0, none⟩, ⟨1, 0, .rw, 0x0, none⟩]⟩  -- Table 15.8
def u_idlog : RDesc := ⟨0x602010, [(4, 0x80000), (64, 0x40)], [⟨63, 63, .rw, 0x0, none⟩, ⟨51, 12, .rw, 0x0, none⟩, ⟨0, 0, .w1c, 0x0, none⟩]⟩  -- Table 15.9
def u_idlim : RDesc := ⟨0x602018, [(4, 0x80000), (64, 0x40)], [⟨39, 0, .rw, 0x0, none⟩]⟩  -- Table 15.10
def u_isave : RDesc := ⟨0x602020, [(4, 0x80000), (64, 0x40)], [⟨51, 8, .rw, 0x0, none⟩]⟩  -- Table 15.11
def cmpu_i_sub : RDesc := ⟨0x610000, [(2, 0x80000), (64, 0x1000)], [⟨63, 7, .wo, 0x0, none⟩]⟩  -- Table 13.11
def cmpu_i_stat : RDesc := ⟨0x610008, [(2, 0x80000), (64, 0x1000)], [⟨63, 32, .cnt, 0x0, none⟩, ⟨23, 16, .ro, 0x0, none⟩, ⟨15, 15, .w1c, 0x0, none⟩, ⟨12, 12, .ro, 0x0, none⟩, ⟨11, 10, .ro, 0x0, none⟩, ⟨4, 0, .ro, 0x0, none⟩]⟩  -- Table 13.12
def cmpu_i_last : RDesc := ⟨0x610010, [(2, 0x80000), (64, 0x1000)], [⟨63, 7, .ro, 0x0, none⟩]⟩  -- Table 13.13
def cmpu_i_ctl : RDesc := ⟨0x610018, [(2, 0x80000), (64, 0x1000)], [⟨0, 0, .w1s, 0x0, none⟩]⟩  -- Table 13.14
def cmpu_i_cnt : RDesc := ⟨0x610020, [(2, 0x80000), (64, 0x1000)], [⟨63, 32, .cnt, 0x0, none⟩, ⟨31, 0, .cnt, 0x0, none⟩]⟩  -- Table 13.15
def u_i_ttr1 : RDesc := ⟨0x610028, [(4, 0x80000), (64, 0x1000)], [⟨63, 52, .rw, 0x0, none⟩, ⟨51, 12, .rw, 0x0, none⟩, ⟨2, 2, .rw, 0x0, none⟩, ⟨1, 0, .rw, 0x0, none⟩]⟩  -- Table 15.12
def u_i_flt : RDesc := ⟨0x610030, [(4, 0x80000), (64, 0x1000)], [⟨23, 23, .w1c, 0x0, none⟩, ⟨22, 22, .w1c, 0x0, none⟩, ⟨18, 16, .ro, 0x0, none⟩, ⟨15, 12, .ro, 0x0, none⟩, ⟨8, 8, .ro, 0x0, none⟩, ⟨7, 0, .ro, 0x0, none⟩]⟩  -- Table 15.13
def u_i_fta : RDesc := ⟨0x610038, [(4, 0x80000), (64, 0x1000)], [⟨63, 0, .ro, 0x0, none⟩]⟩  -- Table 15.14
def cryu_err : RDesc := ⟨0x700000, [(2, 0x80000)], [⟨21, 16, .ro, 0x0, none⟩, ⟨15, 15, .w1c, 0x0, none⟩, ⟨7, 0, .ro, 0x0, none⟩]⟩  -- Table 14.12
def cryu_rate : RDesc := ⟨0x700010, [(2, 0x80000)], [⟨10, 0, .ro, 0x100, none⟩]⟩  -- Table 14.13
def cryu_rbg : RDesc := ⟨0x700018, [(2, 0x80000)], [⟨63, 32, .cnt, 0x0, none⟩, ⟨1, 0, .ro, 0x0, none⟩]⟩  -- Table 14.14
def cryu_irill : RDesc := ⟨0x700800, [(2, 0x80000), (64, 0x8)], [⟨15, 15, .rw, 0x0, none⟩, ⟨11, 0, .rw, 0x0, none⟩]⟩  -- Table 14.15
def cryu_kpol : RDesc := ⟨0x700c00, [(2, 0x80000), (64, 0x8)], [⟨2, 2, .w1c, 0x0, none⟩, ⟨1, 1, .ro, 0x0, none⟩, ⟨0, 0, .rw, 0x0, none⟩]⟩  -- Table 14.16
def cryu_wkey : RDesc := ⟨0x701000, [(2, 0x80000), (64, 0x20), (4, 0x8)], [⟨63, 0, .wo, 0x0, none⟩]⟩  -- Table 14.17
def cryu_i_sub : RDesc := ⟨0x710000, [(2, 0x80000), (64, 0x1000)], [⟨63, 7, .wo, 0x0, none⟩]⟩  -- Table 14.18
def cryu_i_stat : RDesc := ⟨0x710008, [(2, 0x80000), (64, 0x1000)], [⟨63, 32, .cnt, 0x0, none⟩, ⟨23, 16, .ro, 0x0, none⟩, ⟨15, 15, .w1c, 0x0, none⟩, ⟨12, 12, .ro, 0x0, none⟩, ⟨4, 0, .ro, 0x0, none⟩]⟩  -- Table 14.19
def cryu_i_last : RDesc := ⟨0x710010, [(2, 0x80000), (64, 0x1000)], [⟨63, 7, .ro, 0x0, none⟩]⟩  -- Table 14.20
def cryu_i_ctl : RDesc := ⟨0x710018, [(2, 0x80000), (64, 0x1000)], [⟨0, 0, .w1s, 0x0, none⟩]⟩  -- Table 14.21
def cryu_i_cnt : RDesc := ⟨0x710020, [(2, 0x80000), (64, 0x1000)], [⟨63, 32, .cnt, 0x0, none⟩, ⟨31, 0, .cnt, 0x0, none⟩]⟩  -- Table 14.22
def chan_cfg : RDesc := ⟨0x800000, [], [⟨47, 32, .rw, 0x1388, (some (1, 65535))⟩, ⟨31, 24, .rw, 0xa, (some (1, 255))⟩, ⟨19, 0, .rw, 0x3e8, (some (100, 1000000))⟩]⟩  -- Table 16.13
def chan_sct : RDesc := ⟨0x800008, [], [⟨63, 63, .rsl, 0x0, none⟩, ⟨51, 25, .rsl, 0x0, none⟩]⟩  -- Table 16.14
def chan_err : RDesc := ⟨0x800010, [], [⟨41, 24, .ro, 0x0, none⟩, ⟨23, 21, .ro, 0x0, none⟩, ⟨20, 16, .ro, 0x0, none⟩, ⟨15, 15, .w1c, 0x0, none⟩, ⟨14, 11, .ro, 0x0, none⟩, ⟨7, 0, .ro, 0x0, none⟩]⟩  -- Table 16.15
def chan_cpst : RDesc := ⟨0x800018, [], [⟨47, 32, .ro, 0x0, none⟩, ⟨15, 0, .ro, 0xffff, none⟩]⟩  -- Table 16.16
def chan_cnt : RDesc := ⟨0x800020, [], [⟨63, 32, .cnt, 0x0, none⟩, ⟨31, 0, .cnt, 0x0, none⟩]⟩  -- Table 16.17
def chan_cnt1 : RDesc := ⟨0x800028, [], [⟨63, 32, .cnt, 0x0, none⟩, ⟨31, 0, .cnt, 0x0, none⟩]⟩  -- Table 16.18
def chan_scmd : RDesc := ⟨0x800030, [], [⟨31, 31, .w1c, 0x0, none⟩, ⟨30, 27, .ro, 0x0, none⟩, ⟨26, 24, .rw, 0x0, none⟩, ⟨23, 21, .rw, 0x0, none⟩, ⟨20, 20, .w1s, 0x0, none⟩, ⟨17, 0, .rw, 0x0, none⟩]⟩  -- Table 16.19
def chan_scmda : RDesc := ⟨0x800038, [], [⟨51, 7, .rw, 0x0, none⟩]⟩  -- Table 16.20
def chan_pttr2 : RDesc := ⟨0x801000, [(64, 0x8)], [⟨51, 12, .rw, 0x0, none⟩, ⟨1, 0, .rw, 0x0, none⟩]⟩  -- Table 16.21
def chan_pdlog : RDesc := ⟨0x801200, [(64, 0x8)], [⟨63, 63, .rw, 0x0, none⟩, ⟨51, 12, .rw, 0x0, none⟩, ⟨0, 0, .w1c, 0x0, none⟩]⟩  -- Table 16.22
def chan_pdlim : RDesc := ⟨0x801400, [(64, 0x8)], [⟨39, 0, .rw, 0x0, none⟩]⟩  -- Table 16.23
def chan_rsv_base : RDesc := ⟨0x803000, [], [⟨63, 63, .rsl, 0x0, none⟩, ⟨51, 20, .rsl, 0x0, none⟩]⟩  -- Table 17.15
def chan_rsv_lim : RDesc := ⟨0x803008, [], [⟨51, 20, .rsl, 0x0, none⟩]⟩  -- Table 17.16
def chan_rsv_peer : RDesc := ⟨0x803010, [], [⟨63, 63, .rw, 0x0, none⟩, ⟨62, 62, .rw, 0x1, none⟩, ⟨12, 8, .rw, 0x1, none⟩, ⟨4, 0, .rw, 0x0, none⟩]⟩  -- Table 17.17
def chan_rsv_stat : RDesc := ⟨0x803018, [], [⟨63, 48, .ro, 0x0, none⟩, ⟨47, 24, .ro, 0x0, none⟩, ⟨7, 6, .ro, 0x0, none⟩, ⟨3, 0, .ro, 0x0, none⟩]⟩  -- Table 17.18
def chan_rsv_orph : RDesc := ⟨0x803020, [], [⟨63, 32, .ro, 0x0, none⟩, ⟨31, 0, .ro, 0x0, none⟩]⟩  -- Table 17.19
def chan_rsv_cmd : RDesc := ⟨0x803028, [], [⟨63, 32, .rw, 0x0, none⟩, ⟨31, 31, .w1c, 0x0, none⟩, ⟨30, 27, .ro, 0x0, none⟩, ⟨23, 21, .rw, 0x0, none⟩, ⟨20, 20, .w1s, 0x0, none⟩]⟩  -- Table 17.20
def chan_rsv_cmda : RDesc := ⟨0x803030, [], [⟨51, 8, .rw, 0x0, none⟩]⟩  -- Table 17.21
def chan_rsv_cnt : RDesc := ⟨0x803038, [], [⟨63, 32, .cnt, 0x0, none⟩, ⟨31, 0, .cnt, 0x0, none⟩]⟩  -- Table 17.22
def chan_lerr : RDesc := ⟨0x803040, [], [⟨63, 32, .ro, 0x0, none⟩, ⟨20, 16, .ro, 0x0, none⟩, ⟨15, 15, .w1c, 0x0, none⟩, ⟨7, 0, .ro, 0x0, none⟩]⟩  -- Table 17.23
def chan_jl_ctl : RDesc := ⟨0x804000, [(32, 0x40)], [⟨63, 62, .rsl, 0x1, none⟩, ⟨61, 61, .rsl, 0x0, none⟩, ⟨57, 56, .rw, 0x3, (some (1, 3))⟩, ⟨39, 24, .rw, 0x400, none⟩, ⟨1, 1, .w1s, 0x0, none⟩, ⟨0, 0, .w1s, 0x0, none⟩]⟩  -- Table 17.11
def chan_jl_stat : RDesc := ⟨0x804008, [(32, 0x40)], [⟨43, 40, .ro, 0x0, none⟩, ⟨31, 16, .ro, 0x0, none⟩, ⟨12, 8, .ro, 0x0, none⟩, ⟨7, 6, .ro, 0x0, none⟩, ⟨5, 4, .ro, 0x0, none⟩, ⟨3, 0, .ro, 0x0, none⟩]⟩  -- Table 17.12
def chan_jl_gen : RDesc := ⟨0x804010, [(32, 0x40)], [⟨63, 48, .ro, 0x0, none⟩, ⟨47, 32, .ro, 0x0, none⟩, ⟨31, 16, .ro, 0x0, none⟩, ⟨15, 4, .ro, 0x0, none⟩, ⟨3, 2, .ro, 0x0, none⟩, ⟨1, 0, .ro, 0x0, none⟩]⟩  -- Table 17.13
def chan_jl_cnt : RDesc := ⟨0x804018, [(32, 0x40)], [⟨63, 32, .cnt, 0x0, none⟩, ⟨31, 0, .cnt, 0x0, none⟩]⟩  -- Table 17.14
def chan_p_sub : RDesc := ⟨0x810000, [(64, 0x1000)], [⟨63, 7, .wo, 0x0, none⟩]⟩  -- Table 16.24
def chan_p_stat : RDesc := ⟨0x810008, [(64, 0x1000)], [⟨63, 32, .cnt, 0x0, none⟩, ⟨23, 16, .ro, 0x0, none⟩, ⟨15, 15, .w1c, 0x0, none⟩, ⟨4, 0, .ro, 0x0, none⟩]⟩  -- Table 16.25
def chan_p_last : RDesc := ⟨0x810010, [(64, 0x1000)], [⟨63, 7, .ro, 0x0, none⟩]⟩  -- Table 16.26
def chan_p_cnt : RDesc := ⟨0x810018, [(64, 0x1000)], [⟨63, 32, .cnt, 0x0, none⟩, ⟨31, 0, .cnt, 0x0, none⟩]⟩  -- Table 16.27
def mem_cfg : RDesc := ⟨0x900000, [], [⟨39, 32, .rw, 0x18, none⟩, ⟨26, 24, .rsl, 0x4, none⟩, ⟨23, 16, .rw, 0x10, (some (1, 64))⟩, ⟨7, 0, .rw, 0x14, (some (11, 255))⟩]⟩  -- Table 10.10
def mem_rgnst : RDesc := ⟨0x900008, [], [⟨19, 16, .ro, 0x0, none⟩, ⟨3, 0, .ro, 0x0, none⟩]⟩  -- Table 10.11
def mem_err : RDesc := ⟨0x900010, [], [⟨59, 16, .ro, 0x0, none⟩, ⟨15, 15, .w1c, 0x0, none⟩, ⟨12, 8, .ro, 0x1f, none⟩, ⟨7, 0, .ro, 0x0, none⟩]⟩  -- Table 10.12
def mem_rgn_base : RDesc := ⟨0x900100, [(16, 0x10)], [⟨63, 63, .rsl, 0x0, none⟩, ⟨51, 20, .rsl, 0x0, none⟩, ⟨3, 0, .rsl, 0x0, none⟩]⟩  -- Table 10.13
def mem_rgn_lim : RDesc := ⟨0x900108, [(16, 0x10)], [⟨51, 20, .rsl, 0x0, none⟩]⟩  -- Table 10.14
def mem_grp_ctl : RDesc := ⟨0x900200, [(4, 0x20)], [⟨0, 0, .w1s, 0x0, none⟩]⟩  -- Table 10.15
def mem_grp_stat : RDesc := ⟨0x900208, [(4, 0x20)], [⟨10, 8, .ro, 0x7, none⟩, ⟨3, 0, .ro, 0x0, none⟩]⟩  -- Table 10.16
def mem_grp_rb : RDesc := ⟨0x900210, [(4, 0x20)], [⟨33, 0, .ro, 0x0, none⟩]⟩  -- Table 10.17
def mem_port_ctl : RDesc := ⟨0x900400, [(20, 0x20)], [⟨17, 2, .rw, 0x400, none⟩, ⟨1, 1, .w1s, 0x0, none⟩, ⟨0, 0, .w1s, 0x0, none⟩]⟩  -- Table 10.18
def mem_port_stat : RDesc := ⟨0x900408, [(20, 0x20)], [⟨31, 28, .ro, 0x0, none⟩, ⟨23, 20, .ro, 0x0, none⟩, ⟨17, 9, .ro, 0x0, none⟩, ⟨8, 8, .ro, 0x0, none⟩, ⟨7, 4, .ro, 0x0, none⟩, ⟨3, 0, .ro, 0x0, none⟩]⟩  -- Table 10.19
def mem_port_cnt : RDesc := ⟨0x900410, [(20, 0x20)], [⟨63, 32, .cnt, 0x0, none⟩, ⟨31, 0, .cnt, 0x0, none⟩]⟩  -- Table 10.20
def mem_port_perf : RDesc := ⟨0x900418, [(20, 0x20)], [⟨63, 32, .cnt, 0x0, none⟩, ⟨31, 0, .cnt, 0x0, none⟩]⟩  -- Table 12.20
def mem_cis_ctl : RDesc := ⟨0x901000, [], [⟨63, 63, .rsl, 0x0, none⟩, ⟨31, 16, .rw, 0x100, none⟩, ⟨0, 0, .rw, 0x0, none⟩]⟩  -- Table 11.10
def mem_cis_ap : RDesc := ⟨0x901008, [(4, 0x8)], [⟨63, 63, .rsl, 0x0, none⟩, ⟨51, 30, .rsl, 0x0, none⟩, ⟨14, 0, .rsl, 0x0, none⟩]⟩  -- Table 11.11
def mem_cis_pool : RDesc := ⟨0x901028, [], [⟨51, 20, .rsl, 0x0, none⟩]⟩  -- Table 11.12
def mem_cis_plim : RDesc := ⟨0x901030, [], [⟨51, 20, .rsl, 0x0, none⟩]⟩  -- Table 11.13
def mem_cis_stat : RDesc := ⟨0x901038, [], [⟨8, 8, .ro, 0x0, none⟩, ⟨3, 0, .ro, 0x0, none⟩]⟩  -- Table 11.14
def mem_cis_free0 : RDesc := ⟨0x901040, [], [⟨63, 32, .ro, 0x0, none⟩, ⟨31, 0, .ro, 0x0, none⟩]⟩  -- Table 11.15
def mem_cis_free1 : RDesc := ⟨0x901048, [], [⟨63, 32, .ro, 0x0, none⟩, ⟨31, 0, .ro, 0x0, none⟩]⟩  -- Table 11.16
def mem_cis_pages0 : RDesc := ⟨0x901050, [], [⟨63, 32, .ro, 0x0, none⟩, ⟨31, 0, .ro, 0x0, none⟩]⟩  -- Table 11.17
def mem_cis_pages1 : RDesc := ⟨0x901058, [], [⟨63, 32, .ro, 0x0, none⟩, ⟨31, 16, .ro, 0x0, none⟩, ⟨15, 0, .ro, 0x0, none⟩]⟩  -- Table 11.18
def mem_cis_cnt0 : RDesc := ⟨0x901060, [], [⟨63, 32, .cnt, 0x0, none⟩, ⟨31, 0, .cnt, 0x0, none⟩]⟩  -- Table 11.19
def mem_cis_cnt1 : RDesc := ⟨0x901068, [], [⟨63, 32, .cnt, 0x0, none⟩, ⟨31, 0, .cnt, 0x0, none⟩]⟩  -- Table 11.20
def mem_cis_cmd : RDesc := ⟨0x901070, [], [⟨20, 20, .w1c, 0x0, none⟩, ⟨19, 16, .ro, 0x0, none⟩, ⟨14, 12, .ro, 0x0, none⟩, ⟨11, 11, .ro, 0x0, none⟩, ⟨10, 10, .ro, 0x0, none⟩, ⟨9, 9, .ro, 0x0, none⟩, ⟨3, 1, .rw, 0x0, none⟩, ⟨0, 0, .w1s, 0x0, none⟩]⟩  -- Table 11.21
def mem_cis_cmda : RDesc := ⟨0x901078, [], [⟨51, 12, .rw, 0x0, none⟩]⟩  -- Table 11.22
def mem_cis_err : RDesc := ⟨0x901080, [], [⟨59, 20, .ro, 0x0, none⟩, ⟨15, 15, .w1c, 0x0, none⟩, ⟨9, 8, .ro, 0x0, none⟩, ⟨7, 0, .ro, 0x0, none⟩]⟩  -- Table 11.23
def mem_cis_rill : RDesc := ⟨0x901088, [], [⟨15, 15, .rw, 0x0, none⟩, ⟨11, 0, .rw, 0x0, none⟩]⟩  -- Table 11.24
def aq_cfg : RDesc := ⟨0xa00000, [], [⟨47, 32, .rw, 0x64, (some (10, 1000))⟩, ⟨10, 0, .rw, 0xc8, (some (50, 1600))⟩]⟩  -- Table 9.13
def aq_home : RDesc := ⟨0xa00008, [(4, 0x8)], [⟨63, 63, .rsl, 0x0, none⟩, ⟨51, 30, .rsl, 0x0, none⟩, ⟨14, 0, .rsl, 0x0, none⟩]⟩  -- Table 9.14
def aq_dom : RDesc := ⟨0xa00028, [], [⟨53, 42, .ro, 0xfff, none⟩, ⟨41, 40, .ro, 0x0, none⟩, ⟨39, 32, .ro, 0x0, none⟩, ⟨9, 9, .ro, 0x0, none⟩, ⟨8, 8, .ro, 0x0, none⟩, ⟨7, 4, .ro, 0x0, none⟩]⟩  -- Table 9.15
def aq_err : RDesc := ⟨0xa00038, [], [⟨59, 16, .ro, 0x0, none⟩, ⟨15, 15, .w1c, 0x0, none⟩, ⟨14, 8, .ro, 0x0, none⟩, ⟨7, 0, .ro, 0x0, none⟩]⟩  -- Table 9.16
def aq_fab_ctl : RDesc := ⟨0xa01000, [(12, 0x20)], [⟨23, 8, .rw, 0x400, none⟩, ⟨2, 2, .w1s, 0x0, none⟩, ⟨1, 1, .rw, 0x1, none⟩, ⟨0, 0, .rw, 0x1, none⟩]⟩  -- Table 9.17
def aq_fab_stat : RDesc := ⟨0xa01008, [(12, 0x20)], [⟨39, 38, .ro, 0x0, none⟩, ⟨35, 32, .ro, 0x0, none⟩, ⟨28, 12, .ro, 0x0, none⟩, ⟨11, 10, .ro, 0x0, none⟩, ⟨9, 9, .ro, 0x0, none⟩, ⟨8, 4, .ro, 0x0, none⟩, ⟨3, 0, .ro, 0x0, none⟩]⟩  -- Table 9.18
def aq_fab_cnt : RDesc := ⟨0xa01010, [(12, 0x20)], [⟨63, 32, .cnt, 0x0, none⟩, ⟨31, 0, .cnt, 0x0, none⟩]⟩  -- Table 9.19
def aq_sl_ctl : RDesc := ⟨0xa03000, [], [⟨11, 8, .rw, 0x4, (some (2, 15))⟩, ⟨0, 0, .rsl, 0x1, none⟩]⟩  -- Table 9.20
def aq_sl_stat : RDesc := ⟨0xa03008, [], [⟨63, 32, .cnt, 0x0, none⟩, ⟨31, 16, .ro, 0x0, none⟩, ⟨3, 3, .ro, 0x0, none⟩, ⟨2, 2, .ro, 0x0, none⟩]⟩  -- Table 9.21
def aq_mtu_err : RDesc := ⟨0xa04000, [], [⟨23, 22, .ro, 0x0, none⟩, ⟨21, 16, .ro, 0x0, none⟩, ⟨15, 15, .w1c, 0x0, none⟩, ⟨7, 0, .ro, 0x0, none⟩]⟩  -- Table 15.15
def aq_bsn_err : RDesc := ⟨0xa0f000, [(4, 0x8)], [⟨59, 16, .ro, 0x0, none⟩, ⟨15, 15, .w1c, 0x0, none⟩, ⟨14, 10, .ro, 0x0, none⟩, ⟨7, 0, .ro, 0x0, none⟩]⟩  -- Table 8.14
def aq_bsn_cnt : RDesc := ⟨0xa0f100, [(4, 0x8)], [⟨63, 32, .cnt, 0x0, none⟩, ⟨31, 0, .cnt, 0x0, none⟩]⟩  -- Table 12.19
def pcie_ecam : RDesc := ⟨0xb00000, [], [⟨63, 63, .rsl, 0x0, none⟩, ⟨51, 33, .rsl, 0x0, none⟩, ⟨3, 0, .ro, 0x0, none⟩]⟩  -- Table 18.7
def pcie_p_ctl : RDesc := ⟨0xb01000, [(32, 0x80)], [⟨39, 32, .rsl, 0x4b, none⟩, ⟨29, 16, .rw, 0x64, (some (1, 16383))⟩, ⟨5, 4, .rw, 0x3, none⟩, ⟨3, 3, .rw, 0x1, none⟩, ⟨2, 2, .rw, 0x1, none⟩, ⟨0, 0, .w1s, 0x0, none⟩]⟩  -- Table 18.8
def pcie_p_stat : RDesc := ⟨0xb01008, [(32, 0x80)], [⟨31, 24, .ro, 0x0, none⟩, ⟨19, 19, .ro, 0x0, none⟩, ⟨18, 18, .ro, 0x0, none⟩, ⟨17, 17, .ro, 0x0, none⟩, ⟨16, 16, .ro, 0x0, none⟩, ⟨12, 8, .ro, 0x0, none⟩, ⟨7, 7, .ro, 0x0, none⟩, ⟨5, 4, .ro, 0x0, none⟩, ⟨3, 0, .ro, 0x4, none⟩]⟩  -- Table 18.9
def pcie_p_mwin : RDesc := ⟨0xb01010, [(32, 0x80)], [⟨63, 63, .rsl, 0x0, none⟩, ⟨51, 30, .rsl, 0x0, none⟩, ⟨14, 0, .rsl, 0x0, none⟩]⟩  -- Table 18.10
def pcie_p_boff : RDesc := ⟨0xb01018, [(32, 0x80)], [⟨63, 30, .rsl, 0x0, none⟩]⟩  -- Table 18.11
def pcie_p_ttr2 : RDesc := ⟨0xb01020, [(32, 0x80)], [⟨57, 52, .rw, 0x0, none⟩, ⟨51, 12, .rw, 0x0, none⟩, ⟨1, 0, .rw, 0x0, none⟩]⟩  -- Table 18.12
def pcie_p_err : RDesc := ⟨0xb01028, [(32, 0x80)], [⟨47, 32, .ro, 0x0, none⟩, ⟨23, 16, .ro, 0x0, none⟩, ⟨15, 15, .w1c, 0x0, none⟩, ⟨7, 0, .ro, 0x0, none⟩]⟩  -- Table 18.13
def pcie_p_erra : RDesc := ⟨0xb01030, [(32, 0x80)], [⟨63, 0, .ro, 0x0, none⟩]⟩  -- Table 18.14
def pcie_p_cnt : RDesc := ⟨0xb01038, [(32, 0x80)], [⟨63, 32, .cnt, 0x0, none⟩, ⟨31, 0, .cnt, 0x0, none⟩]⟩  -- Table 18.15
def pcie_p_hp : RDesc := ⟨0xb01040, [(32, 0x80)], [⟨12, 12, .ro, 0x1, none⟩, ⟨11, 11, .ro, 0x0, none⟩, ⟨10, 10, .ro, 0x0, none⟩, ⟨9, 9, .ro, 0x0, none⟩, ⟨8, 8, .ro, 0x0, none⟩, ⟨7, 6, .ro, 0x0, none⟩, ⟨5, 4, .ro, 0x0, none⟩, ⟨3, 3, .ro, 0x0, none⟩]⟩  -- Table 18.16
def cpl_cfg : RDesc := ⟨0xc00000, [], [⟨47, 32, .rw, 0x3e8, (some (1, 65535))⟩, ⟨15, 0, .rw, 0x64, (some (10, 10000))⟩]⟩  -- Table 19.7
def cpl_sysid : RDesc := ⟨0xc00008, [], [⟨63, 0, .rsl, 0x0, none⟩]⟩  -- Table 19.8
def cpl_err : RDesc := ⟨0xc00010, [], [⟨26, 21, .ro, 0x0, none⟩, ⟨20, 16, .ro, 0x0, none⟩, ⟨15, 15, .w1c, 0x0, none⟩, ⟨7, 0, .ro, 0x0, none⟩]⟩  -- Table 19.9
def cpl_pmask : RDesc := ⟨0xc00100, [(64, 0x8)], [⟨17, 0, .rw, 0x0, none⟩]⟩  -- Table 19.10
def cpl_mir : RDesc := ⟨0xc00400, [(4, 0x10)], [⟨63, 63, .rsl, 0x0, none⟩, ⟨62, 62, .ro, 0x0, none⟩, ⟨61, 61, .w1s, 0x0, none⟩, ⟨51, 20, .rsl, 0x0, none⟩, ⟨9, 0, .rsl, 0x0, none⟩]⟩  -- Table 19.11
def cpl_mirid : RDesc := ⟨0xc00408, [(4, 0x10)], [⟨63, 0, .rsl, 0x0, none⟩]⟩  -- Table 19.12
def cpl_rq : RDesc := ⟨0xc00800, [(64, 0x10)], [⟨63, 63, .rw, 0x0, none⟩, ⟨61, 56, .rw, 0x0, none⟩, ⟨51, 13, .rw, 0x0, none⟩, ⟨3, 0, .rw, 0x4, (some (4, 12))⟩]⟩  -- Table 19.13
def cpl_rqi : RDesc := ⟨0xc00808, [(64, 0x10)], [⟨63, 44, .rw, 0x0, none⟩, ⟨31, 16, .ro, 0x0, none⟩, ⟨15, 0, .rw, 0x0, none⟩]⟩  -- Table 19.14
def cpl_p_ctl : RDesc := ⟨0xc01000, [(18, 0x40)], [⟨39, 24, .rw, 0x400, none⟩, ⟨1, 1, .w1s, 0x0, none⟩, ⟨0, 0, .w1s, 0x0, none⟩]⟩  -- Table 19.15
def cpl_p_stat : RDesc := ⟨0xc01008, [(18, 0x40)], [⟨43, 40, .ro, 0x0, none⟩, ⟨34, 34, .ro, 0x0, none⟩, ⟨33, 32, .ro, 0x0, none⟩, ⟨31, 16, .ro, 0x0, none⟩, ⟨15, 12, .ro, 0x0, none⟩, ⟨8, 4, .ro, 0x0, none⟩, ⟨3, 0, .ro, 0x0, none⟩]⟩  -- Table 19.16
def cpl_p_peer : RDesc := ⟨0xc01010, [(18, 0x40)], [⟨63, 0, .ro, 0x0, none⟩]⟩  -- Table 19.17
def cpl_p_cnt : RDesc := ⟨0xc01018, [(18, 0x40)], [⟨63, 32, .cnt, 0x0, none⟩, ⟨31, 0, .cnt, 0x0, none⟩]⟩  -- Table 19.18
def cpl_q_sub : RDesc := ⟨0xc10000, [(64, 0x1000)], [⟨63, 7, .wo, 0x0, none⟩]⟩  -- Table 19.19
def cpl_q_stat : RDesc := ⟨0xc10008, [(64, 0x1000)], [⟨63, 32, .cnt, 0x0, none⟩, ⟨5, 0, .ro, 0x0, none⟩]⟩  -- Table 19.20
def od_cmd : RDesc := ⟨0xd00000, [], [⟨63, 48, .rw, 0x0, none⟩, ⟨47, 40, .rw, 0x0, none⟩, ⟨35, 34, .rw, 0x0, none⟩, ⟨33, 33, .rw, 0x0, none⟩, ⟨31, 31, .w1c, 0x0, none⟩, ⟨27, 24, .ro, 0x0, none⟩, ⟨0, 0, .w1s, 0x0, none⟩]⟩  -- Table 23.10
def od_xfer : RDesc := ⟨0xd00008, [], [⟨63, 32, .rw, 0x0, none⟩, ⟨12, 0, .rw, 0x0, none⟩]⟩  -- Table 23.11
def od_buf : RDesc := ⟨0xd01000, [(512, 0x8)], [⟨63, 0, .rw, 0x0, none⟩]⟩  -- Table 23.12
def core_state : RDesc := ⟨0x1000000, [(48, 0x10000)], [⟨30, 30, .ro, 0x0, none⟩, ⟨29, 24, .ro, 0x3f, none⟩, ⟨21, 16, .ro, 0x3f, none⟩, ⟨13, 8, .ro, 0x3f, none⟩, ⟨7, 7, .ro, 0x0, none⟩, ⟨6, 6, .ro, 0x0, none⟩, ⟨5, 5, .ro, 0x0, none⟩, ⟨1, 0, .ro, 0x0, none⟩]⟩  -- Table 5.10
def core_err : RDesc := ⟨0x1000008, [(48, 0x10000)], [⟨63, 32, .ro, 0x0, none⟩, ⟨31, 31, .w1c, 0x0, none⟩, ⟨23, 16, .ro, 0x0, none⟩, ⟨15, 15, .ro, 0x0, none⟩, ⟨14, 14, .ro, 0x0, none⟩, ⟨13, 12, .ro, 0x0, none⟩, ⟨11, 8, .ro, 0x0, none⟩, ⟨7, 0, .ro, 0x0, none⟩]⟩  -- Table 5.11
def core_rty : RDesc := ⟨0x1000010, [(48, 0x10000)], [⟨63, 32, .cnt, 0x0, none⟩, ⟨31, 0, .cnt, 0x0, none⟩]⟩  -- Table 5.12
def core_swap : RDesc := ⟨0x1000018, [(48, 0x10000)], [⟨20, 20, .w1c, 0x0, none⟩, ⟨19, 16, .ro, 0x0, none⟩, ⟨13, 8, .rw, 0x3f, none⟩, ⟨0, 0, .w1s, 0x0, none⟩]⟩  -- Table 5.13
def core_last : RDesc := ⟨0x1000020, [(48, 0x10000)], [⟨63, 40, .ro, 0x0, none⟩, ⟨39, 16, .ro, 0x0, none⟩, ⟨13, 8, .ro, 0x3f, none⟩, ⟨1, 0, .ro, 0x0, none⟩]⟩  -- Table 5.14
def core_cs : RDesc := ⟨0x1000028, [(48, 0x10000)], [⟨62, 48, .ro, 0x0, none⟩, ⟨47, 40, .ro, 0x0, none⟩, ⟨35, 34, .ro, 0x0, none⟩, ⟨33, 33, .w1c, 0x0, none⟩, ⟨32, 32, .w1c, 0x0, none⟩, ⟨31, 0, .cnt, 0x0, none⟩]⟩  -- Table 6.5
def core_tfd : RDesc := ⟨0x1000040, [(48, 0x10000), (2, 0x10)], [⟨23, 23, .w1c, 0x0, none⟩, ⟨22, 20, .ro, 0x0, none⟩, ⟨18, 16, .ro, 0x0, none⟩, ⟨15, 12, .ro, 0x0, none⟩, ⟨8, 8, .ro, 0x0, none⟩, ⟨7, 0, .ro, 0x0, none⟩]⟩  -- Table 7.11
def core_tfa : RDesc := ⟨0x1000048, [(48, 0x10000), (2, 0x10)], [⟨63, 0, .ro, 0x0, none⟩]⟩  -- Table 7.13
def core_l2cfg : RDesc := ⟨0x1000100, [(48, 0x10000)], [⟨11, 8, .rw, 0x8, (some (1, 15))⟩, ⟨1, 1, .rw, 0x1, none⟩, ⟨0, 0, .rw, 0x1, none⟩]⟩  -- Table 8.9
def core_l2err : RDesc := ⟨0x1000108, [(48, 0x10000)], [⟨59, 16, .ro, 0x0, none⟩, ⟨15, 15, .w1c, 0x0, none⟩, ⟨14, 11, .ro, 0x0, none⟩, ⟨7, 0, .ro, 0x0, none⟩]⟩  -- Table 8.10
def core_cstat0 : RDesc := ⟨0x1000110, [(48, 0x10000)], [⟨63, 32, .cnt, 0x0, none⟩, ⟨31, 0, .cnt, 0x0, none⟩]⟩  -- Table 8.11
def core_cstat1 : RDesc := ⟨0x1000118, [(48, 0x10000)], [⟨63, 32, .cnt, 0x0, none⟩, ⟨31, 0, .cnt, 0x0, none⟩]⟩  -- Table 8.12
def core_cstat2 : RDesc := ⟨0x1000120, [(48, 0x10000)], [⟨63, 48, .cnt, 0x0, none⟩, ⟨47, 32, .cnt, 0x0, none⟩, ⟨31, 16, .cnt, 0x0, none⟩, ⟨1, 1, .w1c, 0x0, none⟩, ⟨0, 0, .w1c, 0x0, none⟩]⟩  -- Table 8.13

end RT

/-- The registers of one block, in ascending offset. -/
def regTable : Blk → List RDesc
  | .id => [RT.id_part, RT.id_cores, RT.id_coremask, RT.id_healthmask, RT.id_place, RT.id_ports, RT.id_ioports, RT.id_mfeat]
  | .mode => [RT.mode_cur, RT.mode_req, RT.mode_stat, RT.mode_epoch, RT.mode_cause, RT.mode_cfg, RT.mode_m2mask, RT.mode_rill, RT.mode_patch, RT.mode_patchst, RT.mode_seal, RT.mode_boot, RT.mode_meas, RT.mode_tstart, RT.mode_fcarry, RT.mode_fwload, RT.mode_ind]
  | .dbell => [RT.dbell_ttab, RT.dbell_tcmd, RT.dbell_tdata, RT.dbell_err, RT.dbell_cnt, RT.dbell_pg, RT.dbell_sumv, RT.dbell_sumt, RT.dbell_grp]
  | .rill => [RT.rill_post, RT.rill_err, RT.rill_cnt, RT.rill_r_base, RT.rill_r_ci, RT.rill_r_ring, RT.rill_r_stat]
  | .casc => [RT.casc_cfg, RT.casc_ttrh, RT.casc_vcmd, RT.casc_cnt, RT.casc_err, RT.casc_part_ctl, RT.casc_part_ttr2, RT.casc_part_st, RT.casc_thr, RT.casc_vp_ctl, RT.casc_vp_save, RT.casc_vp_st, RT.casc_vp_tmr]
  | .weir => [RT.weir_limit, RT.weir_stat, RT.weir_cfg, RT.weir_cnt, RT.weir_err, RT.weir_supply, RT.weir_core, RT.weir_temp, RT.weir_cstage]
  | .spill => [RT.spill_cfg, RT.spill_stat, RT.spill_errn, RT.spill_rcause, RT.spill_brst, RT.spill_inj, RT.spill_blk, RT.spill_src_ctl, RT.spill_src_st, RT.spill_src_cnt]
  | .grotto => [RT.grotto_ctl, RT.grotto_stat, RT.grotto_wd, RT.grotto_dbg, RT.grotto_dbgst, RT.grotto_nonce, RT.grotto_owner, RT.grotto_cmd, RT.grotto_frz, RT.grotto_err]
  | .acc => [RT.cmpu_err, RT.cmpu_cnt, RT.cmpu_rate, RT.cmpu_irill, RT.u_ictl, RT.u_ittr2, RT.u_idlog, RT.u_idlim, RT.u_isave, RT.cmpu_i_sub, RT.cmpu_i_stat, RT.cmpu_i_last, RT.cmpu_i_ctl, RT.cmpu_i_cnt, RT.u_i_ttr1, RT.u_i_flt, RT.u_i_fta, RT.cryu_err, RT.cryu_rate, RT.cryu_rbg, RT.cryu_irill, RT.cryu_kpol, RT.cryu_wkey, RT.cryu_i_sub, RT.cryu_i_stat, RT.cryu_i_last, RT.cryu_i_ctl, RT.cryu_i_cnt]
  | .chan => [RT.chan_cfg, RT.chan_sct, RT.chan_err, RT.chan_cpst, RT.chan_cnt, RT.chan_cnt1, RT.chan_scmd, RT.chan_scmda, RT.chan_pttr2, RT.chan_pdlog, RT.chan_pdlim, RT.chan_rsv_base, RT.chan_rsv_lim, RT.chan_rsv_peer, RT.chan_rsv_stat, RT.chan_rsv_orph, RT.chan_rsv_cmd, RT.chan_rsv_cmda, RT.chan_rsv_cnt, RT.chan_lerr, RT.chan_jl_ctl, RT.chan_jl_stat, RT.chan_jl_gen, RT.chan_jl_cnt, RT.chan_p_sub, RT.chan_p_stat, RT.chan_p_last, RT.chan_p_cnt]
  | .mem => [RT.mem_cfg, RT.mem_rgnst, RT.mem_err, RT.mem_rgn_base, RT.mem_rgn_lim, RT.mem_grp_ctl, RT.mem_grp_stat, RT.mem_grp_rb, RT.mem_port_ctl, RT.mem_port_stat, RT.mem_port_cnt, RT.mem_port_perf, RT.mem_cis_ctl, RT.mem_cis_ap, RT.mem_cis_pool, RT.mem_cis_plim, RT.mem_cis_stat, RT.mem_cis_free0, RT.mem_cis_free1, RT.mem_cis_pages0, RT.mem_cis_pages1, RT.mem_cis_cnt0, RT.mem_cis_cnt1, RT.mem_cis_cmd, RT.mem_cis_cmda, RT.mem_cis_err, RT.mem_cis_rill]
  | .aq => [RT.aq_cfg, RT.aq_home, RT.aq_dom, RT.aq_err, RT.aq_fab_ctl, RT.aq_fab_stat, RT.aq_fab_cnt, RT.aq_sl_ctl, RT.aq_sl_stat, RT.aq_mtu_err, RT.aq_bsn_err, RT.aq_bsn_cnt]
  | .pcie => [RT.pcie_ecam, RT.pcie_p_ctl, RT.pcie_p_stat, RT.pcie_p_mwin, RT.pcie_p_boff, RT.pcie_p_ttr2, RT.pcie_p_err, RT.pcie_p_erra, RT.pcie_p_cnt, RT.pcie_p_hp]
  | .cpl => [RT.cpl_cfg, RT.cpl_sysid, RT.cpl_err, RT.cpl_pmask, RT.cpl_mir, RT.cpl_mirid, RT.cpl_rq, RT.cpl_rqi, RT.cpl_p_ctl, RT.cpl_p_stat, RT.cpl_p_peer, RT.cpl_p_cnt, RT.cpl_q_sub, RT.cpl_q_stat]
  | .od => [RT.od_cmd, RT.od_xfer, RT.od_buf]
  | .core => [RT.core_state, RT.core_err, RT.core_rty, RT.core_swap, RT.core_last, RT.core_cs, RT.core_tfd, RT.core_tfa, RT.core_l2cfg, RT.core_l2err, RT.core_cstat0, RT.core_cstat1, RT.core_cstat2]

end Sys2Proof.Machine
end

