-- ==== Sys2Proof/WellFormed.lean ====
section
/-! DEFINITION. Which commands are well formed: every operand within the range that the spec gives it. -/

namespace Sys2Proof

def FA.wf (i : FA) : Bool := decide (i.th < 96) && decide (i.t < 32) && decide (i.a < 32) && decide (i.b < 32)
def FI.wf (i : FI) : Bool := decide (i.th < 96) && decide (i.t < 32) && decide (i.a < 32) && decide (i.imm < 65536)
def FM.wf (i : FM) : Bool := decide (i.th < 96) && decide (i.t < 32) && decide (i.a < 32) && decide (i.disp < 65536)
def FX.wf (i : FX) : Bool :=
  decide (i.th < 96) && decide (i.t < 32) && decide (i.a < 32) && decide (i.b < 32) && decide (i.sc < 4) && decide (i.fn < 512)
def FS.wf (i : FS) : Bool := decide (i.th < 96) && decide (i.t < 32) && decide (i.a < 32) && decide (i.sr < 1024)
def FW.wf (i : FW) : Bool :=
  decide (i.th < 96) && decide (i.x < 1024) && decide (i.b1 < 32) && decide (i.d1 < 65536) && decide (i.b2 < 32) && decide (i.d2 < 65536)
def Msg.wf (m : Msg) : Bool :=
  decide (m.src < 256) && decide (m.dst < 256) && decide (m.tag < 4096) && decide (m.line < 2 ^ 44) && decide (m.acks < 256)
    && decide (m.st < 4) && decide (m.req < 256) && decide (m.aux < 2 ^ 24) && decide (m.mask < 2 ^ 256)
def CsErr.wf (e : CsErr) : Bool :=
  decide (e.addr < 32768) && decide (e.seg < 256) && decide (e.src < 4) && decide (e.golden < 3)


def XFrame.wf (f : XFrame) : Bool :=
  decide (f.addr < 65536) && decide (f.xid < 2 ^ 64) && decide (f.pos < 2 ^ 32) && decide (f.a < 2 ^ 32) && decide (f.b < 2 ^ 32)
    && decide (f.dcmd < 256) && decide (f.flags < 8) && decide (f.dstat < 256) && decide (f.sense.length ≤ 16) && f.sense.all (· < 256)
    && decide (f.data.length ≤ 4096) && f.data.all (· < 256)


/-- A command is well formed when each operand lies in the range its row gives it. -/
def Instr.wf (i : Instr) : Bool :=
  match i with
  | .mcsRegisterWrite off part val => decide (off < 0x2000000) && decide (part < 3) && decide (val < 0x10000000000000000)
  | .mcsReservedAccess off _ => decide (off < 0x2000000)
  | .inboundMcsAccess who port rid tag off _ => decide (who < 3) && decide (port < 32) && decide (rid < 65536) && decide (tag < 1024) && decide (off < 0x2000000)
  | .modeRequest val => decide (val < 0x10000000000000000)
  | .modeCancel val => decide (val < 0x10000000000000000)
  | .epochDrainStep2 => true
  | .epochDrainStep3 => true
  | .epochDrainStep4 => true
  | .epochDrainStep5 => true
  | .epochBoundary u => decide (u < 4096)
  | .drainTimeout => true
  | .concurrentRepairButton _ => true
  | .qreq ring num orig vote pay => decide (ring < 2) && decide (num < 256) && decide (orig < 4) && decide (vote < 16) && decide (pay < 0x1000000000000)
  | .qdrain ring num orig vote pay => decide (ring < 2) && decide (num < 256) && decide (orig < 4) && decide (vote < 16) && decide (pay < 0x1000000000000)
  | .qpoll ring num orig vote pay => decide (ring < 2) && decide (num < 256) && decide (orig < 4) && decide (vote < 16) && decide (pay < 0x1000000000000)
  | .qcommit ring num orig vote pay => decide (ring < 2) && decide (num < 256) && decide (orig < 4) && decide (vote < 16) && decide (pay < 0x1000000000000)
  | .qabort ring num orig vote pay => decide (ring < 2) && decide (num < 256) && decide (orig < 4) && decide (vote < 16) && decide (pay < 0x1000000000000)
  | .quiesceBoundarySlot u => decide (u < 4096)
  | .sluiceSlotOriginate => true
  | .sluiceSlotForward ring w => decide (ring < 2) && decide (w < 0x100000000000000000000)
  | .tod ring num pay => decide (ring < 2) && decide (num < 256) && decide (pay < 0x1000000000000)
  | .live ring num vote peers => decide (ring < 2) && decide (num < 256) && decide (vote < 16) && peers.all (· < 18446744073709551616)
  | .missedLiveSlots md => decide (md < 4)
  | .sluiceInputLost ring _ => decide (ring < 2)
  | .chk ring num orig pay => decide (ring < 2) && decide (num < 256) && decide (orig < 4) && decide (pay < 0x1000000000000)
  | .domainCheckstop cause src => decide (cause < 256) && decide (src < 4096)
  | .add i => i.wf
  | .addl i => i.wf
  | .sub i => i.wf
  | .subl i => i.wf
  | .andI i => i.wf
  | .orI i => i.wf
  | .xorI i => i.wf
  | .andc i => i.wf
  | .sll i => i.wf
  | .srl i => i.wf
  | .sra i => i.wf
  | .rotl i => i.wf
  | .cmp i => i.wf
  | .cmpl i => i.wf
  | .mul i => i.wf
  | .mulh i => i.wf
  | .mulhu i => i.wf
  | .div i => i.wf
  | .divu i => i.wf
  | .rem i => i.wf
  | .remu i => i.wf
  | .addi i => i.wf
  | .addis i => i.wf
  | .andi i => i.wf
  | .ori i => i.wf
  | .xori i => i.wf
  | .cmpi i => i.wf
  | .cmpli i => i.wf
  | .lb i => i.wf
  | .lh i => i.wf
  | .lw i => i.wf
  | .ld i => i.wf
  | .lq i => i.wf
  | .lbs i => i.wf
  | .lhs i => i.wf
  | .lws i => i.wf
  | .stb i => i.wf
  | .sth i => i.wf
  | .stw i => i.wf
  | .std i => i.wf
  | .stq i => i.wf
  | .lfs i => i.wf
  | .lfd i => i.wf
  | .stfs i => i.wf
  | .stfd i => i.wf
  | .indexedAccess i => i.wf
  | .nonTemporalStore i => i.wf
  | .br th off => decide (th < 96) && decide (off < 0x4000000)
  | .brl th off => decide (th < 96) && decide (off < 0x4000000)
  | .brc th cond a off => decide (th < 96) && decide (cond < 32) && decide (a < 32) && decide (off < 65536)
  | .bgr i => i.wf
  | .loop th n z a off => decide (th < 96) && decide (n < 4) && decide (z < 8) && decide (a < 32) && decide (off < 65536)
  | .mfsr i => i.wf
  | .mtsr i => i.wf
  | .svc i => i.wf
  | .hvc i => i.wf
  | .fwc i => i.wf
  | .rfi i => i.wf
  | .fenceL i => i.wf
  | .fenceS i => i.wf
  | .fenceF i => i.wf
  | .isync i => i.wf
  | .wait i => i.wf
  | .waitWake th => decide (th < 96)
  | .rdtod i => i.wf
  | .brk i => i.wf
  | .undefinedInstruction th word => decide (th < 96) && decide (word < 0x100000000)
  | .lres i => i.wf
  | .scond i => i.wf
  | .cas8 i => i.wf
  | .cas16 i => i.wf
  | .lcpy i => i.wf
  | .lcmp i => i.wf
  | .lmap i => i.wf
  | .dadd i => i.wf
  | .dsub i => i.wf
  | .dcmp i => i.wf
  | .dmul i => i.wf
  | .ddiv i => i.wf
  | .dset i => i.wf
  | .zdec i => i.wf
  | .dzon i => i.wf
  | .bcpy i => i.wf
  | .bcmp i => i.wf
  | .bmap i => i.wf
  | .bxor i => i.wf
  | .bfil i => i.wf
  | .fadd i _ => i.wf
  | .fsub i _ => i.wf
  | .fmul i _ => i.wf
  | .fdiv i _ => i.wf
  | .fsqrt i _ => i.wf
  | .fmadd i _ => i.wf
  | .fmsub i _ => i.wf
  | .fcmp i _ => i.wf
  | .fcvtSD i => i.wf
  | .fcvtDS i => i.wf
  | .fcfi i _ => i.wf
  | .fcti i _ => i.wf
  | .fctiz i _ => i.wf
  | .fmov i _ => i.wf
  | .fneg i _ => i.wf
  | .fabs i _ => i.wf
  | .mffs i => i.wf
  | .mtfs i => i.wf
  | .fmgf i => i.wf
  | .fmfg i => i.wf
  | .externalInterruption th => decide (th < 96)
  | .machineCheck th => decide (th < 96)
  | .checkpointCommit th => decide (th < 96)
  | .runAheadEnter th => decide (th < 96)
  | .runAheadEnd th => decide (th < 96)
  | .coreCheckError core th code cs => decide (core < 48) && decide (th < 3) && decide (code < 256) && cs.wf
  | .hangTimerExpiry th => decide (th < 96)
  | .capsuleRead core bad => decide (core < 48) && decide (bad < 128)
  | .swapResumption core delay excl => decide (core < 48) && decide (delay < 0x1000000) && decide (excl < 0x1000000)
  | .l2FlushComplete core => decide (core < 48)
  | .spareWarmed core => decide (core < 48)
  | .plannedSwap core val => decide (core < 48) && decide (val < 0x10000000000000000)
  | .patchGo val => decide (val < 0x10000000000000000)
  | .patchApplied => true
  | .ldtt i => i.wf
  | .sttt i => i.wf
  | .tlbiva i => i.wf
  | .tlbiasid i => i.wf
  | .tlbip1 i => i.wf
  | .tlbigpa i => i.wf
  | .tlbipart i => i.wf
  | .tlbihva i => i.wf
  | .tlbihall i => i.wf
  | .tlbsync i => i.wf
  | .tlbsyncComplete th => decide (th < 96)
  | .adBitUpdate th => decide (th < 96)
  | .shootdownReceive core _ => decide (core < 48)
  | .shootdownAck core _ => decide (core < 48)
  | .tlbShootdownTimeout th core => decide (th < 96) && decide (core < 48)
  | .storePerform th => decide (th < 96)
  | .combiningLineTimeout core line => decide (core < 48) && decide (line < 0x100000000000)
  | .prefetchRequest core k => decide (core < 48) && decide (k < 32)
  | .l2Eviction core set way code => decide (core < 48) && decide (set < 1024) && decide (way < 16) && decide (code < 7)
  | .rds x bsn dir => x.wf && decide (bsn < 6) && decide (dir < 5)
  | .rdx x bsn dir => x.wf && decide (bsn < 6) && decide (dir < 5)
  | .upg x => x.wf
  | .own x => x.wf
  | .wrf x => x.wf
  | .wrm x => x.wf
  | .evc x => x.wf
  | .evd x => x.wf
  | .mov x => x.wf
  | .tlbi x => x.wf
  | .prs x => x.wf
  | .prx x => x.wf
  | .pri x => x.wf
  | .prw x => x.wf
  | .ack x => x.wf
  | .cmpGrant x => x.wf
  | .done x => x.wf
  | .pra x => x.wf
  | .eva x => x.wf
  | .evp x => x.wf
  | .wra x => x.wf
  | .tlba x => x.wf
  | .err x => x.wf
  | .dataMsg x => x.wf
  | .dath x => x.wf
  | .wdat x => x.wf
  | .holdExpiry agent line => decide (agent < 48) && decide (line < 0x100000000000)
  | .probeTimeout line => decide (line < 0x100000000000)
  | .fabricFlit port bytes _ => decide (port < 12) && bytes.all (· < 256)
  | .fabricLaneFailure port lane => decide (port < 12) && decide (lane < 17)
  | .fabricLanemap port lane => decide (port < 12) && decide (lane < 17)
  | .fabricTrainingStart port => decide (port < 12)
  | .fabricEqualisationEnd port locked => decide (port < 12) && decide (locked < 0x20000)
  | .fabricIdent port md far size => decide (port < 12) && decide (md < 4) && decide (far < 12) && decide (size < 5)
  | .fabricCrdinit port => decide (port < 12)
  | .memRd port addr => decide (port < 20) && decide (addr < 0x400000000)
  | .memWr port addr => decide (port < 20) && decide (addr < 0x400000000)
  | .memCrd port reg => decide (port < 20) && decide (reg < 65536)
  | .memCwr port reg val => decide (port < 20) && decide (reg < 65536) && decide (val < 0x100000000)
  | .memRdd port tag piece crc _ ver => decide (port < 20) && decide (tag < 1024) && decide (piece < 0x100000000000000000000000000000000000000000000000000000000000000000000000000000000000000000000000000000000000000000000000000000000) && decide (crc < 0x100000000) && decide (ver < 8)
  | .memWra port tag => decide (port < 20) && decide (tag < 1024)
  | .memCra port tag val => decide (port < 20) && decide (tag < 1024) && decide (val < 0x100000000)
  | .memRerr port tag => decide (port < 20) && decide (tag < 1024)
  | .memResponseTimeout port tag => decide (port < 20) && decide (tag < 1024)
  | .memLaneFailure port lane => decide (port < 20) && decide (lane < 9)
  | .memLanemap port lane => decide (port < 20) && decide (lane < 9)
  | .memIdent port vendor part cap => decide (port < 20) && decide (vendor < 65536) && decide (part < 65536) && decide (cap < 256)
  | .memCrdinit port => decide (port < 20)
  | .memReady port _ => decide (port < 20)
  | .memTrainingStart port => decide (port < 20)
  | .memEqualisationEnd port locked => decide (port < 20) && decide (locked < 512)
  | .memPortDown port => decide (port < 20)
  | .memPortUp port => decide (port < 20)
  | .rebuildLine g => decide (g < 4)
  | .patrolScrubLine g bad _ => decide (g < 4) && bad.all (· < 5)
  | .groupInit g => decide (g < 4)
  | .groupInitComplete g => decide (g < 4)
  | .mapScanComplete => true
  | .expansionComplete page => decide (page < 0x10000000000)
  | .expansionWaitEnd page => decide (page < 0x10000000000)
  | .pageEvictionComplete page => decide (page < 0x10000000000)
  | .cisternDiscard => true
  | .cisternEvict => true
  | .cisternQuery => true
  | .grottoCreate => true
  | .grottoAdd => true
  | .grottoSeal => true
  | .grottoTeardown => true
  | .grottoQuery => true
  | .genter i => i.wf
  | .gexit i => i.wf
  | .gdetach i => i.wf
  | .gquery i => i.wf
  | .watchdogKick _ => true
  | .watchdogExpiry => true
  | .isolationComplete => true
  | .isolationTimeout => true
  | .debugCertificate cert => cert.all (· < 256)
  | .debugEnablesClear => true
  | .cmpSubmit u i addr => decide (u < 2) && decide (i < 64) && decide (addr < 0x10000000000000000)
  | .rotationSlot u i sram => decide (u < 4) && decide (i < 64) && decide (sram < 3)
  | .cmpAbort u i => decide (u < 2) && decide (i < 64)
  | .crySubmit u i addr => decide (u < 2) && decide (i < 64) && decide (addr < 0x10000000000000000)
  | .cryAbort u i => decide (u < 2) && decide (i < 64)
  | .wrappingKeyLoad u i val => decide (u < 2) && decide (i < 64) && decide (val < 0x10000000000000000)
  | .entropyHealthFailure u => decide (u < 2)
  | .entropyRestartEnd u _ => decide (u < 2)
  | .instanceAssign u i => decide (u < 4) && decide (i < 64)
  | .instanceEnable u i => decide (u < 4) && decide (i < 64)
  | .instanceQuiesce u i => decide (u < 4) && decide (i < 64)
  | .instanceQuiesced u i => decide (u < 4) && decide (i < 64)
  | .instanceResume u i => decide (u < 4) && decide (i < 64)
  | .instanceReset u i => decide (u < 4) && decide (i < 64)
  | .instanceRemove u i => decide (u < 4) && decide (i < 64)
  | .instanceSave u i => decide (u < 4) && decide (i < 64)
  | .instanceRestore u i => decide (u < 4) && decide (i < 64)
  | .instanceRootWrite u i _ val => decide (u < 4) && decide (i < 64) && decide (val < 0x10000000000000000)
  | .mtuRemoval _ => true
  | .logCacheWriteback u line => decide (u < 4) && decide (line < 0x100000000000)
  | .subchannelDefine scid => decide (scid < 0x40000)
  | .subchannelEnable scid => decide (scid < 0x40000)
  | .subchannelDisable scid => decide (scid < 0x40000)
  | .subchannelQuery scid => decide (scid < 0x40000)
  | .varyOffline scid path => decide (scid < 0x40000) && decide (path < 8)
  | .varyOnline scid path => decide (scid < 0x40000) && decide (path < 8)
  | .subchannelUndefine scid => decide (scid < 0x40000)
  | .channelSubmit part addr pend => decide (part < 64) && decide (addr < 0x10000000000000000) && decide (pend < 17)
  | .recordConfirmed slot parity => decide (slot < 0x100000000) && decide (parity < 3)
  | .holdExpired slot => decide (slot < 0x100000000)
  | .exchangeTimeout slot scid => decide (slot < 0x100000000) && decide (scid < 0x40000)
  | .pathProbeInterval scid k => decide (scid < 0x40000) && decide (k < 8)
  | .deviceBusyWaitEnd slot => decide (slot < 0x100000000)
  | .cmd slot => decide (slot < 0x100000000)
  | .wdata slot => decide (slot < 0x100000000)
  | .halt slot => decide (slot < 0x100000000)
  | .clear slot scid => decide (slot < 0x100000000) && decide (scid < 0x40000)
  | .identCmd scid k => decide (scid < 0x40000) && decide (k < 8)
  | .close slot _ => decide (slot < 0x100000000)
  | .rdata port f => decide (port < 32) && f.wf
  | .endCmd port f => decide (port < 32) && f.wf
  | .busy port f => decide (port < 32) && f.wf
  | .free port f => decide (port < 32) && f.wf
  | .halta port f => decide (port < 32) && f.wf
  | .cleara port f => decide (port < 32) && f.wf
  | .identr port f => decide (port < 32) && f.wf
  | .rej port f => decide (port < 32) && f.wf
  | .keep port f => decide (port < 32) && f.wf
  | .jlCodeword port hdr bytes _ _ => decide (port < 50) && decide (hdr < 0x100000) && bytes.all (· < 256) && bytes.length == 640
  | .jlReplayTimeout port => decide (port < 50)
  | .jlLaneFailure port lane => decide (port < 50) && decide (lane < 16)
  | .jlLanemap port w first => decide (port < 50) && decide (w < 17) && decide (first < 16)
  | .jlTs port gens => decide (port < 50) && decide (gens < 8)
  | .jlInit port vendor part maxx frames cells => decide (port < 32) && decide (vendor < 65536) && decide (part < 65536) && decide (maxx < 65536) && decide (frames < 65536) && decide (cells < 0x100000000)
  | .jlTrainingStart port => decide (port < 50)
  | .jlEqualisationEnd port locked => decide (port < 50) && decide (locked < 65536)
  | .jlLinkDown port => decide (port < 50)
  | .jlPortDown port => decide (port < 32)
  | .jlPortUp port => decide (port < 32)
  | .reservoirAdopt slot => decide (slot < 0x100000000)
  | .reservoirRelease slot => decide (slot < 0x100000000)
  | .reservoirQuery slot => decide (slot < 0x100000000)
  | .pcieCompletion port tag data _ _ => decide (port < 32) && decide (tag < 256) && decide (data < 0x100000000000000000000000000000000)
  | .pcieCompletionTimeout port tag => decide (port < 32) && decide (tag < 256)
  | .pcieInboundMemoryRead port rid tag addr len => decide (port < 32) && decide (rid < 65536) && decide (tag < 1024) && decide (addr < 0x10000000000000000) && decide (len < 4097)
  | .pcieInboundMemoryWrite port rid addr bytes _ => decide (port < 32) && decide (rid < 65536) && decide (addr < 0x10000000000000000) && bytes.all (· < 256)
  | .pcieInboundAtomicop port rid tag addr op n a b => decide (port < 32) && decide (rid < 65536) && decide (tag < 1024) && decide (addr < 0x10000000000000000) && decide (op < 3) && decide (n < 17) && decide (a < 0x100000000000000000000000000000000) && decide (b < 0x100000000000000000000000000000000)
  | .pcieInboundUnsupported port rid tag addr => decide (port < 32) && decide (rid < 65536) && decide (tag < 1024) && decide (addr < 0x10000000000000000)
  | .pcieErrorMessage port rid kind => decide (port < 32) && decide (rid < 65536) && decide (kind < 3)
  | .attentionButtonPressed port _ => decide (port < 32)
  | .presenceDetectChanged port _ => decide (port < 32)
  | .mrlSensorChanged port _ => decide (port < 32)
  | .powerFault port _ => decide (port < 32)
  | .slotPowerOn port => decide (port < 32)
  | .slotPowerOff port => decide (port < 32)
  | .indicatorChange port aind pind => decide (port < 32) && decide (aind < 4) && decide (pind < 4)
  | .perstRelease port => decide (port < 32)
  | .noLinkTimeout port => decide (port < 32)
  | .pcieLinkDown port => decide (port < 32)
  | .containmentRelease port => decide (port < 32)
  | .couplingSubmit part addr th => decide (part < 64) && decide (addr < 0x10000000000000000) && decide (th < 97)
  | .sreq port f => decide (port < 18) && f.wf
  | .srsp port f => decide (port < 18) && f.wf
  | .areq port f => decide (port < 18) && f.wf
  | .arsp port f => decide (port < 18) && f.wf
  | .rbusy port f => decide (port < 18) && f.wf
  | .rrej port f => decide (port < 18) && f.wf
  | .mupd port f => decide (port < 18) && f.wf
  | .mack port f => decide (port < 18) && f.wf
  | .mnak port f => decide (port < 18) && f.wf
  | .cp2Stop port => decide (port < 18)
  | .cp2Init port sys frames cells => decide (port < 18) && decide (sys < 0x10000000000000000) && decide (frames < 65536) && decide (cells < 0x100000000)
  | .couplingRequestTimeout port xid => decide (port < 18) && decide (xid < 0x10000000000000000)
  | .partnerSilent port => decide (port < 18)
  | .mirrorRelease k => decide (k < 4)
  | .couplingPortDown port => decide (port < 18)
  | .couplingPortUp port => decide (port < 18)
  | .doorbellRing page off n val => decide (page < 240) && decide (off < 4096) && decide (n < 257) && decide (val < 0x10000000000000000)
  | .groupTimeLimit g => decide (g < 4096)
  | .groupLimitWrite g val => decide (g < 4096) && decide (val < 0x10000000000000000)
  | .targetWrite src => decide (src < 0x100000)
  | .targetRead src => decide (src < 0x100000)
  | .rillEnable r val => decide (r < 4096) && decide (val < 0x10000000000000000)
  | .rillPost th val => decide (th < 96) && decide (val < 0x10000000000000000)
  | .rillWriterSlot => true
  | .consumerWordRead r => decide (r < 4096)
  | .vpDefine vp => decide (vp < 1024)
  | .vpReady vp => decide (vp < 1024)
  | .vpStop vp => decide (vp < 1024)
  | .vpUndefine vp => decide (vp < 1024)
  | .cascadeSelection => true
  | .sliceEnd th => decide (th < 96)
  | .vpLeave th => decide (th < 96)
  | .vpTimerWrite vp val => decide (vp < 1024) && decide (val < 0x10000000000000000)
  | .vpTimerExpiry vp => decide (vp < 1024)
  | .partitionStall part => decide (part < 64)
  | .budgetInterval u avg peak _ => decide (u < 4096) && decide (avg < 4096) && decide (peak < 4096)
  | .powerSample watts noncore perThread perCore => decide (watts < 4096) && decide (noncore < 4096) && perThread.all (· < 65536) && perCore.all (· < 65536)
  | .sensorReading temps stale => temps.all (· < 65536) && stale.all (· < 272)
  | .thermalPark core => decide (core < 48)
  | .shallowPark core => decide (core < 48)
  | .deepPark core => decide (core < 48)
  | .coreUnpark core => decide (core < 48)
  | .spillwayEvent n src ereg th => decide (n < 4096) && decide (src < 4096) && decide (ereg < 0x10000000000000000) && decide (th < 97)
  | .bucketUnitEnd src => decide (src < 4096)
  | .severeClear src => decide (src < 4096)
  | .blockResetRequest block => decide (block < 256)
  | .fenceLimit block => decide (block < 150)
  | .blockResetComplete block => decide (block < 150)
  | .blockResetTimeout block => decide (block < 150)
  | .consequentialMarkExpiry block => decide (block < 150)
  | .errnClear => true
  | .faultInjection mode src => decide (mode < 4) && decide (src < 4096)
  | .hubLost => true
  | .nmtStart => true
  | .nmtStop => true
  | .nmtEnterPreOperational => true
  | .nmtResetNode => true
  | .nmtResetCommunication => true
  | .bootUpMessage => true
  | .heartbeat => true
  | .emcy => true
  | .usdoRequest id _ index subx data _ _ => decide (id < 65536) && decide (index < 65536) && decide (subx < 256) && data.all (· < 256)
  | .usdoTimeout id => decide (id < 65536)
  | .tpdo1 => true
  | .tpdo2 _ => true
  | .canErrorPassive => true
  | .busOffRecovery => true
  | .odRead index subx off len => decide (index < 65536) && decide (subx < 256) && decide (off < 0x100000000) && decide (len < 8192)
  | .odWrite index subx off bytes _ => decide (index < 65536) && decide (subx < 256) && decide (off < 0x100000000) && bytes.all (· < 256)
  | .imageWrite bytes => bytes.all (· < 256)
  | .imageVerified _ => true
  | .activate val => decide (val < 256)
  | .moduleResetObject val => decide (val < 65536)
  | .debugStop => true
  | .debugResume => true
  | .debugStep => true
  | .debugRegisterAccess _ subx val => decide (subx < 256) && decide (val < 0x10000000000000000)
  | .debugMemoryAccess _ bytes => bytes.all (· < 256)
  | .readoutItem => true
  | .powerOnReset => true
  | .mainenAssert => true
  | .pwrgdRise => true
  | .pwrgdFall => true
  | .resetNChange _ => true
  | .referenceClockLoss => true
  | .moduleReset => true
  | .resetSequenceStart module dsz node _ => decide (module < 4) && decide (dsz < 4) && decide (node < 128)
  | .pllLock => true
  | .bootRomStart => true
  | .bootAreaChecked _ => true
  | .directorySweep => true
  | .directorySweepComplete => true
  | .bootSeal => true
  | .threadStart thread addr => decide (thread < 128) && decide (addr < 0x10000000000000) && addr % 4 == 0
  | .supplyExcursion mv => mv.all (· < 65536)
  | .vAoLoss => true
  | .fabricPortControlWrite port val => decide (port < 12) && decide (val < 0x10000000000000000)
  | .fabricRetrainAtX8Done port => decide (port < 12)
  | .jlNarrowingDone port => decide (port < 50)
  | .memoryLinkFlit port bytes => decide (port < 20) && bytes.all (· < 256)
  | .pcieLinkUp port rate width _ => decide (port < 32) && decide (rate < 4) && decide (width < 17)
  | .pcieLinkError port _ => decide (port < 32)
  | .sluiceReceiverLock ring delay => decide (ring < 2) && decide (delay < 65536)
  | .faultIndicatorTimeout => true

end Sys2Proof
end

