-- ==== Sys2Proof/Machine/RegFile.lean ====
section
/-! DEFINITION. The named operations over the register file and memory: field reads and writes of the MCS, bytes of memory, address classes,
error records, events sent to the Spillway, and records staged for a Rill. -/

namespace Sys2Proof.Machine

/-! ### The MCS register file -/

/-- The stored registers of one block. -/
def Regs.tab (r : Regs) : Blk → Tab W64
  | .id => r.id | .mode => r.mode | .dbell => r.dbell | .rill => r.rill | .casc => r.casc | .weir => r.weir
  | .spill => r.spill | .grotto => r.grotto | .acc => r.acc | .chan => r.chan | .mem => r.mem | .aq => r.aq
  | .pcie => r.pcie | .cpl => r.cpl | .od => r.od | .core => r.core

/-- Replace the stored registers of one block. -/
def Regs.setTab (r : Regs) (b : Blk) (t : Tab W64) : Regs :=
  match b with
  | .id => { r with id := t } | .mode => { r with mode := t } | .dbell => { r with dbell := t }
  | .rill => { r with rill := t } | .casc => { r with casc := t } | .weir => { r with weir := t }
  | .spill => { r with spill := t } | .grotto => { r with grotto := t } | .acc => { r with acc := t }
  | .chan => { r with chan := t } | .mem => { r with mem := t } | .aq => { r with aq := t }
  | .pcie => { r with pcie := t } | .cpl => { r with cpl := t } | .od => { r with od := t }
  | .core => { r with core := t }

/-- The block that holds an MCS offset (Table 1.6), or none in the reserved range. -/
def blkOf (off : Nat) : Option Blk :=
  if off < 0x10000 then some .id else if off < 0x100000 then some .mode else if off < 0x200000 then some .dbell
  else if off < 0x300000 then some .rill else if off < 0x310000 then some .casc else if off < 0x400000 then some .weir
  else if off < 0x500000 then some .spill else if off < 0x600000 then some .grotto else if off < 0x800000 then some .acc
  else if off < 0x900000 then some .chan else if off < 0xa00000 then some .mem else if off < 0xb00000 then some .aq
  else if off < 0xc00000 then some .pcie else if off < 0xd00000 then some .cpl else if off < 0x1000000 then some .od
  else if off < 0x1300000 then some .core else none

/-- The indices at which a register array meets a distance from its base, if it does. -/
def hitDims : List (Nat × Nat) → Nat → Option (List Nat)
  | [], d => if d = 0 then some [] else none
  | (c, st) :: r, d => if d / st < c then (hitDims r (d % st)).map (d / st :: ·) else none

/-- The indices at which a register array meets an MCS offset, if it does. -/
def RDesc.hit (d : RDesc) (off : Nat) : Option (List Nat) :=
  if off < d.base then none else hitDims d.dims (off - d.base)

/-- The register that an 8-byte-aligned MCS offset names, with its indices. -/
def regAt (b : Blk) (off : Nat) : Option (RDesc × List Nat) :=
  (regTable b).findSome? fun d => (d.hit off).map fun i => (d, i)

/-- The reset word that a field map gives. -/
def RDesc.resetVal (d : RDesc) : Nat := d.fields.foldl (fun w f => setBits w f.hi f.lo f.rst) 0

/-- The fixed minimum action of a Spillway source (R578), with `grotto.ctl.noesc` = 0. -/
def minAction (s : Nat) : Nat :=
  if s < 1536 then
    (let k := s % 32; if k = 23 ∨ k = 26 ∨ k = 28 then 3 else if k = 27 then 2 else 0)
  else if s < 1600 then if s % 16 = 5 then 6 else 0
  else if s < 1616 then if s = 1601 ∨ s = 1603 ∨ s = 1604 ∨ s = 1605 then 6 else if s = 1606 then 3 else 0
  else if s < 1808 then if s % 16 = 4 then 6 else 0
  else if s < 1824 then if s = 1809 ∨ s = 1810 then 6 else 0
  else if s < 2144 then if s % 16 = 5 then 6 else 0
  else if s = 2162 then 5
  else if s = 3636 then 6 else 0

/-- The reset word of an MCS register: its field map's, with the fused fields that depend on the index (log entry 3). -/
def resetWord (b : Blk) (off : Nat) : Nat :=
  match regAt b off with
  | none => 0
  | some (d, ix) =>
    if d.base = 0x1000000 then
      (let c := ix.headD 0
       setBits d.resetVal 1 0 (if c = 11 ∨ c = 23 ∨ c = 35 ∨ c = 47 then 1 else 0))
    else if d.base = 0x410000 then
      (let s := ix.headD 0
       let a := minAction s
       setBits (setBits (setBits d.resetVal 59 57 a) 10 8 (max 2 a)) 2 0 (max 1 a))
    else if d.base = 0x500028 then (Config.freeWord 0).toNat
    else d.resetVal

/-- The whole register that holds a field. -/
def Mach.word (m : Mach) (f : Fld) : Nat :=
  match tfind (m.regs.tab f.blk) f.off with
  | some w => w.toNat
  | none => resetWord f.blk f.off

/-- The value of a field. -/
def Mach.get (m : Mach) (f : Fld) : Nat := bits (m.word f) f.hi f.lo

/-- A one-bit field as a Bool. -/
def Mach.on (m : Mach) (f : Fld) : Bool := m.get f != 0

/-- Store a whole register. -/
def Mach.setWord (m : Mach) (f : Fld) (w : Nat) : Mach :=
  { m with regs := m.regs.setTab f.blk (tset (m.regs.tab f.blk) f.off (BitVec.ofNat 64 w)) }

/-- The module's own write of a field, whatever its access class. -/
def Mach.set (m : Mach) (f : Fld) (v : Nat) : Mach := m.setWord f (setBits (m.word f) f.hi f.lo v)

/-- Several writes of fields, in order. -/
def Mach.sets (m : Mach) (l : List (Fld × Nat)) : Mach := l.foldl (fun m x => m.set x.1 x.2) m

/-- A CNT field counts n events, wrapping (R42). -/
def Mach.count (m : Mach) (f : Fld) (n : Nat := 1) : Mach := m.set f (m.get f + n)

/-- A field counts with saturation. -/
def Mach.countSat (m : Mach) (f : Fld) : Mach := m.set f (min (m.get f + 1) (2 ^ (f.hi + 1 - f.lo) - 1))

/-- The boot seal has been reached: RSL fields are locked and the region table is in force (R43, R321). -/
def Mach.sealed (m : Mach) : Bool := m.get R.mode_seal_state != 0

/-- The clamp of a written value, if the field map gives one. -/
def FDesc.clamp (f : FDesc) (v : Nat) : Nat :=
  match f.lim with
  | some (lo, hi) => if v < lo then lo else if hi < v then hi else v
  | none => v

/-- One field's part of a software write (Table 1.17): the old word, the written word and its written bits, and whether the
boot seal has been reached. -/
def FDesc.apply (f : FDesc) (isSealed : Bool) (old val mask : Nat) (w : Nat) : Nat :=
  let o := bits old f.hi f.lo
  let k := bits mask f.hi f.lo
  let v := bits val f.hi f.lo
  let full := 2 ^ (f.hi + 1 - f.lo) - 1
  let merged := (v &&& k) ||| (o &&& (full ^^^ k))
  match f.cls with
  | .rw => if k = 0 then w else setBits w f.hi f.lo (f.clamp merged)
  | .cnt => if k = 0 then w else setBits w f.hi f.lo merged
  | .rsl => if isSealed ∨ k = 0 then w else setBits w f.hi f.lo (f.clamp merged)
  | .w1c => setBits w f.hi f.lo (o &&& (full ^^^ (v &&& k)))
  | .w1s => setBits w f.hi f.lo (o ||| (v &&& k))
  | .ro => w
  | .wo => w

/-- The word that a software write leaves, all fields in the same cycle (R41). -/
def RDesc.apply (d : RDesc) (isSealed : Bool) (old val mask : Nat) : Nat :=
  d.fields.foldl (fun w f => f.apply isSealed old val mask w) old

/-- The bits of a register that an access reaches (R30): 0 a double, 1 the word at the lower address (bits 63:32), 2 the
word at the higher address. -/
def partMask (part : Nat) : Nat :=
  if part = 0 then 2 ^ 64 - 1 else if part = 1 then 0xffffffff00000000 else 0xffffffff

/-- Whether a write reaches an RSL field after boot seal (R43). -/
def RDesc.hitsRsl (d : RDesc) (mask : Nat) : Bool :=
  d.fields.any fun f => f.cls == .rsl && bits mask f.hi f.lo != 0

/-! ### Events for the Spillway -/

/-- Whether a number is a source that can report (Tables 22.1 to 22.3 and the blocks' code tables). -/
def srcExists (s : Nat) : Bool :=
  if s < 1536 then (let k := s % 32; decide (1 ≤ k) && k != 7 && decide (k ≤ 29))
  else if s < 1600 then (let k := s % 16; decide (1 ≤ k ∧ k ≤ 6))
  else if s < 1616 then decide (s ≤ 1606)
  else if s < 1808 then decide (s % 16 ≤ 6)
  else if s < 1824 then decide (s ≤ 1812)
  else if s < 2144 then decide (s % 16 ≤ 11) && s % 16 != 7
  else if s < 2160 then decide (s ≤ 2153)
  else if s < 2176 then decide (s ≤ 2166)
  else if s < 2208 then decide (s % 16 ≤ 2)
  else if s < 2240 then decide (4 ≤ s % 16 ∧ s % 16 ≤ 8)
  else if s < 2256 then decide (2249 ≤ s ∧ s ≤ 2251)
  else if s < 2288 then decide (s ≤ 2266) || decide (2280 ≤ s ∧ s ≤ 2285)
  else if s < 3312 then (let k := (s - 2288) % 32; decide (k ≤ 6) || decide (16 ≤ k ∧ k ≤ 29))
  else if s < 3600 then decide (s % 16 ≤ 11)
  else if s < 3616 then decide (s ≤ 3605) || s == 3608 || decide (3610 ≤ s ∧ s ≤ 3612)
  else if s < 3632 then decide (s ≤ 3623)
  else decide (s ≤ 3641)

/-- An event is detected: it waits for the Spillway to take it (R583). -/
def Mach.raise (m : Mach) (src : Nat) (err : Nat := 0) (th : Option Nat := none) (extra : List (Nat × Nat × Nat) := []) : Mach :=
  { m with spill := { m.spill with inbox := m.spill.inbox ++ [⟨src, BitVec.ofNat 64 err, th, false, extra⟩] } }

/-- A module or hub source (Table 22.3). -/
def Mach.raiseHub (m : Mach) (k : Nat) (detail : Nat := 0) : Mach := m.raise (3632 + k) detail

/-- A per-core source (Table 22.2). -/
def Mach.raiseCore (m : Mach) (c k : Nat) (err : Nat := 0) (th : Option Nat := none) : Mach :=
  m.raise (32 * c + k) err th

/-- An Aqueduct, fabric or Sluice error (R301): record in `aq.err`, and its Spillway source.  The unit is that of Table 9.16. -/
def Mach.aqError (m : Mach) (code unit line : Nat) : Mach :=
  let m := m.sets [(R.aq_err_line, line), (R.aq_err_new, 1), (R.aq_err_unit, unit), (R.aq_err_code, code)]
  let src := if code < 0x40 then 1600 + (code - 0x30) else if code < 0x50 then 1616 + 16 * unit + (code - 0x40)
    else 1808 + (code - 0x50)
  m.raise src (m.word R.aq_err)

/-- The source of the checker that an injection has armed (R590), when it lies in a range. -/
def Mach.armed (m : Mach) (lo hi : Nat) : Option Nat := m.spill.inj.bind fun s => if lo ≤ s ∧ s < hi then some s else none

/-- The armed checker has made its next check: the injection is performed. -/
def Mach.disarm (m : Mach) : Mach := ({ m with spill := { m.spill with inj := none } } : Mach).sets [(R.spill_inj_res, 1), (R.spill_inj_go, 0)]

/-- What a checker of sources base + 1 on reports: the code of an injection that has armed it, else the verdict given. -/
def Mach.verdict (m : Mach) (base n v : Nat) : Mach × Nat :=
  match m.armed (base + 1) (base + 1 + n) with
  | some s => (m.disarm, s - base)
  | none => (m, v)

/-! ### Module reset called for -/

/-- `spill.rcause`: the reason of a module reset that follows, its source or cause code, and the time of day (Table 22.12). -/
def Mach.setRcause (m : Mach) (cause src : Nat) : Mach :=
  m.sets [(R.spill_rcause_tod, m.tod / 256), (R.spill_rcause_src, src), (R.spill_rcause_cause, cause)]

/-- A module reset is called for; `MODULE_RESET` carries it out (R620). The first call stands. -/
def Mach.callReset (m : Mach) (cause src : Nat) : Mach :=
  if m.boot.pendReset.isSome then m
  else { m.setRcause cause src with boot := { m.boot with pendReset := some (cause, src) } }

/-! ### Rill records -/

/-- A record is produced for a Rill (R543, R544): it enters the producer's staging queue if there is room; a stallable producer
keeps it otherwise, a non-stallable one drops it when its queue or its Rill is full. -/
def Mach.drop (m : Mach) (r : Nat) : Mach :=
  ((m.countSat (R.rill_r_stat_pend r)).count (R.rill_r_stat_dropped r)).count R.rill_cnt_dropped

def Mach.stage (m : Mach) (queue : Nat) (r : RillRec) : Mach :=
  let q := tget m.rill.q queue []
  if r.stall then
    if q.length < 64 ∧ ¬ (m.rill.kept.any fun x => x.prod == r.prod) then
      { m with rill := { m.rill with q := tset m.rill.q queue (q ++ [r]) } }
    else { m with rill := { m.rill with kept := m.rill.kept ++ [r] } }
  else if q.length < 64 ∧ ¬ m.on (R.rill_r_stat_full r.rill) then
    { m with rill := { m.rill with q := tset m.rill.q queue (q ++ [r]) } }
  else m.drop r.rill

/-- Something leaves the module. -/
def Mach.emit (m : Mach) (o : Out) : Mach := { m with sent := m.sent ++ [o] }

/-- A block of Table 22.5 is fenced, under reset or failed (R584, R585). -/
def Mach.blkDown (m : Mach) (b : Nat) : Bool := m.get (R.spill_blk_state b) == 1 || m.get (R.spill_blk_state b) == 2 || m.get (R.spill_blk_state b) == 4
/-- A block whose reset failed stays down until module reset (R585). -/
def Mach.blkFailed (m : Mach) (b : Nat) : Bool := m.get (R.spill_blk_state b) == 4

/-- A concurrent-repair power-down first fences its block (R584); the fence ends under `FENCE_LIMIT`. -/
def Mach.fenceRepair (m : Mach) (b : Nat) : Mach :=
  { m with spill := { m.spill with blks := tset m.spill.blks b ⟨false, [], true⟩ } }.set (R.spill_blk_state b) 1

/-- Draw a free value: an opaque word of the counter, which advances (log entry 2). -/
def Mach.draw (m : Mach) : Nat × Mach := ((Config.freeWord m.seed).toNat, { m with seed := m.seed + 1 })

/-! ### Cores and threads -/

def Mach.core (m : Mach) (c : Nat) : Core := tget m.cores c Core.init
def Mach.setCore (m : Mach) (c : Nat) (x : Core) : Mach := { m with cores := tset m.cores c x }
def Mach.onCore (m : Mach) (c : Nat) (f : Core → Core) : Mach := m.setCore c (f (m.core c))
def Mach.th (m : Mach) (t : Nat) : Thread := tget m.thr t Thread.init
def Mach.setTh (m : Mach) (t : Nat) (x : Thread) : Mach := { m with thr := tset m.thr t x }
def Mach.onTh (m : Mach) (t : Nat) (f : Thread → Thread) : Mach := m.setTh t (f (m.th t))

/-- The current mode, the base mode (R47) and the mode whose column of Table 2.2 is in force. -/
def Mach.mode_ (m : Mach) : Nat := m.get R.mode_cur_cur
def Mach.baseMode (m : Mach) : Nat := if m.mode_ = 6 then m.get R.mode_cur_base else m.mode_
def Mach.modeM5 (m : Mach) : Bool := m.baseMode == 5

/-- This module's number (R18) and the domain size. -/
def Mach.modNo (m : Mach) : Nat := m.get R.id_place_module
def Mach.dsize (m : Mach) : Nat := m.get R.id_place_dsize

/-! ### Memory -/

/-- The byte at an address; what is not listed reads as zero (log entry 1). -/
def Memory.rd : Memory → Nat → Byte
  | [], _ => 0
  | (k, v) :: r, a => if a = k then v else Memory.rd r a

/-- Write one byte, keeping the canonical form. -/
def Memory.wr : Memory → Nat → Byte → Memory
  | [], a, v => if v = 0 then [] else [(a, v)]
  | (k, w) :: r, a, v =>
    if a < k then (if v = 0 then (k, w) :: r else (a, v) :: (k, w) :: r)
    else if a = k then (if v = 0 then r else (a, v) :: r)
    else (k, w) :: Memory.wr r a v

/-- The canonical form of memory. -/
def Memory.wf : Memory → Bool
  | [] => true
  | [(_, v)] => v != 0
  | (k, v) :: (k', v') :: r => decide (k < k') && v != 0 && Memory.wf ((k', v') :: r)

/-- Write bytes at ascending addresses. -/
def Memory.wrs (mem : Memory) (a : Nat) : List Nat → Memory
  | [] => mem
  | b :: r => Memory.wrs (mem.wr a (BitVec.ofNat 8 b)) (a + 1) r

/-- `n` bytes from an address. -/
def Memory.rds (mem : Memory) (a n : Nat) : List Nat := (List.range n).map fun i => (mem.rd (a + i)).toNat

/-- A line of memory by line number. -/
def Memory.rdLine (mem : Memory) (l : Nat) : Line := BitVec.ofNat 2048 (ofBytes (mem.rds (256 * l) 256))

def Memory.wrLine (mem : Memory) (l : Nat) (d : Line) : Memory := mem.wrs (256 * l) ((List.range 256).map (lineByte d))

/-! ### Address classes -/

/-- The MCS offset that an address reaches on this module (R25), with the module it belongs to. -/
def Mach.mcsOff (m : Mach) (pa : Nat) : Option (Nat × Nat) :=
  if 0x000fe00000000000 ≤ pa ∧ pa < 0x000fe00002000000 then some (m.modNo, pa - 0x000fe00000000000)
  else if 0x000fe00010000000 ≤ pa ∧ pa < 0x000fe00010000000 + m.dsize * 0x2000000 then
    some ((pa - 0x000fe00010000000) / 0x2000000, (pa - 0x000fe00010000000) % 0x2000000)
  else none

/-- The boot scratch of R627. -/
def isScratch (pa : Nat) : Bool := decide (0x000fd00000000000 ≤ pa) && decide (pa < 0x000fd00004000000)

/-- The thread that runs in M0: thread 0 of the lowest-numbered assignable core (Table 2.1). -/
def Mach.bootThread (m : Mach) : Option Nat := ((List.range 48).find? fun c => m.get (R.core_state_role c) == 0).map (2 * ·)

/-- Whether a thread's access reaches the boot scratch: only the boot thread's, before boot seal (R627). -/
def Mach.inScratch (m : Mach) (th pa : Nat) : Bool := isScratch pa && !m.sealed && m.bootThread == some th

/-- A byte of the boot scratch: what was stored, else the byte of the booted area that the boot ROM copied there (R627). -/
def Mach.scratchByte (m : Mach) (pa : Nat) : Nat :=
  let o := pa - 0x000fd00000000000
  let area := m.get R.mode_boot_area
  tget m.boot.scratch pa (if o < 0x2000000 ∧ area < 2 then tget m.boot.flash (area * 0x2000000 + o) 0xFF else 0)

/-- The port whose ECAM or memory window holds an address (R501), and whether it is an ECAM window. -/
def Mach.pcieWin (m : Mach) (pa : Nat) : Option (Nat × Bool) :=
  let ecam := if m.on R.pcie_ecam_en then
      (let b := m.get R.pcie_ecam_base * 2 ^ 33
       if b ≤ pa ∧ pa < b + 32 * 2 ^ 28 then some ((pa - b) / 2 ^ 28, true) else none)
    else none
  match ecam with
  | some x => some x
  | none => (List.range 32).findSome? fun p =>
      if m.on (R.pcie_p_mwin_en p) then
        (let b := m.get (R.pcie_p_mwin_base p) * 2 ^ 30
         if b ≤ pa ∧ pa < b + m.get (R.pcie_p_mwin_size p) * 2 ^ 30 then some (p, false) else none)
      else none

/-- The module whose `aq.home` range holds an address (R267). -/
def Mach.rangeOf (m : Mach) (pa : Nat) : Option Nat :=
  (List.range 4).find? fun n =>
    m.on (R.aq_home_en n) && decide (m.get (R.aq_home_base n) * 2 ^ 30 ≤ pa)
      && decide (pa < m.get (R.aq_home_base n) * 2 ^ 30 + m.get (R.aq_home_size n) * 2 ^ 30)

/-- The home slice of an address within its module (R231). -/
def homeSlice (pa : Nat) : Nat :=
  (List.range 22).foldl (fun s k => s ^^^ bits pa (9 + 2 * k) (8 + 2 * k)) 0

/-- The kind of a region entry of another module, from its two words, when it covers an address (Table 10.9). -/
def foreignKind (pa : Nat) (x : Nat × Nat) : Option Nat :=
  let f := fun (w : Nat) (g : Fld) => bits w g.hi g.lo
  if f x.1 (R.mem_rgn_base_en 0) = 1 ∧ f x.1 (R.mem_rgn_base_kind 0) ≠ 0 ∧ f x.1 (R.mem_rgn_base_base 0) ≤ pa / 2 ^ 20
      ∧ pa / 2 ^ 20 ≤ f x.2 (R.mem_rgn_lim_lim 0) then some (f x.1 (R.mem_rgn_base_kind 0)) else none

/-- The region kind of an address (R321), 0 outside every entry or before the table is in force; the tables of the other modules of a domain count
once it is formed. -/
def Mach.rgnKind (m : Mach) (pa : Nat) : Nat :=
  if m.sealed then
    (((List.range 16).findSome? fun r =>
      if m.on (R.mem_rgn_base_en r) && m.get (R.mem_rgn_base_kind r) != 0
          && decide (m.get (R.mem_rgn_base_base r) ≤ pa / 2 ^ 20) && decide (pa / 2 ^ 20 ≤ m.get (R.mem_rgn_lim_lim r))
      then some (m.get (R.mem_rgn_base_kind r)) else none).or (m.sl.rgn.findSome? (foreignKind pa))).getD 0
  else 0

/-- The kind-1 entry that covers a whole range exists, whatever the seal state (R201, R532). -/
def Mach.inKind1 (m : Mach) (lo hi : Nat) : Bool :=
  (List.range 16).any fun r =>
    m.on (R.mem_rgn_base_en r) && m.get (R.mem_rgn_base_kind r) == 1
      && decide (m.get (R.mem_rgn_base_base r) * 2 ^ 20 ≤ lo) && decide (hi < (m.get (R.mem_rgn_lim_lim r) + 1) * 2 ^ 20)

/-- Who accesses memory other than a thread (Table 10.8 columns). -/
inductive Agent where
  | hub | chan | cpl | acc
deriving DecidableEq, Repr

/-- Whether Table 10.8 lets an agent reach an address. -/
def Mach.agentMay (m : Mach) (a : Agent) (pa : Nat) : Bool :=
  match m.rgnKind pa, a with
  | 0, _ => true
  | 1, .hub => true
  | 3, .hub => decide (m.get R.grotto_stat_state < 4)
  | 4, .hub => true
  | 4, .chan => true
  | 4, .cpl => true
  | _, _ => false

/-- Whether Table 10.8 lets a thread reach an address: its level, and whether the access is enclave window code. -/
def Mach.threadMay (m : Mach) (lvl : Nat) (window : Bool) (pa : Nat) : Bool :=
  match m.rgnKind pa with
  | 0 => true
  | 1 => lvl == 3
  | 3 => window
  | 4 => lvl == 3
  | _ => false

end Sys2Proof.Machine
end

