-- ==== Sys2Proof/Machine/Pages.lean ====
section
/-! DEFINITION. Cistern pages (spec/11): apertures, the page map, slots, placement, and the pages that are expanded in the Basin. -/

namespace Sys2Proof.Machine

/-! ### Apertures and the pool (R327 to R330) -/

/-- The Cistern is enabled (R326). -/
def Mach.cisOn (m : Mach) : Bool := m.get R.mem_cis_stat_cfg == 1

/-- The module whose aperture holds an address. -/
def Mach.apOf (m : Mach) (pa : Nat) : Option Nat :=
  if m.cisOn then
    (List.range 4).find? fun n => m.on (R.mem_cis_ap_en n) && decide (m.get (R.mem_cis_ap_base n) * 2 ^ 30 ≤ pa)
      && decide (pa < m.get (R.mem_cis_ap_base n) * 2 ^ 30 + m.get (R.mem_cis_ap_size n) * 2 ^ 30)
  else none

/-- Whether a page number is one of this module's aperture. -/
def Mach.myPage (m : Mach) (pf : Nat) : Bool := m.apOf (4096 * pf) == some m.modNo
/-- Whether a line has its home copy in the expanded-page cache of this module (R328). -/
def Mach.apLine (m : Mach) (line : Nat) : Bool := m.myPage (line / 16)

/-- The home module of an address (R267, R327). -/
def Mach.homeOf (m : Mach) (pa : Nat) : Option Nat :=
  match m.rangeOf pa with
  | some n => some n
  | none => m.apOf pa

/-- The address of a page's descriptor (R329). -/
def Mach.descAddr (m : Mach) (pf : Nat) : Nat := m.get R.mem_cis_pool_base * 2 ^ 20 + 16 * (pf - m.get (R.mem_cis_ap_base m.modNo) * 2 ^ 18)

/-- The first chunk's address, and the number of chunks. -/
def Mach.chunkBase (m : Mach) : Nat := m.get R.mem_cis_pool_base * 2 ^ 20 + m.get (R.mem_cis_ap_size m.modNo) * 2 ^ 22
def Mach.nChunks (m : Mach) : Nat := ((m.get R.mem_cis_plim_lim + 1) * 2 ^ 20 - m.chunkBase) / 65536

/-- A page descriptor (Table 11.1). -/
structure Desc where
  crc : Nat
  slot : Nat
  psn : Nat
  dirty : Bool
  cls : Nat
deriving DecidableEq, Repr

def Desc.zero : Desc := ⟨0, 0, 0, false, 0⟩

def Mach.rdDesc (m : Mach) (pf : Nat) : Desc :=
  let w := ofBytes (m.mem.rds (m.descAddr pf) 16)
  ⟨bits w 127 96, bits w 95 54 * 1024, bits w 23 8, bit w 4, bits w 2 0⟩

def Mach.wrDesc (m : Mach) (pf : Nat) (d : Desc) : Mach :=
  { m with mem := m.mem.wrs (m.descAddr pf) (toBytes 16 (d.crc <<< 96 ||| (d.slot / 1024) <<< 54 ||| d.psn <<< 8 ||| b2n d.dirty <<< 4 ||| d.cls)) }

/-- Slot size and slots in a chunk of a class (Table 11.2, R342). -/
def slotSize (c : Nat) : Nat := if c = 1 then 1024 else if c = 2 then 2048 else 4096
def slotsPer (c : Nat) : Nat := 65536 / slotSize c

/-! ### Counters, records (R350, R353) -/

def popcount (n : Nat) (x : Nat) : Nat := ((List.range n).filter fun i => x.testBit i).length

/-- Unassigned chunks. -/
def Mach.freeChunks (m : Mach) : Nat := m.nChunks - m.cis.chunks.length

/-- A Cistern code: recorded, raised, and written to the Cistern's Rill (R353). -/
def Mach.cisError (m : Mach) (code pf : Nat) : Mach :=
  let m := m.sets [(R.mem_cis_err_page, pf), (R.mem_cis_err_new, 1), (R.mem_cis_err_slice, homeSlice (4096 * pf)), (R.mem_cis_err_code, code)]
  let m := m.raise (2144 + (code - 0x70)) (m.word R.mem_cis_err)
  if m.on R.mem_cis_rill_en then
    m.stage (homeSlice (4096 * pf)) ⟨m.get R.mem_cis_rill_rill, 0x04, m.tod,
      [(0x10, 1, code), (0x18, 8, 4096 * pf), (0x20, 1, (if pf = 0 then 0 else (m.rdDesc pf).cls)), (0x24, 4, m.freeChunks), (0x28, 2, m.cis.held.length)], 2000, false, false⟩
  else m

/-- The counting registers of the Cistern, and the low-water report. -/
def Mach.cisShow (m : Mach) : Mach :=
  let freeOf := fun (c : Nat) => (m.cis.chunks.filter fun x => x.2.1 == c).foldl (fun n x => n + (slotsPer c - popcount 64 x.2.2)) 0
  let usedOf := fun (c : Nat) => (m.cis.chunks.filter fun x => x.2.1 == c).foldl (fun n x => n + popcount 64 x.2.2) 0
  let m := m.sets [(R.mem_cis_free0_s1, freeOf 1), (R.mem_cis_free0_s2, freeOf 2), (R.mem_cis_free1_s3, freeOf 3), (R.mem_cis_free1_chunks, m.freeChunks),
    (R.mem_cis_pages0_c1, usedOf 1), (R.mem_cis_pages0_c2, usedOf 2), (R.mem_cis_pages1_c3, usedOf 3), (R.mem_cis_pages1_held, m.cis.held.length),
    (R.mem_cis_pages1_exp, (m.cis.exp.filter fun x => x.2.busy != 1).length)]
  let low := decide (m.freeChunks < m.get R.mem_cis_ctl_lowat)
  let said := m.cis.lowSaid
  let m := { m with cis := { m.cis with lowSaid := low } }
  if low && !said then m.cisError 0x74 0 else m

/-! ### Slots (R342) -/

/-- Take a slot of a class: the lowest free slot of the lowest assigned chunk that has one, else of the lowest unassigned chunk if allowed. -/
def Mach.takeSlot (m : Mach) (c : Nat) (fresh : Bool) : Option (Nat × Mach) :=
  let n := slotsPer c
  match m.cis.chunks.find? fun x => x.2.1 == c && decide (popcount 64 x.2.2 < n) with
  | some (k, _, w) =>
    ((List.range n).find? fun i => !w.testBit i).map fun i =>
      (m.chunkBase + 65536 * k + slotSize c * i, { m with cis := { m.cis with chunks := tset m.cis.chunks k (c, w ||| 2 ^ i) } })
  | none =>
    if !fresh then none
    else ((List.range (m.cis.chunks.length + 1)).find? fun k => (tfind m.cis.chunks k).isNone && decide (k < m.nChunks)).map fun k =>
      (m.chunkBase + 65536 * k, { m with cis := { m.cis with chunks := tset m.cis.chunks k (c, 1) } })

/-- Free the slot of a descriptor; a chunk without used slots is unassigned again. -/
def Mach.freeSlot (m : Mach) (d : Desc) : Mach :=
  if d.cls = 0 ∨ d.cls > 3 then m
  else
    let k := (d.slot - m.chunkBase) / 65536
    match tfind m.cis.chunks k with
    | none => m
    | some (c, w) =>
      let i := (d.slot - m.chunkBase) % 65536 / slotSize c
      let w := if w.testBit i then w ^^^ 2 ^ i else w
      { m with cis := { m.cis with chunks := if w = 0 then tdel m.cis.chunks k else tset m.cis.chunks k (c, w) } }

/-! ### The expanded copy (R343) -/

/-- The Basin key of a line of an expanded page. -/
def bsnKey (line way : Nat) : Nat := (homeSlice (256 * line) * 16384 + bits (256 * line) 23 10) * 32 + way

/-- Install or replace the home copy of a line of an expanded page. -/
def Mach.putPageLine (m : Mach) (line way : Nat) (d : Line) (psn : Bool) : Mach :=
  { m with home := { m.home with bsn := tset m.home.bsn (bsnKey line way) ⟨line, d, false, psn, 0⟩ } }

/-- The home copy of a line of an expanded page. -/
def Mach.pageCopy (m : Mach) (line : Nat) (x : ExpPage) : Line × Bool :=
  match tfind m.home.bsn (bsnKey line x.way) with
  | some w => (w.data, w.psn)
  | none => (0, false)

/-- The page is modified at the home (R348). -/
def Mach.pageDirty (m : Mach) (pf : Nat) : Mach :=
  let d := m.rdDesc pf
  if d.dirty then m else m.wrDesc pf { d with dirty := true }

/-! ### Placement (R340, R341) -/

/-- The need class of a page, by its lines and poison marks. -/
def needClass (ls : List Line) (psn : Nat) : Nat :=
  if psn = 0 ∧ ls.all (· == 0) then 0 else if 32 + frbLen ls ≤ 1024 then 1 else if 32 + frbLen ls ≤ 2048 then 2 else 3

/-- Write a page into a slot of a class, then its descriptor. -/
def Mach.writeImage (m : Mach) (pf cls slot psn : Nat) (ls : List Line) : Mach :=
  let img := if cls = 3 then pageBytes ls else frbImage cls ls
  let m := { m with mem := m.mem.wrs slot (img ++ List.replicate (slotSize cls - img.length) 0) }
  (m.wrDesc pf ⟨if cls = 3 then crc32c (pageBytes ls) else 0, slot, psn, false, cls⟩).count R.mem_cis_cnt0_place

/-- The lines of an expanded page as placed: poisoned lines as zero; with their poison marks. -/
def Mach.pageNow (m : Mach) (pf : Nat) (x : ExpPage) : List Line × Nat :=
  let cs := (List.range 16).map fun l => m.pageCopy (16 * pf + l) x
  (cs.map fun c => if c.2 then 0 else c.1, (cs.zipIdx.foldl (fun w c => if c.1.2 then w ||| 2 ^ c.2 else w) 0))

/-- Place a page (R341); none when no slot can be had. -/
def Mach.placePage (m : Mach) (pf : Nat) (x : ExpPage) : Option Mach :=
  let (ls, psn) := m.pageNow pf x
  let need := needClass ls psn
  let d := m.rdDesc pf
  let cur := if d.cls > 3 then 0 else d.cls
  if need = 0 then some ((m.freeSlot d).wrDesc pf Desc.zero)
  else if need ≤ cur then
    match (if m.on R.mem_cis_ctl_demote && decide (need < cur) then m.takeSlot need false else none) with
    | some (slot, m') => some ((m'.writeImage pf need slot psn ls).freeSlot d)
    | none => some (m.writeImage pf cur d.slot psn ls)
  else
    match ((List.range (4 - need)).map (need + ·)).findSome? fun c => (m.takeSlot c true).map fun y => (c, y) with
    | none => none
    | some (c, slot, m') => some (((m'.writeImage pf c slot psn ls).freeSlot d).count R.mem_cis_cnt1_prom)

/-- Held pages are tried again, oldest first, each once (R349): those placed are no longer held. -/
def Mach.retryHeld (m : Mach) : List Nat → Mach
  | [] => m
  | pf :: r =>
    match tfind m.cis.exp pf with
    | none => m.retryHeld r
    | some x =>
      match m.placePage pf x with
      | none => m.retryHeld r
      | some m' =>
        let m' := { m' with cis := { m'.cis with held := m'.cis.held.filter (· != pf) } }
        (m'.cisError 0x78 pf).retryHeld r

/-- After slots or chunks may have come free: held pages, counters, the low-water mark. -/
def Mach.cisSettle (m : Mach) : Mach := (m.retryHeld m.cis.held).cisShow

/-! ### Decoding (R344, R347) -/

/-- What a compressed page decodes to: its lines with their poison marks, and the code of an error. -/
def Mach.decodePage (m : Mach) (pf : Nat) : List (Line × Bool) × Option Nat :=
  let d := m.rdDesc pf
  let ok := fun (ls : List Line) => (ls.zipIdx.map fun x => (x.1, bit d.psn x.2), none)
  let bad := fun (code : Nat) => ((List.range 16).map fun l => (Config.freeLine (m.seed + l), true), some code)
  let inPool := decide (m.chunkBase ≤ d.slot) && decide (d.slot + slotSize d.cls ≤ m.chunkBase + 65536 * m.nChunks) && d.slot % slotSize d.cls == 0
  if d.cls = 0 then ok (List.replicate 16 0)
  else if d.cls > 3 ∨ !inPool then bad 0x77
  else if (List.range (slotSize d.cls / 256)).any fun i => (tget m.home.dir (d.slot / 256 + i) ⟨.u, 0, false⟩).psn then bad 0x72
  else
    let bs := m.mem.rds d.slot (slotSize d.cls)
    if d.cls = 3 then
      (let ls := (List.range 16).map fun l => m.mem.rdLine (d.slot / 256 + l)
       if crc32c bs = d.crc then ok ls else bad 0x70)
    else match frbDecode bs d.cls (slotSize d.cls) with
      | .ok (ls, _) => ok ls
      | .error .invalid => bad 0x71
      | .error .crc => bad 0x70

/-- Install the lines of a page in its way (R344, step 5, and R347). -/
def Mach.installPage (m : Mach) (pf : Nat) (x : ExpPage) : Mach :=
  let (ls, err) := m.decodePage pf
  let m := (ls.zipIdx).foldl (fun m y => m.putPageLine (16 * pf + y.2) x.way y.1.1 y.1.2) m
  let m := { m with cis := { m.cis with exp := tset m.cis.exp pf { x with busy := 0, why := 0, next := none } },
                    home := { m.home with dir := m.home.dir.filter fun e => e.1 / 16 != pf } }
  let m := m.count R.mem_cis_cnt0_exp
  let m := match err with
    | none => m
    | some code =>
      let d := m.rdDesc pf
      let m := { m with seed := m.seed + 16 }
      (m.wrDesc pf (if code = 0x77 then { Desc.zero with psn := 0xFFFF } else { d with psn := 0xFFFF })).cisError code pf
  m.cisShow

/-- The expanded pages of a page set other than `pf` itself (R343). -/
def Mach.pageSet (m : Mach) (pf : Nat) : List (Nat × ExpPage) := m.cis.exp.filter fun x => x.1 % 4096 == pf % 4096 && x.1 != pf

/-- A free way of a page set. -/
def Mach.freeWay (m : Mach) (pf : Nat) : Option Nat := [28, 29, 30, 31].find? fun w => !((m.pageSet pf).any fun x => x.2.way == w)

/-- The victim of a page set under R234, among pages neither busy nor held and without a transaction at the home, in at most four rounds of
ageing. -/
def Mach.victimPage (m : Mach) (pf : Nat) : Nat → Mach × Option Nat
  | 0 => (m, none)
  | n + 1 =>
    let can := (m.pageSet pf).filter fun x => x.2.busy == 0 && !m.cis.held.contains x.1 && !(m.home.txn.any fun y => y.1 / 16 == x.1)
    match can.find? fun x => x.2.age == 3 with
    | some x => (m, some x.1)
    | none =>
      if can.isEmpty then (m, none)
      else Mach.victimPage { m with cis := { m.cis with exp := m.cis.exp.map fun x =>
        if x.1 % 4096 = pf % 4096 ∧ x.1 ≠ pf ∧ x.2.age < 3 then (x.1, { x.2 with age := x.2.age + 1 }) else x } } pf n

/-- Free the lines and directory entries of a page that leaves the expanded-page cache (R346, step 4). -/
def Mach.dropPage (m : Mach) (pf : Nat) (x : ExpPage) : Mach :=
  { m with
    home := { m.home with
      bsn := (List.range 16).foldl (fun b l => tdel b (bsnKey (16 * pf + l) x.way)) m.home.bsn
      dir := m.home.dir.filter fun e => e.1 / 16 != pf }
    cis := { m.cis with exp := tdel m.cis.exp pf, held := m.cis.held.filter (· != pf) } }

/-- The end of an eviction whose lines are all recalled (R346, steps 3 and 4): true when the page has left. -/
def Mach.endEvict (m : Mach) (pf : Nat) (x : ExpPage) : Mach × Bool :=
  if (m.rdDesc pf).dirty then
    match m.placePage pf x with
    | some m' => ((m'.dropPage pf x).cisSettle, true)
    | none =>
      let was := m.cis.held.contains pf
      let m := { m with cis := { m.cis with exp := tset m.cis.exp pf { x with busy := 0, why := 0, next := none },
                                            held := if was then m.cis.held else m.cis.held ++ [pf] } }
      ((if was then m else m.cisError 0x73 pf).cisShow, false)
  else ((m.dropPage pf x).cisShow, true)

/-- A discard of a page whose copies are recalled (R352). -/
def Mach.discardPage (m : Mach) (pf : Nat) : Mach :=
  let d := m.rdDesc pf
  let m := match tfind m.cis.exp pf with
    | some x => m.dropPage pf x
    | none => m
  ((m.freeSlot d).wrDesc pf Desc.zero).cisSettle

end Sys2Proof.Machine
end

