-- ==== Sys2Proof/Machine/Ops.lean ====
section
/-! DEFINITION. The named operations over lines: the caches as the coherence rules keep them, accesses of devices, and the outcome of a command. -/

namespace Sys2Proof.Machine

/-! ### The caches as the coherence rules keep them -/

/-- The L2 way that holds a line: its key (16 × set + way) and contents. -/
def Core.find (c : Core) (line : Nat) : Option (Nat × L2Way) :=
  (List.range 16).findSome? fun w =>
    match tfind c.l2 (16 * (line % 1024) + w) with
    | some x => if x.line = line then some (16 * (line % 1024) + w, x) else none
    | none => none

/-! ### The L1s (R229, R230, R234): the line, whose data is the L2's, and its age -/

/-- The keys (8 × set + way) of the set of a line. -/
def l1Keys (line : Nat) : List Nat := (List.range 8).map (8 * (line % 64) + ·)

/-- The way of an L1 that holds a line. -/
def l1Find (t : Tab L1Way) (line : Nat) : Option Nat :=
  (l1Keys line).find? fun k => match tfind t k with | some x => x.line == line | none => false

def l1Drop (t : Tab L1Way) (line : Nat) : Tab L1Way :=
  match l1Find t line with
  | some k => tdel t k
  | none => t

/-- The victim choice of R234, with the ages that it leaves: every way is eligible (R236), so at most three rounds age the set. -/
def l1Victim (t : Tab L1Way) (line : Nat) : Nat → Tab L1Way × Nat
  | 0 => (t, 8 * (line % 64))
  | n + 1 =>
    match (l1Keys line).find? fun k => (tfind t k).isNone with
    | some k => (t, k)
    | none =>
      match (l1Keys line).find? fun k => match tfind t k with | some x => x.age == 3 | none => false with
      | some k => (t, k)
      | none => l1Victim (t.map fun kv => if kv.1 / 8 = line % 64 ∧ kv.2.age < 3 then (kv.1, { kv.2 with age := kv.2.age + 1 }) else kv) line n

/-- A hit sets the age to 0; a fill enters at age 0 (R234, R235). -/
def l1Use (t : Tab L1Way) (line : Nat) : Tab L1Way :=
  match l1Find t line with
  | some k => tset t k ⟨line, 0⟩
  | none => tset (l1Victim t line 5).1 (l1Victim t line 5).2 ⟨line, 0⟩

/-- The L2 loses a line, and so do both L1s (R230). -/
def Core.dropL1 (c : Core) (line : Nat) : Core := { c with l1i := l1Drop c.l1i line, l1d := l1Drop c.l1d line }

def Core.setWay (c : Core) (k : Nat) (x : L2Way) : Core := { c with l2 := tset c.l2 k x }

/-- The state in which a core holds a line, eviction buffer included. -/
def Core.stOf (c : Core) (line : Nat) : Option LSt :=
  match c.find line with
  | some (_, x) => some x.st
  | none => (c.evb.find? fun e => e.line == line).map (·.st)

/-- Clear a reservation on a line in one architected state. -/
def Arch.lose (a : Arch) (line : Nat) : Arch := if a.resv = some line then { a with resv := none } else a

/-- Clear a thread's reservation on a line, committed and uncommitted (Table 8.7). -/
def Thread.lose (t : Thread) (line : Nat) : Thread :=
  { t with cur := t.cur.lose line, com := t.com.lose line, win := t.win.map fun k => { k with fin := k.fin.lose line } }

/-- A core's L2 loses a line: way, L1 copies and eviction-buffer entry go, and so do reservations on it (Table 8.7, R258). -/
def Mach.dropLine (m : Mach) (c line : Nat) : Mach :=
  let k := m.core c
  let l2 := match k.find line with
    | some (key, _) => tdel k.l2 key
    | none => k.l2
  let m := m.setCore c { k.dropL1 line with l2 := l2, evb := k.evb.filter fun e => e.line != line, holds := k.holds.filter (· != line) }
  (m.onTh (2 * c) (·.lose line)).onTh (2 * c + 1) (·.lose line)

def Mach.setLog (m : Mach) (u : Nat) (l : List LogLine) : Mach := { m with acc := { m.acc with log := tset m.acc.log u l } }

/-- The modified copy of a line in some L2, eviction buffer or log cache of this module. -/
def Mach.dirty (m : Mach) (line : Nat) : Option (Line × Bool) :=
  match m.cores.findSome? (fun x =>
    match x.2.find line with
    | some (_, w) => if w.st = .m then some (w.data, w.psn) else none
    | none => (x.2.evb.find? fun e => e.line == line && e.st == .m).map fun e => (e.data, e.psn)) with
  | some d => some d
  | none => m.acc.log.findSome? fun u => (u.2.find? fun y => y.line == line).map fun y => (y.data, false)

/-- The Basin way that holds a line: its key and contents (R231). -/
def Mach.bsnFind (m : Mach) (line : Nat) : Option (Nat × BsnWay) :=
  let base := (homeSlice (256 * line) * 16384 + bits (256 * line) 23 10) * 32
  (List.range 32).findSome? fun w =>
    match tfind m.home.bsn (base + w) with
    | some x => if x.line = line then some (base + w, x) else none
    | none => none

/-- The directory entry of a line (Table 9.1). -/
def Mach.dirE (m : Mach) (line : Nat) : DirE := tget m.home.dir line ⟨.u, 0, false⟩
def Mach.setDir (m : Mach) (line : Nat) (e : DirE) : Mach := { m with home := { m.home with dir := tset m.home.dir line e } }

/-- The home's copy of a line, from the Basin, from memory, or from the slot of a compressed page (R276, R328), with its poison. -/
def Mach.homeData (m : Mach) (line : Nat) : Line × Bool :=
  match m.bsnFind line with
  | some (_, w) => (w.data, w.psn)
  | none =>
    if m.apLine line then (m.decodePage (line / 16)).1.getD (line % 16) (0, false)
    else (m.mem.rdLine line, (m.dirE line).psn)

/-- The coherent value of a line: a modified copy, else the home's. -/
def Mach.lineNow (m : Mach) (line : Nat) : Line × Bool := (m.dirty line).getD (m.homeData line)

/-- Invalidate every copy of a line in this module's L2s and log caches. -/
def Mach.invalAll (m : Mach) (line : Nat) : Mach :=
  let m := { m with acc := { m.acc with log := m.acc.log.map fun (u : Nat × List LogLine) => (u.1, u.2.filter fun y => y.line != line) } }
  (m.cores.map (·.1)).foldl (fun m c => if (m.core c).stOf line = none then m else m.dropLine c line) m

/-- Evict an expanded page at once, its lines recalled (R346): true when the page has left. -/
def Mach.evictNow (m : Mach) (pf : Nat) (x : ExpPage) : Mach × Bool :=
  let m := (List.range 16).foldl (fun m l =>
    let line := 16 * pf + l
    let m := match m.dirty line with
      | some (d, p) => (m.putPageLine line x.way d p).pageDirty pf
      | none => m
    m.invalAll line) m
  m.endEvict pf x

/-- Expand a page at once for an access performed at home by a device (log entry 8): the ways of its set are tried n times; with every page of the
set held the page stays compressed. -/
def Mach.expandNow (m : Mach) (pf : Nat) : Nat → Mach
  | 0 => m
  | n + 1 =>
    match tfind m.cis.exp pf with
    | some x => if x.busy = 1 then m.installPage pf x else m
    | none =>
      match m.freeWay pf with
      | some w => m.installPage pf ⟨w, 0, 0, 0, none⟩
      | none =>
        match m.victimPage pf 5 with
        | (m, some v) =>
          match tfind m.cis.exp v with
          | some y => (m.evictNow v y).1.expandNow pf n
          | none => m
        | (m, none) => m

/-- A line write at home, made durable in memory; any Basin copy is replaced by none (R248, R276). A line of an aperture is written in its
expanded page (R333, R348). -/
def Mach.homeWrite (m : Mach) (line : Nat) (d : Line) (psn : Bool) : Mach :=
  if m.apLine line then
    let m := m.expandNow (line / 16) 6
    match tfind m.cis.exp (line / 16) with
    | some x => (m.putPageLine line x.way d psn).pageDirty (line / 16)
    | none => m
  else
    let bsn := match m.bsnFind line with
      | some (k, _) => tdel m.home.bsn k
      | none => m.home.bsn
    let e := m.dirE line
    { m with mem := m.mem.wrLine line d, home := { m.home with bsn := bsn, dir := tset m.home.dir line { e with psn := psn } } }

/-- A write of part of a line by a device, accelerator, channel processor, coupling port or hub function, performed at home as
the WRF or WRM of R276: the modified copy is merged, every copy is invalidated, and the line is written (log entry 8). -/
def Mach.devWriteLine (m : Mach) (line : Nat) (new : Line) (mask : Nat) (ep : Bool := false) : Mach :=
  let full := mask == 2 ^ 256 - 1
  let (old, psn) := m.lineNow line
  let d := if full then new else lineMerge old new mask
  let m := m.invalAll line
  let m := m.homeWrite line d (ep || (psn && !full))
  m.setDir line ⟨.u, 0, ep || (psn && !full)⟩

/-- Why a device access cannot be made: refused by a region entry (R323), or answered ERR (R267). -/
inductive DevErr where
  | refused | err
deriving DecidableEq, Repr

/-- Whether a device access to an address can be made. -/
def Mach.devCheck (m : Mach) (a : Agent) (pa : Nat) : Option DevErr :=
  if (m.mcsOff pa).isSome || (m.pcieWin pa).isSome || isScratch pa || (m.homeOf pa).isNone then some .err
  else if m.agentMay a pa then none else some .refused

/-- The first error of a device access to a range, line by line. -/
def Mach.devRange (m : Mach) (a : Agent) (pa n : Nat) : Option DevErr :=
  (List.range (if n = 0 then 0 else (pa + n - 1) / 256 - pa / 256 + 1)).findSome? fun i => m.devCheck a ((pa / 256 + i) * 256)

/-- Bytes as a device reads them coherently. -/
def Mach.devRead (m : Mach) (pa n : Nat) : List Nat :=
  (List.range n).map fun i => lineByte (m.lineNow ((pa + i) / 256)).1 ((pa + i) % 256)

/-- Whether some line of a range reads poisoned. -/
def Mach.devPoison (m : Mach) (pa n : Nat) : Bool :=
  (List.range (if n = 0 then 0 else (pa + n - 1) / 256 - pa / 256 + 1)).any fun i => (m.lineNow (pa / 256 + i)).2

/-- Bytes as a device writes them, line by line in ascending address order. -/
def Mach.devWrite (m : Mach) (pa : Nat) (bs : List Nat) (ep : Bool := false) : Mach :=
  (List.range (if bs.length = 0 then 0 else (pa + bs.length - 1) / 256 - pa / 256 + 1)).foldl (fun m i =>
    let line := pa / 256 + i
    let inb (o : Nat) : Bool := decide (pa ≤ 256 * line + o) && decide (256 * line + o < pa + bs.length)
    let mask := (List.range 256).foldl (fun k o => if inb o then k ||| 2 ^ o else k) 0
    let new := BitVec.ofNat 2048 (ofBytes ((List.range 256).map fun o => if inb o then bs.getD (256 * line + o - pa) 0 else 0))
    m.devWriteLine line new mask ep) m

/-- A refused access of an agent that is not a thread: recorded in `mem.err` with code 0x69 and taken under the lowest port of
the group that holds the line (R323, R574). -/
def Mach.rgnRefused (m : Mach) (pa : Nat) (thread : Bool := false) : Mach :=
  let g := homeSlice pa
  let m := m.sets [(R.mem_err_line, pa / 256), (R.mem_err_new, 1), (R.mem_err_port, 5 * g), (R.mem_err_code, 0x69)]
  if thread then m else m.raise (1824 + 16 * (5 * g) + 9) (m.word R.mem_err)

/-- Outcome of a command: the next state with the machine changed and the queue kept, for a unit that exists. -/
def ans (ok : Bool) (s : State) (f : Mach → Mach) : Host.Outcome State Fault Refusal :=
  if ok then .next { s with m := f s.m } else .fault .noSuchUnit

end Sys2Proof.Machine
end

