-- ==== Sys2Proof/Machine/Link.lean ====
section
/-! DEFINITION. Messages as slots and their way onto the fabric (spec/09, R274, R287 to R291). -/

namespace Sys2Proof.Machine

def Mach.fabP (m : Mach) (p : Nat) : LinkSt FabUnit := tget m.fab p ⟨0, 0, [], [], [0, 0, 0, 0], false, []⟩
def Mach.setFabP (m : Mach) (p : Nat) (k : LinkSt FabUnit) : Mach := { m with fab := tset m.fab p k }


/-! ### Messages as slots (R274, Table 9.4) -/

/-- The virtual channel of an op (Table 9.3). -/
def vcOf (op : Nat) : Nat := op / 16

/-- The header slot. -/
def headSlot (op : Nat) (x : Msg) : Nat :=
  op <<< 122 ||| vcOf op <<< 120 ||| x.src <<< 112 ||| x.dst <<< 104 ||| x.tag <<< 92 ||| x.line <<< 48 ||| x.acks <<< 40 ||| x.st <<< 38
    ||| b2n x.psn <<< 37 ||| x.req <<< 29 ||| x.aux

/-- The slots of a message: header, line data for DATA, DATH and WDAT, and the byte mask of a WRM's WDAT, whose bit 127 of the first mask slot
covers line byte 0. -/
def msgSlots (op : Nat) (x : Msg) : List Nat :=
  headSlot op x :: (if vcOf op = 3 then (List.range 16).map fun i => lineGet x.data (16 * i) 16 else [])
    ++ (if op = 0x33 ∧ x.mask ≠ 2 ^ 256 - 1 then
          (List.range 2).map fun j => (List.range 128).foldl (fun w i => if x.mask.testBit (128 * j + i) then w ||| 2 ^ (127 - i) else w) 0
        else [])

/-! ### Sending (R288 to R291) -/

/-- The flits that carry one message: at most seven slots each (log entry 20). -/
def chop (vc : Nat) (l : List Nat) : Nat → List FabUnit
  | 0 => []
  | n + 1 => if l = [] then [] else ⟨vc, l.take 7⟩ :: chop vc (l.drop 7) n

/-- Transmit what waits on a port while it is up, the replay buffer has room and the virtual channel has credits for the unit's slots, the
oldest unit first within each channel; at most n units. -/
def Mach.fabSend (m : Mach) (p : Nat) : Nat → Mach
  | 0 => m
  | n + 1 =>
    let k := m.fabP p
    if m.frozen || m.get (R.aq_fab_stat_state p) != 6 || decide (512 ≤ k.replay.length) then m
    else
      let ok := fun (u : FabUnit) => decide (u.slots.length ≤ k.credits.getD u.vc 0)
      let can := fun (i : Nat) => match k.waiting[i]? with
        | some (_, u) => ok u && !((k.waiting.take i).any fun y => y.2.vc == u.vc)
        | none => false
      match (List.range k.waiting.length).find? can with
      | none => m
      | some i =>
        match k.waiting[i]? with
        | none => m
        | some (_, u) =>
          let k := { k with waiting := k.waiting.eraseIdx i, replay := k.replay ++ [(k.txSeq, 0, u)], txSeq := (k.txSeq + 1) % 1024,
                            credits := k.credits.set u.vc (k.credits.getD u.vc 0 - u.slots.length) }
          ((m.setFabP p k).emit (.frame 0 p (k.replay.getLast?.elim 0 (·.1) :: u.slots))).fabSend p n

/-- The port that carries a line's messages to a module (R287, R288): the tier's own, else the next tier's that is up. -/
def Mach.fabPort (m : Mach) (tier md : Nat) : Nat :=
  let k := (md + 3 - m.modNo) % 4
  let ports := (List.range 4).map fun i => 3 * ((tier + i) % 4) + k
  (ports.find? fun p => m.get (R.aq_fab_stat_state p) == 6 && !m.blkDown (68 + p)).getD (ports.headD 0)

/-- A message whose destination is on another module of the domain leaves on a fabric port. -/
def Mach.route (m : Mach) (op : Nat) (x : Msg) : Mach :=
  if x.dst / 64 = m.modNo ∨ m.dsize ≤ x.dst / 64 then m
  else
    let p := m.fabPort (if op = 0x0A ∨ op = 0x28 then 0 else homeSlice (256 * x.line)) (x.dst / 64)
    let k := m.fabP p
    (m.setFabP p { k with waiting := k.waiting ++ (chop (vcOf op) (msgSlots op x) 3).map fun u => (u.vc, u) }).fabSend p 3

end Sys2Proof.Machine
end

