-- ==== Sys2Proof/Machine/Caches.lean ====
section
/-! DEFINITION. The core's L2 with its buffers (spec/08): hits, misses, fills, replacement, eviction, the combining buffer, and
the requests and answers that it sends (spec/09). -/

namespace Sys2Proof.Machine

/-- The core counters are frozen while a thread of the core runs enclave code (R368), unless the enclave is in the scope of the
enclave non-invasive enable. -/
def Mach.frozenThread (m : Mach) (t : Nat) : Bool :=
  match (m.th t).encl with
  | none => false
  | some e => !e.ni

def Mach.coreFrozen (m : Mach) (c : Nat) : Bool := m.frozenThread (2 * c) || m.frozenThread (2 * c + 1)

/-- A core counter counts unless frozen. -/
def Mach.countCore (m : Mach) (c : Nat) (f : Fld) : Mach := if m.coreFrozen c then m else m.count f

/-- A Basin counter of a tier counts unless a thread of the tier runs enclave code (Table 12.5). -/
def Mach.countBsn (m : Mach) (s : Nat) (f : Fld) : Mach :=
  if (List.range 24).any fun i => m.frozenThread (24 * s + i) then m else m.count f

/-- The domain agent number of a core's L2 and of a home slice (R17, R268). -/
def Mach.agentOf (m : Mach) (slot : Nat) : Nat := 64 * m.modNo + slot
def Mach.homeAgent (m : Mach) (line : Nat) : Nat := 64 * (m.homeOf (256 * line)).getD m.modNo + 56 + homeSlice (256 * line)

def noMsg : Msg := ⟨0, 0, 0, 0, 0, 0, false, 0, 0, 0, 0⟩

/-- Send a coherence message: to a unit of this module, or onto the fabric. -/
def Mach.send (m : Mach) (op : Nat) (x : Msg) : Mach := (m.emit (.aq ⟨op, x⟩)).route op x

def LSt.code : LSt → Nat
  | .s => 1 | .e => 2 | .m => 3

/-! ### Replacement (R234 to R236) -/

/-- Whether a way may be a victim: not held, not reserved, not deleted. -/
def Mach.mayEvict (m : Mach) (c key : Nat) : Bool :=
  let k := m.core c
  match tfind k.l2 key with
  | none => false
  | some x => !(k.holds.contains x.line) && !(k.delWays.contains key)
      && !(((m.th (2 * c)).cur.resv == some x.line) || ((m.th (2 * c + 1)).cur.resv == some x.line))

/-- The victim choice of R234 on one set, with the ages that it leaves: at most three rounds of ageing. -/
def Mach.victim (m : Mach) (c set : Nat) : Nat → Mach × Option Nat
  | 0 => (m, none)
  | n + 1 =>
    let keys := (List.range 16).map (16 * set + ·)
    match keys.find? fun k => (tfind (m.core c).l2 k).isNone && !((m.core c).delWays.contains k) with
    | some k => (m, some k)
    | none =>
      match keys.find? fun k => m.mayEvict c k && (match tfind (m.core c).l2 k with | some x => x.age == 3 | none => false) with
      | some k => (m, some k)
      | none =>
        if keys.all fun k => !m.mayEvict c k then (m, none)
        else
          let l2 := (m.core c).l2.map fun kv => if kv.1 / 16 = set ∧ kv.2.age < 3 then (kv.1, { kv.2 with age := kv.2.age + 1 }) else kv
          Mach.victim (m.onCore c fun k => { k with l2 := l2 }) c set n

/-- Move the line of a way to the eviction buffer (R237); none when the buffer is full (R240). -/
def Mach.evictWay (m : Mach) (c key : Nat) : Option Mach :=
  let k := m.core c
  match tfind k.l2 key with
  | none => some m
  | some x =>
    if k.evb.length < 32 then
      some (m.setCore c { k.dropL1 x.line with l2 := tdel k.l2 key, evb := k.evb ++ [⟨x.line, x.st, x.data, x.psn, false⟩] })
    else none

/-- Fill a line into the L2 at an age; none when it has to wait for an eligible way or an eviction-buffer entry. -/
def Mach.fill (m : Mach) (c line : Nat) (st : LSt) (d : Line) (psn : Bool) (age : Nat) (pf : Bool) : Option Mach :=
  match (m.core c).find line with
  | some (key, _) => some (m.onCore c (·.setWay key ⟨line, st, d, psn, age, pf⟩))
  | none =>
    match m.victim c (line % 1024) 5 with
    | (_, none) => none
    | (m, some key) =>
      match m.evictWay c key with
      | none => none
      | some m => some (m.onCore c (·.setWay key ⟨line, st, d, psn, age, pf⟩))

/-- Offer an eviction-buffer entry to its home (R237): EVC for a clean line, EVD with its data for a modified one. -/
def Mach.offer (m : Mach) (c : Nat) (e : EvEntry) : Mach :=
  let x : Msg := { noMsg with src := m.agentOf c, dst := m.homeAgent e.line, line := e.line, st := e.st.code, psn := e.psn }
  let m := m.onCore c fun k => { k with evb := updWhere (fun y => y.line == e.line) (fun y => { y with sent := true }) k.evb }
  if e.st = .m then (m.send 0x08 x).send 0x32 { x with data := e.data } else m.send 0x07 x

/-! ### Requests beyond the L2 -/

/-- The lowest free transaction tag of an L2. -/
def Core.freeTag (c : Core) : Nat := ((List.range 64).find? fun t => !(c.miss.any fun x => x.tag == t)).getD 0

/-- Issue a request (R233, R276) for a line unless one is outstanding or 64 are; op is RDS, RDX, UPG or OWN.  A failing or
swapping core issues none (R171). -/
def Mach.request (m : Mach) (c line op : Nat) (why : MissFor) (th : Nat) : Mach :=
  let k := m.core c
  if k.miss.any (fun x => x.line == line) || decide (64 ≤ k.miss.length) || k.swap.isSome
      || (why == .prefetch && decide (48 ≤ (k.miss.filter fun x => x.why == .prefetch).length)) then m
  else
    let tag := k.freeTag
    let m := m.setCore c { k with miss := k.miss ++ [⟨line, tag, op != 0x01, why, th, none, 0, none⟩] }
    m.send op { noMsg with src := m.agentOf c, dst := m.homeAgent line, tag := tag, line := line }

/-! ### Combining buffer (R246 to R249) -/

/-- Whether a thread of the core holds a line reserved (R257). -/
def Mach.reservedIn (m : Mach) (c line : Nat) : Bool :=
  ((m.th (2 * c)).cur.resv == some line) || ((m.th (2 * c + 1)).cur.resv == some line)

/-- A write performed at home is sent: WRF or WRM with its data, awaited until WRA (R245, R248). -/
def Mach.homeWriteMsg (m : Mach) (c th line : Nat) (data : Line) (mask : Nat) (store : Bool) : Mach :=
  let x : Msg := { noMsg with src := m.agentOf c, dst := m.homeAgent line, line := line }
  let m := m.onCore c fun k => { k with wpend := k.wpend ++ [(line, th, store)] }
  (m.send (if mask == 2 ^ 256 - 1 then 0x05 else 0x06) x).send 0x33 { x with data := data, mask := mask }

/-- A request or a home write of the core for a line is outstanding: no other may go out (R276). -/
def Core.asks (k : Core) (line : Nat) : Bool := (k.wpend.any fun y => y.1 == line) || k.miss.any fun y => y.line == line

/-- Write one combining line out: at its home as WRF or WRM, or into the core's own L2 when the line is reserved there (R248). It stays while an
earlier request for its line is outstanding. -/
def Mach.combOut (m : Mach) (c : Nat) (x : CombLine) : Mach :=
  if (m.core c).asks x.line then m else
  let m := m.onCore c fun k => { k with comb := k.comb.filter fun y => y.line != x.line }
  let full := x.mask == 2 ^ 256 - 1
  let m := if full then m.countCore c (R.core_cstat2_ntfull c) else m.countCore c (R.core_cstat2_ntpart c)
  let m := if full then (if m.get (R.core_cstat2_ntfull c) = 0 then m.set (R.core_cstat2_ovf_nt c) 1 else m)
    else (if m.get (R.core_cstat2_ntpart c) = 0 then m.set (R.core_cstat2_ovf_nt c) 1 else m)
  match (m.core c).find x.line with
  | some (key, w) =>
    if m.reservedIn c x.line && w.st != .s then
      (let m := m.onCore c (·.setWay key { w with st := .m, data := lineMerge w.data x.data x.mask, psn := w.psn && !full })
       m.onTh (2 * c + 1 - x.th % 2) (·.lose x.line))
    else m.homeWriteMsg c x.th x.line x.data x.mask false
  | none => m.homeWriteMsg c x.th x.line x.data x.mask false

/-- The combining line that waited for a request for its line goes out when its mask is full, a drain runs, or its core is being flushed (R248). -/
def Mach.combNext (m : Mach) (c line : Nat) : Mach :=
  match (m.core c).comb.find? fun y => y.line == line with
  | some y => if y.mask == 2 ^ 256 - 1 || m.mode.stage != 0 || (m.core c).flushing then m.combOut c y else m
  | none => m

/-- Write out the open combining line of an address, if any (R247). -/
def Mach.combTouch (m : Mach) (c line : Nat) : Mach :=
  match (m.core c).comb.find? fun x => x.line == line with
  | some x => m.combOut c x
  | none => m

/-- Write out every open combining line of a core. -/
def Mach.combFlush (m : Mach) (c : Nat) : Mach := (m.core c).comb.foldl (fun m x => m.combOut c x) m

/-- A non-temporal store enters the combining buffer (R246). -/
def Mach.combStore (m : Mach) (th : Nat) (e : StoreE) : Mach :=
  let c := th / 2
  let line := e.pa / 256
  let o := e.pa % 256
  let msk := (2 ^ e.len - 1) * 2 ^ o
  let k := m.core c
  let (m, x) := match k.comb.find? fun y => y.line == line with
    | some y => (m, y)
    | none =>
      let m := if k.comb.length < 16 then m else match k.comb.find? fun (y : CombLine) => !k.asks y.line with
        | some y => m.combOut c y
        | none => m
      (m.onCore c fun k => { k with comb := k.comb ++ [(⟨line, 0, 0, th⟩ : CombLine)] }, (⟨line, 0, 0, th⟩ : CombLine))
  let x : CombLine := { x with data := linePut x.data o e.len e.val, mask := x.mask ||| msk, th := th }
  let m := m.onCore c fun k => { k with comb := updWhere (fun y => y.line == line) (fun _ => x) k.comb }
  if x.mask == 2 ^ 256 - 1 then m.combOut c x else m

/-- Every store that a thread has retired has been performed, write-arounds included. -/
def Mach.storesDone (m : Mach) (th : Nat) : Bool := (m.th th).sbuf.isEmpty && !((m.core (th / 2)).wpend.any fun x => x.2.1 == th && x.2.2)

/-! ### Prefetch streams (R250) -/

/-- A demand miss feeds the stream of its page and thread; the stream it belongs to becomes the newest of at most 32. With
`pf_en` 0 every stream ends (R265). -/
def Mach.feedStream (m : Mach) (c th line : Nat) (va : Option Nat) : Mach :=
  if !m.on (R.core_l2cfg_pf_en c) then m.onCore c fun k => { k with pf := [] }
  else
    let k := m.core c
    match takeFirst (fun x => x.th == th && x.last / 16 == line / 16) k.pf with
    | none => m.setCore c { k with pf := (k.pf ++ [(⟨th, line, va, 0, 1, []⟩ : PfStream)]).drop (k.pf.length + 1 - 32) }
    | some (x, rest) =>
      let d : Int := (line : Int) - x.last
      let x : PfStream := if d = x.stride ∧ d ≠ 0 then { x with last := line, va := va, seen := min (x.seen + 1) 3 }
        else if d ≠ 0 ∧ d.natAbs ≤ 8 then { x with last := line, va := va, stride := d, seen := 2 }
        else { x with last := line, va := va, stride := 0, seen := 1 }
      m.setCore c { k with pf := rest ++ [x] }

/-- A demand hit on a prefetched line restarts the count of requests without one (R250). -/
def Core.pfHit (k : Core) (line : Nat) : Core :=
  { k with pf := updWhere (fun x => x.asked.contains line) (fun x => { x with asked := [] }) k.pf }

/-! ### Core cache errors (R262) -/

/-- Record an L2 error and raise its core source (k = 15 + code). -/
def Mach.l2Error (m : Mach) (c code line way : Nat) (th : Option Nat := none) : Mach :=
  let m := m.sets [(R.core_l2err_line c, line), (R.core_l2err_new c, 1), (R.core_l2err_way c, way), (R.core_l2err_code c, code)]
  m.raiseCore c (15 + code) (m.word (R.core_l2err c)) th

end Sys2Proof.Machine
end

