-- ==== Sys2Proof/Machine/Translate.lean ====
section
/-! DEFINITION. Address translation (spec/07): regimes, the two-stage walk, permissions, accessed and dirty bits, the translation
cache, and the line access that walks and operands share.  An attempt that lacks a line issues the request and waits. -/

namespace Sys2Proof.Machine

/-- The fault record of `core.tfd` and `core.tfa` (R227). -/
structure Tfd where
  lvl : Nat
  s2 : Bool
  kind : Nat
  s1lvl : Nat
  reason : Nat
  va : Nat
deriving DecidableEq, Repr

/-- Why an instruction does not complete: an interruption that is a fault (Table 3.17), a precise machine check of a source, a
fault that the Grotto monitor handles (R366), or a wait for something outside. -/
inductive Stop where
  | exc (code eaddr : Nat) (wr : Bool) (rec : Option Tfd)
  | mck (src : Nat)
  | encl (reason addr : Nat)
  | wait
deriving DecidableEq, Repr

/-- An attempt at work of a thread: it reads and changes the machine, and may stop, keeping what it has changed so far. -/
abbrev X (α : Type) := EStateM Stop Mach α

def X.stop {α : Type} (s : Stop) : X α := fun m => .error s m
def X.exc {α : Type} (code eaddr : Nat) : X α := X.stop (.exc code eaddr false none)
def X.wait {α : Type} : X α := X.stop .wait
def X.mach : X Mach := fun m => .ok m m
def X.modify (f : Mach → Mach) : X Unit := fun m => .ok () (f m)
/-- Check a condition, else stop. -/
def X.need (b : Bool) (s : Stop) : X Unit := if b then pure () else X.stop s

/-! ### Lines through the L1s and the L2 -/

/-- How an access uses a line: through which L1 (true the instruction cache), what tells it from the other accesses of its instruction, its effective
address divided by 256, and whether its misses feed a prefetch stream. -/
structure LineUse where
  l1 : Option Bool
  key : Nat
  va : Option Nat
  feeds : Bool
deriving DecidableEq, Repr

/-- An access of the L2 alone, at an address. -/
def LineUse.l2 (pa : Nat) : LineUse := ⟨none, 2 * pa + 1, none, true⟩

/-- A load and an instruction fetch of cacheable memory, at an effective and a physical address. -/
def LineUse.load (va pa : Nat) : LineUse := ⟨some false, 2 * (pa / 256), some (va / 256), true⟩
def LineUse.fetch (va pa : Nat) : LineUse := { LineUse.load va pa with l1 := some true }

def Core.hitL1 (k : Core) (l1 : Option Bool) (line : Nat) : Bool :=
  match l1 with
  | none => false
  | some true => (l1Find k.l1i line).isSome
  | some false => (l1Find k.l1d line).isSome

/-- An L1 hit, or the fill of an L1 (R234, R235). -/
def Core.useL1 (k : Core) (l1 : Option Bool) (line : Nat) : Core :=
  match l1 with
  | none => k
  | some true => { k with l1i := l1Use k.l1i line }
  | some false => { k with l1d := l1Use k.l1d line }

/-- A demand hit in the L2 counts once for each access of an instruction, whose further attempts are the same access (log entry 7). -/
def Mach.countHit (m : Mach) (th key : Nat) : Mach :=
  if (m.th th).seen.contains key then m
  else (m.countCore (th / 2) (R.core_cstat0_hit (th / 2))).onTh th fun t => { t with seen := key :: t.seen }

/-- A demand miss is counted and feeds its stream (R250). -/
def Mach.countMiss (m : Mach) (u : LineUse) (th line : Nat) : Mach :=
  let m := (m.countCore (th / 2) (R.core_cstat0_miss (th / 2))).onTh th fun t => { t with seen := u.key :: t.seen }
  if u.feeds then m.feedStream (th / 2) th line u.va else m

/-- Use a line that the core holds, shared or exclusive, or request it and wait (R213, R230, R233 to R235, R238, R247). -/
def useBy (u : LineUse) (th line : Nat) (excl : Bool) (why : MissFor) : X L2Way := do
  let c := th / 2
  X.modify (·.combTouch c line)
  let m ← X.mach
  if m.homeOf (256 * line) = none then
    X.modify (·.aqError 0x36 (16 + homeSlice (256 * line)) line)
    X.stop (.mck 1606)
  let k := m.core c
  if k.wpend.any fun x => x.1 == line then X.wait
  match k.find line with
  | some (key, w) =>
    if excl && w.st == .s then
      X.modify (·.request c line 0x03 why th)
      X.wait
    else if w.psn then
      X.modify (·.l2Error c 0x08 line (key % 16) (some th))
      X.stop (.mck (32 * c + 23))
    else if k.hitL1 u.l1 line then
      X.modify (·.onCore c (·.useL1 u.l1 line))
      pure w
    else
      X.modify fun m =>
        let m := m.onCore c fun k => ((if w.pf then k.pfHit line else k).setWay key { w with age := 0, pf := false }).useL1 u.l1 line
        if why = .demand then m.countHit th u.key else m
      pure w
  | none =>
    match k.evb.find? fun e => e.line == line with
    | some e =>
      if e.sent then X.wait
      else match m.fill c line e.st e.data e.psn 0 false with
        | none => X.wait
        | some m' =>
          X.modify fun _ => m'.onCore c fun k => ({ k with evb := k.evb.filter fun y => y.line != line } : Core).useL1 u.l1 line
          if excl && e.st == .s then X.modify (·.request c line 0x03 why th); X.wait
          else pure ⟨line, e.st, e.data, e.psn, 0, false⟩
    | none =>
      if k.miss.any fun x => x.line == line then X.wait
      else
        X.modify fun m => (if why = .demand then m.countMiss u th line else m).request c line (if excl then 0x02 else 0x01) why th
        X.wait

/-- Use a line in the L2 (table walks and atomics). -/
def useLine (th line : Nat) (excl : Bool) (why : MissFor) : X L2Way := useBy (.l2 (256 * line)) th line excl why

/-! ### Regimes (R205 to R208) -/

/-- The levels that an `lv` field names. -/
def lvDepth (lv : Nat) : Nat := if lv = 0 then 0 else lv + 2

/-- Whether the current mode accepts a depth (Table 2.2). -/
def Mach.acceptsLv (m : Mach) (lv : Nat) : Bool := if m.modeM5 then lv == 0 || lv == 2 else true

/-- Input bits of a depth as a virtual address (R81) and as a guest physical address (R206). -/
def vaBits (d : Nat) : Nat := if d = 3 then 39 else if d = 4 then 48 else 57
def gpaBits (d : Nat) : Nat := if d = 3 then 39 else if d = 4 then 48 else 52

/-- A virtual address is canonical for a number of input bits (R81). -/
def canonical (va n : Nat) : Bool :=
  let top := va / 2 ^ (n - 1)
  top == 0 || top == 2 ^ (65 - n) - 1

/-- What an access is (Table 7.8, Table 7.11). -/
inductive Acc where
  | load | store | rmw | fetch
deriving DecidableEq, Repr

def Acc.kind : Acc → Nat
  | .load => 1 | .store => 2 | .rmw => 3 | .fetch => 4
def Acc.isWr : Acc → Bool
  | .store => true | .rmw => true | _ => false

/-- The leaf permission that fails, if any (R215): 0x0B user, 0x08 read, 0x09 write, 0x0A fetch. -/
def permFail (leaf : Nat) (acc : Acc) (isP stage2 : Bool) : Option Nat :=
  if isP && !stage2 && !bit leaf 5 then some 0x0B
  else match acc with
    | .load => if bit leaf 2 then none else some 0x08
    | .store => if bit leaf 3 then none else some 0x09
    | .rmw => if !bit leaf 2 then some 0x08 else if bit leaf 3 then none else some 0x09
    | .fetch => if bit leaf 4 then none else some 0x0A

/-- A frame or table address in the MCS, a doorbell page or PCIe memory space (R214). -/
def Mach.uncached (m : Mach) (pa : Nat) : Bool := (m.mcsOff pa).isSome || (m.pcieWin pa).isSome

/-- The checks of R214 on one entry at a level; the reason of Table 7.12, if it fails.  `g2` says that the entry is of stage 2, and
`host` that its output is a physical address. -/
def entryFail (m : Mach) (e lvl idx : Nat) (g2 host : Bool) : Option Nat :=
  if !bit e 0 then some 0x01
  else if bits e 59 52 != 0 || (bit e 1 && bits e 11 2 != 0) || (!bit e 1 && g2 && (bit e 6 || bit e 5)) then some 0x02
  else if bit e 1 && lvl == 1 then some 0x03
  else if !bit e 1 && (lvl ≥ 4 || (bit e 9 && lvl != 1)) then some 0x03
  else if !bit e 1 && ((lvl == 2 && bits e 20 12 != 0) || (lvl == 3 && bits e 29 12 != 0)
      || (lvl == 1 && bit e 9 && bits e 15 12 != idx % 16)) then some 0x04
  else if !bit e 1 && bit e 3 && !bit e 2 then some 0x05
  else if host && m.uncached (bits e 51 12 * 4096) then some 0x06
  else none

/-- The page size of a leaf in 4 KiB pages (Table 7.5). -/
def leafPages (e lvl : Nat) : Nat := if lvl = 1 then (if bit e 9 then 16 else 1) else if lvl = 2 then 512 else 262144

/-- The output address of a leaf for an input address. -/
def leafOut (e lvl a : Nat) : Nat :=
  let sz := leafPages e lvl * 4096
  bits e 51 12 * 4096 / sz * sz + a % sz

/-- The context of a walk: thread, effective address, access, whether a prefetch stream makes it, and the tags of its walk-cache entries: regime,
ASID, partition. -/
structure WalkCtx where
  th : Nat
  va : Nat
  acc : Acc
  pre : Bool
  tag : Nat
  asid : Nat
  part : Nat
deriving DecidableEq, Repr

/-- The access whose accessed and dirty bits are needed: a prefetch is abandoned on a clear `d` too (R220). -/
def WalkCtx.bitsFor (w : WalkCtx) : Acc := if w.pre then .store else w.acc

/-- A fault of stage 1 (R214, R215, R227). -/
def fault1 {α : Type} (w : WalkCtx) (reason lvl : Nat) : X α :=
  let prot := reason ≥ 0x08
  let code := if w.acc = .fetch then (if prot then 0x0102 else 0x0101) else (if prot then 0x0302 else 0x0301)
  X.stop (.exc code w.va w.acc.isWr (some ⟨lvl, false, w.acc.kind, 0, reason, w.va⟩))

/-- A fault of stage 2 (R214, R215, R227): the guest physical address, the kind of the access it serves, the stage-1 level whose table
was read. -/
def fault2 {α : Type} (w : WalkCtx) (reason lvl gpa kind s1lvl : Nat) : X α :=
  X.stop (.exc (if reason ≥ 0x08 then 0x0402 else 0x0401) gpa (kind == 2 || kind == 3 || kind == 6)
    (some ⟨lvl, true, kind, s1lvl, reason, w.va⟩))

/-- Read a table entry coherently through the L2 (R209, R213). -/
def rdEntry (w : WalkCtx) (pa : Nat) : X Nat := do
  let l ← useBy (.l2 pa) w.th (pa / 256) false (if w.pre then .prefetch else .demand)
  pure (lineGet l.data (pa % 256) 8)

/-- A walk that meets a clear accessed or dirty bit stops there and waits (R161): the entry's address, the value read, and the value with
the bits set.  AD_BIT_UPDATE performs the update once the access is demand.  The walk of a prefetch is abandoned (R220). -/
def setAD (w : WalkCtx) (pa old new : Nat) : X Unit :=
  if w.pre then X.stop (.mck 0)
  else do
    X.modify (·.onTh w.th fun t => { t with adWait := some (pa, old, new) })
    X.wait

/-- A leaf with the bits that an access sets (R216). -/
def withAD (e : Nat) (acc : Acc) : Nat := setBits (if acc.isWr then setBits e 8 8 1 else e) 7 7 1

/-! ### Walk caches (Table 7.10) -/

/-- The bits of an input address from the index of a level up. -/
def walkKey (a lvl : Nat) : Nat := a / 2 ^ (12 + 9 * (lvl - 1))

/-- What a walk has read and a walk cache may hold once the walk has found a translation (R219): entries of stage 1 and of stage 2. -/
structure Fills where
  s1 : List WalkE
  s2 : List WalkE
deriving DecidableEq, Repr

/-- The table entry that a walk cache holds for an input address at a level. -/
def tableHit (l : List WalkE) (tag asid lvl a : Nat) : Option Nat :=
  (l.find? fun x => !x.leaf && x.tag == tag && x.asid == asid && x.lvl == lvl && x.key == walkKey a lvl).map (·.val)

/-- The stage-2 leaf that a walk cache holds for the address of a stage-1 table, and its level. -/
def leafHit (l : List WalkE) (tag gpa : Nat) : Option (Nat × Nat) :=
  (l.find? fun x => x.leaf && x.tag == tag && x.key == gpa / 4096 / leafPages x.val x.lvl).map fun x => (x.val, x.lvl)

/-- A walk-cache entry for the same input. -/
def WalkE.same (x y : WalkE) : Bool := x.tag == y.tag && x.asid == y.asid && x.lvl == y.lvl && x.key == y.key && x.leaf == y.leaf

/-- Entries go in, the newest first, at most n. -/
def walkIn (n : Nat) (new old : List WalkE) : List WalkE := (new ++ old.filter fun y => !new.any (·.same y)).take n

/-! ### Walks -/

/-- The stage-2 walk of a guest physical address (R213): leaf, its level, the address of the leaf entry, and what the walk caches may hold.  `kind` and
`s1lvl` go into fault records. -/
def walk2 (w : WalkCtx) (f : Fills) (root gpa kind s1lvl : Nat) : Nat → Nat → X (Nat × Nat × Nat × Fills)
  | 0, _ => X.wait
  | n + 1, lvl => do
    let m ← X.mach
    match tableHit (f.s2 ++ (m.core (w.th / 2)).walk2) w.part 0 lvl gpa with
    | some e => walk2 w f (bits e 51 12 * 4096) gpa kind s1lvl n (lvl - 1)
    | none => do
      let idx := bits gpa (11 + 9 * lvl) (12 + 9 * (lvl - 1))
      let pa := root + 8 * idx
      let e ← rdEntry w pa
      let m ← X.mach
      match entryFail m e lvl idx true true with
      | some r => fault2 w r lvl gpa kind s1lvl
      | none =>
        if bit e 1 then
          walk2 w { f with s2 := ⟨w.part, 0, lvl, walkKey gpa lvl, false, e⟩ :: f.s2 } (bits e 51 12 * 4096) gpa kind s1lvl n (lvl - 1)
        else pure (e, lvl, pa, f)

/-- The stage-2 walk under a root, whose input range is checked first (R206). -/
def walkRoot2 (w : WalkCtx) (f : Fills) (ttr2 gpa kind s1lvl : Nat) : X (Nat × Nat × Nat × Fills) :=
  let d := lvDepth (bits ttr2 1 0)
  if gpa ≥ 2 ^ gpaBits d then fault2 w 0x07 d gpa kind s1lvl
  else walk2 w f (bits ttr2 51 12 * 4096) gpa kind s1lvl d d

/-- The address of a stage-1 table entry, by stage 2 when it is in force: a read of the entry (kind 5) or a write of its bits (kind 6), with its
permission and its accessed and dirty bits (R215, R216). -/
def tableAddr (w : WalkCtx) (f : Fills) (ttr2 gpa kind s1lvl : Nat) (acc : Acc) : X (Nat × Fills) := do
  if lvDepth (bits ttr2 1 0) = 0 then pure (gpa, f)
  else
    let m ← X.mach
    match (leafHit (f.s2 ++ (m.core (w.th / 2)).walk2) w.part gpa).filter fun x => !acc.isWr || bit x.1 8 with
    | some (e, lvl) =>
      match permFail e acc false true with
      | some r => fault2 w r lvl gpa kind s1lvl
      | none => pure (leafOut e lvl gpa, f)
    | none => do
      let (e, lvl, pa, f) ← walkRoot2 w f ttr2 gpa kind s1lvl
      match permFail e acc false true with
      | some r => fault2 w r lvl gpa kind s1lvl
      | none => do
        if withAD e acc != e then setAD w pa e (withAD e acc)
        pure (leafOut e lvl gpa, { f with s2 := ⟨w.part, 0, lvl, gpa / 4096 / leafPages e lvl, true, e⟩ :: f.s2 })

/-- The stage-1 walk of an effective address: leaf, its level, and the guest physical and the physical address of the leaf entry. -/
def walk1 (w : WalkCtx) (f : Fills) (ttr2 root : Nat) (host : Bool) : Nat → Nat → X (Nat × Nat × Nat × Nat × Fills)
  | 0, _ => X.wait
  | n + 1, lvl => do
    let m ← X.mach
    match tableHit (f.s1 ++ (m.core (w.th / 2)).walk1) w.tag w.asid lvl w.va with
    | some e => walk1 w f ttr2 (bits e 51 12 * 4096) host n (lvl - 1)
    | none => do
      let idx := bits w.va (11 + 9 * lvl) (12 + 9 * (lvl - 1))
      let gpa := root + 8 * idx
      let (pa, f) ← tableAddr w f ttr2 gpa 5 lvl .load
      let e ← rdEntry w pa
      let m ← X.mach
      match entryFail m e lvl idx false host with
      | some r => fault1 w r lvl
      | none =>
        if bit e 1 then
          walk1 w { f with s1 := ⟨w.tag, w.asid, lvl, walkKey w.va lvl, false, e⟩ :: f.s1 } ttr2 (bits e 51 12 * 4096) host n (lvl - 1)
        else pure (e, lvl, gpa, pa, f)

/-! ### The translation cache (Table 7.10) -/

/-- Whether an entry covers a page under a regime (R205). -/
def TlbE.covers (e : TlbE) (regime : Nat) (s2on s2only : Bool) (part asid vpn : Nat) : Bool :=
  e.regime == regime && e.s2on == s2on && e.stage2only == s2only && (regime == 1 || e.part == part || !s2on)
    && (regime == 1 || s2only || e.glob || e.asid == asid) && decide (e.vpn ≤ vpn) && decide (vpn < e.vpn + e.pages)

/-- The first permission that an entry's leaves refuse, stage 1 before stage 2: the stage and the reason (R215). -/
def TlbE.refuses (e : TlbE) (acc : Acc) (isP s1 s2 : Bool) : Option (Bool × Nat) :=
  match (if s1 then permFail e.leaf1 acc isP false else none) with
  | some r => some (false, r)
  | none => (if s2 then permFail e.leaf2 acc false true else none).map fun r => (true, r)

/-- Whether an entry serves an access (R216, R218): one that sets `d`, as `need` says, needs it set, and an access that uses the leaves needs `a`. -/
def TlbE.serves (e : TlbE) (acc need : Acc) (isP s1 s2 : Bool) : Bool :=
  (!need.isWr || ((!s1 || bit e.leaf1 8) && (!s2 || bit e.leaf2 8)))
    && ((e.refuses acc isP s1 s2).isSome || ((!s1 || bit e.leaf1 7) && (!s2 || bit e.leaf2 7)))

/-- An entry for the same input. -/
def TlbE.same (x y : TlbE) : Bool :=
  x.regime == y.regime && x.s2on == y.s2on && x.part == y.part && x.asid == y.asid && x.glob == y.glob && x.stage2only == y.stage2only
    && x.vpn == y.vpn && x.pages == y.pages

/-- The result of a translation: physical address, non-cacheable (R212), compressible mark of the last stage in force (an untranslated
access needs none, R333), enclave window. -/
structure Xl where
  pa : Nat
  nc : Bool
  cmp : Bool
  window : Bool
deriving DecidableEq, Repr

/-- A walk that found a translation fills the caches: the newest first, at most the 4,096 entries that the L2 TLB holds, and 64 of each walk cache. -/
def Mach.fillTlb (m : Mach) (c : Nat) (e : TlbE) (f : Fills) : Mach :=
  m.onCore c fun k => { k with tlb := (e :: k.tlb.filter fun y => !e.same y).take 4096, walk1 := walkIn 64 f.s1 k.walk1, walk2 := walkIn 64 f.s2 k.walk2 }

/-- The enclave window of a thread that runs enclave code (R365): range base, size, code size, window base. -/
def Mach.window (m : Mach) (th : Nat) : Option (Nat × Nat × Nat × Nat) :=
  match (m.th th).encl with
  | none => none
  | some e => (tfind m.grotto.encl e.encl).map fun x => (x.base, x.size, x.csize, x.vbase)

/-- The regime tag of walk-cache entries. -/
def regimeTag (low s2on : Bool) (part : Nat) : Nat := if !low then 65 else if s2on then part else 64

/-- Translate one access of a thread, or of a prefetch stream of it (R81, R205 to R220). The permissions are checked after the walk, the accessed and
dirty bits set then, and the fill is made whatever the permissions are. -/
def translateFor (pre : Bool) (th va : Nat) (acc : Acc) : X Xl := do
  let m ← X.mach
  let a := (m.th th).cur
  let psw := a.psw.toNat
  let low := decide (bits psw 1 0 ≤ 1)
  let ttr2 := if low then a.ttr2.toNat else 0
  let s2on := bits ttr2 1 0 != 0
  let root := if low then a.ttr1.toNat else a.ttrh.toNat
  let asid := if low then bits root 63 52 else 0
  let part := bits ttr2 57 52
  let w : WalkCtx := ⟨th, va, acc, pre, regimeTag low s2on part, asid, part⟩
  let excAddr : X Xl := X.stop (.exc (if acc = .fetch then 0x0103 else 0x0303) va acc.isWr none)
  match m.window th with
  | some (base, size, csize, vbase) =>
    if vbase ≤ va ∧ va < vbase + size then
      if acc = .fetch then
        if va < vbase + csize then pure ⟨base + (va - vbase), false, false, true⟩ else X.stop (.encl 0x11 va)
      else if acc.isWr ∧ va < vbase + csize then X.stop (.encl 0x12 va)
      else pure ⟨base + (va - vbase), false, false, true⟩
    else if acc = .fetch then X.stop (.encl 0x11 va)
    else rest m w psw ttr2 root low s2on excAddr
  | none => rest m w psw ttr2 root low s2on excAddr
where
  rest (m : Mach) (w : WalkCtx) (psw ttr2 root : Nat) (low s2on : Bool) (excAddr : X Xl) : X Xl := do
    let kind := w.acc.kind
    if !bit psw 4 then
      if w.va ≥ 2 ^ 52 then excAddr
      else if !s2on then pure ⟨w.va, false, true, false⟩
      else
        match (m.core (w.th / 2)).tlb.find? fun e => e.covers 0 true true w.part 0 (w.va / 4096) && e.serves w.acc w.bitsFor false false true with
        | some e =>
          match e.refuses w.acc false false true with
          | some (_, r) => fault2 w r e.lvl2 w.va kind 0
          | none => pure ⟨leafOut e.leaf2 e.lvl2 w.va, bit e.leaf2 11, bit e.leaf2 10, false⟩
        | none => do
          let (l, lv, la, f) ← walkRoot2 w ⟨[], []⟩ ttr2 w.va kind 0
          let n := leafPages l lv
          let pa := leafOut l lv w.va
          let e : TlbE := ⟨0, true, w.part, 0, false, true, w.va / 4096 / n * n, n, pa / 4096, w.va / 4096, 0, l, 0, lv⟩
          match e.refuses w.acc false false true with
          | some (_, r) => do
            X.modify (·.fillTlb (w.th / 2) e f)
            fault2 w r lv w.va kind 0
          | none => do
            if withAD l w.bitsFor != l then setAD w la l (withAD l w.bitsFor)
            X.modify (·.fillTlb (w.th / 2) e f)
            pure ⟨pa, bit l 11, bit l 10, false⟩
    else
      let d := lvDepth (bits root 1 0)
      if d = 0 then X.exc 0x020D 0
      else if !m.acceptsLv (bits root 1 0) then X.exc 0x020D (bits root 51 12 * 4096)
      else if !canonical w.va (vaBits d) then excAddr
      else
        let isP := bits psw 1 0 == 0
        let regime := if low then 0 else 1
        match (m.core (w.th / 2)).tlb.find? fun e => e.covers regime s2on false w.part w.asid (w.va / 4096) && e.serves w.acc w.bitsFor isP true s2on with
        | some e =>
          let gpa := leafOut e.leaf1 e.lvl1 w.va
          match e.refuses w.acc isP true s2on with
          | some (false, r) => fault1 w r e.lvl1
          | some (true, r) => fault2 w r e.lvl2 gpa kind 0
          | none =>
            if s2on then pure ⟨leafOut e.leaf2 e.lvl2 gpa, bit e.leaf1 11 || bit e.leaf2 11, bit e.leaf2 10, false⟩
            else pure ⟨gpa, bit e.leaf1 11, bit e.leaf1 10, false⟩
        | none => do
          let (l1, lv1, ga, la1, f) ← walk1 w ⟨[], []⟩ ttr2 (bits root 51 12 * 4096) (!s2on) d d
          let gpa := leafOut l1 lv1 w.va
          let (l2, lv2, la2, f) ← if s2on then walkRoot2 w f ttr2 gpa kind 0 else pure (0, 0, 0, f)
          let pages := if s2on then min (leafPages l1 lv1) (leafPages l2 lv2) else leafPages l1 lv1
          let pa := if s2on then leafOut l2 lv2 gpa else gpa
          let e : TlbE := ⟨regime, s2on, w.part, w.asid, low && bit l1 6, false, w.va / 4096 / pages * pages, pages, pa / 4096, gpa / 4096, l1, l2, lv1, lv2⟩
          match e.refuses w.acc isP true s2on with
          | some (s2, r) => do
            X.modify (·.fillTlb (w.th / 2) e f)
            if s2 then fault2 w r lv2 gpa kind 0 else fault1 w r lv1
          | none => do
            if s2on && withAD l2 w.bitsFor != l2 then setAD w la2 l2 (withAD l2 w.bitsFor)
            if withAD l1 w.bitsFor != l1 then
              let (la, _) ← if s2on then tableAddr w f ttr2 ga 6 lv1 .store else pure (la1, f)
              setAD w la l1 (withAD l1 w.bitsFor)
            X.modify (·.fillTlb (w.th / 2) e f)
            pure ⟨pa, bit l1 11 || (s2on && bit l2 11), if s2on then bit l2 10 else bit l1 10, false⟩

/-- Translate one access of a thread. -/
def translate (th va : Nat) (acc : Acc) : X Xl := translateFor false th va acc

end Sys2Proof.Machine
end

