-- ==== Sys2Proof/Machine/Thread.lean ====
section
/-! DEFINITION. The thread: register access, checkpoints and commit (spec/05), taking an interruption and returning from one
(spec/03, R102 to R116), enclave exits (R114, R366), loop stepping (R97), and the frame in which every instruction runs. -/

namespace Sys2Proof.Machine

/-! ### Registers -/

/-- g[r]; g0 reads as zero (R73). -/
def Arch.gr (a : Arch) (r : Nat) : W64 := if r = 0 then 0 else tget a.g r 0
/-- Write g[r]; a write to g0 is discarded (R73). -/
def Arch.setG (a : Arch) (r : Nat) (v : W64) : Arch := if r = 0 then a else { a with g := tset a.g r v }
def Arch.fr (a : Arch) (r : Nat) : W64 := tget a.f r 0
def Arch.setF (a : Arch) (r : Nat) (v : W64) : Arch := { a with f := tset a.f r v }

/-- Fields of `psw` (Table 3.7). -/
def Arch.pswF (a : Arch) (hi lo : Nat) : Nat := bits a.psw.toNat hi lo
def Arch.setPsw (a : Arch) (hi lo v : Nat) : Arch := { a with psw := BitVec.ofNat 64 (setBits a.psw.toNat hi lo v) }
def Arch.pl (a : Arch) : Nat := a.pswF 1 0
def Arch.cc (a : Arch) : Nat := a.pswF 17 16
def Arch.setCc (a : Arch) (v : Nat) : Arch := a.setPsw 17 16 v

/-! ### Commit (R149 to R154) -/

/-- Whether a thread counts as running for the shares of R149. -/
def Thread.runs (t : Thread) : Bool :=
  match t.run with
  | .placed _ => t.wait != .waitInsn
  | .physical => t.wait != .waitInsn
  | _ => false

/-- The record of a core check (Table 5.11). -/
def Mach.coreErr (m : Mach) (c code thread attempts ninstr outcome : Nat) (both : Bool) : Mach :=
  m.sets [(R.core_err_tod c, m.tod / 256), (R.core_err_new c, 1), (R.core_err_ninstr c, ninstr), (R.core_err_both c, b2n both),
    (R.core_err_thread c, thread), (R.core_err_attempts c, attempts), (R.core_err_outcome c, outcome), (R.core_err_code c, code)]

/-- `core.state.episode` shows whether a thread of the core is in an episode. -/
def Mach.showEpisode (m : Mach) (c : Nat) : Mach :=
  m.set (R.core_state_episode c) (b2n ((m.th (2 * c)).ep.isSome || (m.th (2 * c + 1)).ep.isSome))

/-- A success of an episode (R165, R167): counted, reported with outcome 2, the other thread resumed, reloaded marks cleared (R195). -/
def Mach.episodeDone (m : Mach) (th : Nat) : Mach :=
  let c := th / 2
  match (m.th th).ep with
  | none => m
  | some ep =>
    let m := m.onTh th fun t => { t with ep := none, serial := false }
    let m := m.onTh (2 * c + 1 - th % 2) fun t => { t with paused := false }
    let m := m.onCore c fun k => { k with relMarks := [] }
    let m := ((m.count (R.core_rty_ok c)).showEpisode c).coreErr c ep.code (th % 2) ep.attempts ep.n 2 ep.both
    m.raiseCore c 13 (m.word (R.core_err c)) (some th)

/-- The oldest checkpoint commits (R152): its results become architected, its stores enter the store buffer or the combining buffer.
None when the store buffer has no room (an empty one takes any checkpoint, log entry 12), when a non-temporal store has to wait for an earlier buffered
store to its line (R247), or when no line of the combining buffer can be written out for it (R276). -/
def Mach.commitOldest (m : Mach) (th : Nat) : Option Mach :=
  let t := m.th th
  match t.win with
  | [] => none
  | k :: rest =>
    let nt := fun (e : StoreE) => e.nt && !m.modeM5
    let norm := k.stores.filter fun e => !nt e
    let ntl := k.stores.filter nt
    if t.sbuf != [] && decide (t.sbuf.length + norm.length > 64) then none
    else if ntl.any fun e => (t.sbuf ++ norm).any fun y => y.pa / 256 == e.pa / 256 then none
    else if ntl != [] && decide (16 ≤ ((m.core (th / 2)).comb.filter fun y => (m.core (th / 2)).asks y.line).length) then none
    else
      let m := m.setTh th { t with com := k.fin, win := rest, sbuf := t.sbuf ++ norm }
      let m := ntl.foldl (fun m e => m.combStore th e) m
      match t.ep with
      | none => some m
      | some ep =>
        let ep := { ep with done := ep.done + k.n }
        let m := m.onTh th fun t => { t with ep := some ep }
        some (if ep.n ≤ ep.done then m.episodeDone th else m)

/-- Commit every checkpoint of a thread, oldest first; none when one has to wait. -/
def Mach.commitAll (m : Mach) (th : Nat) : Nat → Option Mach
  | 0 => some m
  | n + 1 =>
    if (m.th th).win = [] then some m
    else match m.commitOldest th with
      | none => none
      | some m' => m'.commitAll th n

/-- Discard every unretired checkpoint (R155): the registers return to the commit copy. -/
def Thread.discard (t : Thread) : Thread := { t with cur := t.com, win := [] }

/-! ### Enclave exits -/

def zeroRegs (a : Arch) : Arch := { a with g := [], f := [], lsa := [], lea := [], lct := [] }

/-- Record a Grotto error and raise its source (R375). -/
def Mach.grottoError (m : Mach) (code encl : Nat) : Mach :=
  let m := m.sets [(R.grotto_err_encl, encl), (R.grotto_err_new, 1), (R.grotto_err_code, code)]
  m.raise (2160 + (code - 0x80)) (m.word R.grotto_err)

/-- `grotto.frz` shows the freeze in force (R368). -/
def Mach.updFrz (m : Mach) : Mach :=
  let cores := (List.range 48).foldl (fun w c => if m.coreFrozen c then w ||| 2 ^ c else w) 0
  let tiers := (List.range 4).foldl (fun w s => if bits cores (12 * s + 11) (12 * s) != 0 then w ||| 2 ^ s else w) 0
  (m.set R.grotto_frz_cores cores).set R.grotto_frz_tiers tiers

def Mach.onCtx (m : Mach) (e c : Nat) (f : CtxSt × SaveFrame → CtxSt × SaveFrame) : Mach :=
  let x := tget m.grotto.encl e Enclave.init
  { m with grotto := { m.grotto with encl := tset m.grotto.encl e { x with ctxs := tset x.ctxs c (f (tget x.ctxs c (.idle, SaveFrame.init))) } } }

/-- Window entries of the translation cache go at every exit (R365); the cache holds none, since windows are not cached entries. -/
def Mach.leaveEncl (m : Mach) (th : Nat) (a : Arch) (link : Option Link) : Mach :=
  (m.onTh th fun t => { t with cur := a, encl := none, link := link }).updFrz

/-- The asynchronous exit (R114, R366): the context is saved and suspended, the link set, registers zeroed, `psw` restored; the resume
address is the `genter` address. -/
def Mach.asyncExit (m : Mach) (th : Nat) : Mach :=
  match (m.th th).encl with
  | none => m
  | some e =>
    let a := (m.th th).cur
    let m := m.onCtx e.encl e.ctx fun x =>
      (.suspended, { x.2 with g := a.g, f := a.f, lsa := a.lsa, lea := a.lea, lct := a.lct, psw := a.psw, fpsr := a.fpsr, ia := a.ia })
    m.leaveEncl th { zeroRegs a with psw := e.psw, ia := e.gaddr } (some ⟨e.encl, e.ctx⟩)

/-- The fault exit (R366): reason and address recorded in the save frame, registers zeroed, cc 2, the reason in the `genter`'s g[t], and
execution at the return address. -/
def Mach.faultExit (m : Mach) (th reason addr : Nat) : Mach :=
  match (m.th th).encl with
  | none => m
  | some e =>
    let a := (m.th th).cur
    let m := m.onCtx e.encl e.ctx fun x => (.idle, { x.2 with reason := reason, addr := BitVec.ofNat 64 addr })
    let b := (({ zeroRegs a with psw := e.psw, ia := e.gaddr + 4 } : Arch).setCc 2).setG e.t (BitVec.ofNat 64 reason)
    (m.leaveEncl th b (m.th th).link).grottoError 0x84 e.encl

/-- The isolation exit of a thread (R373): registers zeroed and not saved, cc 2, g[t] 0x14. -/
def Mach.isolationExit (m : Mach) (th : Nat) : Mach :=
  match (m.th th).encl with
  | none => m
  | some e =>
    let a := (m.th th).com
    let m := m.onCtx e.encl e.ctx fun x => (.idle, x.2)
    let b := (({ zeroRegs a with psw := e.psw, ia := e.gaddr + 4 } : Arch).setCc 2).setG e.t 0x14
    (m.onTh th fun t => { t with win := [], com := b }).leaveEncl th b (m.th th).link

/-! ### Taking an interruption (R102 to R112, R155) -/

/-- Vector and class target of a code (Table 3.17); `phys` is an external interruption of the physical thread. -/
def vecOf (code : Nat) : Nat := code / 256
def classOf (code : Nat) (phys : Bool) : Nat :=
  if code = 0x0001 then 3 else if code / 256 = 4 ∨ code / 256 = 6 then 2 else if code / 256 = 7 then 3
  else if code = 0x0901 ∧ phys then 2 else 1

/-- `ecode_L` (Table 3.18). -/
def ecodeWord (code pl enc lvl ilen wr s2 prec : Nat) : Nat :=
  pl <<< 29 ||| enc <<< 28 ||| lvl <<< 25 ||| ilen <<< 23 ||| wr <<< 22 ||| s2 <<< 21 ||| prec <<< 20 ||| vecOf code <<< 16 ||| code

/-- The entry of R104 on one architected state: the status saved, the saved address, code and event address written, the new status, the
handler's address. -/
def Arch.enter (a : Arch) (L code eaddr : Nat) (sia ecode : W64) : Arch :=
  let b := { a with
    spsw := tset a.spsw L a.psw, sia := tset a.sia L sia, ecode := tset a.ecode L ecode,
    eaddr := tset a.eaddr L (BitVec.ofNat 64 eaddr) }
  let ivb := (tget a.ivb L 0).toNat
  let b := ((((b.setPsw 1 0 L).setPsw 2 2 0).setPsw 4 4 (bits ivb 0 0)).setPsw 6 5 0).setPsw 23 20 0
  let b := if code = 0x0001 then b.setPsw 7 7 1 else b
  { b with ia := BitVec.ofNat 64 (bits ivb 63 12 * 4096 + 0x100 * vecOf code), resv := none }

/-- What an interruption is taken with. -/
structure Intr where
  code : Nat
  eaddr : Nat
  sia : W64
  ilen : Nat
  wr : Bool
  prec : Bool
  phys : Bool
  tfd : Option Tfd
deriving DecidableEq, Repr

/-- Take an interruption on a thread whose unretired work is gone (R104): the enclave is left first (R114), the target level is the higher of
class and current (R105), reservations are lost, the streaming-store count restarts (R244), and a translation fault is recorded (R227). -/
def Mach.interrupt (m : Mach) (th : Nat) (i : Intr) : Mach :=
  let a0 := (m.th th).cur
  let encl := (m.th th).encl.isSome
  let hide := encl && (match m.window th with
    | some (_, size, _, vbase) => decide (vbase ≤ i.eaddr) && decide (i.eaddr < vbase + size)
    | none => false) && (i.code / 256 == 1 || i.code / 256 == 3 || i.code == 0x0204 || i.code == 0x0209 || i.code == 0x0802)
  let eaddr := if hide then 0 else i.eaddr
  let m := m.asyncExit th
  let a := (m.th th).cur
  let sia := if encl then a.ia else i.sia
  let L := max (classOf i.code i.phys) a0.pl
  let lvl := match i.tfd with | some f => f.lvl | none => 0
  let s2 := match i.tfd with | some f => b2n f.s2 | none => 0
  let ec := BitVec.ofNat 64 (ecodeWord i.code a0.pl (b2n encl) lvl i.ilen (b2n i.wr) s2 (b2n i.prec))
  let b := a.enter L i.code eaddr sia ec
  let m := m.onTh th fun t => { t with cur := b, com := b, win := [], det := { t.det with cnt := 0 }, wait := .none, got := [], adWait := none, seen := [] }
  match i.tfd with
  | none => m
  | some f =>
    let c := th / 2
    let h := th % 2
    m.sets [(R.core_tfd_new c h, 1), (R.core_tfd_s1lvl c h, f.s1lvl), (R.core_tfd_lvl c h, f.lvl), (R.core_tfd_kind c h, f.kind),
      (R.core_tfd_s2 c h, b2n f.s2), (R.core_tfd_reason c h, f.reason), (R.core_tfa_va c h, f.va)]

/-! ### Debug stops (R609, R610): `Thread.dbg` is 0 none, 1 stopped, 2 stepping, 3 stopping, 4 stepped with commits to come -/

/-- The result of a debug command of the thread that 0x2800.1 names. -/
def Mach.dbgResult (m : Mach) (th r : Nat) : Mach :=
  if th = tget m.od.objs 0x280001 0 then { m with od := { m.od with dbg := r } } else m

/-- A debug stop of a thread ends (R610). -/
def Mach.endStop (m : Mach) (th result : Nat) : Mach :=
  if (m.th th).dbg = 0 then m else (m.onTh th fun t => { t with dbg := 0 }).dbgResult th result

/-- The non-invasive and the invasive enable of the world of a thread (R369, R609): its enclave's, the firmware's or the normal world's. -/
def Mach.worldDebug (m : Mach) (th : Nat) : Bool × Bool :=
  match (m.th th).encl with
  | some e => (e.ni, e.ni && e.inv)
  | none =>
    if (m.th th).cur.pl = 3 then (m.on R.grotto_dbg_f_ni, m.on R.grotto_dbg_f_ni && m.on R.grotto_dbg_f_inv)
    else (m.on R.grotto_dbg_n_ni, m.on R.grotto_dbg_n_ni && m.on R.grotto_dbg_n_inv)

/-- R156: every checkpoint but the oldest is discarded, and that one commits. -/
def Mach.toBoundary (m : Mach) (th : Nat) : Option Mach :=
  match (m.th th).win with
  | [] => some m
  | k :: _ => (m.onTh th fun t => { t with win := [{ k with closed := true }], cur := k.fin }).commitOldest th

/-- A stop takes effect at a commit boundary at which the world's invasive enable is set, outside an episode (R609, R610). -/
def Mach.tryStop (m : Mach) (th : Nat) : Mach :=
  let t := m.th th
  let stop := fun (m : Mach) => (m.onTh th fun t => { t with dbg := 1 }).dbgResult th 1
  if t.dbg = 4 then (if t.win = [] then stop m else m)
  else if t.dbg ≠ 3 ∨ t.ep.isSome ∨ !(t.wait == .none || t.wait == .waitInsn) ∨ !t.got.isEmpty ∨ (m.core (th / 2)).swap.isSome then m
  else match m.toBoundary th with
    | none => m
    | some m' => if (m'.worldDebug th).2 then stop m' else m

/-- The end of a step: the instruction has completed or been interrupted, and its checkpoints commit. -/
def Mach.stepEnd (m : Mach) (th : Nat) : Mach :=
  if (m.th th).dbg = 2 then
    (let m := m.onTh th fun t => { t with dbg := 4 }
     ((m.commitAll th 40).getD m).tryStop th)
  else m

/-! ### Machine checks -/

/-- A precise machine check of a thread (R112, R323): with a handler active the thread stops and source k = 27 is raised. -/
def Mach.machineCheck (m : Mach) (th src : Nat) (prec : Bool) (ilen : Nat := 0) : Mach :=
  let m := if (m.th th).dbg = 1 ∨ (m.th th).dbg = 2 then m.endStop th 3 else m
  if (m.th th).cur.pswF 7 7 = 1 then
    (m.onTh th fun t => { t.discard with run := .stopped }).raiseCore (th / 2) 27 0 (some th)
  else m.interrupt th ⟨0x0001, src, (m.th th).cur.ia, ilen, false, prec, false, none⟩

/-! ### Loop stepping (R96 to R99) -/

/-- Levels n-1 down to 0 for an instruction whose last word is at E (R97). -/
def Arch.stepLoops (a : Arch) (E next : W64) : Nat → Arch
  | 0 => { a with ia := next }
  | n + 1 =>
    if a.pswF (20 + n) (20 + n) = 1 ∧ tget a.lea n 0 = E then
      if (tget a.lct n 0).toNat ≤ 1 then
        (({ a with lct := tset a.lct n 0 } : Arch).setPsw (20 + n) (20 + n) 0).stepLoops E next n
      else { a with lct := tset a.lct n (tget a.lct n 0 - 1), ia := tget a.lsa n 0 }
    else a.stepLoops E next n

/-! ### The frame of an instruction -/

/-- Where an instruction leaves the address: on through the loop levels, at a target, or still on itself (R90). -/
inductive Next where
  | seq | jump (a : W64) | stay
deriving DecidableEq, Repr

/-- What a completed attempt leaves: the next address, its stores, and a trap with its event address. -/
structure Done where
  next : Next
  stores : List StoreE
  trap : Option (Nat × Nat)
deriving DecidableEq, Repr

def Done.plain : Done := ⟨.seq, [], none⟩

/-- How an instruction enters the window: its word, length in bytes, micro-operations, whether it forms a checkpoint alone (Table 5.1), whether it
is performed only when its checkpoint is the oldest and commits with it (R154), whether it ends its checkpoint (R151), and whether it runs in
microcode (Table 6.2). -/
structure Shape where
  word : Nat
  len : Nat
  uops : Nat
  alone : Bool
  sync : Bool
  last : Bool
  micro : Bool
deriving DecidableEq, Repr

def Shape.simple (word : Nat) : Shape := ⟨word, 4, 1, false, false, false, false⟩
def Shape.alone_ (word : Nat) : Shape := ⟨word, 4, 1, true, false, false, false⟩
def Shape.sync_ (word : Nat) : Shape := ⟨word, 4, 1, true, true, false, false⟩
def Shape.micro_ (word : Nat) : Shape := ⟨word, 4, 1, true, true, false, true⟩
def Shape.atomic (word uops : Nat) : Shape := ⟨word, 4, uops, false, true, true, false⟩
def Shape.wform (word : Nat) : Shape := ⟨word, 8, 64, true, false, false, true⟩
def Shape.string (word : Nat) : Shape := ⟨word, 4, 64, true, false, false, true⟩

/-- Whether a thread executes instructions now. -/
def Mach.executes (m : Mach) (th : Nat) : Bool :=
  let t := m.th th
  let k := m.core (th / 2)
  !m.frozen && t.runs && (t.wait == .none) && !t.paused && !t.runAhead && (t.dbg == 0 || t.dbg == 2 || t.dbg == 3) && k.swap.isNone && !k.flushing
    && k.park == .running

/-- Shares of the window (R149): checkpoints and micro-operations. -/
def Mach.share (m : Mach) (th : Nat) : Nat × Nat :=
  if (m.th (2 * (th / 2) + 1 - th % 2)).runs then (24, 1536) else (32, 2048)

/-- The instruction enters the open checkpoint, or a new one (R151); none when the thread's share is full, or while a patch image is being applied
and the instruction runs in microcode (R202). -/
def Mach.takeIn (m : Mach) (th : Nat) (sh : Shape) : Option (Option Ckpt × List Ckpt) :=
  let t := m.th th
  let alone := sh.alone || t.serial
  let (mc, mu) := m.share th
  let used := t.win.foldl (fun n k => n + k.uops) 0
  let fresh : Option (Option Ckpt × List Ckpt) :=
    if t.win.length < mc ∧ used + sh.uops ≤ mu then some (none, t.win) else none
  if m.patchIn.isSome && sh.micro then none
  else match t.win.getLast? with
  | none => fresh
  | some k =>
    if alone || k.closed || decide (64 ≤ k.n) then fresh
    else if used + sh.uops ≤ mu then some (some k, t.win.dropLast) else none

/-- The fetch of an instruction word (R81, R214, R215, R230, R263, R267): the address is translated for a fetch, its final address is no uncached space and
reachable by the thread's level, and its line is used through the L1 instruction cache and the L2. The word itself is the command's. -/
def fetchCheck (th : Nat) (ia : Nat) : X Unit := do
  let x ← translate th ia .fetch
  let m ← X.mach
  if m.uncached x.pa then X.exc 0x0103 ia
  else if m.inScratch th x.pa then pure ()
  else if !x.cmp && (m.apOf x.pa).isSome then do
    X.modify (·.cisError 0x76 (x.pa / 4096))
    X.stop (.mck 2150)
  else if m.threadMay (m.th th).cur.pl x.window x.pa then do
    let u := LineUse.fetch ia x.pa
    let _ ← useBy (if x.nc then { u with l1 := none, feeds := false } else u) th (x.pa / 256) false .demand
  else do
    X.modify (·.rgnRefused x.pa true)
    X.modify (·.raiseCore (th / 2) 28 0 (some th))
    X.stop (.mck (32 * (th / 2) + 28))

/-- Whether debug traps are allowed in the enclave that a thread runs (R115). -/
def Mach.debugTraps (m : Mach) (th : Nat) : Bool :=
  match (m.th th).encl with
  | none => true
  | some e => e.ni && e.inv

/-- A completed attempt: the loop levels step unless control is transferred, the instruction joins the window, an instruction of R154 commits at once,
and a trap or the single step is taken at the boundary after it (R98, R102, R110). -/
def Mach.complete (m : Mach) (th : Nat) (sh : Shape) (a0 : Arch) (d : Done) : Option Mach :=
  let sh : Shape := if (m.th th).nowSync then { sh with alone := true, sync := true } else sh
  match m.takeIn th sh with
  | none => none
  | some (openK, older) =>
    let t := { m.th th with nowSync := false, got := [], seen := [] }
    let E := a0.ia + BitVec.ofNat 64 (sh.len - 4)
    let cur := match d.next with
      | .seq => t.cur.stepLoops E (E + 4) 4
      | .jump x => { t.cur with ia := x }
      | .stay => { t.cur with ia := a0.ia }
    let alone := sh.alone || t.serial
    let k : Ckpt := match openK with
      | none => ⟨1, sh.uops, alone || sh.last, d.stores, cur⟩
      | some k => ⟨k.n + 1, k.uops + sh.uops, sh.last, k.stores ++ d.stores, cur⟩
    let m := m.setTh th { t with cur := cur, win := older ++ [k] }
    let stepTrap := a0.pswF 6 6 = 1 ∧ m.debugTraps th ∧ d.next ≠ .stay
    match d.trap with
    | some (code, eaddr) =>
      (m.commitAll th 40).map fun m => m.interrupt th ⟨code, eaddr, cur.ia, sh.len / 4, false, true, false, none⟩
    | none =>
      if stepTrap then
        (m.commitAll th 40).map fun m => m.interrupt th ⟨0x0802, a0.ia.toNat, cur.ia, sh.len / 4, false, true, false, none⟩
      else if sh.sync then m.commitAll th 40
      else some m

/-- Run one instruction of a thread: fetch checks, the body, and its completion, its fault at the boundary before it (R155), its machine check, or
its wait. -/
def Mach.runInsn (m : Mach) (th : Nat) (sh : Shape) (body : X Done) : Mach :=
  let m := if m.frozen then m else m.tryStop th
  if !m.executes th then m
  else
    let a0 := (m.th th).cur
    let pre : Option Mach := if sh.sync then m.commitAll th 40 else some m
    match pre with
    | none => m
    | some m =>
      if (m.takeIn th sh).isNone then m
      else
        let prog : X Done := do
          fetchCheck th a0.ia.toNat
          if sh.len = 8 then fetchCheck th (a0.ia + 4).toNat
          body
        let back (m : Mach) : Mach := m.onTh th fun t => { t with cur := a0, nowSync := false }
        match prog (m.onTh th fun t => { t with gotIx := 0 }) with
        | .ok d m' =>
          match m'.complete th sh a0 d with
          | some m'' => m''.stepEnd th
          | none => back m'
        | .error .wait m' => back m'
        | .error (.exc code eaddr wr rec) m' =>
          match (back m').commitAll th 40 with
          | some m'' => (m''.interrupt th ⟨code, eaddr, a0.ia, sh.len / 4, wr, true, false, rec⟩).stepEnd th
          | none => back m'
        | .error (.mck src) m' =>
          match (back m').commitAll th 40 with
          | some m'' => m''.machineCheck th src true (sh.len / 4)
          | none => back m'
        | .error (.encl reason addr) m' =>
          match (back m').commitAll th 40 with
          | some m'' =>
            let m3 := m''.faultExit th reason addr
            (m3.onTh th fun t => { t with com := t.cur, win := [] }).stepEnd th
          | none => back m'

/-- Read and change the current registers of a thread. -/
def X.regs (th : Nat) : X Arch := do let m ← X.mach; pure (m.th th).cur
def X.upd (th : Nat) (f : Arch → Arch) : X Unit := X.modify (·.onTh th fun t => { t with cur := f t.cur })

/-- Fields that must be zero raise the specification exception (R83), whose event address is the instruction's first word. -/
def X.spec (word : Nat) (ok : Bool) : X Unit := X.need ok (.exc 0x0203 (if word < 2 ^ 32 then word else word / 2 ^ 32) false none)
def X.priv (word : Nat) (ok : Bool) : X Unit := X.need ok (.exc 0x0202 word false none)
def X.oper (word : Nat) (ok : Bool) : X Unit := X.need ok (.exc 0x0201 word false none)

end Sys2Proof.Machine
end

