-- ==== Sys2Proof/Machine/System.lean ====
section
/-! DEFINITION. System functions and special registers (spec/03, R91 to R116): calls, return, fences, `wait`, and the taking of
pending external interruptions and machine checks. -/

namespace Sys2Proof.Machine

/-! ### Special registers (Table 3.6) -/

/-- The lowest level that reaches a special register, if it is listed. -/
def srLevel (sr : Nat) : Option Nat :=
  if sr = 0 ∨ (8 ≤ sr ∧ sr < 0x1C) then some 0
  else if 0x40 ≤ sr ∧ sr ≤ 0x66 ∧ sr % 16 ≤ 6 then some (sr / 16 - 3)
  else none

/-- The feature words in the current mode (R101, Tables 3.10 to 3.15). -/
def Mach.feat (m : Mach) (i : Nat) : Nat :=
  let b := m.baseMode
  match i with
  | 0 => 0x02 <<< 56 ||| b2n m.modeM5 <<< 8 ||| (if b = 2 then 1 else 2) <<< 2 ||| b2n (b == 3) <<< 1
  | 1 => 0x34 <<< 16 ||| 1 <<< 8 ||| 0x70 ||| b2n (!m.modeM5) <<< 2 ||| 2 ||| b2n (!m.modeM5)
  | 2 => 0x0080008010000008
  | 3 => 0x18 ||| b2n (!m.modeM5) <<< 2 ||| b2n (!m.modeM5) <<< 1 ||| b2n m.modeM5
  | 4 => 0x40F
  | _ => 0

/-- Writable bits of `psw` by `mtsr` (R94), the bits that `rfi` takes from a saved `psw`, whose other bits are kept as written (R95, R113), and the
writable bits of `ecode_L` (Table 3.18). -/
def pswMask : Nat := 0xE0F300F0
def spswMask : Nat := 0xE0F300F7
def ecodeMask : Nat := 0x7FFFFFFF

/-- The value of a listed special register. -/
def Mach.srRead (m : Mach) (a : Arch) (sr : Nat) : W64 :=
  let L := sr / 16 - 3
  if sr = 0 then a.psw
  else if sr < 0x10 then BitVec.ofNat 64 (m.feat (sr - 8))
  else if sr < 0x14 then tget a.lsa (sr - 0x10) 0
  else if sr < 0x18 then tget a.lea (sr - 0x14) 0
  else if sr < 0x1C then tget a.lct (sr - 0x18) 0
  else match sr % 16 with
    | 0 => tget a.spsw L 0
    | 1 => tget a.sia L 0
    | 2 => tget a.ecode L 0x100000
    | 3 => tget a.eaddr L 0
    | 4 => tget a.ivb L 0
    | 5 => tget a.scr0 L 0
    | _ => tget a.scr1 L 0

/-- Write a listed special register other than `psw`; a feature word ignores the write (R92), a loop count sets its active bit (R99). -/
def Arch.srWrite (a : Arch) (sr : Nat) (v : W64) : Arch :=
  let L := sr / 16 - 3
  if sr < 0x10 then a
  else if sr < 0x14 then { a with lsa := tset a.lsa (sr - 0x10) (v &&& ~~~3) }
  else if sr < 0x18 then { a with lea := tset a.lea (sr - 0x14) (v &&& ~~~3) }
  else if sr < 0x1C then
    ({ a with lct := tset a.lct (sr - 0x18) v } : Arch).setPsw (20 + (sr - 0x18)) (20 + (sr - 0x18)) (if v = 0 then 0 else 1)
  else match sr % 16 with
    | 0 => { a with spsw := tset a.spsw L v }
    | 1 => { a with sia := tset a.sia L v }
    | 2 => { a with ecode := tset a.ecode L (v &&& BitVec.ofNat 64 ecodeMask) }
    | 3 => { a with eaddr := tset a.eaddr L v }
    | 4 => { a with ivb := tset a.ivb L (v &&& 0xFFFFFFFFFFFFF001) }
    | 5 => { a with scr0 := tset a.scr0 L v }
    | _ => { a with scr1 := tset a.scr1 L v }

/-- The `psw` that a `mtsr psw` leaves. -/
def pswNew (old v : W64) : W64 := (old &&& ~~~(BitVec.ofNat 64 pswMask)) ||| (v &&& BitVec.ofNat 64 pswMask)

/-- Whether a `mtsr psw` is refused at a level (R94). -/
def pswDenied (pl : Nat) (old v : W64) : Bool :=
  let d := (old ^^^ pswNew old v).toNat
  (pl == 0 && bits d 7 4 != 0) || (decide (pl < 3) && bit d 7)

/-! ### The frame of a system function -/

/-- Word of a system function. -/
def sysWord (i : FS) (fn : Nat) : Nat := encS 0x30 i.t i.a i.sr fn

/-- The checks of R91: lowest level, then unused fields zero. -/
def sysCheck (i : FS) (fn lvl : Nat) (ok : Bool) : X Unit := do
  let r ← X.regs i.th
  X.priv (sysWord i fn) (decide (lvl ≤ r.pl))
  X.spec (sysWord i fn) ok

/-- Run a system function of a shape. -/
def sysInsn (i : FS) (sh : Shape) (body : X Done) (s : State) : Host.Outcome State Fault Refusal :=
  ans i.wf s fun m => m.runInsn i.th sh body

/-- `mfsr` (R92). -/
def execMfsr (i : FS) (s : State) : Host.Outcome State Fault Refusal :=
  sysInsn i (Shape.simple (sysWord i 0x00)) (do
    let r ← X.regs i.th
    X.priv (sysWord i 0x00) (decide ((srLevel i.sr).getD 0 ≤ r.pl))
    X.spec (sysWord i 0x00) (i.a == 0 && (srLevel i.sr).isSome)
    let m ← X.mach
    X.upd i.th (·.setG i.t (m.srRead r i.sr))
    pure Done.plain) s

/-- `mtsr` (R92, R94, R99). -/
def execMtsr (i : FS) (s : State) : Host.Outcome State Fault Refusal :=
  sysInsn i (Shape.alone_ (sysWord i 0x01)) (do
    let r ← X.regs i.th
    let v := r.gr i.a
    X.priv (sysWord i 0x01) (decide ((srLevel i.sr).getD 0 ≤ r.pl) && !(i.sr == 0 && pswDenied r.pl r.psw v))
    X.spec (sysWord i 0x01) (i.t == 0 && (srLevel i.sr).isSome)
    X.upd i.th fun x => if i.sr = 0 then { x with psw := pswNew x.psw v } else x.srWrite i.sr v
    pure Done.plain) s

/-- A call: a trap with its code as the event address (Table 3.4, Table 3.17). -/
def callInsn (i : FS) (fn lvl code : Nat) (s : State) : Host.Outcome State Fault Refusal :=
  sysInsn i (Shape.alone_ (sysWord i fn)) (do
    sysCheck i fn lvl (i.t == 0 && i.a == 0)
    pure ⟨.seq, [], some (code, i.sr)⟩) s

/-- `svc`. -/
def execSvc (i : FS) (s : State) : Host.Outcome State Fault Refusal := callInsn i 0x02 0 0x0501 s
/-- `hvc`. -/
def execHvc (i : FS) (s : State) : Host.Outcome State Fault Refusal := callInsn i 0x03 1 0x0601 s
/-- `fwc`. -/
def execFwc (i : FS) (s : State) : Host.Outcome State Fault Refusal := callInsn i 0x04 2 0x0701 s

/-- `brk`: suppressed in an enclave unless debug allows it (R115). -/
def execBrk (i : FS) (s : State) : Host.Outcome State Fault Refusal :=
  sysInsn i (Shape.alone_ (sysWord i 0x0C)) (do
    sysCheck i 0x0C 0 (i.t == 0 && i.a == 0)
    let m ← X.mach
    pure ⟨.seq, [], if m.debugTraps i.th then some (0x0801, i.sr) else none⟩) s

/-- `rfi` (R113): the saved status and address of the current level are restored. -/
def execRfi (i : FS) (s : State) : Host.Outcome State Fault Refusal :=
  sysInsn i (Shape.alone_ (sysWord i 0x05)) (do
    sysCheck i 0x05 1 (i.t == 0 && i.a == 0 && i.sr == 0)
    let r ← X.regs i.th
    let sp := (tget r.spsw r.pl 0).toNat
    let ia := tget r.sia r.pl 0
    X.priv (sysWord i 0x05) (decide (bits sp 1 0 ≤ r.pl) && !bit sp 2 && !(bit sp 7 && decide (r.pl < 3)))
    X.need (ia.toNat % 4 == 0) (.exc 0x0104 ia.toNat false none)
    X.upd i.th fun x => { x with psw := BitVec.ofNat 64 (sp &&& spswMask) }
    pure ⟨.jump ia, [], none⟩) s

/-! ### Fences (R254) -/

/-- Every earlier store of the thread has been performed and the combining buffer of its core is written out. -/
def drainStores (th : Nat) : X Unit := do
  X.modify (·.combFlush (th / 2))
  let m ← X.mach
  if m.storesDone th && (m.core (th / 2)).wpend.isEmpty then pure () else X.wait

/-- `fence.l`: loads are performed in program order by this model, so nothing is left to wait for. -/
def execFenceL (i : FS) (s : State) : Host.Outcome State Fault Refusal :=
  sysInsn i (Shape.simple (sysWord i 0x06)) (do
    sysCheck i 0x06 0 (i.t == 0 && i.a == 0 && i.sr == 0)
    pure Done.plain) s

/-- A fence over stores: it completes once every earlier store is performed; in M5 it is a no-op. -/
def fenceInsn (i : FS) (fn : Nat) (s : State) : Host.Outcome State Fault Refusal :=
  ans i.wf s fun m => m.runInsn i.th (if m.modeM5 then Shape.simple (sysWord i fn) else Shape.sync_ (sysWord i fn)) do
    sysCheck i fn 0 (i.t == 0 && i.a == 0 && i.sr == 0)
    let m ← X.mach
    if m.modeM5 then pure Done.plain
    else do
      drainStores i.th
      pure Done.plain

/-- `fence.s`. -/
def execFenceS (i : FS) (s : State) : Host.Outcome State Fault Refusal := fenceInsn i 0x07 s
/-- `fence.f`. -/
def execFenceF (i : FS) (s : State) : Host.Outcome State Fault Refusal := fenceInsn i 0x08 s

/-- `isync` (R93): the commands carry no instruction that was fetched ahead, so nothing is discarded. -/
def execIsync (i : FS) (s : State) : Host.Outcome State Fault Refusal :=
  sysInsn i (Shape.alone_ (sysWord i 0x09)) (do
    sysCheck i 0x09 0 (i.t == 0 && i.a == 0 && i.sr == 0)
    pure Done.plain) s

/-- `rdtod`. -/
def execRdtod (i : FS) (s : State) : Host.Outcome State Fault Refusal :=
  sysInsn i (Shape.simple (sysWord i 0x0B)) (do
    sysCheck i 0x0B 0 (i.a == 0 && i.sr == 0)
    let m ← X.mach
    X.upd i.th (·.setG i.t (BitVec.ofNat 64 m.tod))
    pure Done.plain) s

/-! ### Waiting and pending interruptions -/

/-- The virtual processor placed on a thread. -/
def Mach.vpOn (m : Mach) (th : Nat) : Option Nat :=
  match (m.th th).run with
  | .placed vp => some vp
  | _ => none

/-- The external interruption or wake that a thread would take now (R111, Table 3.20 row 10): code, and whether of the physical thread. -/
def Mach.pendingExt (m : Mach) (th : Nat) : Option (Nat × Bool) :=
  let t := m.th th
  let ie := t.cur.pswF 5 5 == 1
  if t.pendPhys && (ie || decide (t.cur.pl ≤ 1)) then some (0x0901, true)
  else match m.vpOn th with
    | none => none
    | some vp =>
      let x := tget m.vp vp VpX.init
      if ie && x.ext then some (0x0901, false) else if ie && x.wake then some (0x0902, false) else none

/-- Take a pending mark away. -/
def Mach.clearExt (m : Mach) (th : Nat) (code : Nat) (phys : Bool) : Mach :=
  if phys then m.onTh th fun t => { t with pendPhys := false }
  else match m.vpOn th with
    | none => m
    | some vp =>
      let x := tget m.vp vp VpX.init
      let x := if code = 0x0901 then { x with ext := false } else { x with wake := false }
      ({ m with vp := tset m.vp vp x } : Mach).set (R.casc_vp_st_pend vp) (b2n (x.ext || x.wake))

/-- Whether something is deliverable to a thread in `wait` (R116). -/
def Mach.deliverable (m : Mach) (th : Nat) : Bool := (m.pendingExt th).isSome || (m.th th).pendMck.isSome

/-- The state of a placed virtual processor as `casc.vp.st` reports it. -/
def Mach.vpState (m : Mach) (th st : Nat) : Mach :=
  match m.vpOn th with
  | some vp => m.set (R.casc_vp_st_state vp) st
  | none => m

/-- `wait` (R116, R557). -/
def waitBody (i : FS) : X Done := do
  sysCheck i 0x0A 1 (i.t == 0 && i.a == 0 && i.sr == 0)
  let r ← X.regs i.th
  let m ← X.mach
  if r.pswF 5 5 = 0 then
    X.upd i.th (·.setCc 3)
    pure Done.plain
  else if m.deliverable i.th then pure Done.plain
  else do
    X.modify fun m => (m.onTh i.th fun t => { t with wait := .waitInsn }).vpState i.th 4
    X.wait

def execWait (i : FS) (s : State) : Host.Outcome State Fault Refusal :=
  sysInsn i (Shape.alone_ (sysWord i 0x0A)) (waitBody i) s

/-- A thread in `wait` completes it once something is deliverable. -/
def Mach.waitWake (m : Mach) (th : Nat) : Mach :=
  if !m.frozen && (m.th th).wait == .waitInsn && m.deliverable th && (m.th th).dbg != 1 then
    ((m.onTh th fun t => { t with wait := .none }).vpState th 3).runInsn th (Shape.alone_ (sysWord ⟨th, 0, 0, 0⟩ 0x0A)) (waitBody ⟨th, 0, 0, 0⟩)
  else m

def execWaitWake (th : Nat) (s : State) : Host.Outcome State Fault Refusal :=
  ans (decide (th < 96)) s (·.waitWake th)

/-- Whether a thread is at a point where it can take an interruption between instructions: outside an episode (R168) and a debug stop (R610). -/
def Mach.interruptible (m : Mach) (th : Nat) : Bool :=
  !m.frozen && (m.th th).runs && (m.th th).wait == .none && (m.th th).got.isEmpty && (m.core (th / 2)).swap.isNone && (m.th th).ep.isNone
    && ((m.th th).dbg == 0 || (m.th th).dbg == 3)

/-- A pending external interruption is taken at the boundary of R156, if it is deliverable there. -/
def execExternalInterruption (th : Nat) (s : State) : Host.Outcome State Fault Refusal :=
  ans (decide (th < 96)) s fun m =>
    if !m.interruptible th then m
    else match m.toBoundary th with
      | none => m
      | some m' =>
        match m'.pendingExt th with
        | none => m
        | some (code, phys) =>
          (m'.clearExt th code phys).interrupt th ⟨code, 0, (m'.th th).cur.ia, 0, false, true, phys, none⟩

/-- A pending machine check is taken at the boundary of R156, or stops the thread (R112); it ends a debug stop (R610). -/
def execMachineCheck (th : Nat) (s : State) : Host.Outcome State Fault Refusal :=
  ans (decide (th < 96)) s fun m =>
    let m := if !m.frozen && (m.th th).dbg == 1 && (m.th th).pendMck.isSome then m.endStop th 3 else m
    if !m.interruptible th then m
    else match (m.th th).pendMck, m.toBoundary th with
      | some (src, prec), some m' => (m'.onTh th fun t => { t with pendMck := none }).machineCheck th src prec
      | _, _ => m

end Sys2Proof.Machine
end

