-- ==== Sys2Proof/Machine/Frames.lean ====
section
/-! DEFINITION. Virtual processors (spec/21, R548 to R560): save frames, placement and leaving, pending marks, and the records of Cascade and
Weir (R571, R572). -/

namespace Sys2Proof.Machine

/-! ### Records and errors -/

/-- The Rill record of a Cascade or Weir code (R571). -/
def Mach.cwRecord (m : Mach) (code part vp value unit : Nat) : Mach :=
  if m.on R.casc_cfg_rill_en then
    m.stage 4 ⟨m.get R.casc_cfg_rill, 0x09, m.tod, [(0x10, 1, code), (0x11, 1, part), (0x12, 2, vp), (0x14, 4, value), (0x18, 2, unit)], 2, false, false⟩
  else m

/-- A Cascade code: recorded in `casc.err`. -/
def Mach.cascError (m : Mach) (code part vp value : Nat) : Mach :=
  let m := m.sets [(R.casc_err_part, part), (R.casc_err_vp, vp), (R.casc_err_new, 1), (R.casc_err_code, code)]
  (m.raise (3616 + (code - 0xF0)) (m.word R.casc_err)).cwRecord code part (if vp < 1024 then vp else 0xFFFF) value 0xFFFF

/-- A Weir code: recorded in `weir.err`. -/
def Mach.weirError (m : Mach) (code sensor core value unit : Nat) : Mach :=
  let m := m.sets [(R.weir_err_sensor, sensor), (R.weir_err_core, core), (R.weir_err_new, 1), (R.weir_err_code, code)]
  (m.raise (3616 + (code - 0xF0)) (m.word R.weir_err)).cwRecord code 0xFF 0xFFFF value unit

/-! ### States (Table 21.1) -/

def Mach.vpSt (m : Mach) (vp : Nat) : Nat := m.get (R.casc_vp_st_state vp)
def Mach.vpPart (m : Mach) (vp : Nat) : Nat := m.get (R.casc_vp_ctl_part vp)
def Mach.vpX (m : Mach) (vp : Nat) : VpX := tget m.vp vp VpX.init
def Mach.onVpX (m : Mach) (vp : Nat) (f : VpX → VpX) : Mach := { m with vp := tset m.vp vp (f (m.vpX vp)) }

/-- Enter a state with a reason; the partition's counts of ready and running virtual processors follow. -/
def Mach.setVp (m : Mach) (vp st reason : Nat) : Mach :=
  let p := m.vpPart vp
  let old := m.vpSt vp
  let m := m.set (R.casc_part_st_ready p) (m.get (R.casc_part_st_ready p) + b2n (st == 2) - b2n (old == 2))
  let m := m.set (R.casc_part_st_running p) (m.get (R.casc_part_st_running p) + b2n (st == 3) - b2n (old == 3))
  m.sets [(R.casc_vp_st_state vp, st), (R.casc_vp_st_reason vp, reason)]

/-- Virtual time now (R553): the run in progress counts by its nanoseconds. -/
def Mach.vtNow (m : Mach) (vp : Nat) : Nat :=
  (m.vpX vp).vt + (if m.vpSt vp = 3 then (m.tod - (m.vpX vp).since) * 256 / max 1 (m.get (R.casc_vp_ctl_weight vp)) else 0)

/-- The thread that a virtual processor holds. -/
def Mach.vpThread (m : Mach) (vp : Nat) : Option Nat := (List.range 96).find? fun t => m.vpOn t == some vp

/-- The smallest virtual time of the running or ready virtual processors of a priority (R553). -/
def Mach.minVt (m : Mach) (prio : Nat) : Option Nat :=
  (List.range 1024).foldl (fun acc v =>
    if (m.vpSt v = 2 ∨ m.vpSt v = 3) ∧ m.get (R.casc_vp_ctl_prio v) = prio then
      (match acc with | none => some (m.vtNow v) | some a => some (min a (m.vtNow v)))
    else acc) none

/-- The signed credit of a partition. -/
def Mach.credit (m : Mach) (p : Nat) : Int := sx 32 (m.get (R.casc_part_st_credit p))

/-- Why a ready virtual processor is not eligible, as a reason of Table 21.3; 0 when it is (R553). -/
def Mach.barred (m : Mach) (vp : Nat) : Nat :=
  let p := m.vpPart vp
  if m.mode.stage != 0 then 3
  else if !m.modeM5 && (m.get (R.casc_part_ctl_share p) == 0 || decide (m.credit p ≤ 0)) then 2
  else 0

/-- A virtual processor becomes ready from waiting or stopped. -/
def Mach.becomeReady (m : Mach) (vp : Nat) : Mach :=
  let prio := m.get (R.casc_vp_ctl_prio vp)
  let m := m.onVpX vp fun x => { x with vt := max x.vt ((m.minVt prio).getD x.vt) }
  m.setVp vp 2 (if m.barred vp = 0 then 1 else m.barred vp)

/-- An external interruption or a wake becomes pending for a virtual processor (R552, R558); an undefined one ignores it. One that waits on its
own thread goes on running there (log entry 16). -/
def Mach.fireVp (m : Mach) (vp : Nat) (isWake : Bool) : Mach :=
  if m.vpSt vp = 0 then m
  else
    let m := m.onVpX vp fun x => if isWake then { x with wake := true } else { x with ext := true }
    let m := m.set (R.casc_vp_st_pend vp) 1
    if m.vpSt vp = 4 then (if (m.vpThread vp).isSome then m.setVp vp 3 0 else m.becomeReady vp) else m

/-! ### Save frames (R550, Table 5.7) -/

/-- The words of one level's save block. -/
def Arch.levelWords (a : Arch) (L : Nat) : List W64 :=
  [tget a.spsw L 0, tget a.sia L 0, tget a.ecode L 0x100000, tget a.eaddr L 0, tget a.ivb L 0, tget a.scr0 L 0, tget a.scr1 L 0]

/-- The resume link in the core-internal context: valid in bit 63, context in bits 43:40, enclave in bits 59:48, as `gquery` shows it. -/
def linkWord (l : Option Link) : W64 :=
  match l with
  | none => 0
  | some l => BitVec.ofNat 64 (2 ^ 63 + l.encl * 2 ^ 48 + l.ctx * 2 ^ 40)

def linkOf (w : Nat) : Option Link := if bit w 63 then some ⟨bits w 59 48, bits w 43 40⟩ else none

/-- The 128 words of a save frame. -/
def Arch.frame (a : Arch) (vp part : Nat) (link : Option Link) : List W64 :=
  (List.range 32).map (fun i => a.gr i) ++ (List.range 32).map (fun i => a.fr i) ++ [a.ia, a.psw, a.fpsr, 0]
    ++ (List.range 4).map (fun i => tget a.lsa i 0) ++ (List.range 4).map (fun i => tget a.lea i 0) ++ (List.range 4).map (fun i => tget a.lct i 0)
    ++ a.levelWords 1 ++ a.levelWords 2 ++ a.levelWords 3
    ++ [BitVec.ofNat 64 (vp + part * 65536), 0, linkWord link] ++ List.replicate 15 0 ++ [a.ttr1] ++ List.replicate 8 0

def wordsBytes (l : List W64) : List Nat := l.flatMap fun w => toBytes 8 w.toNat

/-- The architected state that a frame holds; reserved bits of `psw` and of the save registers read as zero, and no reservation is armed. -/
def archOfFrame (w : Nat → W64) : Arch :=
  let lv := fun (base : Nat) (k : Nat) => w (base + k)
  let tab := fun (k : Nat) (msk : W64) => [(1, lv 80 k &&& msk), (2, lv 87 k &&& msk), (3, lv 94 k &&& msk)]
  { g := (List.range 31).map fun i => (i + 1, w (i + 1)), f := (List.range 32).map fun i => (i, w (32 + i)), ia := w 64,
    psw := w 65 &&& BitVec.ofNat 64 (spswMask - 4), fpsr := w 66 &&& 0x31F1F,
    lsa := (List.range 4).map fun i => (i, w (68 + i) &&& ~~~3), lea := (List.range 4).map fun i => (i, w (72 + i) &&& ~~~3),
    lct := (List.range 4).map fun i => (i, w (76 + i)),
    spsw := tab 0 (BitVec.ofNat 64 spswMask), sia := tab 1 (~~~0), ecode := tab 2 (BitVec.ofNat 64 ecodeMask), eaddr := tab 3 (~~~0),
    ivb := tab 4 0xFFFFFFFFFFFFF001, scr0 := tab 5 (~~~0), scr1 := tab 6 (~~~0),
    ttr1 := w 119 &&& 0xFFFFFFFFFFFFF003, ttr2 := 0, ttrh := 0, resv := none }

def Mach.frameAddr (m : Mach) (vp : Nat) : Nat := m.get (R.casc_vp_save_addr vp) * 1024

/-- Write the save frame of a virtual processor. -/
def Mach.saveFrame (m : Mach) (vp : Nat) (a : Arch) (link : Option Link) : Mach :=
  m.devWrite (m.frameAddr vp) (wordsBytes (a.frame vp (m.vpPart vp) link))

/-- A frame that cannot be used: in a region entry, in no home range, or poisoned (R550). -/
def Mach.frameBad (m : Mach) (vp : Nat) : Bool :=
  let a := m.frameAddr vp
  m.rgnKind a != 0 || (m.devRange .hub a 1024).isSome || m.devPoison a 1024

/-! ### Placement and leaving -/

/-- Take a thread's virtual processor off, its registers written to the frame, into the state that `after` names (R556). The thread is at a
commit boundary. -/
def Mach.vacate (m : Mach) (th : Nat) : Mach :=
  match m.vpOn th with
  | none => m
  | some vp =>
    let m := m.asyncExit th
    let t := m.th th
    let m := m.saveFrame vp t.cur t.link
    let m := m.setTh th { Thread.init with run := .vacant, sbuf := t.sbuf, removals := t.removals, pendPhys := t.pendPhys, pendMck := t.pendMck, dbg := t.dbg }
    let m := m.sets [(R.casc_thr_placed th, 0), (R.casc_thr_vp th, 0), (R.casc_vp_st_thread vp, 0)]
    let x := m.vpX vp
    if x.after = 1 then (m.setVp vp 1 0).sets [(R.casc_vcmd_result, 1), (R.casc_vcmd_done, 1), (R.casc_vcmd_go, 0)]
    else if x.after = 4 then (if x.ext || x.wake then m.becomeReady vp else m.setVp vp 4 0)
    else m.setVp vp 2 (m.get (R.casc_vp_st_reason vp))

/-- Begin to leave: state 6, with what follows and the reason it will read (R549). -/
def Mach.beginLeave (m : Mach) (vp after reason : Nat) : Mach :=
  let v := m.vtNow vp
  let m := m.onVpX vp fun x => { x with after := after, vt := v, since := m.tod }
  let m := if after = 2 then m.count R.casc_cnt_preempt else m
  m.setVp vp 6 reason

/-- The leaving virtual processor of a thread leaves at its next commit boundary, outside an episode, an uninterruptible wait and a debug stop (R610). -/
def Mach.leave (m : Mach) (th : Nat) : Mach :=
  let t := m.th th
  match m.vpOn th with
  | none => m
  | some vp =>
    if m.frozen || m.vpSt vp != 6 || t.dbg == 1 || t.ep.isSome || !(t.wait == .none || t.wait == .waitInsn) || !t.got.isEmpty || (m.core (th / 2)).swap.isSome then m
    else match m.toBoundary th with
      | none => m
      | some m => m.vacate th

/-- Place a virtual processor on a thread (R550, R207). -/
def Mach.place (m : Mach) (vp th : Nat) : Mach :=
  let p := m.vpPart vp
  if m.frameBad vp then (m.setVp vp 5 6).cascError 0xF5 p vp 0
  else
    let bs := m.devRead (m.frameAddr vp) 1024
    let w := fun i => BitVec.ofNat 64 (ofBytes ((bs.drop (8 * i)).take 8))
    let a := archOfFrame w
    let ttr2 := BitVec.ofNat 64 (p * 2 ^ 52 + m.get (R.casc_part_ttr2_base p) * 4096 + m.get (R.casc_part_ttr2_lv p))
    let ttrh := BitVec.ofNat 64 (m.get R.casc_ttrh_base * 4096 + m.get R.casc_ttrh_lv)
    let ok := fun (r : W64) => m.acceptsLv (bits r.toNat 1 0)
    let a' := { a with ttr1 := if ok a.ttr1 then a.ttr1 else 0, ttr2 := if ok ttr2 then ttr2 else 0, ttrh := if ok ttrh then ttrh else 0 }
    let t := m.th th
    let m := m.setTh th { t with run := .placed vp, cur := a', com := a', win := [], wait := .none, link := linkOf (w 103).toNat, det := ⟨0, 0, 0⟩ }
    let m := m.onVpX vp fun x => { x with since := m.tod }
    let m := (m.sets [(R.casc_thr_placed th, 1), (R.casc_thr_vp th, vp), (R.casc_vp_st_thread vp, th)]).setVp vp 3 0
    let m := m.count R.casc_cnt_place
    match [a.ttr1, ttr2, ttrh].find? fun r => !ok r with
    | some r => m.interrupt th ⟨0x020D, bits r.toNat 51 12 * 4096, a.ia, 0, false, true, false, none⟩
    | none => m

/-- Write retired stores and combining lines of a thread that leaves its core for good: they are performed at home (R177). -/
def Mach.performStores (m : Mach) (l : List StoreE) : Mach := l.foldl (fun m e => m.devWrite e.pa (toBytes e.len e.val)) m

end Sys2Proof.Machine
end

