-- ==== Sys2Proof/Machine/Home.lean ====
section
/-! DEFINITION. The home slice (spec/09, R267 to R281; the Basin, R231 to R236): what the home does with each request, and with the answers
and data that reach it. -/

namespace Sys2Proof.Machine

/-! ### The Basin -/

def basinBase (line : Nat) : Nat := (homeSlice (256 * line) * 16384 + bits (256 * line) 23 10) * 32

/-- Store a Basin way. -/
def Mach.setBsn (m : Mach) (k : Nat) (x : BsnWay) : Mach := { m with home := { m.home with bsn := tset m.home.bsn k x } }

/-- Drop a Basin way, writing it to memory when it is newer (R235, R248). -/
def Mach.bsnEvict (m : Mach) (k : Nat) : Mach :=
  match tfind m.home.bsn k with
  | none => m
  | some x =>
    let m := { m with home := { m.home with bsn := tdel m.home.bsn k } }
    if x.newer then
      ({ m with mem := m.mem.wrLine x.line x.data } : Mach).setDir x.line { m.dirE x.line with psn := x.psn }
    else m

/-- The ways that ordinary lines use: not 28 to 31 while the Cistern is enabled (R232), nor 24 to 27 in M0, which hold the boot scratch (R627). -/
def Mach.bsnWays (m : Mach) : List Nat :=
  (List.range 32).filter fun w => !(m.cisOn && decide (28 ≤ w)) && !(!m.sealed && decide (24 ≤ w) && decide (w < 28))

/-- The victim way of a Basin set under R234: at most three rounds of ageing. -/
def Mach.bsnVictim (m : Mach) (base : Nat) : Nat → Mach × Option Nat
  | 0 => (m, none)
  | n + 1 =>
    let keys := (m.bsnWays.map (base + ·)).filter fun k => !m.home.bsnDel.contains k
    match keys.find? fun k => (tfind m.home.bsn k).isNone with
    | some k => (m, some k)
    | none =>
      match keys.find? fun k => match tfind m.home.bsn k with | some x => x.age == 3 | none => false with
      | some k => (m, some k)
      | none =>
        if keys = [] then (m, none)
        else
          let bsn := m.home.bsn.map fun kv => if kv.1 / 32 = base / 32 ∧ kv.2.age < 3 then (kv.1, { kv.2 with age := kv.2.age + 1 }) else kv
          Mach.bsnVictim { m with home := { m.home with bsn := bsn } } base n

/-- Install a line in the Basin at an age; a line already present is replaced in place. A set with every way deleted sends a newer line to memory. -/
def Mach.bsnFill (m : Mach) (line : Nat) (d : Line) (psn newer : Bool) (age : Nat) : Mach :=
  match m.bsnFind line with
  | some (k, x) =>
    if m.apLine line then
      (let m := m.setBsn k ⟨line, d, false, psn, age⟩
       if newer then m.pageDirty (line / 16) else m)
    else m.setBsn k ⟨line, d, newer || (x.newer && x.data == d), psn, age⟩
  | none =>
    if m.apLine line then m
    else match m.bsnVictim (basinBase line) 5 with
    | (m, some k) => (m.bsnEvict k).setBsn k ⟨line, d, newer, psn, age⟩
    | (m, none) => if newer then ({ m with mem := m.mem.wrLine line d } : Mach).setDir line { m.dirE line with psn := psn } else m

/-- A Basin error (R262): the record of its slice, and its source. -/
def Mach.bsnError (m : Mach) (line way code : Nat) : Mach :=
  let s := homeSlice (256 * line)
  let m := m.sets [(R.aq_bsn_err_line s, line), (R.aq_bsn_err_new s, 1), (R.aq_bsn_err_way s, way), (R.aq_bsn_err_code s, code)]
  m.raise (1536 + 16 * s + (code - 0x10)) (m.word (R.aq_bsn_err s))

/-- What the checkers of the Basin find where a line is looked up (Table 8.8, R264): 0 nothing, else the code less 0x10. A copy that differs from
memory, or belongs to an expanded page, is poisoned where another is dropped. -/
def Mach.bsnCheck (m : Mach) (line v : Nat) : Mach :=
  match m.bsnFind line with
  | none => if v = 4 ∨ v = 5 then m.bsnError line 0 (0x10 + v) else m
  | some (k, x) =>
    let way := k % 32
    match v with
    | 1 =>
      let n := tget m.home.bsnErrs k 0 + 1
      let m := ({ m with home := { m.home with bsnErrs := tset m.home.bsnErrs k n } } : Mach).bsnError line way 0x11
      if n = 16 then
        (let m := m.bsnEvict k
         ({ m with home := { m.home with bsnDel := k :: m.home.bsnDel } } : Mach).bsnError line way 0x16)
      else m
    | 2 | 3 =>
      if x.newer || m.apLine line then (m.setBsn k { x with psn := true }).bsnError line way 0x13
      else ({ m with home := { m.home with bsn := tdel m.home.bsn k } } : Mach).bsnError line way 0x12
    | 4 => m.bsnError line way 0x14
    | 5 => m.bsnError line way 0x15
    | _ => m

/-- The home supplies a line: from the Basin, whose age becomes 1, or from memory, filling the Basin at an age (Table 8.3). -/
def Mach.homeSupply (m : Mach) (line age : Nat) : Mach × Line × Bool :=
  let s := homeSlice (256 * line)
  match m.bsnFind line with
  | some (k, x) => ((m.setBsn k { x with age := 1 }).countBsn s (R.aq_bsn_cnt_hit s), x.data, x.psn)
  | none =>
    let d := m.mem.rdLine line
    let p := (m.dirE line).psn
    ((m.countBsn s (R.aq_bsn_cnt_miss s)).bsnFill line d p false age, d, p)

/-- A request is the prefetch of a core of this module, the only one whose streams the home can see (log entry 74). -/
def Mach.ofPrefetch (m : Mach) (x : Msg) : Bool :=
  decide (x.src / 64 = m.modNo) && decide (x.src % 64 < 48) && (m.core (x.src % 64)).miss.any fun y => y.tag == x.tag && y.why == .prefetch

/-- The age at which a request's fill enters the Basin (Table 8.3), and the age that it gives the page it expands. -/
def Mach.supplyAge (m : Mach) (x : Msg) : Nat := if m.ofPrefetch x then 3 else 1
def Mach.expandAge (m : Mach) (x : Msg) : Nat := if m.ofPrefetch x then 3 else 0

/-! ### Directory vectors -/

def DirE.has (e : DirE) (a : Nat) : Bool := e.vec.testBit a
def DirE.add (e : DirE) (a : Nat) : DirE := { e with vec := e.vec ||| 2 ^ a }
def DirE.del (e : DirE) (a : Nat) : DirE := { e with vec := if e.vec.testBit a then e.vec ^^^ 2 ^ a else e.vec }
def DirE.agents (e : DirE) : List Nat := (List.range 256).filter fun a => e.vec.testBit a

/-- An entry without holders is in state U. -/
def DirE.norm (e : DirE) : DirE := if e.vec = 0 then { e with st := .u } else e

/-! ### Accepting a request (R275, R276) -/

def Mach.setTxn (m : Mach) (line : Nat) (t : HomeTxn) : Mach := { m with home := { m.home with txn := tset m.home.txn line t } }

/-- Send from the home slice of a line. -/
def Mach.homeSend (m : Mach) (op dst : Nat) (x : Msg) : Mach :=
  m.send op { x with src := 64 * m.modNo + 56 + homeSlice (256 * x.line), dst := dst }

/-- Probe every agent of a list. -/
def Mach.probeAll (m : Mach) (op : Nat) (req : Msg) (l : List Nat) : Mach :=
  l.foldl (fun m a => m.homeSend op a { noMsg with line := req.line, tag := req.tag, req := req.src }) m

def newTxn (op : Nat) (x : Msg) (awaits : List Nat) : HomeTxn := ⟨op, x, awaits, none, 0, 0, false, x.src⟩

/-- The home answers a request with its own copy of the line: shared for an RDS; exclusive, with the ACKs to await, for a read for ownership. -/
def Mach.supplyRds (m : Mach) (x : Msg) : Mach :=
  let (m, d, p) := m.homeSupply x.line (m.supplyAge x)
  m.homeSend 0x31 x.src { noMsg with line := x.line, tag := x.tag, st := 1, psn := p, data := d }
def Mach.supplyRdx (m : Mach) (x : Msg) (n : Nat) : Mach :=
  let (m, d, p) := m.homeSupply x.line 1
  m.homeSend 0x31 x.src { noMsg with line := x.line, tag := x.tag, acks := n, st := 2, psn := p, data := d }

/-- Read for ownership, also for an `UPG` whose requester holds nothing. -/
def Mach.homeRdx (m : Mach) (x : Msg) : Mach :=
  let e := m.dirE x.line
  let a := x.src
  let own : DirE := { e with st := .x, vec := 2 ^ a }
  match e.st with
  | .x =>
    let o := e.agents.headD a
    if o = a then ((m.supplyRdx x 0).setDir x.line own).setTxn x.line (newTxn 0x02 x [])
    else ((m.homeSend 0x12 o { noMsg with line := x.line, tag := x.tag, req := a }).setDir x.line own).setTxn x.line (newTxn 0x02 x [o])
  | _ =>
    let sh := e.agents.filter (· != a)
    (((m.probeAll 0x13 x sh).supplyRdx x sh.length).setDir x.line own).setTxn x.line (newTxn 0x02 x [])

/-- The action of Table 9.5 on a request to a line that is not busy. -/
def Mach.homeStart (m : Mach) (op : Nat) (x : Msg) : Mach :=
  let e := m.dirE x.line
  let a := x.src
  match op with
  | 0x01 =>
    let o := e.agents.headD a
    if e.st = .x ∧ o ≠ a then
      ((m.homeSend 0x11 o { noMsg with line := x.line, tag := x.tag, req := a }).setDir x.line { (e.add a) with st := .s }).setTxn x.line (newTxn 0x01 x [o])
    else ((m.supplyRds x).setDir x.line { (e.add a) with st := .s }).setTxn x.line (newTxn 0x01 x [])
  | 0x02 => m.homeRdx x
  | 0x03 =>
    if e.st = .s ∧ e.has a then
      let sh := e.agents.filter (· != a)
      (((m.probeAll 0x13 x sh).homeSend 0x22 a { noMsg with line := x.line, tag := x.tag, acks := sh.length, st := 2 }).setDir x.line
        { e with st := .x, vec := 2 ^ a }).setTxn x.line (newTxn 0x03 x [])
    else m.homeRdx x
  | 0x04 =>
    let sh := e.agents.filter (· != a)
    (((m.probeAll 0x13 x sh).homeSend 0x22 a { noMsg with line := x.line, tag := x.tag, acks := sh.length, st := 3 }).setDir x.line
      { e with st := .x, vec := 2 ^ a, psn := false }).setTxn x.line (newTxn 0x04 x [])
  | 0x07 =>
    if !e.has a then (m.homeSend 0x25 a { noMsg with line := x.line, tag := x.tag }).setTxn x.line { newTxn op x [] with done := true }
    else if (m.bsnFind x.line).isSome then
      ((m.homeSend 0x25 a { noMsg with line := x.line, tag := x.tag }).setDir x.line (e.del a).norm).setTxn x.line { newTxn op x [] with done := true }
    else (m.homeSend 0x26 a { noMsg with line := x.line, tag := x.tag }).setTxn x.line { newTxn op x [] with dath := 1 }
  | 0x08 => m.setTxn x.line { newTxn op x [] with dath := 1 }
  | _ =>
    -- WRF, WRM: every holder is invalidated and awaited
    (m.probeAll 0x14 x e.agents).setTxn x.line (newTxn op x e.agents)

/-! ### Ending a transaction -/

/-- Whether a home write is a full-line store written around, which alone installs in the Basin (Table 8.3, R245): a WRF of a core, other than one
that a combining buffer of this module wrote out (log entry 74). -/
def Mach.writtenAround (m : Mach) (op a line : Nat) : Bool :=
  op == 0x05 && decide (a % 64 < 48) && (a / 64 != m.modNo || (m.core (a % 64)).wpend.any fun y => y.1 == line && y.2.2)

/-- A home write is performed (R276): full or masked, merged with the home's copy; the Basin copy goes, or is the line now equal to memory when the
write installs (R248, Table 8.3). -/
def Mach.performWrite (m : Mach) (line : Nat) (d : Line) (mask : Nat) (psn install : Bool) : Mach :=
  let full := mask == 2 ^ 256 - 1
  let (old, op) := m.homeData line
  let new := if full then d else lineMerge old d mask
  let p := psn || (op && !full)
  let ap := m.apLine line
  let m := (m.homeWrite line new p).setDir line ⟨.u, 0, p⟩
  if install && !ap then m.bsnFill line new p false 3 else m

/-- Whether a transaction is complete: answers, data and DONE have come. -/
def HomeTxn.complete (t : HomeTxn) : Bool :=
  t.awaits.isEmpty && decide (t.dath ≤ t.dgot)
    && (if t.op = 0x05 ∨ t.op = 0x06 then t.wdata.isSome else if t.op = 0x07 ∨ t.op = 0x08 then true else t.done)

/-- End a complete transaction, with its last effects. -/
def Mach.homeEnd (m : Mach) (line : Nat) (t : HomeTxn) : Mach :=
  let m := { m with home := { m.home with txn := tdel m.home.txn line } }
  match t.op with
  | 0x40 => { m with home := { m.home with dir := tdel m.home.dir line } }
  | 0x07 =>
    if t.done then m
    else (m.homeSend 0x25 t.req.src { noMsg with line := line, tag := t.req.tag }).setDir line ((m.dirE line).del t.req.src).norm
  | 0x08 => (m.homeSend 0x25 t.req.src { noMsg with line := line, tag := t.req.tag }).setDir line ((m.dirE line).del t.req.src).norm
  | 0x05 | 0x06 =>
    match t.wdata with
    | some (d, mask, p) => (m.performWrite line d mask p (m.writtenAround t.op t.agent line)).homeSend 0x27 t.agent { noMsg with line := line, tag := t.req.tag }
    | none => m
  | _ =>
    if t.agent = t.req.src then m
    else m.setDir line (((m.dirE line).del t.req.src).add t.agent)

/-- Data that came before its request was accepted joins it. -/
def Mach.joinEarly (m : Mach) (op : Nat) (x : Msg) : Mach :=
  let want := if op = 0x05 ∨ op = 0x06 then 0x33 else 0x32
  match takeFirst (fun y => y.1 == want && y.2.line == x.line && y.2.src == x.src) m.home.early, tfind m.home.txn x.line with
  | some (y, rest), some t =>
    let m := { m with home := { m.home with early := rest } }
    if want = 0x33 then m.setTxn x.line { t with wdata := some (y.2.data, y.2.mask, y.2.psn) }
    else
      let m := if (m.dirE x.line).has x.src then m.bsnFill x.line y.2.data y.2.psn true (if (m.bsnFind x.line).isSome then 0 else 1) else m
      m.setTxn x.line { t with dgot := t.dgot + 1 }
  | _, _ => m

/-! ### Requests to compressed pages (R344 to R346) -/

/-- Recall the lines of a page: a PRW to each holder of each line that is not in state U (R346, step 2), as transactions of op 0x40. -/
def Mach.recallPage (m : Mach) (pf : Nat) : Mach :=
  (List.range 16).foldl (fun m l =>
    let line := 16 * pf + l
    let e := m.dirE line
    if e.st = .u then m
    else
      let x : Msg := { noMsg with line := line, src := m.homeAgent line }
      (m.probeAll 0x14 x e.agents).setTxn line { newTxn 0x40 x e.agents with done := true }) m

/-- Begin the eviction of an expanded page. -/
def Mach.beginEvict (m : Mach) (pf why : Nat) (next : Option (Nat × Nat)) : Mach :=
  match tfind m.cis.exp pf with
  | none => m
  | some x => ({ m with cis := { m.cis with exp := tset m.cis.exp pf { x with busy := 2, why := why, next := next } } } : Mach).recallPage pf

/-- Whether an expansion of a page is under way or waits. -/
def Mach.expPending (m : Mach) (pf : Nat) : Bool :=
  (m.cis.waits.any fun w => w.1 == pf) || (m.cis.exp.any fun x => match x.2.next with | some y => y.1 == pf | none => false)

/-- Choose the way of an expansion (R345): a free way, a victim to evict, or a wait; `none` for the wait. -/
def Mach.chooseWay (m : Mach) (pf age : Nat) : Option Mach :=
  match m.freeWay pf with
  | some w => some { m with cis := { m.cis with exp := tset m.cis.exp pf ⟨w, age, 1, 0, none⟩ } }
  | none =>
    match m.victimPage pf 5 with
    | (m', some v) => some (m'.beginEvict v 0 (some (pf, age)))
    | (_, none) => none

/-- Start an expansion; one that finds every way busy or held waits, with code 0x75 once. -/
def Mach.startExpansion (m : Mach) (pf age : Nat) : Mach :=
  if m.expPending pf then m
  else match m.chooseWay pf age with
    | some m' => m'
    | none => (({ m with cis := { m.cis with waits := m.cis.waits ++ [(pf, age)] } } : Mach).count R.mem_cis_cnt1_waitn).cisError 0x75 pf

/-- Whether a line of an aperture has to wait: the map scan runs, its page is busy, or it is compressed. -/
def Mach.pageWait (m : Mach) (line : Nat) : Bool :=
  m.apLine line && (!m.on R.mem_cis_stat_ready || (match tfind m.cis.exp (line / 16) with | some x => x.busy != 0 | none => true))

/-- Touch the page of a request that is served. -/
def Mach.touchPage (m : Mach) (line : Nat) : Mach :=
  if m.apLine line then
    match tfind m.cis.exp (line / 16) with
    | some x => { m with cis := { m.cis with exp := tset m.cis.exp (line / 16) { x with age := 0 } } }
    | none => m
  else m

/-- Serve the line: end what is complete and accept waiting requests in arrival order, until the line is busy or none waits. -/
def Mach.homeServe (m : Mach) (line : Nat) : Nat → Mach
  | 0 => m
  | n + 1 =>
    match tfind m.home.txn line with
    | some t => if t.complete then (m.homeEnd line t).homeServe line n else m
    | none =>
      match takeFirst (fun y => y.2.line == line) m.home.waitq with
      | none => m
      | some (y, rest) =>
        if m.home.sweeping then m
        else if m.pageWait line then
          if m.on R.mem_cis_stat_ready && (tfind m.cis.exp (line / 16)).isNone then m.startExpansion (line / 16) (m.expandAge y.2) else m
        else
        let m := ({ m with home := { m.home with waitq := rest } } : Mach).touchPage line
        ((m.homeStart y.1 y.2).joinEarly y.1 y.2).homeServe line n

/-- A request arrives (R267, R275): an address in no range of this module is answered ERR with code 0x36; else it queues behind earlier ones. -/
def Mach.homeRequest (m : Mach) (op : Nat) (x : Msg) : Mach :=
  if m.frozen then m
  else if m.homeOf (256 * x.line) ≠ some m.modNo then
    (m.aqError 0x36 (16 + homeSlice (256 * x.line)) x.line).homeSend 0x29 x.src { noMsg with line := x.line, tag := x.tag }
  else
    let m := { m with home := { m.home with waitq := m.home.waitq ++ [(op, x)] } }
    m.homeServe x.line (2 * m.home.waitq.length + 4)

/-! ### Answers and data at the home -/

def Mach.onTxn (m : Mach) (line : Nat) (f : HomeTxn → HomeTxn) : Mach :=
  match tfind m.home.txn line with
  | some t => (m.setTxn line (f t)).homeServe line (2 * m.home.waitq.length + 4)
  | none => m

/-- A message that no transaction expects is a protocol violation, code 0x35 (Table 9.12). -/
def Mach.violation (m : Mach) (x : Msg) : Mach := m.aqError 0x35 (16 + homeSlice (256 * x.line)) x.line

/-- PRA (R276, R279): its `acks` field says whether a DATH comes with it, and whether the agent held nothing; the home then supplies what the agent
did not (log entry 14). -/
def Mach.homePra (m : Mach) (x : Msg) : Mach :=
  match tfind m.home.txn x.line with
  | some t =>
    if t.awaits.contains x.src then
      let m := if x.acks ≠ 2 then m
        else if t.op = 0x01 then (m.supplyRds { t.req with src := t.agent }).setDir x.line ((m.dirE x.line).del x.src)
        else if t.op = 0x02 then m.supplyRdx { t.req with src := t.agent } 0
        else m
      m.onTxn x.line fun t => { t with awaits := t.awaits.filter (· != x.src), dath := t.dath + (if x.acks = 1 then 1 else 0) }
    else if x.acks = 2 ∧ t.op = 0x07 ∧ t.req.src = x.src then m.onTxn x.line fun t => { t with dath := 0 }
    else m.violation x
  | none => m.violation x

/-- DATH: the line is written at home, unless it is the data of an eviction whose agent is no longer named (R276). -/
def Mach.homeDath (m : Mach) (x : Msg) : Mach :=
  match tfind m.home.txn x.line with
  | none => { m with home := { m.home with early := m.home.early ++ [(0x32, x)] } }
  | some t =>
    if (t.op = 0x07 ∨ t.op = 0x08) ∧ t.req.src ≠ x.src then { m with home := { m.home with early := m.home.early ++ [(0x32, x)] } }
    else
      let keep := !(t.op = 0x07 ∨ t.op = 0x08) || (m.dirE x.line).has x.src
      let m := if keep then m.bsnFill x.line x.data x.psn (t.op != 0x07) (if (m.bsnFind x.line).isSome then 0 else 1) else m
      m.onTxn x.line fun t => { t with dgot := t.dgot + 1 }

/-- WDAT: the data of a WRF or WRM. -/
def Mach.homeWdat (m : Mach) (x : Msg) : Mach :=
  match tfind m.home.txn x.line with
  | some t =>
    if (t.op = 0x05 ∨ t.op = 0x06) ∧ t.req.src = x.src ∧ t.wdata.isNone then m.onTxn x.line fun t => { t with wdata := some (x.data, x.mask, x.psn) }
    else { m with home := { m.home with early := m.home.early ++ [(0x33, x)] } }
  | none => { m with home := { m.home with early := m.home.early ++ [(0x33, x)] } }

/-- DONE from the requester, or from the agent that took its place (R280). -/
def Mach.homeDone (m : Mach) (x : Msg) : Mach :=
  match tfind m.home.txn x.line with
  | some t => if t.agent = x.src ∧ 0x01 ≤ t.op ∧ t.op ≤ 0x04 then m.onTxn x.line fun t => { t with done := true } else m.violation x
  | none => m.violation x

/-- MOV (R280): the transaction of a tag and old agent (field `req`) is answered by the new agent (field `aux`); a waiting request is renamed. -/
def Mach.homeMov (m : Mach) (x : Msg) : Mach :=
  let new := x.aux % 256
  let m := match tfind m.home.txn x.line with
    | some t => if t.agent = x.req ∧ t.req.tag = x.tag then m.setTxn x.line { t with agent := new } else m
    | none => m
  { m with home := { m.home with
      waitq := updWhere (fun y => y.2.line == x.line && y.2.src == x.req && y.2.tag == x.tag) (fun y => (y.1, { y.2 with src := new })) m.home.waitq } }

/-- An L2's copy leaves at once: written at home when modified, its directory bit cleared (R174; for a home on another module, by message). -/
def Mach.retire (m : Mach) (c line : Nat) (st : LSt) (d : Line) (psn : Bool) : Mach :=
  if m.homeOf (256 * line) = some m.modNo then
    let m := if st = .m then m.bsnFill line d psn true (if (m.bsnFind line).isSome then 0 else 1) else m
    m.setDir line ((m.dirE line).del (m.agentOf c)).norm
  else
    let x : Msg := { noMsg with src := m.agentOf c, dst := m.homeAgent line, line := line, st := st.code, psn := psn }
    if st = .m then (m.send 0x08 x).send 0x32 { x with data := d } else m.send 0x07 x

end Sys2Proof.Machine
end

