-- ==== Sys2Proof/Machine/Cascade.lean ====
section
/-! DEFINITION. Cascade dispatch (spec/21, R551 to R560). -/

namespace Sys2Proof.Machine

/-! ### Virtual processor commands (R551) -/

/-- Finish a command with a result. -/
def Mach.vcmdDone (m : Mach) (result : Nat) : Mach := m.sets [(R.casc_vcmd_result, result), (R.casc_vcmd_done, 1), (R.casc_vcmd_go, 0)]

/-- A `go` for a virtual processor; refused with result 3 while a command is unfinished, with result 2 in a state not listed. -/
def Mach.vcmd (m : Mach) (op vp : Nat) : Mach :=
  if m.frozen then m
  else if m.on R.casc_vcmd_go then m.sets [(R.casc_vcmd_result, 3), (R.casc_vcmd_done, 1)]
  else
    let st := m.vpSt vp
    match op with
    | 1 =>
      if st ≠ 0 then m.vcmdDone 2
      else if m.rgnKind (m.frameAddr vp) ≠ 0 then m.vcmdDone 5
      else (m.setVp vp 1 0).vcmdDone 1
    | 2 => if st = 1 ∨ st = 5 then (m.becomeReady vp).vcmdDone 1 else m.vcmdDone 2
    | 3 =>
      if st = 2 then (m.setVp vp 1 0).vcmdDone 1
      else if st = 3 ∨ st = 4 then
        (if (m.vpThread vp).isSome then (m.beginLeave vp 1 0).set R.casc_vcmd_go 1 else (m.setVp vp 1 0).vcmdDone 1)
      else m.vcmdDone 2
    | 4 =>
      if st = 1 ∨ st = 5 then
        (((m.onVpX vp fun _ => VpX.init).sets [(R.casc_vp_st_pend vp, 0), (R.casc_vp_tmr_tod vp, 0)]).setVp vp 0 0).vcmdDone 1
      else m.vcmdDone 2
    | _ => m.vcmdDone 2

/-- A write of `casc.vcmd`'s fields `vp` and `op`, with `go`. -/
def vcmdWrite (op vp : Nat) (s : State) : Host.Outcome State Fault Refusal :=
  ans (decide (vp < 1024)) s fun m => if m.frozen then m else (m.sets [(R.casc_vcmd_op, op), (R.casc_vcmd_vp, vp)]).vcmd op vp

def execVpDefine (vp : Nat) (s : State) : Host.Outcome State Fault Refusal := vcmdWrite 1 vp s
def execVpReady (vp : Nat) (s : State) : Host.Outcome State Fault Refusal := vcmdWrite 2 vp s
def execVpStop (vp : Nat) (s : State) : Host.Outcome State Fault Refusal := vcmdWrite 3 vp s
def execVpUndefine (vp : Nat) (s : State) : Host.Outcome State Fault Refusal := vcmdWrite 4 vp s

/-! ### Cores and threads in use (Table 2.1) -/

def Mach.role (m : Mach) (c : Nat) : Nat := m.get (R.core_state_role c)

/-- Assignable cores in ascending order. -/
def Mach.assignable (m : Mach) : List Nat := (List.range 48).filter fun c => m.role c == 0

/-- The cores that M2 uses (R51). -/
def Mach.m2Cores (m : Mach) : List Nat :=
  let a := m.assignable
  if m.mode.m2mask ≠ 0 then a.filter fun c => m.mode.m2mask.testBit c
  else ((a.zipIdx.filter fun x => x.2 % 2 == 0).map (·.1)).take (a.length / 2)

/-- Whether Cascade may use a thread in the mode in force (R548). -/
def Mach.inUse (m : Mach) (th : Nat) : Bool :=
  let c := th / 2
  match m.baseMode with
  | 0 => false
  | 7 => false
  | 2 => m.m2Cores.contains c && th % 2 == 0
  | 3 => m.role c == 0 && m.on (R.core_state_lead c)
  | _ => m.role c == 0

/-- Whether a thread may receive a virtual processor now. -/
def Mach.mayPlace (m : Mach) (th : Nat) : Bool :=
  m.inUse th && (m.th th).run == .vacant && !m.on (R.casc_thr_held th) && (m.core (th / 2)).swap.isNone && !(m.core (th / 2)).flushing
    && m.get (R.weir_core_park (th / 2)) != 3

/-! ### Selection (R553, R554) -/

/-- The better of two candidates: highest priority, then smallest virtual time, then lowest number. -/
def Mach.better (m : Mach) (a b : Nat) : Bool :=
  let pa := m.get (R.casc_vp_ctl_prio a)
  let pb := m.get (R.casc_vp_ctl_prio b)
  let va := m.vtNow a
  let vb := m.vtNow b
  decide (pb < pa) || (pa == pb && (decide (va < vb) || (va == vb && decide (a < b))))

/-- The first of a list under a preference. -/
def pick (better : Nat → Nat → Bool) : List Nat → Option Nat
  | [] => none
  | a :: r => match pick better r with
    | none => some a
    | some b => if better b a then some b else some a

def Mach.candidate (m : Mach) : Option Nat :=
  pick m.better ((List.range 1024).filter fun v => m.vpSt v == 2 && m.barred v == 0)

def parkRank (p : Park) : Nat :=
  match p with
  | .running => 0 | .shallow => 1 | _ => 2

/-- The headroom that ranks a core; a pair of M3 has the lower of its two (R554). -/
def Mach.headOf (m : Mach) (c : Nat) : Nat :=
  let h := m.get (R.weir_core_head c)
  if m.baseMode = 3 then min h (m.get (R.weir_core_head (m.get (R.core_state_pair c)))) else h

/-- The better of two vacant threads (R554). -/
def Mach.betterTh (m : Mach) (a b : Nat) : Bool :=
  let key := fun (t : Nat) => [parkRank (m.core (t / 2)).park, 100 - m.headOf (t / 2), b2n ((m.th (2 * (t / 2) + 1 - t % 2)).run != .vacant), t]
  decide (key a < key b)

/-- A virtual processor's thread is in a debug stop (R610). -/
def Mach.vpStopped (m : Mach) (v : Nat) : Bool := match m.vpThread v with | some t => (m.th t).dbg == 1 | none => false

/-- The running virtual processor to preempt: lowest priority, then greatest virtual time. -/
def Mach.preemptee (m : Mach) : Option Nat :=
  pick (fun a b =>
    let pa := m.get (R.casc_vp_ctl_prio a)
    let pb := m.get (R.casc_vp_ctl_prio b)
    decide (pa < pb) || (pa == pb && decide (m.vtNow b < m.vtNow a))) ((List.range 1024).filter fun v => m.vpSt v == 3 && !m.vpStopped v)

/-- A core leaves its park (R49, R203). -/
def Mach.unpark (m : Mach) (c : Nat) : Mach :=
  if m.get (R.weir_core_park c) = 3 then m
  else (m.onCore c fun k => { k with park := .running }).sets [(R.weir_core_park c, 0), (R.core_state_warm c, 0)]

/-- One selection: the best candidate is placed on the best vacant thread; else a virtual processor waiting on a thread is taken off it, or a
running one of strictly lower priority is preempted (R554, R557). -/
def Mach.select (m : Mach) : Mach :=
  match m.candidate with
  | none => m
  | some v =>
    match pick m.betterTh ((List.range 96).filter m.mayPlace) with
    | some th => (m.unpark (th / 2)).place v th
    | none =>
      match (List.range 96).findSome? fun t => match m.vpOn t with
          | some w => if m.vpSt w = 4 ∧ !m.vpStopped w then some w else none
          | none => none with
      | some w => m.beginLeave w 4 0
      | none =>
        match m.preemptee with
        | some w => if m.get (R.casc_vp_ctl_prio w) < m.get (R.casc_vp_ctl_prio v) then m.beginLeave w 2 1 else m
        | none => m

def execCascadeSelection (s : State) : Host.Outcome State Fault Refusal := ans true s fun m => if m.frozen then m else m.select

/-- A slice ends: an eligible ready virtual processor of equal priority with a smaller virtual time takes the thread (R555). -/
def execSliceEnd (th : Nat) (s : State) : Host.Outcome State Fault Refusal :=
  ans (decide (th < 96)) s fun m =>
    match m.vpOn th with
    | none => m
    | some vp =>
      if m.frozen || m.vpSt vp != 3 || m.vpStopped vp then m
      else if (List.range 1024).any fun w => m.vpSt w == 2 && m.barred w == 0 && m.get (R.casc_vp_ctl_prio w) == m.get (R.casc_vp_ctl_prio vp)
          && decide (m.vtNow w < m.vtNow vp) then m.beginLeave vp 2 4
      else m

def execVpLeave (th : Nat) (s : State) : Host.Outcome State Fault Refusal := ans (decide (th < 96)) s (·.leave th)

/-! ### Timers and stalls -/

/-- A timer that the time of day has reached fires and is written to zero (R559). -/
def Mach.vpTimer (m : Mach) (vp : Nat) : Mach :=
  let t := m.get (R.casc_vp_tmr_tod vp)
  if t ≠ 0 ∧ t ≤ m.tod then (m.set (R.casc_vp_tmr_tod vp) 0).fireVp vp false else m

/-- A write of `casc.vp.tmr`. -/
def execVpTimerWrite (vp val : Nat) (s : State) : Host.Outcome State Fault Refusal :=
  ans (decide (vp < 1024) && decide (val < 2 ^ 64)) s fun m => if m.frozen then m else (m.set (R.casc_vp_tmr_tod vp) val).vpTimer vp

def execVpTimerExpiry (vp : Nat) (s : State) : Host.Outcome State Fault Refusal :=
  ans (decide (vp < 1024)) s fun m => if m.frozen then m else m.vpTimer vp

/-- Whether a partition stalls (R560). -/
def Mach.isStalled (m : Mach) (p : Nat) : Bool :=
  let vs := (List.range 1024).filter fun v => m.vpPart v == p && (m.vpSt v == 2 || m.vpSt v == 3 || m.vpSt v == 4)
  vs != [] && vs.all fun v => m.vpSt v == 4 && m.get (R.casc_vp_tmr_tod v) == 0 && !m.on (R.casc_vp_st_pend v)

/-- A stall has lasted its limit (R560). -/
def execPartitionStall (part : Nat) (s : State) : Host.Outcome State Fault Refusal :=
  ans (decide (part < 64)) s fun m =>
    let lim := m.get (R.casc_part_ctl_stall part)
    if m.frozen || lim == 0 || !m.isStalled part then m
    else
      let m := (m.set (R.casc_part_st_stalled part) 1).cascError 0xF0 part 0 lim
      if m.on (R.casc_part_ctl_wake part) then
        match (List.range 1024).find? fun v => m.vpPart v == part && m.vpSt v == 4 with
        | some v => m.fireVp v true
        | none => m
      else m

end Sys2Proof.Machine
end

