-- ==== Sys2Proof/Machine/Doorbell.lean ====
section
/-! DEFINITION. Doorbells and Rills (spec/20, R529 to R547, R653). -/

namespace Sys2Proof.Machine

/-! ### Targets (R532 to R535) -/

/-- A doorbell code (Table 20.6): recorded in `dbell.err` and raised. -/
def Mach.dbellError (m : Mach) (code page src : Nat) : Mach :=
  let m := m.sets [(R.dbell_err_page, page), (R.dbell_err_src, src), (R.dbell_err_new, 1), (R.dbell_err_code, code)]
  m.raise (3600 + (code - 0xE0)) (m.word R.dbell_err)

/-- A Rill code (Table 20.6): recorded in `rill.err` and raised. -/
def Mach.rillError (m : Mach) (code r : Nat) : Mach :=
  let m := m.sets [(R.rill_err_rill, r), (R.rill_err_new, 1), (R.rill_err_code, code)]
  m.raise (3600 + (code - 0xE0)) (m.word R.rill_err)

/-- The address of the target entry of a source (R532). -/
def Mach.targetAddr (m : Mach) (src : Nat) : Nat := m.get R.dbell_ttab_base * 2 ^ 23 + 8 * src

/-- The target entry of a source, unless it is poisoned or unreadable. -/
def Mach.targetEntry (m : Mach) (src : Nat) : Option Nat :=
  let a := m.targetAddr src
  if (m.devCheck .hub a).isSome || m.devPoison a 8 then none else some (ofBytes (m.devRead a 8))

/-- Whether an entry has a nonzero reserved field or names a thread above 95 (R533, R535). -/
def badTarget (e : Nat) : Bool :=
  bits e 61 47 != 0 || bits e 31 22 != 0 || bits e 15 10 != 0 || (bit e 62 && decide (95 < bits e 9 0))

/-- Whether a ring to an entry is valid (R535). -/
def Mach.targetOk (m : Mach) (e : Nat) : Bool :=
  bit e 63 && !badTarget e && (bit e 62 || (m.vpSt (bits e 9 0) != 0 && m.vpPart (bits e 9 0) == bits e 21 16))

/-- Set the summary bit of a target (R534, R653): an atomic update at home, or code 0xE4. -/
def Mach.setSummary (m : Mach) (page src e : Nat) : Mach :=
  let n := bits e 9 0
  let (en, addr) := if bit e 62 then (m.on (R.dbell_sumt_en n), m.get (R.dbell_sumt_addr n)) else (m.on (R.dbell_sumv_en n), m.get (R.dbell_sumv_addr n))
  let s := bits e 46 32
  let a := addr * 4096 + s / 8
  if !en then m
  else if (m.devCheck .hub a).isSome || m.devPoison a 1 then m.dbellError 0xE4 page src
  else m.devWrite a [(m.devRead a 1).headD 0 ||| 2 ^ (7 - s % 8)]

/-! ### Coalescing (R536 to R538) -/

def GrpSt.init : GrpSt := ⟨0, false, 0, []⟩
def Mach.grp (m : Mach) (g : Nat) : GrpSt := tget m.db.grp g GrpSt.init
def Mach.setGrp (m : Mach) (g : Nat) (x : GrpSt) : Mach := { m with db := { m.db with grp := tset m.db.grp g x } }

/-- An external interruption becomes pending at a target (R537). -/
def Mach.pendTarget (m : Mach) (t : Bool × Nat) : Mach :=
  if t.1 then m.onTh t.2 fun x => { x with pendPhys := true } else m.fireVp t.2 false

/-- A fire (R536, R537): one pending interruption at each target named; the group closes with a count of zero. -/
def Mach.fireGroup (m : Mach) (g : Nat) : Mach :=
  let x := m.grp g
  let m := (m.setGrp g GrpSt.init).count R.dbell_cnt_fires
  x.targets.foldl (fun m t => m.pendTarget t) m

/-- A ring is counted in its group. -/
def Mach.addRing (m : Mach) (src : Nat) (t : Bool × Nat) : Mach :=
  let g := src / 256
  let x := m.grp g
  m.setGrp g { count := x.count + 1, isOpen := true, since := if x.isOpen then x.since else m.tod,
               targets := if x.targets.contains t then x.targets else x.targets ++ [t] }

/-- Whether an open group has reached its count limit; in M5 every ring fires (R538). -/
def Mach.grpFull (m : Mach) (g : Nat) : Bool :=
  (m.grp g).isOpen && (m.modeM5 || decide (max 1 (m.get (R.dbell_grp_climit g)) ≤ (m.grp g).count))

/-- A ring that the module makes itself, or one that passed its page (R530 to R536): accepted, and so counted, whether or not its entry lets it have an
effect (R533; log entry 20). -/
def Mach.ring (m : Mach) (src : Nat) (page : Nat := 0xFF) : Mach :=
  let m := m.count R.dbell_cnt_rings
  if m.get R.dbell_ttab_res ≠ 1 then m.dbellError 0xE2 page src
  else match m.targetEntry src with
    | none => m.dbellError 0xE3 page src
    | some e =>
      if !m.targetOk e then m.dbellError 0xE2 page src
      else
        let t := (bit e 62, bits e 9 0)
        let m := m.setSummary page src e
        if m.db.holding then { m with db := { m.db with deferred := m.db.deferred ++ [(src, t)] } }
        else
          let m := m.addRing src t
          if m.grpFull (src / 256) then m.fireGroup (src / 256) else m

/-- A store of n bytes that reaches a doorbell page (R529, R530). -/
def Mach.ringPage (m : Mach) (page off n val : Nat) : Mach :=
  if !(n == 4 || n == 8) || off % n != 0 || val / 2 ^ 20 != 0 then m.dbellError 0xE0 page (val % 2 ^ 20)
  else if !m.on (R.dbell_pg_en page) || decide (val < m.get (R.dbell_pg_first page)) || decide (m.get (R.dbell_pg_last page) < val) then
    m.dbellError 0xE1 page val
  else m.ring val page

/-- Every open group fires, and later rings are deferred: step 4 of a drain (R60, R538). -/
def Mach.fireAll (m : Mach) : Mach :=
  let m := (m.db.grp.filter fun x => x.2.isOpen).foldl (fun m x => m.fireGroup x.1) m
  { m with db := { m.db with holding := true } }

/-- The deferred rings are counted, at a boundary or when a drain is abandoned (R538): every group starts closed, and one that the rings fill
fires once for all of them. -/
def Mach.countDeferred (m : Mach) : Mach :=
  let d := m.db.deferred
  let m := { m with db := ⟨[], [], false⟩ }
  let m := d.foldl (fun m x => m.addRing x.1 x.2) m
  (m.db.grp.map (·.1)).foldl (fun m g => if m.grpFull g then m.fireGroup g else m) m

/-- A ring through a page (R529 to R536). -/
def execDoorbellRing (page off n val : Nat) (s : State) : Host.Outcome State Fault Refusal :=
  ans (decide (page < 240)) s fun m => if m.frozen then m else m.ringPage page off n val

/-- The time limit of an open group passes (R536). -/
def execGroupTimeLimit (g : Nat) (s : State) : Host.Outcome State Fault Refusal :=
  ans (decide (g < 4096)) s fun m => if m.frozen || !(m.grp g).isOpen then m else m.fireGroup g

/-- A write of `dbell.grp` has new limits in force: an open group that has reached one fires (R538). -/
def Mach.grpWritten (m : Mach) (g : Nat) : Mach :=
  if (m.grp g).isOpen && (m.grpFull g || decide (m.get (R.dbell_grp_tlim g) * 500 ≤ m.tod - (m.grp g).since)) then m.fireGroup g else m

def clampTo (lo hi v : Nat) : Nat := if v < lo then lo else if hi < v then hi else v

/-- A write of a whole `dbell.grp` register. -/
def execGroupLimitWrite (g val : Nat) (s : State) : Host.Outcome State Fault Refusal :=
  ans (decide (g < 4096)) s fun m =>
    if m.frozen then m
    else (m.sets [(R.dbell_grp_tlim g, clampTo 1 2000 (bits val 26 16)), (R.dbell_grp_climit g, max 1 (bits val 7 0))]).grpWritten g

/-- A target command ends. -/
def Mach.tcmdEnd (m : Mach) (r : Nat) : Mach := m.sets [(R.dbell_tcmd_done, 1), (R.dbell_tcmd_result, r), (R.dbell_tcmd_go, 0)]

/-- A `go` of `dbell.tcmd` (R533). -/
def Mach.tcmd (m : Mach) (op src : Nat) : Mach :=
  if m.frozen then m
  else if op ≠ 1 ∧ op ≠ 2 then m.tcmdEnd 2
  else if m.get R.dbell_ttab_res ≠ 1 then m.tcmdEnd 4
  else if op = 2 then
    match m.targetEntry src with
    | none => m.tcmdEnd 5
    | some e => (m.set R.dbell_tdata_value e).tcmdEnd 1
  else
    let v := m.get R.dbell_tdata_value
    if badTarget v then m.tcmdEnd 2
    else
      let m := if (m.grp (src / 256)).isOpen then m.fireGroup (src / 256) else m
      if (m.devCheck .hub (m.targetAddr src)).isSome then m.tcmdEnd 5
      else (m.devWrite (m.targetAddr src) (toBytes 8 v)).tcmdEnd 1

def execTargetWrite (src : Nat) (s : State) : Host.Outcome State Fault Refusal :=
  ans true s fun m => if m.frozen then m else (m.sets [(R.dbell_tcmd_op, 1), (R.dbell_tcmd_src, src)]).tcmd 1 src

def execTargetRead (src : Nat) (s : State) : Host.Outcome State Fault Refusal :=
  ans true s fun m => if m.frozen then m else (m.sets [(R.dbell_tcmd_op, 2), (R.dbell_tcmd_src, src)]).tcmd 2 src

/-! ### Rills (R539 to R546) -/

/-- The number of records of a Rill. -/
def Mach.rillN (m : Mach) (r : Nat) : Nat := 2 ^ m.get (R.rill_r_base_lsize r)

/-- Show whether a Rill is full by the consumer index that the writer holds (R541). -/
def Mach.rillLevel (m : Mach) (r c : Nat) : Mach :=
  let used := (m.get (R.rill_r_ring_prod r) + 2 ^ 32 - c) % 2 ^ 32
  let m := { m with rill := { m.rill with cons := tset m.rill.cons r c, consBad := m.rill.consBad.filter (· != r) } }
  if m.rillN r < used then
    ({ m with rill := { m.rill with consBad := r :: m.rill.consBad } }.set (R.rill_r_stat_full r) 1).rillError 0xEA r
  else m.set (R.rill_r_stat_full r) (b2n (used == m.rillN r))

/-- The writer reads the consumer word (R541, R653). -/
def Mach.readCons (m : Mach) (r : Nat) : Mach :=
  let a := m.get (R.rill_r_ci_addr r) * 8
  if (m.devCheck .hub a).isSome || m.devPoison a 8 then
    ({ m with rill := { m.rill with consBad := r :: m.rill.consBad.filter (· != r) } }.set (R.rill_r_stat_full r) 1).rillError 0xEC r
  else m.rillLevel r (ofBytes (m.devRead a 8) % 2 ^ 32)

/-- The consumer word is read before a record of an enabled Rill is considered when none is held, or when the Rill stands full. -/
def Mach.lookCons (m : Mach) (r : Nat) : Mach :=
  if m.on (R.rill_r_base_en r) && !m.rill.consBad.contains r && ((tfind m.rill.cons r).isNone || m.on (R.rill_r_stat_full r)) then m.readCons r else m

/-- Records staged for a Rill are discarded (R546). -/
def Mach.discardRill (m : Mach) (r : Nat) : Mach :=
  { m with rill := { m.rill with q := m.rill.q.map fun x => (x.1, x.2.filter fun y => y.rill != r) } }

/-- The writer forgets what it holds of a Rill. -/
def Mach.rillFresh (m : Mach) (r : Nat) : Mach :=
  { m with rill := { m.rill with cons := tdel m.rill.cons r, consBad := m.rill.consBad.filter (· != r) } }.set (R.rill_r_stat_full r) 0

/-- A write of `rill.r.base` (R539, R546). -/
def Mach.rillEnable (m : Mach) (r val : Nat) : Mach :=
  let was := m.on (R.rill_r_base_en r)
  if was && bit val 63 then m
  else
    let m := m.sets [(R.rill_r_base_base r, bits val 51 12), (R.rill_r_base_lsize r, clampTo 6 16 (bits val 4 0)), (R.rill_r_base_en r, bits val 63 63)]
    if was then (m.discardRill r).rillFresh r
    else if bit val 63 then (m.rillFresh r).set (R.rill_r_ring_prod r) 0 else m

def execRillEnable (r val : Nat) (s : State) : Host.Outcome State Fault Refusal :=
  ans (decide (r < 4096)) s fun m => if m.frozen then m else m.rillEnable r val

/-- A thread's post (R542): it waits while its tier's queue is full. -/
def Mach.rillPost (m : Mach) (th val : Nat) : Option Mach :=
  if (tget m.rill.q (th / 24) []).length < 64 then
    some (m.stage (th / 24) ⟨bits val 11 0, 0x08, m.tod, [(0x10, 1, th), (0x14, 4, bits val 63 32)], 1000 + th, true, false⟩)
  else none

def execRillPost (th val : Nat) (s : State) : Host.Outcome State Fault Refusal :=
  ans (decide (th < 96)) s fun m => if m.frozen then m else (m.rillPost th val).getD m

/-- Records kept by stalled producers enter the hub queue in the round-robin order of R544, at most n of them. -/
def Mach.admitKept (m : Mach) : Nat → Mach
  | 0 => m
  | n + 1 =>
    if (tget m.rill.q 4 []).length ≥ 64 then m
    else
      let from_ := m.rill.nextProd
      let pick := (m.rill.kept.map (·.prod)).foldl (fun (b : Option Nat) p =>
        match b with
        | none => some p
        | some q => if (p + 1000 - from_) % 1000 < (q + 1000 - from_) % 1000 then some p else some q) none
      match pick with
      | none => m
      | some p =>
        match takeFirst (fun (x : RillRec) => x.prod == p) m.rill.kept with
        | none => m
        | some (x, rest) =>
          ({ m with rill := { m.rill with kept := rest, nextProd := p + 1, q := tset m.rill.q 4 (tget m.rill.q 4 [] ++ [x]) } } : Mach).admitKept n

/-- The 64 bytes of a record (Table 20.2). -/
def RillRec.bytes (x : RillRec) (phase drops modNo : Nat) : List Nat :=
  let body := if x.kind = 4 then x.body ++ [(0x2A, 2, drops)] else x.body
  let w := body.foldl (fun w f => setBits w (8 * (64 - f.1) - 1) (8 * (64 - f.1 - f.2.1)) f.2.2) 0
  [phase * 128, x.kind] ++ toBytes 2 drops ++ [modNo, 0, 0, 0] ++ toBytes 8 x.tod ++ (toBytes 64 w).drop 16

/-- The writer writes a record that it has taken (R540, R546, R653). -/
def Mach.writeRecord (m : Mach) (x : RillRec) : Mach :=
  let r := x.rill
  if !m.on (R.rill_r_base_en r) then m.rillError 0xE8 r
  else
    let N := m.rillN r
    let P := m.get (R.rill_r_ring_prod r)
    let a := m.get (R.rill_r_base_base r) * 4096 / (64 * N) * (64 * N) + 64 * (P % N)
    if (m.devCheck .hub a).isSome then (((m.set (R.rill_r_base_en r) 0).discardRill r).rillFresh r).rillError 0xEB r
    else
      let m := m.devWrite a (x.bytes (1 - P / N % 2) (m.get (R.rill_r_stat_pend r)) m.modNo)
      let m := ((m.set (R.rill_r_stat_pend r) 0).count R.rill_cnt_written).set (R.rill_r_ring_prod r) (P + 1)
      let m := m.rillLevel r (tget m.rill.cons r 0)
      let m := if x.ring then m.ring (m.get R.spill_cfg_src) else m
      if m.on (R.rill_r_ring_ring r) then m.ring (m.get (R.rill_r_ring_src r)) else m

/-- Whether the writer may take a record now: its Rill is not full, or not enabled. -/
def Mach.mayWrite (m : Mach) (x : RillRec) : Bool := !m.on (R.rill_r_base_en x.rill) || !m.on (R.rill_r_stat_full x.rill)

/-- One slot of the writer (R544, R545). -/
def Mach.rillSlot (m : Mach) : Mach :=
  let m := m.admitKept 512
  let rills : List Nat := m.rill.q.flatMap fun (x : Nat × List RillRec) => x.2.map (·.rill)
  let m := rills.eraseDups.foldl (fun m r => m.lookCons r) m
  let order := (List.range 5).map fun i => (m.rill.nextQ + i) % 5
  match order.findSome? fun q => (takeFirst m.mayWrite (tget m.rill.q q [])).map fun x => (q, x) with
  | none => m
  | some (q, x, rest) => ({ m with rill := { m.rill with q := tset m.rill.q q rest, nextQ := (q + 1) % 5 } } : Mach).writeRecord x

def execRillWriterSlot (s : State) : Host.Outcome State Fault Refusal :=
  ans true s fun m => if m.frozen then m else m.rillSlot

/-- The consumer word is read again (R541). -/
def execConsumerWordRead (r : Nat) (s : State) : Host.Outcome State Fault Refusal :=
  ans (decide (r < 4096)) s fun m => if m.frozen || !m.on (R.rill_r_base_en r) then m else m.readCons r

/-- Whether some staged record could still be written (step 5 of R60 ends when none can, R61). -/
def Mach.rillIdle (m : Mach) : Bool := m.rill.q.all fun x => x.2.all fun y => !m.mayWrite y

end Sys2Proof.Machine
end

