-- ==== Sys2Proof/Machine/Pcie.lean ====
section
/-! DEFINITION. PCIe root ports seen from the module: registers, own configuration space, slot, outbound failures, containment (spec/18, R498 to R504
and R508 to R515). -/

namespace Sys2Proof.Machine

def Mach.pport (m : Mach) (p : Nat) : PciePort := tget m.pcie p PciePort.init
def Mach.onPport (m : Mach) (p : Nat) (f : PciePort → PciePort) : Mach := { m with pcie := tset m.pcie p (f (m.pport p)) }

/-- The port runs as a root port: its personality, the even port's in a bonded pair, whose odd port is none (R498). -/
def Mach.isRoot (m : Mach) (p : Nat) : Bool :=
  if m.on (R.chan_jl_ctl_bond (p / 2 * 2)) then p % 2 == 0 && m.get (R.chan_jl_ctl_pers p) == 2 else m.get (R.chan_jl_ctl_pers p) == 2

/-- A root port error: recorded in `pcie.p.err`, `pcie.p.erra`, and raised under its source (Table 22.1). -/
def Mach.pcieError (m : Mach) (p code addr : Nat) (rid : Nat := 0) (tlp : Nat := 0) : Mach :=
  let m := m.sets [(R.pcie_p_err_rid p, rid), (R.pcie_p_err_tlp p, tlp), (R.pcie_p_err_new p, 1), (R.pcie_p_err_code p, code),
    (R.pcie_p_erra_addr p, addr)]
  m.raise (2288 + 32 * p + 16 + (code - 0xc0)) (m.word (R.pcie_p_err p))

/-- The bus address, or configuration address, that a physical address reaches. -/
def Mach.busAddr (m : Mach) (p : Nat) (ecam : Bool) (pa : Nat) : Nat :=
  if ecam then (pa - m.get R.pcie_ecam_base * 2 ^ 33) % 2 ^ 28
  else pa - m.get (R.pcie_p_mwin_base p) * 2 ^ 30 + m.get (R.pcie_p_boff_off p) * 2 ^ 30

/-- Whether a port can send: up and not contained. -/
def Mach.pcieUp (m : Mach) (p : Nat) : Bool := m.get (R.pcie_p_stat_state p) == 2 && !m.on (R.pcie_p_stat_cont p)

/-! ### Outbound loads -/

/-- Marks a completion whose data is poisoned (R504). -/
def poisonMark : Nat := 2 ^ 200

/-- A load gets its data: the thread that waits for it goes on. -/
def Mach.pcieAnswer (m : Mach) (p tag v : Nat) : Mach :=
  match (m.pport p).loads.find? fun l => l.tag == tag with
  | none => m
  | some l =>
    let m := m.onPport p fun x => { x with loads := x.loads.filter fun y => y.tag != tag }
    m.onTh l.th fun t => if t.wait = .pcieLoad p tag then { t with wait := .none, got := t.got ++ [v] } else t

/-- A load completes with all ones, and code 0xC4 (R504). -/
def Mach.pcieFail (m : Mach) (p tag : Nat) : Mach :=
  match (m.pport p).loads.find? fun l => l.tag == tag with
  | none => m
  | some l => (m.pcieAnswer p tag (2 ^ (8 * l.len) - 1)).pcieError p 0xC4 l.addr

def Mach.pcieFailAll (m : Mach) (p : Nat) : Mach := (m.pport p).loads.foldl (fun m l => m.pcieFail p l.tag) m

/-! ### Slot events (R508, R509, Table 18.4) -/

/-- The MSI of a root port: an MSI capability that is enabled and names a doorbell page rings its data there (R509; placed as log entry 31 says). -/
def Mach.pcieMsi (m : Mach) (p : Nat) : Mach :=
  let b := fun (o n : Nat) => (List.range n).foldl (fun w i => w + tget (m.pport p).cfg (o + i) 0 * 256 ^ i) 0
  let a := b 0x84 8
  if bit (b 0x82 2) 0 ∧ 0x000fe00000100000 ≤ a ∧ a < 0x000fe000001f0000 then
    m.ringPage ((a - 0x000fe00000100000) / 4096) (a % 4096) 4 (b 0x8C 2)
  else m

/-- Latch event bit i of Slot Status; the hot-plug interrupt is signalled where Slot Control enables it for the event. -/
def Mach.slotEvent (m : Mach) (p i : Nat) : Mach :=
  let x := m.pport p
  let en := if i = 8 then 12 else i
  let m := m.onPport p fun x => { x with slotSts := x.slotSts ||| 2 ^ i }
  if bit x.slotCtl 5 && bit x.slotCtl en && !bit x.slotSts i then m.pcieMsi p else m

/-- An output pin of a slot (Table 18.3): 0 PWREN, 1 PERST_N, 2 AIND, 3 PIND. -/
def Mach.slotPin (m : Mach) (p k : Nat) (v : Bool) : Mach := m.emit (.pin (1000 + 8 * p + k) v)

/-- Presence: the debounced input or Data Link Layer Link Active; a change is latched with code 0xCC (R508). -/
def Mach.slotPresence (m : Mach) (p : Nat) : Mach :=
  let b := m.on (R.pcie_p_hp_prsnt p) || m.on (R.pcie_p_stat_dlla p)
  if b = m.on (R.pcie_p_stat_prs p) then m
  else ((m.set (R.pcie_p_stat_prs p) (b2n b)).slotEvent p 3).pcieError p 0xCC 0

/-- The data link goes active or inactive. -/
def Mach.slotLink (m : Mach) (p : Nat) (b : Bool) : Mach :=
  if b = m.on (R.pcie_p_stat_dlla p) then m
  else
    let m := m.sets [(R.pcie_p_stat_dlla p, b2n b), (R.id_ioports_io, if b then m.get R.id_ioports_io ||| 2 ^ p else m.get R.id_ioports_io &&& (2 ^ 32 - 1 ^^^ 2 ^ p))]
    let m := if b then m else m.sets [(R.pcie_p_stat_width p, 0), (R.pcie_p_stat_flit p, 0)]
    (m.slotEvent p 8).slotPresence p

/-- Slot power goes on: HP_PWREN with HP_PERST_N held (R510). -/
def Mach.powerOn (m : Mach) (p : Nat) : Mach :=
  let m := m.onPport p fun x => { x with slotCtl := x.slotCtl &&& (0xFFFF ^^^ 0x400) }
  if m.on (R.pcie_p_stat_pwr p) then m
  else (m.sets [(R.pcie_p_hp_pwren p, 1), (R.pcie_p_hp_perst p, 1), (R.pcie_p_stat_pwr p, 1), (R.pcie_p_stat_state p, if m.on (R.pcie_p_stat_cont p) then 3 else 0)]).slotPin p 0 true

/-- The power-off sequence (R510): loads completed, link disabled, HP_PERST_N asserted, HP_PWREN deasserted. -/
def Mach.powerOff (m : Mach) (p : Nat) : Mach :=
  let m := m.onPport p fun x => { x with slotCtl := x.slotCtl ||| 0x400 }
  if !m.on (R.pcie_p_stat_pwr p) then m
  else
    let m := (m.pcieFailAll p).sets [(R.pcie_p_stat_pwr p, 0), (R.pcie_p_hp_perst p, 1), (R.pcie_p_hp_pwren p, 0)]
    let m := (m.slotLink p false).set (R.pcie_p_stat_state p) (if m.on (R.pcie_p_stat_cont p) then 3 else 4)
    (m.slotPin p 1 false).slotPin p 0 false

/-- Containment (R513): outstanding loads complete, and nothing passes until a release; the first cause stands. -/
def Mach.enterContain (m : Mach) (p code : Nat) : Mach :=
  if m.on (R.pcie_p_stat_cont p) then m
  else (((m.sets [(R.pcie_p_stat_cont p, 1), (R.pcie_p_stat_cause p, code), (R.pcie_p_stat_state p, 3)]).pcieFailAll p).slotLink p false)

/-- Containment with its code reported (R512). -/
def Mach.contain (m : Mach) (p code : Nat) : Mach := (m.pcieError p code 0).enterContain p code

/-- An indicator of Slot Control (1 on, 2 blink, 3 off) as `pcie.p.hp` shows it. -/
def indOf (c : Nat) : Nat := if c = 3 then 0 else c

/-- A Slot Control write takes effect (R510): indicators, then power; Command Completed is set once. -/
def Mach.slotControl (m : Mach) (p v : Nat) : Mach :=
  let old := (m.pport p).slotCtl
  -- the reserved indicator value 0 leaves an indicator as it is
  let keep := fun (hi lo : Nat) (w : Nat) => if bits v hi lo = 0 then setBits w hi lo (bits old hi lo) else w
  let w := keep 9 8 (keep 7 6 (v % 65536))
  let m := m.onPport p fun x => { x with slotCtl := setBits w 10 10 (bits old 10 10) }
  let m := m.sets [(R.pcie_p_hp_aind p, indOf (bits w 7 6)), (R.pcie_p_hp_pind p, indOf (bits w 9 8))]
  let m := if bits w 7 6 = bits old 7 6 then m else m.slotPin p 2 (bits w 7 6 != 3)
  let m := if bits w 9 8 = bits old 9 8 then m else m.slotPin p 3 (bits w 9 8 != 3)
  let m := if bit w 10 then m.powerOff p else m.powerOn p
  m.slotEvent p 4

/-! ### The root port's own configuration space (R501, R509) -/

/-- Slot Capabilities and Link Capabilities (Table 18.4). -/
def Mach.slotCaps (m : Mach) (p : Nat) : Nat := 0x5F + m.get (R.pcie_p_ctl_spl p) * 2 ^ 7 + (32 * m.modNo + p + 1) * 2 ^ 19
def linkCaps : Nat := 2 ^ 19 + 2 ^ 20

/-- Slot Status: event bits, latch open, presence. -/
def Mach.slotStatus (m : Mach) (p : Nat) : Nat :=
  (m.pport p).slotSts + (if m.on (R.pcie_p_hp_mrl p) then 0 else 32) + (if m.on (R.pcie_p_stat_prs p) then 64 else 0)

/-- Link Status: rate, width and Data Link Layer Link Active. -/
def Mach.linkStatus (m : Mach) (p : Nat) : Nat :=
  (if m.get (R.pcie_p_stat_width p) = 0 then 0 else m.get (R.pcie_p_stat_rate p) + 3 + m.get (R.pcie_p_stat_width p) * 16)
    + (if m.on (R.pcie_p_stat_dlla p) then 2 ^ 13 else 0)

/-- The read-only bytes of the Type 1 header, of the PCI Express capability at 0x40 and of the MSI capability at 0x80, by offset (R501, Table 18.4;
their places and the values that the spec does not give are the family's, log entry 31). -/
def Mach.cfgFixed (m : Mach) (p o : Nat) : Option Nat :=
  let at_ := fun (lo n v : Nat) => if lo ≤ o ∧ o < lo + n then some (v / 256 ^ (o - lo) % 256) else none
  (at_ 0x00 4 0x25B04E4B).or <| (at_ 0x06 2 0x10).or <| (at_ 0x08 4 0x06040000).or <| (at_ 0x0E 1 1).or <| (at_ 0x34 1 0x40).or <|
    (at_ 0x40 4 0x01428010).or <| (at_ 0x4C 4 linkCaps).or <| (at_ 0x52 2 (m.linkStatus p)).or <| (at_ 0x54 4 (m.slotCaps p)).or <|
    (at_ 0x5E 2 1).or (at_ 0x80 2 0x0005)

/-- A byte of the configuration space, whose registers are little-endian. -/
def Mach.cfgByte (m : Mach) (p o : Nat) : Nat :=
  match m.cfgFixed p o with
  | some v => v
  | none =>
    if 0x58 ≤ o ∧ o < 0x5A then (m.pport p).slotCtl / 256 ^ (o - 0x58) % 256
    else if 0x5A ≤ o ∧ o < 0x5C then m.slotStatus p / 256 ^ (o - 0x5A) % 256
    else if o = 0x82 then tget (m.pport p).cfg o 0 % 128 + 128
    else tget (m.pport p).cfg o 0

/-- A write of bytes of the configuration space: Slot Control acts, Slot Status events are cleared by ones, capabilities are read-only. -/
def Mach.cfgWrite (m : Mach) (p o : Nat) (bs : List Nat) : Mach :=
  let at_ := fun (k d : Nat) => if o ≤ k ∧ k < o + bs.length then bs.getD (k - o) 0 else d
  let m := (List.range bs.length).foldl (fun m i =>
    let k := o + i
    if (m.cfgFixed p k).isSome ∨ (0x58 ≤ k ∧ k < 0x5C) then m else m.onPport p fun x => { x with cfg := tset x.cfg k (bs.getD i 0) }) m
  let clr := at_ 0x5A 0 + 256 * at_ 0x5B 0
  let m := m.onPport p fun x => { x with slotSts := x.slotSts &&& (0xFFFF ^^^ (clr &&& 0x11F)) }
  let c := (m.pport p).slotCtl
  if o < 0x5A ∧ 0x58 < o + bs.length then m.slotControl p (at_ 0x58 (c % 256) + 256 * at_ 0x59 (c / 256)) else m

/-! ### Commands of the slot and the link -/

/-- A command of a root port. -/
def rootRow (p : Nat) (s : State) (f : Mach → Mach) : Host.Outcome State Fault Refusal :=
  ans (decide (p < 32)) s fun m => if m.frozen || !m.sealed || !m.isRoot p then m else f m

def execPcieCompletionTimeout (port tag : Nat) (s : State) : Host.Outcome State Fault Refusal := rootRow port s fun m => m.pcieFail port tag

/-- A completion arrives: its data, whether its status is successful, and whether it carries EP (R503, R504). -/
def execPcieCompletion (port tag data : Nat) (ok ep : Bool) (s : State) : Host.Outcome State Fault Refusal :=
  rootRow port s fun m =>
    if !m.pcieUp port then m
    else match (m.pport port).loads.find? fun l => l.tag == tag with
      | none => m
      | some l =>
        if !ok then m.pcieFail port tag
        else if ep then (m.pcieError port 0xC7 l.addr).pcieAnswer port tag poisonMark
        else m.pcieAnswer port tag (data % 2 ^ (8 * l.len))

def execAttentionButtonPressed (port : Nat) (pressed : Bool) (s : State) : Host.Outcome State Fault Refusal :=
  rootRow port s fun m =>
    let m := m.set (R.pcie_p_hp_abtn port) (b2n pressed)
    if pressed then (m.slotEvent port 0).pcieError port 0xCC 0 else m

/-- A cause of code 0xCB while slot power is on: containment, and power is removed (R512). -/
def Mach.surprise (m : Mach) (p : Nat) : Mach := if m.on (R.pcie_p_stat_pwr p) then (m.contain p 0xCB).powerOff p else m

def execPresenceDetectChanged (port : Nat) (prsnt : Bool) (s : State) : Host.Outcome State Fault Refusal :=
  rootRow port s fun m =>
    let was := m.on (R.pcie_p_stat_prs port)
    let m := (m.set (R.pcie_p_hp_prsnt port) (b2n prsnt)).slotPresence port
    if was && !m.on (R.pcie_p_stat_prs port) then m.surprise port else m

def execMrlSensorChanged (port : Nat) (closed : Bool) (s : State) : Host.Outcome State Fault Refusal :=
  rootRow port s fun m =>
    if m.on (R.pcie_p_hp_mrl port) = closed then m
    else
      let m := ((m.set (R.pcie_p_hp_mrl port) (b2n closed)).slotEvent port 2).pcieError port 0xCC 0
      if closed then m else m.surprise port

def execPowerFault (port : Nat) (present : Bool) (s : State) : Host.Outcome State Fault Refusal :=
  rootRow port s fun m =>
    let m := m.set (R.pcie_p_hp_pflt port) (b2n present)
    if present then (m.slotEvent port 1).surprise port else m

/-- A Slot Control write of power on. -/
def execSlotPowerOn (port : Nat) (s : State) : Host.Outcome State Fault Refusal :=
  rootRow port s fun m => m.slotControl port ((m.pport port).slotCtl &&& (0xFFFF ^^^ 0x400))

def execSlotPowerOff (port : Nat) (s : State) : Host.Outcome State Fault Refusal :=
  rootRow port s fun m => m.slotControl port ((m.pport port).slotCtl ||| 0x400)

/-- A Slot Control write of the attention and power indicators (1 on, 2 blink, 3 off). -/
def execIndicatorChange (port aind pind : Nat) (s : State) : Host.Outcome State Fault Refusal :=
  rootRow port s fun m => m.slotControl port (setBits (setBits (m.pport port).slotCtl 7 6 aind) 9 8 pind)

/-- 100 ms after power on the adapter's reset is released and the link trains. -/
def execPerstRelease (port : Nat) (s : State) : Host.Outcome State Fault Refusal :=
  rootRow port s fun m =>
    if !m.on (R.pcie_p_hp_pwren port) || !m.on (R.pcie_p_hp_perst port) then m
    else
      let m := (m.set (R.pcie_p_hp_perst port) 0).slotPin port 1 true
      if m.get (R.pcie_p_stat_state port) = 0 then m.set (R.pcie_p_stat_state port) 1 else m

def execNoLinkTimeout (port : Nat) (s : State) : Host.Outcome State Fault Refusal :=
  rootRow port s fun m =>
    if !m.on (R.pcie_p_stat_pwr port) || m.on (R.pcie_p_hp_perst port) || m.get (R.pcie_p_stat_state port) == 2 then m else m.pcieError port 0xCD 0

/-- A link is up (R510): rate, width, Flit Mode, and whether both ends could do better. -/
def execPcieLinkUp (port rate width : Nat) (below : Bool) (s : State) : Host.Outcome State Fault Refusal :=
  rootRow port s fun m =>
    if m.get (R.pcie_p_stat_state port) ≠ 1 ∨ m.get R.pcie_ecam_res ≠ 1 then m
    else
      let m := m.sets [(R.pcie_p_stat_state port, 2), (R.pcie_p_stat_rate port, min rate (m.get (R.pcie_p_ctl_gmax port))), (R.pcie_p_stat_width port, width),
        (R.pcie_p_stat_flit port, b2n (min rate (m.get (R.pcie_p_ctl_gmax port)) == 3))]
      let m := (m.slotLink port true).pcieError port 0xC2 0
      if below then m.pcieError port 0xC3 0 else m

def execPcieLinkDown (port : Nat) (s : State) : Host.Outcome State Fault Refusal :=
  rootRow port s fun m =>
    if m.get (R.pcie_p_stat_state port) ≠ 2 then m
    else if m.on (R.pcie_p_stat_pwr port) then m.contain port 0xC1
    else (m.slotLink port false).set (R.pcie_p_stat_state port) 4

/-- An error detected at the port: correctable, or uncorrectable. -/
def execPcieLinkError (port : Nat) (fatal : Bool) (s : State) : Host.Outcome State Fault Refusal :=
  rootRow port s fun m =>
    if fatal then (if m.on (R.pcie_p_stat_pwr port) then m.contain port 0xC9 else m)
    else (m.count (R.pcie_p_cnt_corr port)).pcieError port 0xC0 0

/-- A release (R513): handled and cleared; with slot power on the link trains again. -/
def Mach.containRelease (m : Mach) (p : Nat) : Mach :=
  let m := m.set (R.pcie_p_ctl_release p) 0
  if !m.on (R.pcie_p_stat_cont p) then m
  else m.sets [(R.pcie_p_stat_cont p, 0), (R.pcie_p_stat_cause p, 0), (R.pcie_p_stat_state p, if m.on (R.pcie_p_stat_pwr p) then 1 else 4)]

def execContainmentRelease (port : Nat) (s : State) : Host.Outcome State Fault Refusal := rootRow port s fun m => m.containRelease port

end Sys2Proof.Machine
end

