-- ==== Sys2Proof/Machine/Operands.lean ====
section
/-! DEFINITION. Operands in storage (R78 to R81, R84 to R90): effective addresses, the pieces of an access, loads with store forwarding,
stores, reads of the module control space, and outbound PCIe accesses. -/

namespace Sys2Proof.Machine

/-! ### Effective addresses (R80) -/

def signExt (n x : Nat) : W64 := BitVec.ofInt 64 (sx n x)

/-- Forms M and W: base plus sign-extended displacement. -/
def eaM (a : Arch) (base disp : Nat) : W64 := a.gr base + signExt 16 disp

/-- Form X: base plus shifted index. -/
def eaX (a : Arch) (base idx sc : Nat) : W64 := a.gr base + (a.gr idx <<< sc)

/-! ### Pieces of an access -/

/-- One piece of an access: its physical address, its length, its offset in the operand, its translation, and its effective address. -/
structure Piece where
  pa : Nat
  len : Nat
  off : Nat
  xl : Xl
  va : Nat
deriving DecidableEq, Repr

/-- The cuts of an operand of n bytes at va at every 256-byte line (R79): (address, length, offset). -/
def cutLines (va n : Nat) : List (Nat × Nat × Nat) :=
  if n = 0 then []
  else (List.range ((va + n - 1) / 256 - va / 256 + 1)).map fun i =>
    let lo := max va ((va / 256 + i) * 256)
    let hi := min (va + n) ((va / 256 + i + 1) * 256)
    (lo, hi - lo, lo - va)

/-- Translate and check one piece: region access (R322), home or uncached space. -/
def checkPiece (th : Nat) (acc : Acc) (c : Nat × Nat × Nat) : X Piece := do
  let x ← translate th (c.1 % 2 ^ 64) acc
  let m ← X.mach
  if m.uncached x.pa || m.inScratch th x.pa then pure ⟨x.pa, c.2.1, c.2.2, x, c.1 % 2 ^ 64⟩
  else if !x.cmp && (m.apOf x.pa).isSome then do
    X.modify (·.cisError 0x76 (x.pa / 4096))
    X.stop (.mck 2150)
  else if m.threadMay (m.th th).cur.pl x.window x.pa then pure ⟨x.pa, c.2.1, c.2.2, x, c.1 % 2 ^ 64⟩
  else do
    X.modify fun m => (m.rgnRefused x.pa true).raiseCore (th / 2) 28 0 (some th)
    X.stop (.mck (32 * (th / 2) + 28))

def checkPieces (th : Nat) (acc : Acc) : List (Nat × Nat × Nat) → X (List Piece)
  | [] => pure []
  | c :: r => do
    let p ← checkPiece th acc c
    let ps ← checkPieces th acc r
    pure (p :: ps)

/-- Every piece of an operand, translated and checked before any byte is used (R79, R109). -/
def access (th : Nat) (va : W64) (n : Nat) (acc : Acc) : X (List Piece) := checkPieces th acc (cutLines va.toNat n)

/-! ### Loads -/

/-- The stores of a thread that are not yet performed, oldest first: retired, then in the window. -/
def Thread.stores (t : Thread) : List StoreE := t.sbuf ++ t.win.flatMap (·.stores)

def overlaps (e : StoreE) (pa n : Nat) : Bool := decide (e.pa < pa + n) && decide (pa < e.pa + e.len)

/-- Load one piece of memory: from the youngest overlapping store when it covers the piece (R243; in M5 a non-temporal one too, R249, R255), waiting when
the overlap is partial; in M5 after every earlier store, unless forwarded; otherwise through the L1 data cache and the L2. Non-cacheable memory is
read through the L2 alone and feeds no stream (R250, log entry 18). -/
def loadPiece (th : Nat) (p : Piece) (excl : Bool) : X Nat := do
  let m ← X.mach
  if m.inScratch th p.pa then
    pure (ofBytes ((List.range p.len).map fun i => m.scratchByte (p.pa + i)))
  else
  match ((m.th th).stores.filter fun e => overlaps e p.pa p.len).getLast? with
  | some e =>
    if e.pa ≤ p.pa ∧ p.pa + p.len ≤ e.pa + e.len ∧ (!e.nt || m.modeM5) then
      pure ((e.val >>> (8 * (e.pa + e.len - p.pa - p.len))) % 2 ^ (8 * p.len))
    else X.wait
  | none =>
    if m.modeM5 && (m.th th).stores != [] then X.wait
    else do
      let u := LineUse.load p.va p.pa
      let w ← useBy (if p.xl.nc then { u with l1 := none, feeds := false } else u) th (p.pa / 256) excl .demand
      pure (lineGet w.data (p.pa % 256) p.len)

def loadPieces (th : Nat) (excl : Bool) : List Piece → X Nat
  | [] => pure 0
  | p :: r => do
    let v ← loadPiece th p excl
    let w ← loadPieces th excl r
    pure (v * 2 ^ (8 * (r.foldl (fun n q => n + q.len) 0)) + w)

/-! ### The module control space, read -/

/-- The value of an 8-byte-aligned MCS offset (R26, R32); doorbell pages read as zero (R529), write-only fields as zero, and so do the registers of
reserved sources (R578). -/
def Mach.mcsRead (m : Mach) (off : Nat) : Nat :=
  let o := off / 8 * 8
  if 0x100000 ≤ o ∧ o < 0x1f0000 then 0
  else match blkOf o with
    | none => 0
    | some b => match regAt b o with
      | none => 0
      | some (d, ix) =>
        let w := if b == .spill && d.base == (R.spill_src_ctl 0).off + o % 0x20 && !srcExists (ix.headD 0) then 0 else m.word ⟨b, o, 63, 0⟩
        d.fields.foldl (fun x f => if f.cls = .wo then setBits x f.hi f.lo 0 else x) w

/-- The lowest level that a thread needs for an MCS offset (Table 1.6, with the finer bounds of R376, R404, R445, chapter 19, R529). -/
def mcsLevel (off : Nat) : Nat :=
  match blkOf off with
  | none => 0
  | some .id => 1
  | some .mode => if 0x10100 ≤ off ∧ off < 0x10258 then 3 else 2
  | some .dbell => if off < 0x1f0000 then 0 else 2
  | some .rill => 2 | some .casc => 2 | some .weir => 2 | some .spill => 3 | some .grotto => 3
  | some .acc => if off % 0x80000 < 0x10000 then 2 else 1
  | some .chan => if off % 0x100000 < 0x10000 then 2 else 1
  | some .mem => 3 | some .aq => 3 | some .pcie => 2
  | some .cpl => if off % 0x100000 < 0x10000 then 2 else 1
  | some .od => 2 | some .core => 2

/-- The checks of a thread's MCS access: size and alignment, then privilege (R28, R30, Table 3.20). -/
def mcsCheck (th pa off n : Nat) (wr : Bool) : X Unit := do
  X.need ((n == 4 || n == 8) && pa % n == 0) (.exc 0x0206 pa wr none)
  let a ← X.regs th
  X.need (decide (mcsLevel off ≤ a.pl)) (.exc 0x0205 pa wr none)

/-- The access is performed only when its checkpoint is the oldest of its thread and every earlier store has been performed (R29, R154, R253). -/
def X.oldest (th : Nat) : X Unit := do
  let m ← X.mach
  match m.commitAll th 40 with
  | none => X.wait
  | some m' =>
    X.modify fun _ => m'.onTh th fun t => { t with nowSync := true }
    if m'.storesDone th then pure () else X.wait

/-- A thread's load from the MCS. A register of another module is not part of this module's state: its value is free (log entry 9). -/
def mcsLoad (th pa off md n : Nat) : X Nat := do
  mcsCheck th pa off n false
  X.oldest th
  let m ← X.mach
  if md = m.modNo then
    let w := m.mcsRead off
    pure (if n = 8 then w else if off % 8 = 0 then w / 2 ^ 32 else w % 2 ^ 32)
  else do
    let (v, m') := m.draw
    X.modify fun _ => m'.emit (.mcs md off 0)
    pure (v % 2 ^ (8 * n))

/-! ### Outbound PCIe accesses (R501 to R504) -/

/-- A load from PCIe memory space: on bus 0 from the root port itself, else a request on the link whose completion the thread awaits (R503);
with the port not up, or contained, all ones and code 0xC4 (R504). Completions already here are used in the order of the pieces. -/
def pcieLoad (th pa p : Nat) (ecam : Bool) (n : Nat) : X Nat := do
  X.oldest th
  let m ← X.mach
  let t := m.th th
  match t.got[t.gotIx]? with
  | some v =>
    if v = poisonMark then do
      X.modify (·.l2Error (th / 2) 0x08 (pa / 256) 0 (some th))
      X.stop (.mck (32 * (th / 2) + 23))
    X.modify (·.onTh th fun t => { t with gotIx := t.gotIx + 1 })
    pure (v % 2 ^ (8 * n))
  | none =>
    let ba := m.busAddr p ecam pa
    if ecam ∧ ba < 2 ^ 20 then
      if ba < 4096 then pure (ofBytes ((List.range n).map fun i => m.cfgByte p (ba + i)))
      else pure (2 ^ (8 * n) - 1)
    else if m.pcieUp p && !m.blkDown (80 + p) then do
      let tag := (m.pport p).nextTag
      X.modify fun m => ((m.onPport p fun x => { x with loads := x.loads ++ [⟨tag, th, ba, n⟩], nextTag := (tag + 1) % 256 }).emit
        (.pcie p [if ecam then 2 else 0, tag, ba, n] [])).onTh th fun t => { t with wait := .pcieLoad p tag }
      X.wait
    else do
      X.modify (·.pcieError p 0xc4 ba)
      pure (2 ^ (8 * n) - 1)

/-! ### Loads of every kind -/

/-- Load the pieces of an operand, from memory or PCIe memory space. -/
def loadAll (th : Nat) (excl : Bool) : List Piece → X Nat
  | [] => pure 0
  | p :: r => do
    let m ← X.mach
    let v ← match m.pcieWin p.pa with
      | some (port, ecam) => pcieLoad th p.pa port ecam p.len
      | none => loadPiece th p excl
    let w ← loadAll th excl r
    pure (v * 2 ^ (8 * (r.foldl (fun n q => n + q.len) 0)) + w)

/-- An operand that reaches the MCS must be one whole word or double there (R30). -/
def mcsRefuse (ps : List Piece) (n : Nat) (wr : Bool) : X Unit := do
  let m ← X.mach
  match ps.find? fun p => (m.mcsOff p.pa).isSome with
  | some p => X.need (ps.length == 1 && (n == 4 || n == 8) && p.pa % n == 0) (.exc 0x0206 p.pa wr none)
  | none => pure ()

/-- Load n bytes at an effective address (R78, R79). An atomic's load asks for the line exclusive. -/
def loadN (th : Nat) (va : W64) (n : Nat) (acc : Acc) (excl : Bool) : X Nat := do
  let ps ← access th va n acc
  mcsRefuse ps n false
  let m ← X.mach
  match ps.head?.bind fun p => (m.mcsOff p.pa).map fun x => (p.pa, x) with
  | some (pa, md, off) => mcsLoad th pa off md n
  | none => loadAll th excl ps

/-! ### Stores -/

/-- The stores that an operand of n bytes makes into cacheable memory: at most 16 bytes each, none across a line (R241). -/
def mkStores (ps : List Piece) (n v : Nat) (nt : Bool) : List StoreE :=
  ps.flatMap fun p => (List.range (cdiv p.len 16)).map fun j =>
    let len := min 16 (p.len - 16 * j)
    ⟨p.pa + 16 * j, len, (v >>> (8 * (n - p.off - 16 * j - len))) % 2 ^ (8 * len), nt⟩

/-- How a store to the MCS acts: offset, part (R30), value, thread; `none` while it has to wait.  The bus file supplies it. -/
abbrev McsStore := Mach → Nat → Nat → Nat → Nat → Option Mach

/-- A store to the boot scratch (R627) reaches it at once; only the boot thread executes before boot seal. -/
def Mach.scratchStore (m : Mach) (pa : Nat) (bs : List Nat) : Mach :=
  { m with boot := { m.boot with scratch := (List.range bs.length).foldl (fun t i => tset t (pa + i) (bs.getD i 0)) m.boot.scratch } }

/-- A store to PCIe memory space: performed when its port accepts it, discarded and counted when the port cannot send it (R503, R504). -/
def Mach.pcieStore (m : Mach) (p : Nat) (ecam : Bool) (pa : Nat) (bs : List Nat) : Mach :=
  let ba := m.busAddr p ecam pa
  if ecam ∧ ba < 2 ^ 20 then
    if ba < 4096 then m.cfgWrite p ba bs
    else m
  else if m.pcieUp p && !m.blkDown (80 + p) then m.emit (.pcie p [if ecam then 3 else 1, ba, bs.length] bs)
  else (m.count (R.pcie_p_cnt_discard p)).pcieError p 0xc4 ba

/-- The stores of an operand whose pieces are checked: PCIe memory space and boot scratch at once, the rest for the window. -/
def storeAll (th : Nat) (ps : List Piece) (n v : Nat) (nt : Bool) : X (List StoreE) := do
  let m ← X.mach
  if ps.any fun p => (m.pcieWin p.pa).isSome then X.oldest th
  let m ← X.mach
  let far := ps.filter fun p => (m.pcieWin p.pa).isSome || m.inScratch th p.pa
  X.modify fun m => far.foldl (fun m p =>
    let bs := toBytes p.len ((v >>> (8 * (n - p.off - p.len))) % 2 ^ (8 * p.len))
    match m.pcieWin p.pa with
    | some (port, ecam) => m.pcieStore port ecam p.pa bs
    | none => m.scratchStore p.pa bs) m
  pure (mkStores (ps.filter fun p => !((m.pcieWin p.pa).isSome || m.inScratch th p.pa)) n v nt)

/-- Store n bytes at an effective address: an MCS store is performed at once through the bus function, others by `storeAll`. -/
def storeN (h : McsStore) (th : Nat) (va : W64) (n v : Nat) (nt : Bool) : X (List StoreE) := do
  let ps ← access th va n .store
  mcsRefuse ps n true
  let m ← X.mach
  match ps.head?.bind fun p => (m.mcsOff p.pa).map fun x => (p.pa, x) with
  | some (pa, md, off) => do
    mcsCheck th pa off n true
    X.oldest th
    let m ← X.mach
    if md = m.modNo then
      match h m (if (blkOf off) = some .dbell ∧ off < 0x1f0000 then off else off / 8 * 8) (if n = 8 then 0 else if off % 8 = 0 then 1 else 2)
          (if n = 8 then v else if off % 8 = 0 then v * 2 ^ 32 else v) th with
      | some m' => X.modify fun _ => m'
      | none => X.wait
    else X.modify (·.emit (.mcs md off v))
    pure []
  | none => storeAll th ps n v nt

end Sys2Proof.Machine
end

