-- ==== Sys2Proof/Machine/Tlb.lean ====
section
/-! DEFINITION. Translation registers, TLB maintenance and shootdown (spec/07, R205 to R226). -/

namespace Sys2Proof.Machine

/-! ### Root registers -/

def ttr1Mask : Nat := 0xFFFFFFFFFFFFF003
def ttr2Mask : Nat := 0x03FFFFFFFFFFF003
def ttrhMask : Nat := 0x000FFFFFFFFFF003

/-- The level that a root register needs, and whether `sr` names one (Table 7.9). -/
def rootLevel (sr : Nat) : Nat := if sr = 0 then 1 else 2

/-- `ldtt` (R207). -/
def execLdtt (i : FS) (s : State) : Host.Outcome State Fault Refusal :=
  sysInsn i (Shape.micro_ (sysWord i 0x10)) (do
    let r ← X.regs i.th
    X.priv (sysWord i 0x10) (decide ((if i.sr ≤ 2 then rootLevel i.sr else 1) ≤ r.pl))
    X.spec (sysWord i 0x10) (i.t == 0 && decide (i.sr ≤ 2))
    let v := (r.gr i.a).toNat
    let m ← X.mach
    X.need (m.acceptsLv (bits v 1 0)) (.exc 0x020D (bits v 51 12 * 4096) false none)
    X.upd i.th fun x =>
      if i.sr = 0 then { x with ttr1 := BitVec.ofNat 64 (v &&& ttr1Mask) }
      else if i.sr = 1 then { x with ttr2 := BitVec.ofNat 64 (v &&& ttr2Mask) }
      else { x with ttrh := BitVec.ofNat 64 (v &&& ttrhMask) }
    pure Done.plain) s

/-- `sttt` (R222). -/
def execSttt (i : FS) (s : State) : Host.Outcome State Fault Refusal :=
  sysInsn i (Shape.micro_ (sysWord i 0x11)) (do
    let r ← X.regs i.th
    X.priv (sysWord i 0x11) (decide ((if i.sr ≤ 2 then rootLevel i.sr else 1) ≤ r.pl))
    X.spec (sysWord i 0x11) (i.a == 0 && decide (i.sr ≤ 2))
    X.upd i.th (·.setG i.t (if i.sr = 0 then r.ttr1 else if i.sr = 1 then r.ttr2 else r.ttrh))
    pure Done.plain) s

/-! ### Removals (Table 7.9) -/

/-- Whether the entry covers an input page. -/
def TlbE.at (e : TlbE) (addr : Nat) : Bool := decide (e.vpn ≤ addr / 4096) && decide (addr / 4096 < e.vpn + e.pages)

/-- Whether the entry's guest range covers a guest physical address. -/
def TlbE.atGuest (e : TlbE) (addr : Nat) : Bool :=
  if e.stage2only then e.at addr else decide (e.gframe / e.pages = addr / 4096 / e.pages)

/-- Whether a removal matches a translation-cache entry. `part` is 64 for the host tag (stage 2 off). -/
def Removal.hits (r : Removal) (e : TlbE) : Bool :=
  let cur := if r.part = 64 then !e.s2on else e.s2on && e.part == r.part
  match r.fn with
  | 0x12 => e.regime == 0 && !e.stage2only && cur && e.at r.addr && (e.glob || e.asid == r.asid)
  | 0x13 => e.regime == 0 && !e.stage2only && cur && !e.glob && e.asid == r.asid
  | 0x14 => e.regime == 0 && !e.stage2only && cur
  | 0x15 => e.regime == 0 && e.s2on && e.part == r.part && e.atGuest r.addr
  | 0x16 => e.regime == 0 && e.s2on && e.part == r.part
  | 0x17 => e.regime == 1 && e.at r.addr
  | _ => e.regime == 1

/-- The regime tag that a removal names; the walk-cache entries of that regime go (R222). -/
def Removal.tag (r : Removal) : Nat := if r.fn ≤ 0x16 then r.part else 65

/-- A core removes its matching entries; walks in progress restart (R221) and a thread's unretired work is discarded (R223, R224). -/
def Mach.applyRemoval (m : Mach) (c : Nat) (r : Removal) (ths : List Nat) : Mach :=
  let m := m.onCore c fun k => { k with
    tlb := k.tlb.filter fun e => !r.hits e, walk1 := k.walk1.filter fun e => e.tag != r.tag, walk2 := k.walk2.filter fun e => e.tag != r.tag }
  ths.foldl (fun m t => m.onTh t fun x => { x.discard with adWait := none }) m

/-- Every unit that acknowledges a removal of this thread: the other cores of this module, its translation unit, the other modules. -/
def Mach.receivers (m : Mach) (c : Nat) : List Nat :=
  ((List.range 48).filter (· != c)) ++ [48] ++ ((List.range m.dsize).filter (· != m.modNo)).map (64 + ·)

/-- The operands of a removal as a TLBI message carries them (Table 9.4): function, scope operands. -/
def Removal.toMsg (r : Removal) (src dst : Nat) : Msg :=
  { noMsg with src := src, dst := dst, tag := r.id % 4096, line := r.addr / 256, aux := r.fn ||| r.asid <<< 8, req := r.part }

/-- Send a removal of domain scope to every receiver (R224). -/
def Mach.sendRemoval (m : Mach) (th : Nat) (r : Removal) : Mach :=
  let c := th / 2
  let r := { r with id := m.shoot.next, waits := m.receivers c }
  let m := { m with shoot := { m.shoot with next := m.shoot.next + 1, mtu := m.shoot.mtu ++ [r] } }
  let m := m.onTh th fun t => { t with removals := t.removals ++ [r] }
  let m := ((List.range 48).filter (· != c)).foldl (fun m d => m.onCore d fun k => { k with shoot := k.shoot ++ [r] }) m
  ((List.range m.dsize).filter (· != m.modNo)).foldl (fun m d => m.send 0x0A (r.toMsg (64 * m.modNo + 55) (64 * d + 55))) m

/-- A removal function: core scope, or domain scope unless eight are unacknowledged (R222 to R225). -/
def removeInsn (i : FS) (fn lvl : Nat) (used : Bool) (mk : Arch → Removal) (s : State) : Host.Outcome State Fault Refusal :=
  sysInsn i (Shape.micro_ (sysWord i fn)) (do
    sysCheck i fn lvl (used && decide (i.sr ≤ 1))
    let a ← X.regs i.th
    let m ← X.mach
    let r := mk a
    if i.sr = 1 ∧ 8 ≤ (m.th i.th).removals.length then X.wait
    else do
      X.modify (·.applyRemoval (i.th / 2) r [2 * (i.th / 2) + 1 - i.th % 2])
      if i.sr = 1 then X.modify (·.sendRemoval i.th r)
      pure Done.plain) s

/-- The tag of P and S accesses under the present `ttr2` (R222). -/
def curPart (a : Arch) : Nat := if bits a.ttr2.toNat 1 0 = 0 then 64 else bits a.ttr2.toNat 57 52

/-- `tlbiva`. -/
def execTlbiva (i : FS) (s : State) : Host.Outcome State Fault Refusal :=
  removeInsn i 0x12 1 true (fun a => ⟨0, 0x12, (a.gr i.a).toNat, bits (a.gr i.t).toNat 11 0, curPart a, []⟩) s
/-- `tlbiasid`. -/
def execTlbiasid (i : FS) (s : State) : Host.Outcome State Fault Refusal :=
  removeInsn i 0x13 1 (i.t == 0) (fun a => ⟨0, 0x13, 0, bits (a.gr i.a).toNat 11 0, curPart a, []⟩) s
/-- `tlbip1`. -/
def execTlbip1 (i : FS) (s : State) : Host.Outcome State Fault Refusal :=
  removeInsn i 0x14 1 (i.t == 0 && i.a == 0) (fun a => ⟨0, 0x14, 0, 0, curPart a, []⟩) s
/-- `tlbigpa`. -/
def execTlbigpa (i : FS) (s : State) : Host.Outcome State Fault Refusal :=
  removeInsn i 0x15 2 true (fun a => ⟨0, 0x15, (a.gr i.a).toNat, 0, bits (a.gr i.t).toNat 5 0, []⟩) s
/-- `tlbipart`. -/
def execTlbipart (i : FS) (s : State) : Host.Outcome State Fault Refusal :=
  removeInsn i 0x16 2 (i.t == 0) (fun a => ⟨0, 0x16, 0, 0, bits (a.gr i.a).toNat 5 0, []⟩) s
/-- `tlbihva`. -/
def execTlbihva (i : FS) (s : State) : Host.Outcome State Fault Refusal :=
  removeInsn i 0x17 2 (i.t == 0) (fun a => ⟨0, 0x17, (a.gr i.a).toNat, 0, 0, []⟩) s
/-- `tlbihall`. -/
def execTlbihall (i : FS) (s : State) : Host.Outcome State Fault Refusal :=
  removeInsn i 0x18 2 (i.t == 0 && i.a == 0) (fun _ => ⟨0, 0x18, 0, 0, 0, []⟩) s

/-- `tlbsync` (R225): complete when nothing of the thread is outstanding, else wait. -/
def tlbsyncBody (i : FS) : X Done := do
  sysCheck i 0x19 1 (i.t == 0 && i.a == 0 && i.sr == 0)
  let m ← X.mach
  if (m.th i.th).removals = [] then pure Done.plain
  else do
    X.modify (·.onTh i.th fun t => { t with wait := .tlbsync })
    X.wait

def execTlbsync (i : FS) (s : State) : Host.Outcome State Fault Refusal :=
  sysInsn i (Shape.micro_ (sysWord i 0x19)) (tlbsyncBody i) s

/-- The waiting `tlbsync` completes once the last acknowledgement has arrived. -/
def execTlbsyncComplete (th : Nat) (s : State) : Host.Outcome State Fault Refusal :=
  ans (decide (th < 96)) s fun m =>
    if !m.frozen && (m.th th).wait == .tlbsync && (m.th th).removals.isEmpty then
      (m.onTh th fun t => { t with wait := .none }).runInsn th (Shape.micro_ (sysWord ⟨th, 0, 0, 0⟩ 0x19)) (tlbsyncBody ⟨th, 0, 0, 0⟩)
    else m

/-! ### Acknowledgement -/

/-- Receiver `who` acknowledges a removal: of a thread of this module, or of another module, to which TLBA returns when all units of this
module have acknowledged (R281). -/
def Mach.ackRemoval (m : Mach) (id who : Nat) : Mach :=
  match m.shoot.inbound.find? fun r => r.id == id with
  | some r =>
    let w := r.waits.filter (· != who)
    if w = [] then
      ({ m with shoot := { m.shoot with inbound := m.shoot.inbound.filter fun r => r.id != id } } : Mach).send 0x28
        { noMsg with src := 64 * m.modNo + 55, dst := 64 * (id / 4096 - 1048576) + 55, tag := id % 4096 }
    else { m with shoot := { m.shoot with inbound := updWhere (fun r => r.id == id) (fun r => { r with waits := w }) m.shoot.inbound } }
  | none =>
    (List.range 96).foldl (fun m t =>
      if (m.th t).removals.any fun r => r.id == id then
        m.onTh t fun x => { x with removals :=
          (updWhere (fun r => r.id == id) (fun r => { r with waits := r.waits.filter (· != who) }) x.removals).filter fun r => r.waits != [] }
      else m) m

/-- The receiving core applies the removal that waits for it (R224); a core in a retry episode or swap applies it too (R226). -/
def execShootdownReceive (core id : Nat) (s : State) : Host.Outcome State Fault Refusal :=
  ans (decide (core < 48)) s fun m =>
    match takeFirst (fun r => r.id == id) (m.core core).shoot with
    | none => m
    | some (r, rest) =>
      -- removals reach a receiver in the order issued (R225)
      if (m.core core).shoot.head? ≠ some r ∨ m.frozen then m
      else
        let m := m.onCore core fun k => { k with shoot := rest }
        let m := m.applyRemoval core r [2 * core, 2 * core + 1]
        let d : ShootDone := ⟨id, core, (m.th (2 * core)).sbuf.length, (m.th (2 * core + 1)).sbuf.length, (m.core core).comb.map (·.line)⟩
        { m with shoot := { m.shoot with done := tset m.shoot.done core (tget m.shoot.done core [] ++ [d]) } }

/-- The receiving core acknowledges once the stores it had retired before the removal are performed; a core whose work is in a state capsule
withholds (R226), a deep-parked core acknowledges at once. -/
def execShootdownAck (core id : Nat) (s : State) : Host.Outcome State Fault Refusal :=
  ans (decide (core < 48)) s fun m =>
    -- after a swap the replacement core performs the retired stores (R226)
    let at_ := if (tget m.shoot.done core []).any fun d => d.id == id && d.who == core then core else m.get (R.core_state_replaced_by core)
    match takeFirst (fun d => d.id == id && d.who == core) (tget m.shoot.done at_ []) with
    | none => m
    | some (d, rest) =>
      if m.frozen || (m.core core).swap.isSome || d.n0 != 0 || d.n1 != 0 || (m.core at_).comb.any fun x => d.comb.contains x.line then m
      else ({ m with shoot := { m.shoot with done := tset m.shoot.done at_ rest } } : Mach).ackRemoval id core

/-- A removal unacknowledged for 10 ms by a receiver of this module (R226): Spillway source of the receiving core. -/
def execTlbShootdownTimeout (th core : Nat) (s : State) : Host.Outcome State Fault Refusal :=
  ans (decide (th < 96) && decide (core < 48)) s fun m =>
    if !m.frozen && (m.th th).removals.any fun r => r.waits.contains core then m.raiseCore core 29 0 (some th) else m

/-! ### Accessed and dirty bits (R216, R217) -/

/-- A store into a line that the core holds exclusively: modified, a hit in the L1 data cache if it is there (R234), and the other thread's reservation
on it is lost (Table 8.7). -/
def Mach.l2Store (m : Mach) (th line : Nat) (f : Line → Line) : Mach :=
  match (m.core (th / 2)).find line with
  | none => m
  | some (key, w) =>
    (m.onCore (th / 2) fun k => ({ k with l1d := if (l1Find k.l1d line).isSome then l1Use k.l1d line else k.l1d } : Core).setWay key
      { w with st := .m, data := f w.data, age := 0, pf := false }).onTh (2 * (th / 2) + 1 - th % 2) (·.lose line)

/-- The access is demand: it belongs to the oldest checkpoint of its thread and all before it has completed (R161). -/
def Mach.isDemand (m : Mach) (th : Nat) : Bool :=
  match (m.th th).win with
  | [] => true
  | [k] => !k.closed && decide (k.n < 64)
  | _ => false

/-- The waiting update is performed on the entry's line, or the walk restarts when the entry has changed; it waits while a patch image is applied (R202). -/
def execAdBitUpdate (th : Nat) (s : State) : Host.Outcome State Fault Refusal :=
  ans (decide (th < 96)) s fun m =>
    match (m.th th).adWait with
    | none => m
    | some (pa, old, new) =>
      if !m.executes th || !m.isDemand th || m.patchIn.isSome then m
      else
        let prog : X Unit := do
          let w ← useLine th (pa / 256) true .demand
          let e := lineGet w.data (pa % 256) 8
          if bits ((e ^^^ old) &&& (2 ^ 64 - 1 - (new ^^^ old))) 63 0 = 0 then
            X.modify (·.l2Store th (pa / 256) fun d => linePut d (pa % 256) 8 (e ||| (new ^^^ old)))
          X.modify (·.onTh th fun t => { t with adWait := none })
        match prog m with
        | .ok _ m' => m'
        | .error .wait m' => m'
        | .error (.mck src) m' =>
          match m'.commitAll th 40 with
          | some m'' => m''.machineCheck th src true 0
          | none => m'
        | .error _ m' => m'

end Sys2Proof.Machine
end

