-- ==== Sys2Proof/Machine/Atomic.lean ====
section
/-! DEFINITION. The atomics of op 0x31 (R88, R257 to R261). -/

namespace Sys2Proof.Machine

def atWord (i : FA) (fn : Nat) : Nat := encA 0x31 i.t i.a i.b fn

/-- The address of an atomic: aligned (R79), translated, and cacheable (R261). -/
def atAddr (i : FA) (fn n : Nat) (acc : Acc) : X Nat := do
  let r ← X.regs i.th
  let va := (r.gr i.a).toNat
  X.need (va % n == 0) (.exc 0x0204 va acc.isWr none)
  let ps ← access i.th (r.gr i.a) n acc
  let m ← X.mach
  match ps with
  | [p] =>
    X.spec (atWord i fn) (!(p.xl.nc || m.uncached p.pa))
    pure p.pa
  | _ => X.wait

/-- Every earlier store of the thread has been performed (R259). -/
def atDrained (th : Nat) : X Unit := do
  let m ← X.mach
  if m.storesDone th then pure () else X.wait

/-- `lres` (R257). -/
def execLres (i : FA) (s : State) : Host.Outcome State Fault Refusal :=
  ans i.wf s fun m => m.runInsn i.th (Shape.atomic (atWord i 0x001) 1) do
    X.spec (atWord i 0x001) (i.b == 0)
    let r ← X.regs i.th
    let pa ← atAddr i 0x001 8 .load
    let w ← useBy (.load (r.gr i.a).toNat pa) i.th (pa / 256) true .demand
    let m ← X.mach
    let v ← match ((m.th i.th).stores.filter fun e => overlaps e pa 8).getLast? with
      | none => pure (lineGet w.data (pa % 256) 8)
      | some _ => loadPiece i.th ⟨pa, 8, 0, ⟨pa, false, false, false⟩, pa⟩ true
    X.upd i.th fun a => { a.setG i.t (BitVec.ofNat 64 v) with resv := some (pa / 256) }
    pure Done.plain

/-- `scond` (R259): exclusive ownership is asked for whether or not the reservation is held. -/
def execScond (i : FA) (s : State) : Host.Outcome State Fault Refusal :=
  ans i.wf s fun m => m.runInsn i.th (Shape.atomic (atWord i 0x002) 1) do
    let pa ← atAddr i 0x002 8 .rmw
    atDrained i.th
    let _ ← useLine i.th (pa / 256) true .demand
    let r ← X.regs i.th
    if r.resv = some (pa / 256) then
      X.modify (·.l2Store i.th (pa / 256) fun d => linePut d (pa % 256) 8 (r.gr i.b).toNat)
      X.upd i.th fun a => { a.setG i.t 0 with resv := none }
    else
      X.modify fun m =>
        let m := m.countCore (i.th / 2) (R.core_cstat2_scfail (i.th / 2))
        if m.get (R.core_cstat2_scfail (i.th / 2)) = 0 && !m.coreFrozen (i.th / 2) then m.set (R.core_cstat2_ovf_sc (i.th / 2)) 1 else m
      X.upd i.th fun a => { a.setG i.t 1 with resv := none }
    pure Done.plain

/-- A compare and swap of n bytes. -/
def casInsn (i : FA) (fn n : Nat) (ok : Bool) (old new : Arch → Nat) (put : Nat → Arch → Arch) (s : State) : Host.Outcome State Fault Refusal :=
  ans i.wf s fun m => m.runInsn i.th (Shape.atomic (atWord i fn) (n / 8)) do
    X.spec (atWord i fn) ok
    let pa ← atAddr i fn n .rmw
    atDrained i.th
    let w ← useLine i.th (pa / 256) true .demand
    let r ← X.regs i.th
    let v := lineGet w.data (pa % 256) n
    if v = old r then X.modify (·.l2Store i.th (pa / 256) fun d => linePut d (pa % 256) n (new r))
    X.upd i.th fun a => (put v a).setCc (if v = old r then 0 else 1)
    pure Done.plain

/-- A register pair as a quad, the even register most significant (R74), and its write. -/
def pairGet (a : Arch) (t : Nat) : Nat := (a.gr t).toNat * 2 ^ 64 + (a.gr (t + 1)).toNat
def pairSet (t v : Nat) (a : Arch) : Arch := (a.setG t (BitVec.ofNat 64 (v / 2 ^ 64))).setG (t + 1) (BitVec.ofNat 64 v)

/-- `cas8`. -/
def execCas8 (i : FA) (s : State) : Host.Outcome State Fault Refusal :=
  casInsn i 0x003 8 true (fun r => (r.gr i.t).toNat) (fun r => (r.gr i.b).toNat) (fun v a => a.setG i.t (BitVec.ofNat 64 v)) s

/-- `cas16`: t and b must be even. -/
def execCas16 (i : FA) (s : State) : Host.Outcome State Fault Refusal :=
  casInsn i 0x004 16 (i.t % 2 == 0 && i.b % 2 == 0) (pairGet · i.t) (pairGet · i.b) (pairSet i.t) s

end Sys2Proof.Machine
end

