-- ==== Sys2Proof/Machine/Grotto.lean ====
section
/-! DEFINITION. The Grotto (spec/12): the monitor's commands, entry to and exit from enclaves, the secure watchdog and isolation, and
debug certificates. -/

namespace Sys2Proof.Machine

/-! ### The pool, the enclave table and the keys (R354 to R358) -/

/-- The pool: the range of the one kind-3 region entry, as base and length (R354). -/
def Mach.pool (m : Mach) : Nat × Nat :=
  match (List.range 16).find? fun r => m.on (R.mem_rgn_base_en r) && m.get (R.mem_rgn_base_kind r) == 3 with
  | some r => (m.get (R.mem_rgn_base_base r) * 2 ^ 20, (m.get (R.mem_rgn_lim_lim r) + 1 - m.get (R.mem_rgn_base_base r)) * 2 ^ 20)
  | none => (0, 0)

/-- Whether a range meets an enabled region entry. -/
def Mach.meetsRegion (m : Mach) (lo n : Nat) : Bool :=
  (List.range 16).any fun r => m.on (R.mem_rgn_base_en r) && m.get (R.mem_rgn_base_kind r) != 0
    && decide (lo < (m.get (R.mem_rgn_lim_lim r) + 1) * 2 ^ 20) && decide (m.get (R.mem_rgn_base_base r) * 2 ^ 20 < lo + n)

def Mach.enclave (m : Mach) (e : Nat) : Enclave := tget m.grotto.encl e Enclave.init

/-- Replace an enclave and show how many are not free (`grotto.stat.inuse`). -/
def Mach.setEnclave (m : Mach) (e : Nat) (x : Enclave) : Mach :=
  let t := tset m.grotto.encl e x
  ({ m with grotto := { m.grotto with encl := t } } : Mach).set R.grotto_stat_inuse (t.filter fun y => y.2.st != 0).length

def Enclave.ctx (x : Enclave) (c : Nat) : CtxSt × SaveFrame := tget x.ctxs c (.idle, SaveFrame.init)

/-- The random source that the monitor draws from (R356, R421): a unit that is healthy; `none` when both have failed or are absent. -/
inductive Rng where
  | ready | restarting | absent
deriving DecidableEq, Repr

def Mach.rng (m : Mach) : Rng :=
  let n := m.get R.id_mfeat_cry
  match (List.range 2).find? fun u => decide (u < n) && m.get (R.cryu_rbg_state u) != 3 with
  | none => .absent
  | some u => if m.get (R.cryu_rbg_state u) = 1 then .ready else .restarting

/-- Forget every cached copy of the lines of a range, without write-back, in the L1s and L2s, their buffers, the Basin and the directory. -/
def Mach.dropRange (m : Mach) (lo n : Nat) : Mach :=
  let out := fun (line : Nat) => decide (256 * line + 256 ≤ lo) || decide (lo + n ≤ 256 * line)
  let keep := fun (a : Arch) => match a.resv with
    | some l => if out l then a else { a with resv := none }
    | none => a
  { m with
    cores := m.cores.map fun x => (x.1, { x.2 with l1i := x.2.l1i.filter fun w => out w.2.line, l1d := x.2.l1d.filter fun w => out w.2.line, l2 := x.2.l2.filter fun w => out w.2.line, evb := x.2.evb.filter fun e => out e.line })
    thr := m.thr.map fun x => (x.1, { x.2 with cur := keep x.2.cur, com := keep x.2.com, win := x.2.win.map fun k => { k with fin := keep k.fin } })
    home := { m.home with bsn := m.home.bsn.filter fun w => out w.2.line, dir := m.home.dir.filter fun e => out e.1 } }

/-- Memory with a range read as zero. -/
def Memory.zero (mem : Memory) (lo n : Nat) : Memory := mem.filter fun c => decide (c.1 < lo) || decide (lo + n ≤ c.1)

/-- Memory with the lines of a range replaced by free values: what old ciphertext reads as under a new key (R361). -/
def Mach.scramble (m : Mach) (lo n : Nat) : Mach :=
  let k := n / 256
  { m with seed := m.seed + k,
           mem := (List.range k).foldl (fun mem i => mem.wrLine (lo / 256 + i) (Config.freeLine (m.seed + i))) m.mem }

/-! ### The monitor's commands (R359 to R361) -/

/-- A command is finished (Table 12.16). -/
def Mach.grottoEnd (m : Mach) (r : Nat) : Mach := m.sets [(R.grotto_cmd_done, 1), (R.grotto_cmd_result, r), (R.grotto_cmd_go, 0)]

/-- What a monitor command does: a result other than 1, nothing yet (it waits for random bits), or its effect. -/
inductive GCmd where
  | refuse (r : Nat)
  | waits
  | did (m : Mach)

/-- The monitor performs the command that `grotto.cmd` holds, if it is of the given op: the block is read from firmware memory, and the result
is reported. -/
def Mach.grottoCmd (m : Mach) (op : Nat) (body : Mach → Nat → List Nat → GCmd) : Mach :=
  if m.frozen || !m.on R.grotto_cmd_go || m.get R.grotto_cmd_op != op then m
  else if m.get R.grotto_stat_state ≠ 2 then m.grottoEnd 7
  else
    let a := m.get R.grotto_cmd_addr * 128
    if !m.inKind1 a (a + 127) || (m.devRange .hub a 128).isSome then m.grottoEnd 3
    else match body m a (m.devRead a 128) with
      | .refuse r => m.grottoEnd r
      | .waits => m
      | .did m' => m'.grottoEnd 1

/-- A field of the command block (Table 12.2). -/
def blkF (b : List Nat) (o n : Nat) : Nat := ofBytes ((b.drop o).take n)

/-- The checks of a create on its range (R358): multiples of 64 KiB, outside the monitor area, inside the pool, clear of every other enclave; the
code part, window and entry. -/
def Mach.createOk (m : Mach) (base size csize vbase entry : Nat) : Bool :=
  let (lo, n) := m.pool
  base % 65536 == 0 && decide (0 < size) && decide (lo + 2 ^ 27 ≤ base) && decide (base + size ≤ lo + n)
    && (m.grotto.encl.all fun x => x.2.st == 0 || decide (base + size ≤ x.2.base) || decide (x.2.base + x.2.size ≤ base))
    && decide (0 < csize) && decide (csize ≤ size) && vbase % 65536 == 0 && entry % 4 == 0 && decide (entry < csize)

/-- Create (R359, R360). -/
def execGrottoCreate (s : State) : Host.Outcome State Fault Refusal :=
  ans true s fun m => m.grottoCmd 1 fun m a b =>
    let num := blkF b 0 2
    let size := blkF b 0x10 4 * 65536
    let csize := blkF b 0x14 4 * 65536
    let pick := if num = 0xFFFF then (List.range 4096).find? fun e => (m.enclave e).st == 0 else some num
    match pick with
    | none => .refuse 9
    | some e =>
      if 4095 < e || blkF b 2 1 == 0 || decide (16 < blkF b 2 1) then .refuse 2
      else if (m.enclave e).st ≠ 0 then .refuse 4
      else if !m.createOk (blkF b 8 8) size csize (blkF b 0x18 8) (blkF b 0x20 8) then .refuse 3
      else match m.rng with
        | .absent => .refuse 10
        | .restarting => .waits
        | .ready =>
          let (k, m) := m.draw
          let m := m.dropRange (blkF b 8 8) size
          let m := { m with mem := m.mem.zero (blkF b 8 8) size }
          let m := m.setEnclave e ⟨1, blkF b 8 8, size, csize, blkF b 0x18 8, blkF b 0x20 8, blkF b 2 1, [],
            ofBytes (sha384 ([0, 0] ++ (b.drop 2).take 62)), k⟩
          .did (m.devWrite a (toBytes 2 e))

/-- Copy one line between physical addresses, with its poison. -/
def Mach.copyLine (m : Mach) (src dst : Nat) : Mach :=
  let (d, p) := m.lineNow (src / 256)
  m.devWriteLine (dst / 256) d (2 ^ 256 - 1) p

/-- Add (R359, R360). -/
def execGrottoAdd (s : State) : Host.Outcome State Fault Refusal :=
  ans true s fun m => m.grottoCmd 2 fun m _ b =>
    let e := blkF b 0 2
    let x := m.enclave e
    let src := blkF b 0x28 8
    let doff := blkF b 0x30 4
    let n := blkF b 0x34 4
    if 4095 < e then .refuse 2
    else if x.st ≠ 1 then .refuse 4
    else if src % 4096 ≠ 0 ∨ x.size < (doff + n) * 4096 then .refuse 3
    else if m.meetsRegion src (4096 * n) then .refuse 8
    else if (m.devRange .hub src (4096 * n)).isSome then .refuse 3
    else
      let bytes := m.devRead src (4096 * n)
      let m := (List.range (16 * n)).foldl (fun m i => m.copyLine (src + 256 * i) (x.base + 4096 * doff + 256 * i)) m
      .did (m.setEnclave e { x with meas := ofBytes (sha384 (toBytes 48 x.meas ++ toBytes 8 doff ++ bytes)) })

/-- Seal (R359, R360). -/
def execGrottoSeal (s : State) : Host.Outcome State Fault Refusal :=
  ans true s fun m => m.grottoCmd 3 fun m a b =>
    let e := blkF b 0 2
    let x := m.enclave e
    if 4095 < e then .refuse 2
    else if x.st ≠ 1 then .refuse 4
    else .did ((m.devWrite (a + 0x40) (toBytes 48 x.meas)).setEnclave e { x with st := 2, ctxs := [] })

/-- Teardown (R361). -/
def execGrottoTeardown (s : State) : Host.Outcome State Fault Refusal :=
  ans true s fun m => m.grottoCmd 4 fun m _ b =>
    let e := blkF b 0 2
    let x := m.enclave e
    if 4095 < e then .refuse 2
    else if x.st ≠ 1 ∧ x.st ≠ 2 then .refuse 4
    else if x.ctxs.any fun c => c.2.1 == .running then .refuse 6
    else match m.rng with
      | .absent => .refuse 10
      | .restarting => .waits
      | .ready =>
        let (k, m) := m.draw
        .did (((m.dropRange x.base x.size).scramble x.base x.size).setEnclave e { Enclave.init with key := k })

/-- Query (R359): state, contexts, and the measurement once sealed. -/
def execGrottoQuery (s : State) : Host.Outcome State Fault Refusal :=
  ans true s fun m => m.grottoCmd 5 fun m a b =>
    let e := blkF b 0 2
    let x := m.enclave e
    if 4095 < e then .refuse 2
    else
      let m := m.devWrite (a + 2) [x.nctx, x.st]
      .did (if x.st ≥ 2 then m.devWrite (a + 0x40) (toBytes 48 x.meas) else m)

/-! ### Entering and leaving (R362 to R367) -/

/-- A Grotto function: its frame, the check of `psw.enc` (R362), and its fields (R91). -/
def grottoInsn (i : FS) (fn : Nat) (enc : Option Bool) (ok : Bool) (body : X Done) (s : State) : Host.Outcome State Fault Refusal :=
  sysInsn i (Shape.micro_ (sysWord i fn)) (do
    sysCheck i fn 0 (i.sr == 0 && ok)
    let r ← X.regs i.th
    X.oper (sysWord i fn) (match enc with | some b => (r.pswF 2 2 == 1) == b | none => true)
    body) s

/-- The completion without transfer: no loop stepping, as a taken branch (R362). -/
def grottoNext (i : FS) : X Done := do
  let r ← X.regs i.th
  pure ⟨.jump (r.ia + 4), [], none⟩

/-- A refusal of `genter` (R364, Table 12.4). -/
def genterRefuse (i : FS) (reason : Nat) (clear : Bool) : X Done := do
  X.upd i.th fun a => (a.setCc 3).setG i.t (BitVec.ofNat 64 reason)
  if clear then X.modify (·.onTh i.th fun t => { t with link := none })
  grottoNext i

/-- The debug enables that cover an enclave (R369). -/
def Mach.inScope (m : Mach) (e : Nat) : Bool := m.on R.grotto_dbg_all || m.get R.grotto_dbg_scope == e

/-- Enter or resume a context (R364). -/
def genterGo (i : FS) (e c : Nat) (resume : Bool) : X Done := do
  let m ← X.mach
  let x := m.enclave e
  let (st, f) := x.ctx c
  X.upd i.th fun a =>
    let b : Arch := if st = .suspended then { a with g := f.g, f := f.f, lsa := f.lsa, lea := f.lea, lct := f.lct, psw := f.psw, fpsr := f.fpsr } else a
    (b.setPsw 2 2 1).setPsw 23 20 (if st = .suspended then b.pswF 23 20 else 0)
  let r := (m.th i.th).cur
  X.modify fun m =>
    let m := m.onCtx e c fun y => (.running, y.2)
    let m := m.onTh i.th fun t => { t with
      encl := some ⟨e, c, r.ia, i.t, r.psw, m.on R.grotto_dbg_e_ni && m.inScope e, m.on R.grotto_dbg_e_inv && m.inScope e⟩,
      link := if resume then none else t.link }
    m.updFrz
  pure ⟨.jump (if st = .suspended then f.ia else BitVec.ofNat 64 (x.vbase + x.entry)), [], none⟩

/-- `genter` (R364). -/
def execGenter (i : FS) (s : State) : Host.Outcome State Fault Refusal :=
  grottoInsn i 0x20 (some false) true (do
    let m ← X.mach
    let t := m.th i.th
    let r := t.cur
    let g := (r.gr i.a).toNat
    let e := match t.link with | some l => l.encl | none => bits g 11 0
    let c := match t.link with | some l => l.ctx | none => bits g 19 16
    let x := m.enclave e
    let d := lvDepth (bits (if r.pl ≤ 1 then r.ttr1 else r.ttrh).toNat 1 0)
    if m.get R.grotto_stat_state ≠ 2 then genterRefuse i 0x01 true
    else if x.st ≠ 2 ∨ (t.link.isSome ∧ (x.ctx c).1 = .idle) then genterRefuse i 0x02 true
    else if x.nctx ≤ c then genterRefuse i 0x03 false
    else if (x.ctx c).1 = .running then genterRefuse i 0x04 false
    else if r.pl = 3 ∨ r.pswF 4 4 = 0 then genterRefuse i 0x05 false
    else if !(canonical x.vbase (vaBits d) && canonical (x.vbase + x.size - 1) (vaBits d)) then genterRefuse i 0x06 false
    else genterGo i e c t.link.isSome) s

/-- `gexit` (R366). -/
def execGexit (i : FS) (s : State) : Host.Outcome State Fault Refusal :=
  grottoInsn i 0x21 (some true) (i.t == 0 && i.a == 0) (do
    let m ← X.mach
    match (m.th i.th).encl with
    | none => grottoNext i
    | some e =>
      X.upd i.th fun a => ({ a with psw := e.psw } : Arch).setCc 0
      X.modify fun m => ((m.onCtx e.encl e.ctx fun y => (.idle, y.2)).onTh i.th fun t => { t with encl := none }).updFrz
      pure ⟨.jump (e.gaddr + 4), [], none⟩) s

/-- `gdetach` (R362). -/
def execGdetach (i : FS) (s : State) : Host.Outcome State Fault Refusal :=
  grottoInsn i 0x22 (some false) (i.t == 0 && i.a == 0) (do
    X.modify (·.onTh i.th fun t => { t with link := none })
    grottoNext i) s

/-- The value that `gquery` gives (Table 12.3). -/
def Mach.gquery (m : Mach) (th : Nat) (g : Nat) : Nat :=
  let x := m.enclave (bits g 11 0)
  let st := if m.get R.grotto_stat_state = 2 then x.st else 0xF
  let cs := match (x.ctx (bits g 19 16)).1 with | .idle => 0 | .running => 1 | .suspended => 2
  let l := match (m.th th).link with
    | some l => 1 <<< 63 ||| l.encl <<< 48 ||| l.ctx <<< 40
    | none => 0
  st ||| cs <<< 4 ||| x.nctx <<< 16 ||| l

/-- `gquery` (R362). -/
def execGquery (i : FS) (s : State) : Host.Outcome State Fault Refusal :=
  grottoInsn i 0x23 none true (do
    let m ← X.mach
    X.upd i.th fun a => a.setG i.t (BitVec.ofNat 64 (m.gquery i.th (a.gr i.a).toNat))
    grottoNext i) s

/-! ### Watchdog and isolation (R372 to R374) -/

/-- A kick (R372): from the monitor's private path, or by another writer. -/
def execWatchdogKick (monitor : Bool) (s : State) : Host.Outcome State Fault Refusal :=
  ans true s fun m =>
    if m.frozen then m
    else if !monitor then m.grottoError 0x85 0
    else if m.get R.grotto_stat_state = 2 then m.set R.grotto_wd_left 0x7D0
    else m

/-- The expiry (R373, steps 1 and 2). -/
def execWatchdogExpiry (s : State) : Host.Outcome State Fault Refusal :=
  ans true s fun m =>
    if m.frozen || m.get R.grotto_stat_state != 2 then m
    else
      let m := (m.grottoError 0x80 0).sets [(R.grotto_stat_state, 3), (R.grotto_stat_cause, 6), (R.grotto_wd_left, 0)]
      let m := if m.on R.grotto_cmd_go then m.grottoEnd 7 else m
      (m.thr.map (·.1)).foldl (fun m th => m.isolationExit th) m

/-- Steps 3 to 5 of an isolation (R373). -/
def execIsolationComplete (s : State) : Host.Outcome State Fault Refusal :=
  ans true s fun m =>
    if m.frozen || !(m.get R.grotto_stat_state == 3 || m.get R.grotto_stat_state == 5) then m
    else
      let (lo, n) := m.pool
      let m := m.dropRange lo n
      let t : Tab Enclave := m.grotto.encl.map fun x => (x.1, { x.2 with key := 0 })
      let m : Mach := { m with grotto := { m.grotto with monKey := 0, encl := t } }
      (m.set R.grotto_stat_state 4).grottoError 0x81 0

/-- 100 ms after the expiry (R374): code 0x82, whose reaction is a module reset unless `noesc`; with it the state becomes frozen. -/
def execIsolationTimeout (s : State) : Host.Outcome State Fault Refusal :=
  ans true s fun m =>
    if m.frozen || m.get R.grotto_stat_state != 3 then m
    else
      let m := m.grottoError 0x82 0
      if m.on R.grotto_ctl_noesc then m.sets [(R.grotto_stat_state, 5), (R.grotto_stat_cause, 7)] else m.set R.grotto_stat_cause 7

/-! ### Debug certificates (R370, R371) -/

/-- The check of a certificate (R370, Table 12.6): the result code of `grotto.dbgst`. -/
def Mach.certResult (m : Mach) (c : List Nat) : Nat :=
  let alg := blkF c 0xA 1
  let K := blkF c 0x1A 2
  let S := blkF c 0x1C 2
  if blkF c 0 4 ≠ 0x4E4B4443 ∨ blkF c 4 2 ≠ 1 ∨ !((alg == 1 && K == 97 && S == 96) || (alg == 2 && K == 1952 && S == 3309))
      ∨ c.length ≠ 0x30 + K + S then 2
  else if blkF c 6 2 ≠ 0x25B0 ∨ blkF c 8 2 ≠ bits (m.word R.id_part) 31 16 then 3
  else if blkF c 0x10 8 ≠ m.get R.grotto_nonce_nonce then 4
  else
    let owner := (List.range 6).flatMap fun k => toBytes 8 (m.get (R.grotto_owner_digest k))
    if owner.all (· == 0) || sha384 ((c.drop 0x30).take K) != owner then 5
    else if !Config.verify [0x12, alg] c then 6
    else 1

/-- A debug certificate is checked and, accepted, sets its enables (R370). -/
def Mach.certificate (m : Mach) (cert : List Nat) : Mach :=
  let r := m.certResult cert
  let m := m.sets [(R.grotto_dbgst_done, 1), (R.grotto_dbgst_result, r)]
  if r = 1 then
    let en := blkF cert 0xB 1
    let sc := blkF cert 0x18 2
    let w := m.word R.grotto_dbg
    let m := m.sets [(R.grotto_dbg, setBits w 5 0 (bits w 5 0 ||| en % 64)), (R.grotto_dbg_all, b2n (sc == 0xFFFF)), (R.grotto_dbg_scope, sc % 4096)]
    let (v, m) := m.draw
    m.set R.grotto_nonce_nonce v
  else m.grottoError 0x83 0

/-- The certificate's enables are cleared (R371). -/
def Mach.dbgClear (m : Mach) : Mach :=
  m.sets [(R.grotto_dbg_f_inv, 0), (R.grotto_dbg_f_ni, 0), (R.grotto_dbg_e_inv, 0), (R.grotto_dbg_e_ni, 0),
    (R.grotto_dbg_scope, 0), (R.grotto_dbg_all, 0)]

/-- A debug certificate is presented (R370). -/
def execDebugCertificate (cert : List Nat) (s : State) : Host.Outcome State Fault Refusal :=
  ans true s fun m => if m.frozen then m else m.certificate cert

/-- `grotto.dbg.clr` (R371). -/
def execDebugEnablesClear (s : State) : Host.Outcome State Fault Refusal := ans true s fun m => if m.frozen then m else m.dbgClear

end Sys2Proof.Machine
end

