-- ==== Sys2Proof/Machine/Flash.lean ====
section
/-! DEFINITION. The boot flash: bytes, image areas and the selector (R623, R632). -/

namespace Sys2Proof.Machine

/-- Flash bytes from an address; an erased byte reads 0xFF. -/
def Mach.flashRd (m : Mach) (a n : Nat) : List Nat := (List.range n).map fun i => tget m.boot.flash (a + i) 0xFF

/-- Erase a range, then write bytes from its start. -/
def Mach.flashWr (m : Mach) (a n : Nat) (bs : List Nat) : Mach :=
  let kept := m.boot.flash.filter fun x => decide (x.1 < a) || decide (a + n ≤ x.1)
  { m with boot := { m.boot with flash := (bs.zipIdx).foldl (fun t (x : Nat × Nat) => if x.1 % 256 = 0xFF then t else tset t (a + x.2) (x.1 % 256)) kept } }

/-- The base of an area: 0 A, 1 B. -/
def areaBase (area : Nat) : Nat := if area = 0 then 0 else 0x2000000
def areaSize : Nat := 0x2000000

def selAt (k : Nat) : Nat := 0x4000000 + 0x1000 * k

/-- A selector copy: its sequence and area when it is valid. -/
def Mach.selCopy (m : Mach) (k : Nat) : Option (Nat × Nat) :=
  let b := m.flashRd (selAt k) 16
  if ofBytes (b.take 4) = 0x4E4B4253 ∧ ofBytes (b.drop 12) = crc32c (b.take 12) ∧ b.getD 8 0 < 2 then
    some (ofBytes ((b.drop 4).take 4), b.getD 8 0)
  else none

/-- The copy that stands: the valid one of the higher sequence. -/
def Mach.selStands (m : Mach) : Option (Nat × Nat × Nat) :=
  match m.selCopy 0, m.selCopy 1 with
  | some a, some b => if a.1 < b.1 then some (1, b.1, b.2) else some (0, a.1, a.2)
  | some a, none => some (0, a.1, a.2)
  | none, some b => some (1, b.1, b.2)
  | none, none => none

/-- The area that the selector names, A when neither copy is valid. -/
def Mach.selArea (m : Mach) : Nat := match m.selStands with
  | some x => x.2.2
  | none => 0

/-- The selector is written: the copy that does not stand, with a sequence one greater. -/
def Mach.selWrite (m : Mach) (area : Nat) : Mach :=
  let (k, seq) := match m.selStands with
    | some x => (1 - x.1, x.2.1 + 1)
    | none => (0, 1)
  let b := toBytes 4 0x4E4B4253 ++ toBytes 4 seq ++ [area % 256, 0, 0, 0]
  m.flashWr (selAt k) 0x1000 (b ++ toBytes 4 (crc32c b))

end Sys2Proof.Machine
end

