-- ==== Sys2Proof/Machine/Coherence.lean ====
section
/-! DEFINITION. The L2's side of the coherence protocol (spec/09, R276 to R285), the store buffer and its detector (R241 to R245), and the
commands of the message set. -/

namespace Sys2Proof.Machine

/-! ### Wins and fills -/

/-- The run of stores to one line at the front of a store buffer (R242). -/
def storeRun (l : List StoreE) : List StoreE :=
  match l with
  | [] => []
  | e :: _ => l.takeWhile fun y => y.pa / 256 == e.pa / 256

/-- Apply a run to a line, and the bytes that it covers. -/
def applyRun (d : Line) (l : List StoreE) : Line := l.foldl (fun d e => linePut d (e.pa % 256) e.len e.val) d
def runMask (l : List StoreE) : Nat := l.foldl (fun k e => k ||| (2 ^ e.len - 1) * 2 ^ (e.pa % 256)) 0

/-- Take n performed entries out of a store buffer, for the removals that wait for them too (R224). -/
def Mach.popStores (m : Mach) (th n : Nat) : Mach :=
  let m := m.onTh th fun t => { t with sbuf := t.sbuf.drop n }
  let l := (tget m.shoot.done (th / 2) []).map fun d => if th % 2 = 0 then { d with n0 := d.n0 - n } else { d with n1 := d.n1 - n }
  { m with shoot := { m.shoot with done := if l = [] then m.shoot.done else tset m.shoot.done (th / 2) l } }

/-- The detector after a full-line store of a line (R244), and whether the store is written around. -/
def Detector.full (d : Detector) (line : Nat) : Detector × Bool :=
  let p : Int := line
  let around := d.cnt == 16 && decide (p = d.last + d.dir)
  let (cnt, dir) :=
    if d.cnt = 0 ∨ (d.dir ≠ 0 ∧ p ≠ d.last + d.dir) then (1, (0 : Int))
    else if d.dir = 0 ∧ (p = d.last + 1 ∨ p = (d.last : Int) - 1) then (2, p - d.last)
    else if d.dir = 0 then (1, 0)
    else (min (d.cnt + 1) 16, d.dir)
  (⟨cnt, dir, line⟩, around)

/-- The detector counts a performed store; a full-line store with `st_en` 0 sets both counts of the core to 0 (R265). -/
def Mach.detect (m : Mach) (th : Nat) (isFull : Bool) (line : Nat) : Mach :=
  let stop := fun (t : Thread) => { t with det := { t.det with cnt := 0 } }
  if isFull && m.on (R.core_l2cfg_st_en (th / 2)) then m.onTh th fun t => { t with det := (t.det.full line).1 }
  else if isFull then (m.onTh (2 * (th / 2)) stop).onTh (2 * (th / 2) + 1) stop
  else m.onTh th stop

/-- A hold time starts on a demand win (R160, R282). -/
def Mach.winDemand (m : Mach) (x : Miss) : Bool :=
  x.excl && (x.why == .store && ((m.th x.th).sbuf.head?.map (·.pa / 256)) == some x.line || x.why == .demand && m.isDemand x.th)

/-- A request whose grant and acknowledgements are all here fills the L2, sends DONE, and may start a hold time; it stays when no way or
eviction-buffer entry is free (R240). A grant without data for a line not held is the ownership of a full-line store, performed now. -/
def Mach.finishMiss (m : Mach) (c : Nat) (x : Miss) : Mach :=
  match x.grant, x.acks with
  | some (st, data), some n =>
    if x.got < n then m
    else
      let run := storeRun (m.th x.th).sbuf
      let own : Line × Bool × LSt × Bool := match data, (m.core c).find x.line with
        | some (d, p), _ => (d, p, st, false)
        | none, some (_, w) => (w.data, w.psn, if w.st = .m then .m else st, false)
        | none, none => (applyRun 0 run, false, LSt.m, true)
      let age := if x.why = .prefetch then 3 else 0
      match m.fill c x.line own.2.2.1 own.1 own.2.1 age (x.why == .prefetch) with
      | none => m.countCore c (R.core_cstat1_evbstall c)
      | some m =>
        let hold := m.winDemand x
        let m := m.onCore c fun k => { k with
          miss := k.miss.filter fun y => y.tag != x.tag
          holds := if hold && !k.holds.contains x.line then k.holds ++ [x.line] else k.holds }
        let m := if own.2.2.2 then (m.detect x.th true x.line).popStores x.th run.length else m
        (m.send 0x23 { noMsg with src := m.agentOf c, dst := m.homeAgent x.line, tag := x.tag, line := x.line }).combNext c x.line
  | _, _ => m

/-- Retry every request that waits for a place in the L2. -/
def Mach.finishAll (m : Mach) (c : Nat) : Mach := (m.core c).miss.foldl (fun m x => m.finishMiss c x) m

/-- An answer for a core whose work a swap has moved goes to the replacement (R171); with nothing outstanding it is a protocol violation. -/
def Mach.forward (m : Mach) (op : Nat) (x : Msg) : Mach :=
  let d := m.get (R.core_state_replaced_by (x.dst % 64))
  if d < 48 then m.send op { x with dst := m.agentOf d } else m.violation x

/-- An answer for an outstanding request of a core of this module: recorded, then the request may finish. A core that has been replaced
forwards it (R171); an answer to nothing outstanding is a protocol violation. -/
def Mach.onMiss (m : Mach) (op : Nat) (x : Msg) (byLine : Bool) (f : Miss → Miss) : Mach :=
  let c := x.dst % 64
  if m.frozen then m
  else match (m.core c).miss.find? fun y => y.line == x.line && (byLine || y.tag == x.tag) with
    | some y => (m.onCore c fun k => { k with miss := updWhere (fun z => z.tag == y.tag) f k.miss }).finishMiss c (f y)
    | none =>
      m.forward op x

/-! ### Probes (R278, R282) -/

/-- The state in which a probe finds a line: from a way or the eviction buffer. -/
def Core.probed (k : Core) (line : Nat) : Option (LSt × Line × Bool) :=
  match k.find line with
  | some (_, w) => some (w.st, w.data, w.psn)
  | none => (k.evb.find? fun e => e.line == line).map fun e => (e.st, e.data, e.psn)

/-- Leave a probed line shared. -/
def Mach.toShared (m : Mach) (c line : Nat) : Mach :=
  m.onCore c fun k =>
    let k := match k.find line with
      | some (key, w) => k.setWay key { w with st := .s }
      | none => k
    { k with evb := updWhere (fun e => e.line == line) (fun e => { e with st := .s }) k.evb }

/-- A probed agent invalidates its copy; an eviction under way keeps its entry, without a state of its own, until EVA. -/
def Mach.toInvalid (m : Mach) (c line : Nat) : Mach :=
  let sent := (m.core c).evb.filter fun e => e.line == line && e.sent
  let m := m.dropLine c line
  m.onCore c fun k => { k with evb := k.evb ++ sent.map fun e => { e with st := .s } }

/-- An agent that holds nothing of a line acknowledges a PRI; to another probe its PRA says that it held nothing (log entry 14). -/
def Mach.answerNothing (m : Mach) (op : Nat) (x base : Msg) (home : Nat) : Mach :=
  if op = 0x13 then m.send 0x21 { base with dst := x.req } else m.send 0x24 { base with dst := home, acks := 2 }

/-- Answer a probe now. -/
def Mach.answerProbe (m : Mach) (c op : Nat) (x : Msg) : Mach :=
  let base : Msg := { noMsg with src := x.dst, line := x.line, tag := x.tag }
  let home := m.homeAgent x.line
  match (m.core c).probed x.line with
  | none => m.answerNothing op x base home
  | some (st, d, p) =>
    let wb := fun (m : Mach) => if st = .m then m.send 0x32 { base with dst := home, psn := p, data := d } else m
    let pra := fun (m : Mach) (left : Nat) => m.send 0x24 { base with dst := home, st := left, acks := if st = .m then 1 else 0 }
    match op with
    | 0x11 => pra (wb ((m.toShared c x.line).send 0x31 { base with dst := x.req, st := 1, psn := p, data := d })) 1
    | 0x12 =>
      ((m.toInvalid c x.line).send 0x31 { base with dst := x.req, st := if st = .m then 3 else 2, psn := p, data := d }).send 0x24 { base with dst := home }
    | 0x13 => (m.toInvalid c x.line).send 0x21 { base with dst := x.req }
    | _ => pra (wb (m.toInvalid c x.line)) 0

/-- Every hold time of a core ends at once, and the probes that waited are answered (R283). -/
def Mach.endHolds (m : Mach) (c : Nat) : Mach :=
  let k := m.core c
  k.probes.foldl (fun m y => m.answerProbe c y.1 y.2) (m.setCore c { k with holds := [], probes := [] })

/-- A log cache answers a probe of a line that it holds in M, and keeps nothing of it (R438). -/
def Mach.logProbe (m : Mach) (slot op : Nat) (x : Msg) : Mach :=
  let base : Msg := { noMsg with src := m.agentOf slot, line := x.line, tag := x.tag }
  let home := m.homeAgent x.line
  match (tget m.acc.log (slot - 48) []).find? fun y => y.line == x.line with
  | none => m.answerNothing op x base home
  | some y =>
    let m := m.setLog (slot - 48) ((tget m.acc.log (slot - 48) []).filter fun y => y.line != x.line)
    match op with
    | 0x11 => ((m.send 0x31 { base with dst := x.req, st := 1, data := y.data }).send 0x32 { base with dst := home, data := y.data }).send 0x24
        { base with dst := home, acks := 1 }
    | 0x12 => (m.send 0x31 { base with dst := x.req, st := 3, data := y.data }).send 0x24 { base with dst := home }
    | 0x13 => m.send 0x21 { base with dst := x.req }
    | _ => (m.send 0x32 { base with dst := home, data := y.data }).send 0x24 { base with dst := home, acks := 1 }

/-- A probe arrives: during the hold time of its line it waits in the probe queue (R282). -/
def Mach.probe (m : Mach) (op : Nat) (x : Msg) : Mach :=
  let c := x.dst % 64
  if m.frozen then m
  else if 48 ≤ c then m.logProbe c op x
  else if (m.core c).holds.contains x.line then m.onCore c fun k => { k with probes := k.probes ++ [(op, x)] }
  else m.answerProbe c op x

/-! ### Commands: messages -/

/-- The destination is a core, or the home slice of the line, of this module. -/
def Mach.toCore (m : Mach) (x : Msg) : Bool := x.wf && decide (x.dst / 64 = m.modNo) && decide (x.dst % 64 < 48)
def Mach.toCache (m : Mach) (x : Msg) : Bool := x.wf && decide (x.dst / 64 = m.modNo) && decide (x.dst % 64 < 53)
def Mach.toHome (m : Mach) (x : Msg) : Bool :=
  x.wf && decide (x.dst / 64 = m.modNo) && decide (x.dst % 64 = 56 + homeSlice (256 * x.line))
def Mach.toHub (m : Mach) (x : Msg) : Bool := x.wf && decide (x.dst / 64 = m.modNo) && decide (x.dst % 64 = 55)

/-- A message to a bad agent number is a protocol violation (code 0x35). -/
def msgTo (ok : Mach → Msg → Bool) (x : Msg) (f : Mach → Mach) (s : State) : Host.Outcome State Fault Refusal :=
  ans x.wf s fun m => if m.frozen then m else if ok m x then f m else m.violation x

/-- The home looks a line up for a request: `bsn` is what the Basin's checkers find, `dir` what those of the directory find (0 nothing, else the code
of Table 9.12 less 0x2F; R270, R271). An entry that cannot be corrected answers nothing. -/
def Mach.homeLookup (m : Mach) (op : Nat) (x : Msg) (bsn dir : Nat) : Mach :=
  if m.frozen then m
  else
    let (m, bsn) := m.verdict (1536 + 16 * homeSlice (256 * x.line)) 5 bsn
    let (m, dir) := m.verdict 1599 4 dir
    let m := m.bsnCheck x.line bsn
    let m := if 1 ≤ dir ∧ dir ≤ 4 then m.aqError (0x2F + dir) (16 + homeSlice (256 * x.line)) x.line else m
    if dir = 2 ∨ dir = 4 then m else m.homeRequest op x

def execRds (x : Msg) (bsn dir : Nat) (s : State) : Host.Outcome State Fault Refusal := msgTo Mach.toHome x (·.homeLookup 0x01 x bsn dir) s
def execRdx (x : Msg) (bsn dir : Nat) (s : State) : Host.Outcome State Fault Refusal := msgTo Mach.toHome x (·.homeLookup 0x02 x bsn dir) s
def execUpg (x : Msg) (s : State) : Host.Outcome State Fault Refusal := msgTo Mach.toHome x (·.homeRequest 0x03 x) s
def execOwn (x : Msg) (s : State) : Host.Outcome State Fault Refusal := msgTo Mach.toHome x (·.homeRequest 0x04 x) s
def execWrf (x : Msg) (s : State) : Host.Outcome State Fault Refusal := msgTo Mach.toHome x (·.homeRequest 0x05 x) s
def execWrm (x : Msg) (s : State) : Host.Outcome State Fault Refusal := msgTo Mach.toHome x (·.homeRequest 0x06 x) s
def execEvc (x : Msg) (s : State) : Host.Outcome State Fault Refusal := msgTo Mach.toHome x (·.homeRequest 0x07 x) s
def execEvd (x : Msg) (s : State) : Host.Outcome State Fault Refusal := msgTo Mach.toHome x (·.homeRequest 0x08 x) s
def execMov (x : Msg) (s : State) : Host.Outcome State Fault Refusal :=
  msgTo Mach.toHome x (fun m => if m.frozen then m else m.homeMov x) s
def execPrs (x : Msg) (s : State) : Host.Outcome State Fault Refusal := msgTo Mach.toCache x (·.probe 0x11 x) s
def execPrx (x : Msg) (s : State) : Host.Outcome State Fault Refusal := msgTo Mach.toCache x (·.probe 0x12 x) s
def execPri (x : Msg) (s : State) : Host.Outcome State Fault Refusal := msgTo Mach.toCache x (·.probe 0x13 x) s
def execPrw (x : Msg) (s : State) : Host.Outcome State Fault Refusal := msgTo Mach.toCache x (·.probe 0x14 x) s

/-- ACK: one sharer has invalidated. -/
def execAck (x : Msg) (s : State) : Host.Outcome State Fault Refusal :=
  msgTo Mach.toCore x (fun m => m.onMiss 0x21 x false fun y => { y with got := y.got + 1 }) s

def stOf (n : Nat) : LSt := if n = 3 then .m else if n = 2 then .e else .s

/-- CMP: a grant without data, with the ACKs to await. -/
def execCmpGrant (x : Msg) (s : State) : Host.Outcome State Fault Refusal :=
  msgTo Mach.toCore x (fun m => m.onMiss 0x22 x false fun y => { y with acks := some x.acks, grant := some (stOf x.st, none) }) s

/-- DATA: the line with its granted state and the ACKs to await. -/
def execDataMsg (x : Msg) (s : State) : Host.Outcome State Fault Refusal :=
  msgTo Mach.toCore x (fun m => m.onMiss 0x31 x false fun y => { y with acks := some x.acks, grant := some (stOf x.st, some (x.data, x.psn)) }) s

def execDone (x : Msg) (s : State) : Host.Outcome State Fault Refusal := msgTo Mach.toHome x (fun m => if m.frozen then m else m.homeDone x) s
def execPra (x : Msg) (s : State) : Host.Outcome State Fault Refusal := msgTo Mach.toHome x (fun m => if m.frozen then m else m.homePra x) s
def execDath (x : Msg) (s : State) : Host.Outcome State Fault Refusal := msgTo Mach.toHome x (fun m => if m.frozen then m else m.homeDath x) s
def execWdat (x : Msg) (s : State) : Host.Outcome State Fault Refusal := msgTo Mach.toHome x (fun m => if m.frozen then m else m.homeWdat x) s

/-- EVA: the eviction-buffer entry is freed (R237), and a fill that waited for it may go on. -/
def execEva (x : Msg) (s : State) : Host.Outcome State Fault Refusal :=
  msgTo Mach.toCore x (fun m =>
    if m.frozen then m
    else (m.onCore (x.dst % 64) fun k => { k with evb := k.evb.filter fun e => !(e.line == x.line && e.sent) }).finishAll (x.dst % 64)) s

/-- EVP: the home asks for the data of a clean eviction; an entry that an error dropped answers as an agent that holds nothing (Table 8.8, code 0x06). -/
def execEvp (x : Msg) (s : State) : Host.Outcome State Fault Refusal :=
  msgTo Mach.toCore x (fun m =>
    if m.frozen then m
    else match (m.core (x.dst % 64)).evb.find? fun e => e.line == x.line && e.sent with
      | some e => m.send 0x32 { noMsg with src := x.dst, dst := m.homeAgent x.line, line := x.line, tag := x.tag, psn := e.psn, data := e.data }
      | none => m.answerNothing 0x26 x { noMsg with src := x.dst, line := x.line, tag := x.tag } (m.homeAgent x.line)) s

/-- WRA: the home write is performed. -/
def execWra (x : Msg) (s : State) : Host.Outcome State Fault Refusal :=
  msgTo Mach.toCore x (fun m =>
    let c := x.dst % 64
    if m.frozen then m
    else match takeFirst (fun y => y.1 == x.line) (m.core c).wpend with
      | some (_, rest) => (m.onCore c fun k => { k with wpend := rest }).combNext c x.line
      | none => m.forward 0x27 x) s

/-- ERR: the access raises a precise machine check with the source of code 0x36 (Table 9.12). -/
def execErr (x : Msg) (s : State) : Host.Outcome State Fault Refusal :=
  msgTo Mach.toCore x (fun m =>
    let c := x.dst % 64
    if m.frozen then m
    else match takeFirst (fun y => y.line == x.line && y.tag == x.tag) (m.core c).miss with
      | some (y, rest) =>
        let m := m.onCore c fun k => { k with miss := rest }
        let m := m.combNext c x.line
        if y.why = .prefetch then m else m.onTh y.th fun t => { t with pendMck := some (1606, y.why == .demand) }
      | none => match takeFirst (fun y => y.1 == x.line) (m.core c).wpend with
        | some (y, rest) => ((m.onCore c fun k => { k with wpend := rest }).onTh y.2.1 fun t => { t with pendMck := some (1606, false) }).combNext c x.line
        | none => m.forward 0x29 x) s

/-- TLBI (R281): the hub delivers the removal to every core and the translation unit of its module. -/
def execTlbi (x : Msg) (s : State) : Host.Outcome State Fault Refusal :=
  msgTo Mach.toHub x (fun m =>
    if m.frozen then m
    else
      let r : Removal := ⟨(1048576 + x.src / 64) * 4096 + x.tag, x.aux % 256, x.line * 256, x.aux / 256 % 4096, x.req, List.range 49⟩
      let m := { m with shoot := { m.shoot with inbound := m.shoot.inbound ++ [r], mtu := m.shoot.mtu ++ [r] } }
      (List.range 48).foldl (fun m d => m.onCore d fun k => { k with shoot := k.shoot ++ [r] }) m) s

/-- TLBA: another module has acknowledged the removal of a tag. -/
def execTlba (x : Msg) (s : State) : Host.Outcome State Fault Refusal :=
  msgTo Mach.toHub x (fun m =>
    if m.frozen then m
    else match (List.range 96).findSome? fun t => (m.th t).removals.find? fun r => r.id % 4096 == x.tag && r.waits.contains (64 + x.src / 64) with
      | some r => m.ackRemoval r.id (64 + x.src / 64)
      | none => m.violation x) s

/-! ### Commands: timers and the store buffer -/

/-- A hold time expires: the waiting probes of the line are answered in order (R282), also when the line has left the L2 before. -/
def execHoldExpiry (agent line : Nat) (s : State) : Host.Outcome State Fault Refusal :=
  ans (decide (agent < 48) && decide (line < 2 ^ 44)) s fun m =>
    let k := m.core agent
    if m.frozen || !(k.holds.contains line || k.probes.any fun y => y.2.line == line) then m
    else
      let m := m.setCore agent { k with holds := k.holds.filter (· != line), probes := k.probes.filter fun y => y.2.line != line }
      (k.probes.filter fun y => y.2.line == line).foldl (fun m y => m.answerProbe agent y.1 y.2) m

/-- A probe unanswered within `aq.cfg.ptmo`: the agent is dead, code 0x34 (R285). -/
def execProbeTimeout (line : Nat) (s : State) : Host.Outcome State Fault Refusal :=
  ans (decide (line < 2 ^ 44)) s fun m =>
    match tfind m.home.txn line with
    | some t => if m.frozen || t.awaits.isEmpty then m else m.aqError 0x34 (16 + homeSlice (256 * line)) line
    | none => m

/-- The store buffer performs its oldest store, with the run to its line (R241 to R245). -/
def Mach.storePerform (m : Mach) (th : Nat) : Mach :=
  let c := th / 2
  let run := storeRun (m.th th).sbuf
  match run with
  | [] => m
  | e :: _ =>
    if m.frozen || (m.core c).swap.isSome || (m.core c).wpend.any fun x => x.1 == e.pa / 256 || (x.2.1 == th && x.2.2) then m
    else
      let line := e.pa / 256
      if m.homeOf (256 * line) = none then
        -- answered ERR: the store is lost and the thread takes a machine check (R267)
        ((m.popStores th run.length).aqError 0x36 (16 + homeSlice (256 * line)) line).onTh th fun t => { t with pendMck := some (1606, false) }
      else
        let m := m.combTouch c line
        if (m.core c).wpend.any fun x => x.1 == line then m
        else
          let isFull := runMask run == 2 ^ 256 - 1
          let around := isFull && m.on (R.core_l2cfg_st_en c) && ((m.th th).det.full line).2 && !m.reservedIn c line
          if around && (m.core c).asks line then m
          else if around then
            let m := ((m.detect th true line).popStores th run.length).countCore c (R.core_cstat1_wround c)
            m.homeWriteMsg c th line (applyRun 0 run) (2 ^ 256 - 1) true
          else
            match (m.core c).find line with
            | some (_, w) =>
              if w.st = .s then m.request c line (if isFull then 0x04 else 0x03) .store th
              else
                let m := m.l2Store th line fun d => applyRun d run
                let m := if isFull then m.onCore c fun k => match k.find line with
                    | some (key, w) => k.setWay key { w with psn := false }
                    | none => k
                  else m
                (m.detect th isFull line).popStores th run.length
            | none =>
              match (m.core c).evb.find? fun y => y.line == line with
              | some y =>
                if y.sent then m
                else match m.fill c line y.st y.data y.psn 0 false with
                  | some m' => m'.onCore c fun k => { k with evb := k.evb.filter fun z => z.line != line }
                  | none => m
              | none => m.request c line (if isFull then 0x04 else 0x02) .store th

def execStorePerform (th : Nat) (s : State) : Host.Outcome State Fault Refusal :=
  ans (decide (th < 96)) s (·.storePerform th)

/-- A combining line without a store for 1 µs is written out (R248). -/
def execCombiningLineTimeout (core line : Nat) (s : State) : Host.Outcome State Fault Refusal :=
  ans (decide (core < 48) && decide (line < 2 ^ 44)) s fun m => if m.frozen then m else m.combTouch core line

/-- The line that a stream asks for, `pf_dist` strides ahead of its latest demand miss: in the page of that miss, or in the next one, whose translation
is looked up or walked for the thread (R220, R250). None within `ok` when no line is to be asked for; an error when the stream ends there. -/
def pfTarget (core : Nat) (x : PfStream) : X (Option Nat) := do
  let m ← X.mach
  let d : Int := x.stride * (m.get (R.core_l2cfg_pf_dist core) : Int)
  let target : Int := x.last + d
  if target < 0 then pure none
  else if target.toNat / 16 = x.last / 16 then pure (some target.toNat)
  else match x.va with
    | none => pure none
    | some v =>
      let t : Int := v + d
      if t < 0 ∨ 2 ^ 56 ≤ t.toNat ∨ (t.toNat / 16 ≠ v / 16 + 1 ∧ t.toNat / 16 + 1 ≠ v / 16) then pure none
      else do
        let l ← translateFor true x.th (256 * t.toNat) .load
        let m ← X.mach
        pure (if l.nc || m.inScratch x.th l.pa || (!l.cmp && (m.apOf l.pa).isSome) || !m.threadMay (m.th x.th).cur.pl l.window l.pa then none
          else some (l.pa / 256))

/-- Stream k of a core requests a line ahead, in shared state (R250). It ends at a translation fault, at a clear accessed or dirty bit, and after 64
requests without a demand hit. -/
def execPrefetchRequest (core k : Nat) (s : State) : Host.Outcome State Fault Refusal :=
  ans (decide (core < 48) && decide (k < 32)) s fun m =>
    match (m.core core).pf[k]? with
    | none => m
    | some x =>
      if m.frozen || !m.on (R.core_l2cfg_pf_en core) || decide (x.seen < 3) || x.stride == 0 then m
      else if 64 ≤ x.asked.length then m.onCore core fun c => { c with pf := c.pf.eraseIdx k }
      else match pfTarget core x m with
        | .error .wait m' => m'
        | .error _ _ => m.onCore core fun c => { c with pf := c.pf.eraseIdx k }
        | .ok none m' => m'
        | .ok (some line) m' =>
          if (m'.core core).stOf line ≠ none ∨ (m'.core core).asks line ∨ m'.homeOf (256 * line) = none ∨ m'.uncached (256 * line) then m'
          else (m'.onCore core fun c => { c with pf := c.pf.set k { x with asked := x.asked ++ [line] } }).request core line 0x01 .prefetch x.th

end Sys2Proof.Machine
end

