-- ==== Sys2Proof/Machine/Fabric.lean ====
section
/-! DEFINITION. Fabric ports (spec/09, R288 to R293): received flits, acknowledgement and resending, lanes, training. -/

namespace Sys2Proof.Machine

/-! ### Received messages -/

/-- The message that slots spell. -/
def slotsMsg (l : List Nat) : Nat × Msg :=
  let h := l.headD 0
  let d := (l.drop 1).take 16
  let mk := l.drop 17
  let mask := if mk = [] then 2 ^ 256 - 1
    else (List.range 256).foldl (fun w i => if (mk.getD (i / 128) 0).testBit (127 - i % 128) then w ||| 2 ^ i else w) 0
  (bits h 127 122, ⟨bits h 119 112, bits h 111 104, bits h 103 92, bits h 91 48, bits h 47 40, bits h 39 38, bit h 37, bits h 36 29, bits h 23 0,
    BitVec.ofNat 2048 (d.foldl (fun w s => w * 2 ^ 128 + s) 0), mask⟩)

/-- How many slots a message takes, by its header; a WDAT has a mask when it answers a WRM that this home serves. -/
def Mach.slotCount (m : Mach) (h : Nat) : Nat :=
  let op := bits h 127 122
  if vcOf op ≠ 3 then 1
  else if op = 0x33 ∧ (((m.home.txn.map fun t => (t.2.op, t.2.req)) ++ m.home.waitq).any fun y =>
      y.1 == 0x06 && y.2.src == bits h 119 112 && y.2.line == bits h 91 48) then 19
  else 17

/-- A received message reaches its unit; an undefined op is a protocol violation (code 0x35). -/
def Mach.deliver (m : Mach) (op : Nat) (x : Msg) : Mach :=
  let run (f : State → Host.Outcome State Fault Refusal) : Mach :=
    match f ⟨[], m⟩ with
    | .next s => s.m
    | _ => m
  match op with
  | 0x01 => run (execRds x 0 0) | 0x02 => run (execRdx x 0 0) | 0x03 => run (execUpg x) | 0x04 => run (execOwn x) | 0x05 => run (execWrf x)
  | 0x06 => run (execWrm x) | 0x07 => run (execEvc x) | 0x08 => run (execEvd x) | 0x09 => run (execMov x) | 0x0A => run (execTlbi x)
  | 0x11 => run (execPrs x) | 0x12 => run (execPrx x) | 0x13 => run (execPri x) | 0x14 => run (execPrw x)
  | 0x21 => run (execAck x) | 0x22 => run (execCmpGrant x) | 0x23 => run (execDone x) | 0x24 => run (execPra x) | 0x25 => run (execEva x)
  | 0x26 => run (execEvp x) | 0x27 => run (execWra x) | 0x28 => run (execTlba x) | 0x29 => run (execErr x)
  | 0x31 => run (execDataMsg x) | 0x32 => run (execDath x) | 0x33 => run (execWdat x)
  | _ => m.aqError 0x35 (16 + homeSlice (256 * x.line)) x.line

/-- Deliver the complete messages at the front of the received slots of a port, at most n. -/
def Mach.assemble (m : Mach) (p : Nat) : Nat → Mach
  | 0 => m
  | n + 1 =>
    let k := m.fabP p
    let c := m.slotCount (k.rx.headD 0)
    if k.rx = [] ∨ k.rx.length < c then m
    else
      let (op, x) := slotsMsg (k.rx.take c)
      ((m.setFabP p { k with rx := k.rx.drop c }).deliver op x).assemble p n


/-! ### Received flits (R290) -/

/-- A flit that acknowledges what was accepted, with nak, and returns the credits of freed slots per channel. -/
def Mach.fabAck (m : Mach) (p : Nat) (nak : Bool) (crd : List Nat) : Mach :=
  m.emit (.frame 1 p [((m.fabP p).rxSeq + 1023) % 1024, b2n nak, crd.getD 0 0, crd.getD 1 0, crd.getD 2 0, crd.getD 3 0])

/-- The traffic of a port that went down moves to the substitute (R288): the replay buffer first, then what waits. -/
def Mach.fabMove (m : Mach) (p : Nat) : Mach :=
  let k := m.fabP p
  let q := m.fabPort (p / 3) ((m.modNo + p % 3 + 1) % 4)
  let held := (k.replay.map fun x => (x.2.2.vc, x.2.2)) ++ k.waiting
  if q = p ∨ m.get (R.aq_fab_stat_state q) ≠ 6 then m.setFabP p { k with replay := [], waiting := held, rx := [] }
  else
    let m := m.setFabP p { k with replay := [], waiting := [], rx := [] }
    let y := m.fabP q
    (m.setFabP q { y with waiting := held ++ y.waiting }).fabSend q held.length

/-- Begin a training of a port (Table 9.8); what it holds moves to a port that is up. -/
def Mach.fabTrain (m : Mach) (p : Nat) : Mach :=
  let m := m.sets [(R.aq_fab_stat p, 0), (R.aq_fab_stat_state p, 1), (R.id_ports_fab, m.get R.id_ports_fab &&& (4095 ^^^ 2 ^ p))]
  (m.emit (.frame 2 p [])).fabMove p

/-- A port goes down, with the state it shows; when no port to that module is left the domain stops with code 0x44 (R288, R574). -/
def Mach.fabDown (m : Mach) (p st code : Nat) : Mach :=
  let m := m.sets [(R.aq_fab_stat_state p, st), (R.aq_fab_stat_width p, 0), (R.id_ports_fab, m.get R.id_ports_fab &&& (4095 ^^^ 2 ^ p))]
  let m := if code = 0 then m else m.aqError code p 0
  let m := m.fabMove p
  let md := (m.modNo + p % 3 + 1) % 4
  if bit (m.get R.aq_dom_joined) md && ((List.range 4).all fun t => m.get (R.aq_fab_stat_state (3 * t + p % 3)) != 6) then m.aqError 0x44 (p % 3) 0 else m

/-- Resend the replay buffer from a sequence number on: each flit is counted and reported; a flit's eighth resend retrains the port (R290). -/
def Mach.fabResend (m : Mach) (p : Nat) : Mach :=
  let k := m.fabP p
  let m := k.replay.foldl (fun m x => ((m.count (R.aq_fab_cnt_replay p)).aqError 0x40 p 0).emit (.frame 0 p (x.1 :: x.2.2.slots))) m
  let m := m.setFabP p { k with replay := k.replay.map fun x => (x.1, x.2.1 + 1, x.2.2) }
  if k.replay.any fun x => x.2.1 + 1 == 8 then (m.aqError 0x46 p 0).fabTrain p else m

/-- The acknowledgements and credits of an accepted flit. -/
def Mach.fabHeader (m : Mach) (p h : Nat) : Mach :=
  let k := m.fabP p
  let ack := bits h 83 74
  let acked := fun (q : Nat) => decide ((ack + 1024 - q) % 1024 < 512)
  let k := { k with
    replay := if bit h 73 then k.replay.filter fun x => !acked x.1 else k.replay,
    credits := [k.credits.getD 0 0 + bits h 71 64, k.credits.getD 1 0 + bits h 63 56, k.credits.getD 2 0 + bits h 55 48, k.credits.getD 3 0 + bits h 47 40] }
  let m := m.setFabP p k
  let m := if bit h 72 then m.fabResend p else m
  m.fabSend p (k.waiting.length)

/-- Count per channel of the slots of a flit, by the message each belongs to. -/
def Mach.slotVcs (m : Mach) : Nat → List Nat → List Nat
  | 0, _ => [0, 0, 0, 0]
  | n + 1, l =>
    match l with
    | [] => [0, 0, 0, 0]
    | h :: _ =>
      let c := m.slotCount h
      let r := m.slotVcs n (l.drop c)
      let v := bits h 121 120
      r.set v (r.getD v 0 + min c l.length)

/-- A flit of 128 corrected bytes arrives: header, seven slots, CRC-32C (R289, R290). -/
def Mach.fabFlit (m : Mach) (p : Nat) (bytes : List Nat) (fixed : Bool) : Mach :=
  if m.frozen || m.get (R.aq_fab_stat_state p) != 6 then m
  else
    let m := if fixed then m.count (R.aq_fab_cnt_fecc p) else m
    let h := ofBytes (bytes.take 12)
    let kind := bits h 95 94
    if bytes.length ≠ 128 ∨ crc32c (bytes.take 124) ≠ ofBytes (bytes.drop 124) ∨ kind = 3 ∨ (kind = 0 ∧ bits h 93 84 ≠ (m.fabP p).rxSeq) then m.fabAck p true []
    else if kind ≠ 0 then m.fabHeader p h
    else
      let slots := (List.range 7).filterMap fun i => if bit h (33 + i) then some (ofBytes ((bytes.drop (12 + 16 * i)).take 16)) else none
      let k := m.fabP p
      let all := k.rx ++ slots
      let before := m.slotVcs (k.rx.length + 1) k.rx
      let after := m.slotVcs (all.length + 1) all
      let m := m.setFabP p { k with rxSeq := (k.rxSeq + 1) % 1024, rx := all }
      let m := (m.fabHeader p h).fabAck p false (after.zipWith (· - ·) before)
      m.assemble p all.length

def execFabricFlit (port : Nat) (bytes : List Nat) (fixed : Bool) (s : State) : Host.Outcome State Fault Refusal :=
  ans (decide (port < 12)) s fun m => m.fabFlit port bytes fixed

/-! ### Lanes (R292, R293) -/

/-- How many of the lanes lo to lo + 7 failed. -/
def failedIn (f lo : Nat) : Nat := ((List.range 8).filter fun i => bit f (lo + i)).length

/-- The half that can carry an x8 port, with the lane that the spare replaces: failed lanes, and whether the spare may be used. -/
def x8Half (f : Nat) (spare : Bool) : Option (Nat × Option Nat) :=
  [0, 8].findSome? fun lo =>
    let n := failedIn f lo
    if n = 0 then some (lo, none)
    else if n = 1 ∧ spare then ((List.range 8).find? fun i => bit f (lo + i)).map fun i => (lo, some (lo + i))
    else none

/-- The half in use at x8: the spare's, else the first without a failed lane. -/
def Mach.halfUsed (m : Mach) (p f : Nat) : Nat :=
  if m.on (R.aq_fab_stat_spare_used p) then m.get (R.aq_fab_stat_spare_for p) / 8 * 8 else if failedIn f 0 = 0 then 0 else 8

/-- A lane of an up port fails; at x8 a lane of the other half only shows. -/
def Mach.fabLaneFail (m : Mach) (p lane : Nat) : Mach :=
  if m.frozen || m.get (R.aq_fab_stat_state p) != 6 || bit (m.get (R.aq_fab_stat_failed p)) lane then m
  else
    let f0 := m.get (R.aq_fab_stat_failed p)
    let f := f0 ||| 2 ^ lane
    let m := m.set (R.aq_fab_stat_failed p) f
    let used := m.on (R.aq_fab_stat_spare_used p)
    let spare := m.on (R.aq_fab_ctl_spare_en p) && !bit f 16
    if lane = 16 ∧ !used ∨ m.get (R.aq_fab_stat_width p) = 1 ∧ lane < 16 ∧ lane / 8 * 8 ≠ m.halfUsed p f0 then m
    else if !used && spare then
      ((m.sets [(R.aq_fab_stat_spare_used p, 1), (R.aq_fab_stat_spare_for p, lane)]).aqError 0x41 p 0).emit (.frame 3 p [lane])
    else if m.get (R.aq_fab_stat_width p) = 2 then
      match x8Half f spare with
      | none => m.fabDown p 9 0x43
      | some (_, sp) => (m.sets [(R.aq_fab_stat_width p, 1), (R.aq_fab_stat_state p, 3), (R.aq_fab_stat_spare_used p, b2n sp.isSome),
          (R.aq_fab_stat_spare_for p, sp.getD 0)]).aqError 0x42 p 0
    else m.fabDown p 9 0x43

def execFabricLaneFailure (port lane : Nat) (s : State) : Host.Outcome State Fault Refusal :=
  ans (decide (port < 12) && decide (lane < 17)) s fun m => m.fabLaneFail port lane

/-- The far end's LANEMAP: this end switches too (R292). -/
def execFabricLanemap (port lane : Nat) (s : State) : Host.Outcome State Fault Refusal :=
  ans (decide (port < 12) && decide (lane < 17)) s fun m =>
    if m.frozen || m.get (R.aq_fab_stat_state port) != 6 then m
    else m.sets [(R.aq_fab_stat_failed port, m.get (R.aq_fab_stat_failed port) ||| 2 ^ lane), (R.aq_fab_stat_spare_used port, 1), (R.aq_fab_stat_spare_for port, lane)]

def execFabricRetrainAtX8Done (port : Nat) (s : State) : Host.Outcome State Fault Refusal :=
  ans (decide (port < 12)) s fun m =>
    if m.frozen || m.get (R.aq_fab_stat_state port) != 3 || m.get (R.aq_fab_stat_width port) != 1 || !bit (m.get R.id_ports_fab) port then m
    else
      let m := m.set (R.aq_fab_stat_state port) 6
      let m := (m.fabP port).replay.foldl (fun m x => m.emit (.frame 0 port (x.1 :: x.2.2.slots))) m
      m.fabSend port (m.fabP port).waiting.length

/-! ### Training (Table 9.8) -/

def execFabricTrainingStart (port : Nat) (s : State) : Host.Outcome State Fault Refusal :=
  ans (decide (port < 12)) s fun m =>
    if m.frozen || !m.on (R.aq_fab_ctl_en port) || m.get (R.aq_fab_stat_state port) == 6 then m else m.fabTrain port

/-- 4 ms after the start: lanes that have not locked failed; alignment begins at the width that R292 and R293 give. -/
def execFabricEqualisationEnd (port locked : Nat) (s : State) : Host.Outcome State Fault Refusal :=
  ans (decide (port < 12)) s fun m =>
    let p := port
    if m.frozen || !(m.get (R.aq_fab_stat_state p) == 1 || m.get (R.aq_fab_stat_state p) == 2) then m
    else
      let f := (2 ^ 17 - 1) ^^^ (locked % 2 ^ 17)
      let m := m.set (R.aq_fab_stat_failed p) f
      let spare := m.on (R.aq_fab_ctl_spare_en p) && !bit f 16
      let n := failedIn f 0 + failedIn f 8
      if n = 0 then m.sets [(R.aq_fab_stat_width p, 2), (R.aq_fab_stat_state p, 3)]
      else if n = 1 ∧ spare then
        (m.sets [(R.aq_fab_stat_width p, 2), (R.aq_fab_stat_state p, 3), (R.aq_fab_stat_spare_used p, 1),
          (R.aq_fab_stat_spare_for p, ((List.range 16).find? fun i => bit f i).getD 0)]).aqError 0x41 p 0
      else match x8Half f spare with
        | none => m.fabDown p 9 0x43
        | some (_, sp) => (m.sets [(R.aq_fab_stat_width p, 1), (R.aq_fab_stat_state p, 3), (R.aq_fab_stat_spare_used p, b2n sp.isSome),
            (R.aq_fab_stat_spare_for p, sp.getD 0)]).aqError 0x42 p 0

/-- The far end's identity: module, port, domain size (R21). -/
def execFabricIdent (port md far size : Nat) (s : State) : Host.Outcome State Fault Refusal :=
  ans (decide (port < 12)) s fun m =>
    if m.frozen || m.get (R.aq_fab_stat_state port) != 3 || bit (m.get R.id_ports_fab) port then m
    else if md = (m.modNo + port % 3 + 1) % 4 ∧ far = 3 * (port / 3) + (2 - port % 3) ∧ size = m.dsize then
      m.sets [(R.aq_fab_stat_state port, 4), (R.aq_fab_stat_peer_mod port, md), (R.aq_fab_stat_peer_port port, far)]
    else (m.set (R.aq_fab_stat_state port) 8).aqError 0x45 port 0

/-- Credits are granted, sequence numbers start at 0, and the port is up (R291). -/
def execFabricCrdinit (port : Nat) (s : State) : Host.Outcome State Fault Refusal :=
  ans (decide (port < 12)) s fun m =>
    if m.frozen || m.get (R.aq_fab_stat_state port) != 4 then m
    else
      let k := m.fabP port
      let held := (k.replay.map fun x => (x.2.2.vc, x.2.2)) ++ k.waiting
      let m := m.setFabP port ⟨0, 0, [], held, [256, 256, 512, 2176], false, []⟩
      let m := m.sets [(R.aq_fab_stat_state port, 6), (R.id_ports_fab, m.get R.id_ports_fab ||| 2 ^ port), (R.aq_fab_ctl_retrain port, 0)]
      m.fabSend port held.length

/-- A write of `aq.fab.ctl` (R288, R293): retraining, fencing and powering down are repair actions of M6 and are refused elsewhere (R53). -/
def Mach.fabCtl (m : Mach) (p val : Nat) : Mach :=
  let repair := m.mode_ == 6
  let was := m.on (R.aq_fab_ctl_en p)
  let m := m.sets [(R.aq_fab_ctl_lthr p, bits val 23 8), (R.aq_fab_ctl_spare_en p, bits val 1 1)]
  if was && !bit val 0 then
    if repair then (m.set (R.aq_fab_ctl_en p) 0).fabDown p 10 0 else m
  else if !was && bit val 0 then (m.set (R.aq_fab_ctl_en p) 1).fabTrain p
  else if bit val 2 && was && repair then (m.set (R.aq_fab_ctl_retrain p) 1).fabTrain p
  else m

def execFabricPortControlWrite (port val : Nat) (s : State) : Host.Outcome State Fault Refusal :=
  ans (decide (port < 12)) s fun m => if m.frozen then m else m.fabCtl port val

end Sys2Proof.Machine
end

