-- ==== Sys2Proof/Machine/Inflate.lean ====
section
/-! DEFINITION. DEFLATE decompression with raw, zlib and gzip framing (spec/13, R397 to R399), as a machine that takes one element of the data at
a time and keeps what it could not use. -/

namespace Sys2Proof.Machine

/-! ### Bits and code sets -/

/-- The bits of bytes in the order of RFC 1951: least significant first. -/
def bitsOf (bs : List Nat) : List Bool := bs.flatMap fun b => (List.range 8).map b.testBit

/-- The bytes that bits spell, the last one padded with zeros; at most n. -/
def bytesOfBits : Nat → List Bool → List Nat
  | 0, _ => []
  | n + 1, l => if l = [] then [] else ((l.take 8).foldr (fun b a => 2 * a + b2n b) 0) :: bytesOfBits n (l.drop 8)

/-- A value read least significant bit first. -/
def bitsVal (l : List Bool) : Nat := l.foldr (fun b a => 2 * a + b2n b) 0

/-- What reading one element gives: a value and the bits left; too few bits; or an offending element, with the bits from its first on. -/
inductive Got (α : Type) where
  | ok (a : α) (r : List Bool)
  | more
  | bad (r : List Bool)

def Got.bind {α β : Type} (x : Got α) (f : α → List Bool → Got β) : Got β :=
  match x with
  | .ok a r => f a r
  | .more => .more
  | .bad r => .bad r

/-- Read an n-bit value. -/
def getBits (n : Nat) (l : List Bool) : Got Nat := if l.length < n then .more else .ok (bitsVal (l.take n)) (l.drop n)

/-- The number of codes of a length in a set. -/
def lenCount (lens : List Nat) (n : Nat) : Nat := (lens.filter (· == n)).length

/-- The unused code space of a set of lengths up to 15, in units of 2^-15: negative when over-subscribed, zero when complete. -/
def codeRoom (lens : List Nat) : Int := (2 ^ 15 : Int) - ((List.range 15).map fun i => (lenCount lens (i + 1) * 2 ^ (14 - i) : Int)).sum

/-- The symbols of a canonical code in code order. -/
def codeOrder (lens : List Nat) : List Nat :=
  (List.range 15).flatMap fun i => (List.range lens.length).filter fun s => lens.getD s 0 == i + 1

/-- Decode one symbol of a canonical code: n lengths remain to be tried, from `len`; `code`, `first` and `index` as the code grows. -/
def symLoop (lens order : List Nat) (start : List Bool) : Nat → Nat → Nat → Nat → Nat → List Bool → Got Nat
  | 0, _, _, _, _, _ => .bad start
  | _ + 1, _, _, _, _, [] => .more
  | n + 1, len, code, first, index, b :: r =>
    let code := code + b2n b
    let count := lenCount lens len
    if code < first + count then .ok (order.getD (index + (code - first)) 0) r
    else symLoop lens order start n (len + 1) (2 * code) (2 * (first + count)) (index + count) r

def getSym (lens : List Nat) (l : List Bool) : Got Nat := symLoop lens (codeOrder lens) l 15 1 0 0 0 l

/-! ### Block headers -/

/-- Code lengths of a fixed block. -/
def fixedLit : List Nat := List.replicate 144 8 ++ List.replicate 112 9 ++ List.replicate 24 7 ++ List.replicate 8 8
def fixedDist : List Nat := List.replicate 32 5

/-- The order in which code-length codes are given. -/
def clOrder : List Nat := [16, 17, 18, 0, 8, 7, 9, 6, 10, 5, 11, 4, 12, 3, 13, 2, 14, 1, 15]

/-- The lengths of a dynamic block: `want` in all, `acc` so far. -/
def getLens (cl : List Nat) (want : Nat) : Nat → List Nat → List Bool → Got (List Nat)
  | 0, _, l => .bad l
  | n + 1, acc, l =>
    if acc.length = want then .ok acc l
    else
      (getSym cl l).bind fun s r =>
        let rep := fun (v k : Nat) (r : List Bool) =>
          if want < acc.length + k then Got.bad l else getLens cl want n (acc ++ List.replicate k v) r
        if s < 16 then getLens cl want n (acc ++ [s]) r
        else if s = 16 then
          match acc.getLast? with
          | none => .bad l
          | some v => (getBits 2 r).bind fun k r => rep v (3 + k) r
        else if s = 17 then (getBits 3 r).bind fun k r => rep 0 (3 + k) r
        else (getBits 7 r).bind fun k r => rep 0 (11 + k) r

/-- A dynamic block's code lengths (R397). -/
def getDyn (l : List Bool) : Got (List Nat × List Nat) :=
  (getBits 5 l).bind fun hlit r => (getBits 5 r).bind fun hdist r => (getBits 4 r).bind fun hclen r =>
    if r.length < 3 * (hclen + 4) then .more
    else
      let given := (List.range (hclen + 4)).map fun i => (clOrder.getD i 0, bitsVal ((r.drop (3 * i)).take 3))
      let cl := (List.range 19).map fun s => (given.find? fun x => x.1 == s).elim 0 (·.2)
      let r' := r.drop (3 * (hclen + 4))
      if codeRoom cl ≠ 0 then .bad r
      else (getLens cl (hlit + 257 + hdist + 1) 400 [] r').bind fun ls r'' =>
        let lit := ls.take (hlit + 257)
        let dist := ls.drop (hlit + 257)
        if codeRoom lit ≠ 0 then .bad r'
        else if codeRoom dist < 0 ∨ (codeRoom dist > 0 ∧ 1 < (dist.filter (· != 0)).length) then .bad r'
        else .ok (lit, dist) r''

/-- Bits up to the next byte boundary; the data ends on one. -/
def alignBits (l : List Bool) : List Bool := l.drop (l.length % 8)

/-- The header of a block. -/
def getBlock (x : InfSt) (l : List Bool) : Got InfSt :=
  (getBits 1 l).bind fun f r => (getBits 2 r).bind fun t r =>
    let x := { x with last := f == 1 }
    if t = 3 then .bad l
    else if t = 1 then .ok { x with kind := 2, lit := fixedLit, dist := fixedDist } r
    else if t = 2 then (getDyn r).bind fun c r => .ok { x with kind := 2, lit := c.1, dist := c.2 } r
    else
      let r := alignBits r
      (getBits 16 r).bind fun len r' => (getBits 16 r').bind fun nlen r'' =>
        if len + nlen = 65535 then .ok { x with kind := 1, left := len } r'' else .bad r

/-! ### Literals and matches -/

/-- Base and extra bits of length symbols 257 to 285, and of distance symbols 0 to 29 (RFC 1951). -/
def lenBase : List Nat := [3, 4, 5, 6, 7, 8, 9, 10, 11, 13, 15, 17, 19, 23, 27, 31, 35, 43, 51, 59, 67, 83, 99, 115, 131, 163, 195, 227, 258]
def lenExtra (k : Nat) : Nat := if k < 8 ∨ k = 28 then 0 else k / 4 - 1
def distExtra (k : Nat) : Nat := if k < 2 then 0 else k / 2 - 1
def distBase (k : Nat) : Nat := if k < 2 then k + 1 else (2 + k % 2) * 2 ^ (k / 2 - 1) + 1

/-- One literal, one match (length, distance), or the end of the block. -/
inductive Tok where
  | lit (b : Nat) | copy (len dist : Nat) | stop

def getTok (x : InfSt) (l : List Bool) : Got Tok :=
  (getSym x.lit l).bind fun s r =>
    if s < 256 then .ok (.lit s) r
    else if s = 256 then .ok .stop r
    else if 286 ≤ s then .bad l
    else (getBits (lenExtra (s - 257)) r).bind fun e r =>
      let start := r
      (getSym x.dist r).bind fun d r =>
        if 30 ≤ d then .bad start
        else (getBits (distExtra d) r).bind fun f r => .ok (.copy (lenBase.getD (s - 257) 0 + e) (distBase d + f)) r

/-! ### The machine -/

/-- Why the machine stops: it needs more input, its output is full, its data ended, or a status of Table 13.4. -/
inductive InfStop where
  | more | full | done | err (status : Nat)
deriving DecidableEq, Repr

/-- A run: the stream, the bits not yet consumed, and the output so far, newest first. -/
structure InfRun where
  s : Stream
  l : List Bool
  out : List Nat

/-- Put bytes out: history, check and totals follow. -/
def Stream.put (s : Stream) (bs : List Nat) : Stream :=
  let h := s.hist ++ bs
  { s with hist := h.drop (h.length - 32768), outTot := s.outTot + bs.length,
           check := if s.fmt = 1 then adlerMore s.check bs else if s.fmt = 2 then crcMore 0xedb88320 s.check bs else crcMore 0x82f63b78 s.check bs }

/-- The bytes of a match of a length at a distance. -/
def copyBytes (hist : List Nat) (len dist : Nat) : List Nat :=
  let w := hist.drop (hist.length - dist)
  (List.range len).map fun i => w.getD (i % dist) 0

/-- The gzip header: flags and its length, or more, or an error (R398). -/
def gzipHeader (b : List Nat) : Except Nat (Option Nat) :=
  let known := fun (i v : Nat) => decide (b.length ≤ i) || b.getD i 0 == v
  if !known 0 0x1F || !known 1 0x8B || !known 2 8 || (decide (3 < b.length) && b.getD 3 0 / 32 != 0) then .error 0x31
  else if b.length < 10 then .ok none
  else
    let flg := b.getD 3 0
    let extra : Option Nat :=
      if flg.testBit 2 then (if b.length < 12 then none else some (12 + b.getD 10 0 + 256 * b.getD 11 0)) else some 10
    let text := fun (o : Option Nat) (k : Nat) => o.bind fun o =>
      if flg.testBit k then ((b.drop o).findIdx? (· == 0)).map fun j => o + j + 1 else some o
    match text (text extra 3) 4 with
    | none => .ok none
    | some o =>
      if b.length < o then .ok none
      else if flg.testBit 1 then
        (if b.length < o + 2 then .ok none
         else if crcMore 0xedb88320 0 (b.take o) % 65536 = b.getD o 0 + 256 * b.getD (o + 1) 0 then .ok (some (o + 2)) else .error 0x31)
      else .ok (some o)

/-- The framing header at the front of the bits. -/
def getHeader (s : Stream) (l : List Bool) : Except Nat (Option (List Bool)) :=
  if s.fmt = 0 then .ok (some l)
  else if s.fmt = 1 then
    (if l.length < 16 then .ok none
     else
       let b := bytesOfBits 2 l
       let cmf := b.getD 0 0
       let flg := b.getD 1 0
       if cmf % 16 ≠ 8 ∨ (cmf * 256 + flg) % 31 ≠ 0 then .error 0x31
       else if flg.testBit 5 ∨ 7 < cmf / 16 then .error 0x32
       else .ok (some (l.drop 16)))
  else match gzipHeader (bytesOfBits (l.length / 8) l) with
    | .error e => .error e
    | .ok none => .ok none
    | .ok (some n) => .ok (some (l.drop (8 * n)))

/-- One element; `room` bytes of output area are left. -/
def InfRun.step (x : InfRun) (room : Nat) : Except (InfStop × InfRun) InfRun :=
  let s := x.s
  let stopAt := fun (st : Nat) (l : List Bool) => Except.error (InfStop.err st, { x with l := l })
  if s.phase = 3 then .error (.done, x)
  else if s.phase = 0 then
    match getHeader s x.l with
    | .error e => stopAt e x.l
    | .ok none => .error (.more, x)
    | .ok (some l) => .ok { x with s := { s with phase := 1 }, l := l }
  else if s.inf.owed ≠ [] then
    if room = 0 then .error (.full, x)
    else .ok { x with s := ({ s with inf := { s.inf with owed := s.inf.owed.drop room } }).put (s.inf.owed.take room),
                      out := (s.inf.owed.take room).reverse ++ x.out }
  else if s.phase = 2 then
    let l := alignBits x.l
    if s.fmt = 0 then .ok { x with s := { s with phase := 3 }, l := l }
    else
      let n := if s.fmt = 1 then 4 else 8
      if l.length < 8 * n then .error (.more, x)
      else
        let b := bytesOfBits n l
        let good := if s.fmt = 1 then ofBytes b == s.check
          else ofBytes (b.take 4).reverse == s.check && ofBytes (b.drop 4).reverse == s.outTot % 2 ^ 32
        if good then .ok { x with s := { s with phase := 3 }, l := l.drop (8 * n) } else stopAt 0x33 l
  else if s.inf.kind = 0 then
    if s.inf.last then .ok { x with s := { s with phase := 2 } }
    else match getBlock s.inf x.l with
      | .more => .error (.more, x)
      | .bad l => stopAt 0x30 l
      | .ok i l => .ok { x with s := { s with inf := i }, l := l }
  else if s.inf.kind = 1 then
    if s.inf.left = 0 then .ok { x with s := { s with inf := { s.inf with kind := 0 } } }
    else
      let n := min s.inf.left (x.l.length / 8)
      if n = 0 then .error (.more, x)
      else if room = 0 then .error (.full, x)
      else
        let n := min n room
        let b := bytesOfBits n x.l
        .ok { x with s := ({ s with inf := { s.inf with left := s.inf.left - n } }).put b, l := x.l.drop (8 * n), out := b.reverse ++ x.out }
  else match getTok s.inf x.l with
    | .more => .error (.more, x)
    | .bad l => stopAt 0x30 l
    | .ok .stop l => .ok { x with s := { s with inf := { s.inf with kind := 0 } }, l := l }
    | .ok (.lit b) l => if room = 0 then .error (.full, x) else .ok { x with s := s.put [b], l := l, out := b :: x.out }
    | .ok (.copy n d) l =>
      if s.hist.length < d then stopAt 0x30 x.l
      else if room = 0 then .error (.full, x)
      else
        let b := copyBytes s.hist n d
        .ok { x with s := ({ s with inf := { s.inf with owed := b.drop room } }).put (b.take room), l := l, out := (b.take room).reverse ++ x.out }

/-- Elements until the machine stops; at most n. -/
def InfRun.go (cap : Nat) : Nat → InfRun → InfStop × InfRun
  | 0, x => (.more, x)
  | n + 1, x =>
    match x.step (cap - x.out.length) with
    | .error r => r
    | .ok y => y.go cap n

/-- Decompress input under a stream into an area of `cap` bytes: why it stopped, the stream afterwards, input bytes consumed, and the output
(R397 to R399).  A byte counts as consumed once any of its bits is; what is left of it stays in the bit buffer. -/
def inflate (s : Stream) (input : List Nat) (cap : Nat) : InfStop × Stream × Nat × List Nat :=
  let l := s.inf.bits ++ bitsOf input
  let (st, x) := InfRun.go cap (2 * l.length + 8 * s.inf.owed.length + 16) ⟨{ s with inf := { s.inf with bits := [] } }, l, []⟩
  let n := input.length
  let back := match st with
    | .more => 0
    | .err _ => min n ((x.l.length + 7) / 8)
    | _ => min n (x.l.length / 8)
  let keep := match st with
    | .done => []
    | .err _ => []
    | _ => x.l.take (x.l.length - 8 * back)
  (st, { x.s with inTot := s.inTot + (n - back), inf := { x.s.inf with bits := keep } }, n - back, x.out.reverse)

end Sys2Proof.Machine
end

