-- ==== Sys2Proof/Machine/Deflate.lean ====
section
/-! DEFINITION. DEFLATE compression (spec/13, R392 to R396): segments, blocks, framing and bounded mode.  Which matches and codes a Huffman block
uses is the unit's (log entry 21). -/

namespace Sys2Proof.Machine

/-- The segments of a request's input (R392). -/
def segments : Nat → List Nat → List (List Nat)
  | 0, _ => []
  | n + 1, l => if l = [] then [] else l.take 65535 :: segments n (l.drop 65535)

/-- Zero bits up to the next byte boundary. -/
def padBits (l : List Bool) : List Bool := l ++ List.replicate ((8 - l.length % 8) % 8) false

/-- A stored block after the bits written so far. -/
def storedBlock (acc : List Bool) (fin : Bool) (seg : List Nat) : List Bool :=
  padBits (acc ++ [fin, false, false]) ++ bitsOf [seg.length % 256, seg.length / 256, 255 - seg.length % 256, 255 - seg.length / 256] ++ bitsOf seg

/-- A Huffman block; an empty one has fixed codes and the end-of-block symbol alone. -/
def huffBlock (acc : List Bool) (fin dyn : Bool) (hist seg : List Nat) : List Bool :=
  if seg = [] then acc ++ [fin, true, false] ++ List.replicate 7 false
  else acc ++ [fin, !dyn, dyn] ++ Config.huffBits dyn hist seg

/-- One segment as one block: stored where bounded mode requires it (R396). -/
def segBlock (acc : List Bool) (fin dyn bounded : Bool) (hist seg : List Nat) : List Bool :=
  let h := huffBlock acc fin dyn hist seg
  let s := storedBlock acc fin seg
  if bounded ∧ cdiv s.length 8 < cdiv h.length 8 then s else h

/-- The blocks of the segments of a request. -/
def segBlocks (fin dyn bounded : Bool) : List Bool → List Nat → List (List Nat) → List Bool
  | acc, _, [] => acc
  | acc, hist, seg :: r =>
    let h := hist ++ seg
    segBlocks fin dyn bounded (segBlock acc (fin && r.isEmpty) dyn bounded hist seg) (h.drop (h.length - 32768)) r

/-- The framing header (R394). -/
def frameHeader (fmt : Nat) : List Nat :=
  if fmt = 1 then [0x78, 0x9C] else if fmt = 2 then [0x1F, 0x8B, 0x08, 0x00, 0, 0, 0, 0, 0x00, 0xFF] else []

/-- The trailer of a stream (R394). -/
def frameTrailer (fmt check inTot : Nat) : List Nat :=
  if fmt = 1 then toBytes 4 check else if fmt = 2 then (toBytes 4 check).reverse ++ (toBytes 4 inTot).reverse else []

/-- Compress a request's input: the output bytes, and the stream afterwards with its pending bits (R392 to R394). -/
def deflate (s : Stream) (fin dyn bounded sync : Bool) (input : List Nat) : List Nat × Stream :=
  let start := if s.phase = 0 then bitsOf (frameHeader s.fmt) else s.inf.bits
  let segs := if input = [] ∧ fin then [[]] else segments (input.length / 65535 + 1) input
  let body := segBlocks fin (dyn && !(input == [])) (bounded && !(input == [])) start s.hist segs
  let body := if sync ∧ ¬ fin then storedBlock body false [] else body
  let body := if fin then padBits body else body
  let put := { s with phase := 1 }.put input
  let inTot := s.inTot + input.length
  let whole := bytesOfBits (body.length / 8) body
  let out := whole ++ (if fin then frameTrailer s.fmt put.check inTot else [])
  (out, { put with inTot := inTot, outTot := s.outTot + out.length, inf := { s.inf with bits := body.drop (8 * whole.length) } })

end Sys2Proof.Machine
end

