-- ==== Sys2Proof/Machine/Mtu.lean ====
section
/-! DEFINITION. The module translation unit and the dirty-page log (spec/15, R432 to R440): translated reads and writes of accelerator instances,
and the translation that PCIe root ports use (R506). -/

namespace Sys2Proof.Machine

/-- A translation context (Table 15.3): its owner's number, root words, and whether stage 1 checks as level P. -/
structure MtuCtx where
  owner : Nat
  ttr1 : Nat
  ttr2 : Nat
  usr : Bool

/-- Why an access is not made: a translation or protection fault, a poisoned line, or a refusal by a region or an ERR answer. -/
inductive AccErr where
  | fault (t : Tfd) | poison | refused

abbrev Y (α : Type) := EStateM AccErr Mach α
def Y.stop {α : Type} (e : AccErr) : Y α := fun m => .error e m
def Y.mach : Y Mach := fun m => .ok m m
def Y.modify (f : Mach → Mach) : Y Unit := fun m => .ok () (f m)

/-- The access being translated. -/
structure MtuAcc where
  va : Nat
  wr : Bool

def MtuAcc.acc (w : MtuAcc) : Acc := if w.wr then .store else .load
def MtuAcc.kind (w : MtuAcc) : Nat := if w.wr then 2 else 1
def Y.fault {α : Type} (w : MtuAcc) (s2 : Bool) (reason lvl kind : Nat) : Y α := Y.stop (.fault ⟨lvl, s2, kind, 0, reason, w.va⟩)

/-- Read a table entry coherently. -/
def yEntry (pa : Nat) : Y Nat := do
  let m ← Y.mach
  if (m.homeOf pa).isNone then Y.stop .refused
  let (d, p) := m.lineNow (pa / 256)
  if p then Y.stop .poison
  pure (lineGet d (pa % 256) 8)

/-- Set the bits that an access sets, at once (R433). -/
def ySetAD (pa e : Nat) (acc : Acc) : Y Unit := if withAD e acc = e then pure () else Y.modify (·.devWrite pa (toBytes 8 (withAD e acc)))

/-- The walk caches of the unit, 256 entries each, as an owner finds them: entries are tagged by unit and instance (R433). -/
def Mach.mtuWalk1 (m : Mach) (owner : Nat) : List WalkE := (m.acc.walk1.filter fun x => x.1 == owner).map (·.2)
def Mach.mtuWalk2 (m : Mach) (owner : Nat) : List WalkE := (m.acc.walk2.filter fun x => x.1 == owner).map (·.2)

/-- Enter the entries of a walk that found a translation (R219): the newest first, at most 8,192 and 256 of each walk cache. -/
def Mach.mtuFill (m : Mach) (owner : Nat) (e : TlbE) (f : Fills) : Mach :=
  let put := fun (new : List WalkE) (old : List (Nat × WalkE)) =>
    (new.map (fun x => (owner, x)) ++ old.filter fun y => !(y.1 == owner && new.any (·.same y.2))).take 256
  { m with acc := { m.acc with
      tlb := ((owner, e) :: m.acc.tlb.filter fun y => !(y.1 == owner && e.same y.2)).take 8192
      walk1 := put f.s1 m.acc.walk1, walk2 := put f.s2 m.acc.walk2 } }

/-- The stage-2 walk: leaf, its level, the address of its entry, and what the walk caches may hold. -/
def yWalk2 (c : MtuCtx) (w : MtuAcc) (f : Fills) (root gpa kind : Nat) : Nat → Nat → Y (Nat × Nat × Nat × Fills)
  | 0, lvl => Y.fault w true 0x03 lvl kind
  | n + 1, lvl => do
    let m ← Y.mach
    match tableHit (f.s2 ++ m.mtuWalk2 c.owner) (bits c.ttr2 57 52) 0 lvl gpa with
    | some e => yWalk2 c w f (bits e 51 12 * 4096) gpa kind n (lvl - 1)
    | none => do
      let idx := bits gpa (11 + 9 * lvl) (12 + 9 * (lvl - 1))
      let e ← yEntry (root + 8 * idx)
      match entryFail m e lvl idx true true with
      | some r => Y.fault w true r lvl kind
      | none =>
        if bit e 1 then
          yWalk2 c w { f with s2 := ⟨bits c.ttr2 57 52, 0, lvl, walkKey gpa lvl, false, e⟩ :: f.s2 } (bits e 51 12 * 4096) gpa kind n (lvl - 1)
        else pure (e, lvl, root + 8 * idx, f)

def yRoot2 (c : MtuCtx) (w : MtuAcc) (f : Fills) (gpa kind : Nat) : Y (Nat × Nat × Nat × Fills) :=
  let d := lvDepth (bits c.ttr2 1 0)
  if 2 ^ gpaBits d ≤ gpa then Y.fault w true 0x07 d kind else yWalk2 c w f (bits c.ttr2 51 12 * 4096) gpa kind d d

/-- The address of a stage-1 table entry, by stage 2 when it is in force. -/
def yTableAddr (c : MtuCtx) (w : MtuAcc) (f : Fills) (gpa kind : Nat) (acc : Acc) : Y (Nat × Fills) := do
  if lvDepth (bits c.ttr2 1 0) = 0 then pure (gpa, f)
  else
    let m ← Y.mach
    match (leafHit (f.s2 ++ m.mtuWalk2 c.owner) (bits c.ttr2 57 52) gpa).filter fun x => !acc.isWr || bit x.1 8 with
    | some (e, lvl) =>
      match permFail e acc false true with
      | some r => Y.fault w true r lvl kind
      | none => pure (leafOut e lvl gpa, f)
    | none => do
      let (e, lvl, pa, f) ← yRoot2 c w f gpa kind
      match permFail e acc false true with
      | some r => Y.fault w true r lvl kind
      | none => do
        ySetAD pa e acc
        pure (leafOut e lvl gpa, { f with s2 := ⟨bits c.ttr2 57 52, 0, lvl, gpa / 4096 / leafPages e lvl, true, withAD e acc⟩ :: f.s2 })

/-- The stage-1 walk: leaf, its level, the guest physical and the physical address of its entry. -/
def yWalk1 (c : MtuCtx) (w : MtuAcc) (f : Fills) (root : Nat) : Nat → Nat → Y (Nat × Nat × Nat × Nat × Fills)
  | 0, lvl => Y.fault w false 0x03 lvl w.kind
  | n + 1, lvl => do
    let s2on := bits c.ttr2 1 0 != 0
    let tag := regimeTag true s2on (bits c.ttr2 57 52)
    let m ← Y.mach
    match tableHit (f.s1 ++ m.mtuWalk1 c.owner) tag (bits c.ttr1 63 52) lvl w.va with
    | some e => yWalk1 c w f (bits e 51 12 * 4096) n (lvl - 1)
    | none => do
      let idx := bits w.va (11 + 9 * lvl) (12 + 9 * (lvl - 1))
      let gpa := root + 8 * idx
      let (pa, f) ← yTableAddr c w f gpa 5 .load
      let e ← yEntry pa
      match entryFail m e lvl idx false (!s2on) with
      | some r => Y.fault w false r lvl w.kind
      | none =>
        if bit e 1 then
          yWalk1 c w { f with s1 := ⟨tag, bits c.ttr1 63 52, lvl, walkKey w.va lvl, false, e⟩ :: f.s1 } (bits e 51 12 * 4096) n (lvl - 1)
        else pure (e, lvl, gpa, pa, f)

/-- What a translation gives: the physical address, the stage-2 input page for the log, and whether the mark of R332 allows an aperture. -/
structure MtuOut where
  pa : Nat
  page : Nat
  cmp : Bool

/-- Translate an input address (Table 15.3, R433): permissions after the walk, then the accessed and dirty bits, which are set at once. -/
def mtuTranslate (c : MtuCtx) (w : MtuAcc) : Y MtuOut := do
  let m ← Y.mach
  let d := lvDepth (bits c.ttr1 1 0)
  let s2on := bits c.ttr2 1 0 != 0
  let part := bits c.ttr2 57 52
  let asid := bits c.ttr1 63 52
  let mine := fun (s1 : Bool) (asid : Nat) => m.acc.tlb.find? fun x => x.1 == c.owner && x.2.covers 0 s2on (!s1) part asid (w.va / 4096)
    && x.2.serves w.acc w.acc c.usr s1 s2on
  let refused := fun {α : Type} (e : TlbE) (x : Bool × Nat) => (if x.1 then Y.fault w true x.2 e.lvl2 w.kind else Y.fault w false x.2 e.lvl1 w.kind : Y α)
  if d = 0 then
    if !s2on then
      if 2 ^ 52 ≤ w.va then Y.stop .refused
      pure ⟨w.va, w.va / 4096, true⟩
    else match mine false 0 with
      | some (_, e) =>
        match e.refuses w.acc c.usr false true with
        | some x => refused e x
        | none => pure ⟨leafOut e.leaf2 e.lvl2 w.va, w.va / 4096, bit e.leaf2 10⟩
      | none => do
        let (l, lv, la, f) ← yRoot2 c w ⟨[], []⟩ w.va w.kind
        let n := leafPages l lv
        let pa := leafOut l lv w.va
        let e : TlbE := ⟨0, true, part, 0, false, true, w.va / 4096 / n * n, n, pa / 4096, w.va / 4096, 0, l, 0, lv⟩
        match e.refuses w.acc c.usr false true with
        | some x => do
          Y.modify (·.mtuFill c.owner e f)
          refused e x
        | none => do
          ySetAD la l w.acc
          Y.modify (·.mtuFill c.owner { e with leaf2 := withAD l w.acc } f)
          pure ⟨pa, w.va / 4096, bit l 10⟩
  else if !canonical w.va (vaBits d) then do
    -- the spec gives no reason for such an address (log entry 22)
    Y.modify fun m => m.draw.2
    Y.fault w false (m.draw.1 % 256) d w.kind
  else
    match mine true asid with
    | some (_, e) =>
      match e.refuses w.acc c.usr true s2on with
      | some x => refused e x
      | none =>
        let gpa := leafOut e.leaf1 e.lvl1 w.va
        if s2on then pure ⟨leafOut e.leaf2 e.lvl2 gpa, gpa / 4096, bit e.leaf2 10⟩ else pure ⟨gpa, gpa / 4096, bit e.leaf1 10⟩
    | none => do
      let (l1, lv1, ga, la1, f) ← yWalk1 c w ⟨[], []⟩ (bits c.ttr1 51 12 * 4096) d d
      let gpa := leafOut l1 lv1 w.va
      let (l2, lv2, la2, f) ← if s2on then yRoot2 c w f gpa w.kind else pure (0, 0, 0, f)
      let n := if s2on then min (leafPages l1 lv1) (leafPages l2 lv2) else leafPages l1 lv1
      let pa := if s2on then leafOut l2 lv2 gpa else gpa
      let e : TlbE := ⟨0, s2on, part, asid, bit l1 6, false, w.va / 4096 / n * n, n, pa / 4096, gpa / 4096, l1, l2, lv1, lv2⟩
      match e.refuses w.acc c.usr true s2on with
      | some x => do
        Y.modify (·.mtuFill c.owner e f)
        refused e x
      | none => do
        if s2on then ySetAD la2 l2 w.acc
        if withAD l1 w.acc != l1 then
          let (la, _) ← if s2on then yTableAddr c w f ga 6 .store else pure (la1, f)
          ySetAD la l1 w.acc
        Y.modify (·.mtuFill c.owner { e with leaf1 := withAD l1 w.acc, leaf2 := if s2on then withAD l2 w.acc else l2 } f)
        pure ⟨pa, gpa / 4096, if s2on then bit l2 10 else bit l1 10⟩

/-! ### The dirty-page log (R437 to R440) -/

/-- Write a log-cache line back: its EVD, performed at its home. -/
def Mach.logOut (m : Mach) (u : Nat) (y : LogLine) : Mach :=
  let m := m.setLog u ((tget m.acc.log u []).filter fun z => z.line != y.line)
  (m.homeWrite y.line y.data false).setDir y.line ⟨.u, 0, false⟩

/-- An error of the unit (Table 15.6). -/
def Mach.mtuError (m : Mach) (code u i : Nat) : Mach :=
  let m := m.sets [(R.aq_mtu_err_unit, u), (R.aq_mtu_err_inst, i), (R.aq_mtu_err_new, 1), (R.aq_mtu_err_code, code)]
  m.raise (2240 + (code - 0x90)) (m.word R.aq_mtu_err)

/-- Set the bit of page p in the bitmap at a base, in log cache u, whose line is obtained when it is not there; `bad` is what an unusable line does
(R438, R440). -/
def Mach.logBit (m : Mach) (u base p : Nat) (bad : Mach → Mach) : Mach :=
  let a := base + p / 8
  let line := a / 256
  let put := fun (d : Line) => linePut d (a % 256) 1 (lineGet d (a % 256) 1 ||| 2 ^ (7 - p % 8))
  let l := tget m.acc.log u []
  match l.find? fun y => y.line == line with
  | some y => m.setLog u ({ y with data := put y.data } :: l.filter fun z => z.line != line)
  | none =>
    if (m.devCheck .acc a).isSome ∨ (m.lineNow line).2 then bad m
    else
      let d := (m.lineNow line).1
      let m := match l.getLast? with
        | some y => if 16 ≤ l.length then m.logOut u y else m
        | none => m
      let m := (m.invalAll line).setDir line ⟨.x, 2 ^ (64 * m.modNo + 48 + u), false⟩
      m.setLog u (⟨line, put d⟩ :: (tget m.acc.log u []))

/-- A write of an instance to a page is logged before it is performed. -/
def Mach.logWrite (m : Mach) (u i p : Nat) : Mach :=
  if !m.on (R.u_idlog_en u i) then m
  else if m.get (R.u_idlim_size u i) ≤ p then m.set (R.u_idlog_over u i) 1
  else m.logBit u (m.get (R.u_idlog_base u i) * 4096) p fun m => (m.set (R.u_idlog_over u i) 1).mtuError 0x9B u i

/-! ### Translated accesses -/

/-- Who accesses through the translation unit: its context, what records a fault, and what logs a write to a page. -/
structure AccWho where
  ctx : MtuCtx
  fault : Mach → Tfd → Mach
  log : Mach → Nat → Mach

/-- The physical address of an access that Table 10.8 and the Cistern mark allow. -/
def mtuPlace (c : MtuCtx) (w : MtuAcc) (marks : Bool) : Y MtuOut := do
  let o ← mtuTranslate c w
  let m ← Y.mach
  if marks && !o.cmp && (m.apOf o.pa).isSome then Y.stop .refused
  match m.devCheck .acc o.pa with
  | some .refused => do Y.modify (·.rgnRefused o.pa); Y.stop .refused
  | some .err => Y.stop .refused
  | none => pure o

/-- Read n bytes line by line: the bytes got before the first error, and the error. -/
def whoGet (w : AccWho) : Nat → Mach → Nat → Nat → Mach × List Nat × Option AccErr
  | 0, m, _, _ => (m, [], none)
  | k + 1, m, a, n =>
    if n = 0 then (m, [], none)
    else
      let j := min n (256 - a % 256)
      match mtuPlace w.ctx ⟨a % 2 ^ 64, false⟩ true m with
      | .error e m' => (match e with | .fault t => w.fault m' t | _ => m', [], some e)
      | .ok o m' =>
        if m'.devPoison o.pa j then (m', [], some .poison)
        else
          let (m2, bs, e) := whoGet w k m' (a + j) (n - j)
          (m2, m'.devRead o.pa j ++ bs, e)

/-- Write bytes line by line: how many were written before the first error, and the error. -/
def whoPut (w : AccWho) : Nat → Mach → Nat → List Nat → Mach × Nat × Option AccErr
  | 0, m, _, _ => (m, 0, none)
  | k + 1, m, a, bs =>
    if bs = [] then (m, 0, none)
    else
      let j := min bs.length (256 - a % 256)
      match mtuPlace w.ctx ⟨a % 2 ^ 64, true⟩ true m with
      | .error e m' => (match e with | .fault t => w.fault m' t | _ => m', 0, some e)
      | .ok o m' =>
        let (m2, n, e) := whoPut w k ((w.log m' o.page).devWrite o.pa (bs.take j)) (a + j) (bs.drop j)
        (m2, j + n, e)

def Mach.whoRead (m : Mach) (w : AccWho) (a n : Nat) : Mach × List Nat × Option AccErr := whoGet w (n / 256 + 2) m a n
def Mach.whoWrite (m : Mach) (w : AccWho) (a : Nat) (bs : List Nat) : Mach × Nat × Option AccErr := whoPut w (bs.length / 256 + 2) m a bs

/-- A fault is recorded in the instance page (R434). -/
def Mach.instFault (m : Mach) (u i : Nat) (t : Tfd) : Mach :=
  m.sets [(R.u_i_flt_new u i, 1), (R.u_i_flt_lvl u i, t.lvl), (R.u_i_flt_kind u i, t.kind), (R.u_i_flt_s2 u i, b2n t.s2),
    (R.u_i_flt_reason u i, t.reason), (R.u_i_fta_va u i, t.va)]

/-- Instance i of unit u. -/
def Mach.instWho (m : Mach) (u i : Nat) : AccWho :=
  ⟨⟨64 * u + i, m.word (R.u_i_ttr1 u i), m.word (R.u_ittr2 u i), m.on (R.u_i_ttr1_usr u i)⟩, fun m t => m.instFault u i t, fun m p => m.logWrite u i p⟩

def Mach.accRead (m : Mach) (u i a n : Nat) : Mach × List Nat × Option AccErr := m.whoRead (m.instWho u i) a n
def Mach.accWrite (m : Mach) (u i a : Nat) (bs : List Nat) : Mach × Nat × Option AccErr := m.whoWrite (m.instWho u i) a bs

/-! ### Commands -/

/-- A domain-scope removal reaches the translation unit, which acknowledges at once: what it has translated has been performed (R436). -/
def execMtuRemoval (id : Nat) (s : State) : Host.Outcome State Fault Refusal :=
  ans true s fun m =>
    match m.shoot.mtu with
    | [] => m
    | r :: rest =>
      if r.id ≠ id ∨ m.frozen then m
      else
        let m := { m with shoot := { m.shoot with mtu := rest }
                          acc := { m.acc with
                            tlb := m.acc.tlb.filter fun x => !r.hits x.2
                            walk1 := m.acc.walk1.filter fun x => x.2.tag != r.tag, walk2 := m.acc.walk2.filter fun x => x.2.tag != r.tag } }
        m.ackRemoval id 48

/-- A log-cache line without a new bit for 1 µs is written back (R438). -/
def execLogCacheWriteback (u line : Nat) (s : State) : Host.Outcome State Fault Refusal :=
  ans (decide (u < 4) && decide (line < 2 ^ 44)) s fun m =>
    match (tget m.acc.log u []).find? fun y => y.line == line with
    | some y => if m.frozen then m else m.logOut u y
    | none => m

/-- A write of an instance's root register is taken, or ignored under R435; `one` names `u.i.ttr1`. -/
def Mach.rootWrite (m : Mach) (u i : Nat) (one : Bool) (v : Nat) : Mach :=
  if one then
    if m.get (R.cmpu_i_stat_queued u i) ≠ 0 ∨ m.acceptsLv (bits v 1 0) = false then m.set (R.u_i_flt_wrej u i) 1
    else m.sets [(R.u_i_ttr1_asid u i, bits v 63 52), (R.u_i_ttr1_base u i, bits v 51 12), (R.u_i_ttr1_usr u i, bits v 2 2), (R.u_i_ttr1_lv u i, bits v 1 0)]
  else if m.get (R.u_ictl_state u i) ≠ 0 ∨ m.acceptsLv (bits v 1 0) = false then m
  else m.sets [(R.u_ittr2_part u i, bits v 57 52), (R.u_ittr2_base u i, bits v 51 12), (R.u_ittr2_lv u i, bits v 1 0)]

def execInstanceRootWrite (u i : Nat) (one : Bool) (val : Nat) (s : State) : Host.Outcome State Fault Refusal :=
  ans (decide (u < 4) && decide (i < 64) && decide (val < 2 ^ 64)) s fun m => if m.frozen then m else m.rootWrite u i one val

end Sys2Proof.Machine
end

