-- ==== Sys2Proof/Machine/AccUnit.lean ====
section
/-! DEFINITION. What the compression and cryptographic units share (spec/13 to spec/15): instances, completion areas, completion records, refusals
(R379 to R386). Units are numbered 0 to 3: `cmp0`, `cmp1`, `cry0`, `cry1`. -/

namespace Sys2Proof.Machine

/-- n bytes of an opaque transformation: its name and parameters, a number of free values drawn, and its input (log entry 2). -/
def fixBytes (tag : List Nat) (seed : Nat) (data : List Nat) (n : Nat) : List Nat :=
  let l := Config.freeBytes tag seed data n
  (List.range n).map fun k => (l.getD k 0).toNat

/-- n free bytes. -/
def Mach.drawBytes (m : Mach) (n : Nat) : List Nat × Mach := (fixBytes [0] m.seed [] n, { m with seed := m.seed + 1 })

def Mach.inst (m : Mach) (u i : Nat) : AccInst := tget m.acc.inst (64 * u + i) AccInst.init
def Mach.setInst (m : Mach) (u i : Nat) (x : AccInst) : Mach :=
  let m := { m with acc := { m.acc with inst := tset m.acc.inst (64 * u + i) x } }
  let m := m.set (R.cmpu_i_stat_queued u i) x.q.length
  if u < 2 then m.set (R.cmpu_i_stat_stream u i) (x.stream.elim 0 (·.op)) else m
def Mach.onInst (m : Mach) (u i : Nat) (f : AccInst → AccInst) : Mach := m.setInst u i (f (m.inst u i))

/-- A field of a request block, big-endian (R377). -/
def hdrF (h : List Nat) (o n : Nat) : Nat := ofBytes ((h.drop o).take n)

/-- Status 0x21 to 0x23 of an access that was not made. -/
def AccErr.status : AccErr → Nat
  | .fault _ => 0x21 | .poison => 0x22 | .refused => 0x23

/-- The detail of such a status: the area for a fault or a refusal (Tables 13.2 and 14.4). -/
def AccErr.detail (e : AccErr) (area : Nat) : Nat :=
  match e with
  | .poison => 0
  | _ => area

/-- A unit's error (Tables 13.6 and 14.10). -/
def Mach.unitError (m : Mach) (u code i : Nat) : Mach :=
  let m := m.sets [(R.cmpu_err_inst u, i), (R.cmpu_err_new u, 1), (R.cmpu_err_code u, code)]
  m.raise (2176 + 16 * u + (code - 0x90)) (m.word (R.cmpu_err u))

/-- A block that cannot be read, or a completion area that cannot be written (R381, R405). -/
def Mach.blkFail (m : Mach) (u i blk status : Nat) : Mach :=
  let m := m.sets [(R.cmpu_i_last_addr u i, blk / 128), (R.cmpu_i_stat_lstat u i, status), (R.cmpu_i_stat_lnew u i, 1)]
  (m.count (R.cmpu_i_stat_refused u i)).unitError u (if u < 2 then 0x92 else 0x96) i

/-- What a completion area reports (Tables 13.2 and 14.4). -/
structure Fin where
  status : Nat
  detail : Nat
  inUsed : Nat
  outUsed : Nat
  check : Nat
  inTot : Nat
  outTot : Nat

def Fin.refusal (status : Nat) : Fin := ⟨status, 0, 0, 0, 0, 0, 0⟩

/-- A completion record for a Rill (R384, R405). -/
def Mach.accRecord (m : Mach) (u i tag : Nat) (f : Fin) : Mach :=
  if m.on (R.cmpu_irill_en u i) then
    m.stage 4 ⟨m.get (R.cmpu_irill_rill u i), if u < 2 then 5 else 6, m.tod,
      [(0x10, 1, u % 2), (0x11, 1, i), (0x14, 4, tag), (0x18, 1, f.status), (0x20, 8, f.outUsed)], 19 + 64 * u + i, true, false⟩
  else m

/-- Bytes 0x41 to 0x7F, then 0x01 to byte 0x40, then the record (R383, R384); true when the area was written. -/
def Mach.accDone (m : Mach) (u i blk : Nat) (hdr : List Nat) (f : Fin) : Mach × Bool :=
  let area := [f.status] ++ toBytes 2 f.detail ++ (hdr.drop 4).take 4 ++ toBytes 8 f.inUsed ++ toBytes 8 f.outUsed ++ toBytes 4 f.check
    ++ toBytes 4 0 ++ toBytes 8 f.inTot ++ toBytes 8 f.outTot ++ toBytes 8 m.tod ++ toBytes 8 0
  let (m, _, e) := m.accWrite u i (blk + 0x41) area
  match e with
  | some e => (m.blkFail u i blk e.status, false)
  | none =>
    match m.accWrite u i (blk + 0x40) [1] with
    | (m, _, some e) => (m.blkFail u i blk e.status, false)
    | (m, _, none) => (if (hdr.getD 3 0).testBit (if u < 2 then 5 else 2) then m.accRecord u i (hdrF hdr 4 4) f else m, true)

/-- A refused submission (R379). -/
def Mach.refuse (m : Mach) (u i blk : Nat) (hdr : List Nat) (status : Nat) : Mach :=
  let (m, ok) := m.accDone u i blk hdr (Fin.refusal status)
  if ok then m.count (R.cmpu_i_stat_refused u i) else m

/-- The oldest request has ended: its slot is freed, the completion area is written, and it is counted. `good` says which statuses count as done. -/
def Mach.endReq (m : Mach) (u i : Nat) (r : AccReq) (f : Fin) : Mach :=
  let m := m.onInst u i fun x => { x with q := x.q.drop 1 }
  let (m, _) := m.accDone u i r.blk r.hdr f
  let good := if u < 2 then decide (f.status ≤ 2) else f.status == 0 || f.status == 0x40
  if good then m.count (R.cmpu_i_cnt_done u i)
  else if f.status = 0x16 ∨ 0x20 ≤ f.status then m.count (R.cmpu_i_cnt_err u i)
  else m.count (R.cmpu_i_stat_refused u i)

/-- The status that refuses a submission before its contents are looked at, if any (Table 15.1, R379, R386). -/
def Mach.submitRefusal (m : Mach) (u i : Nat) : Option Nat :=
  if m.get (R.u_ictl_state u i) = 0 then some 0x11
  else if m.get (R.u_ictl_state u i) ≠ 1 ∨ m.blkDown (130 + u) then some 0x12
  else if 3 ≤ m.mode.stage then some 0x17
  else if 16 ≤ (m.inst u i).q.length then some 0x10
  else none

/-- A submit store reaches a unit: the block is read, and accepted or refused; `bad` gives the status that the block's contents earn. -/
def Mach.submit (m : Mach) (u i addr : Nat) (bad : Mach → List Nat → Mach × Option Nat) : Mach :=
  let blk := addr / 128 * 128
  let (m, hdr, e) := m.accRead u i blk 64
  match e with
  | some e => m.blkFail u i blk e.status
  | none =>
    match m.submitRefusal u i with
    | some st => m.refuse u i blk hdr st
    | none =>
      match bad m hdr with
      | (m, some st) => m.refuse u i blk hdr st
      | (m, none) => m.onInst u i fun x => { x with q := x.q ++ [⟨blk, hdr, none⟩] }

/-- Some record of the instance waits for room (R384). -/
def Mach.recWaits (m : Mach) (u i : Nat) : Bool := m.rill.kept.any fun r => r.prod == 19 + 64 * u + i

end Sys2Proof.Machine
end

