-- ==== Sys2Proof/Machine/Cmp.lean ====
section
/-! DEFINITION. The compression units (spec/13): acceptance, streams and state records, and the work of a request. -/

namespace Sys2Proof.Machine

/-- A request block that R380 refuses. -/
def cmpBad (h : List Nat) : Bool :=
  let op := h.getD 0 0
  let fmt := h.getD 1 0
  let mode := h.getD 2 0
  let fl := h.getD 3 0
  let n := hdrF h 0x10 4
  decide (64 ≤ fl) || (h.drop 0x28).any (· != 0) || !(op == 1 || op == 2) || decide (3 < fmt) || decide (2 < mode)
    || decide (2 ^ 30 < n) || decide (2 ^ 30 < hdrF h 0x14 4) || (fl.testBit 4 && fl.testBit 0)
    || ((mode == 2 || fl.testBit 4) && hdrF h 0x20 8 % 256 != 0)
    || (fmt == 3 && !(mode == 0 && fl.testBit 0)) || (fmt == 3 && op == 1 && (n == 0 || n % 4096 != 0))

/-! ### State records (Table 13.3) -/

/-- A new stream (R389). -/
def Stream.new (op fmt : Nat) : Stream := ⟨op, fmt, 0, 0, 0, if fmt = 1 then 1 else 0, [], InfSt.init⟩

/-- The 40 KiB of a state record; the 7,936 bytes that are not defined for software are free, and the record is remembered with what they stand for. -/
def Mach.streamRecord (m : Mach) (s : Stream) : Mach × List Nat :=
  let nb := min 64 s.inf.bits.length
  let head := toBytes 4 0x4E4B4353 ++ toBytes 2 1 ++ [s.op, s.fmt] ++ toBytes 8 s.inTot ++ toBytes 8 s.outTot ++ toBytes 4 s.check
    ++ toBytes 2 s.hist.length ++ [nb, min s.phase 2] ++ toBytes 8 (bitsVal (s.inf.bits.take 64)) ++ List.replicate 212 0
  let (inner, m) := m.drawBytes 7936
  let tail := inner ++ List.replicate (32768 - s.hist.length) 0 ++ s.hist
  let b := head ++ toBytes 4 (crc32c (head ++ tail)) ++ tail
  ({ m with acc := { m.acc with recs := (b, s.inf) :: m.acc.recs } }, b)

/-- The inner state that a record's undefined bytes stand for: what this module wrote there, else a free one (log entry 23). -/
def Mach.recordInner (m : Mach) (b : List Nat) (bits : List Bool) : InfSt :=
  match m.acc.recs.find? fun x => x.1 == b with
  | some x => x.2
  | none =>
    let f := fixBytes [0x14] 0 ((b.drop 0x100).take 7936) 330
    ⟨f.getD 0 0 % 3, ofBytes ((f.drop 1).take 2), ((f.drop 4).take 286).map (· % 16), ((f.drop 290).take 30).map (· % 16), (f.getD 3 0).testBit 0, bits, []⟩

/-- The stream of a state record, unless R391 finds it invalid. -/
def Mach.readRecord (m : Mach) (b : List Nat) : Option Stream :=
  let op := b.getD 6 0
  let fmt := b.getD 7 0
  let nh := hdrF b 0x1C 2
  let nb := b.getD 0x1E 0
  if hdrF b 0 4 ≠ 0x4E4B4353 ∨ hdrF b 4 2 ≠ 1 ∨ hdrF b 0xFC 4 ≠ crc32c (b.take 0xFC ++ b.drop 0x100) ∨ ¬ (op = 1 ∨ op = 2) ∨ 2 < fmt
      ∨ 32768 < nh ∨ 64 < nb ∨ 2 < b.getD 0x1F 0 then none
  else
    let bits := (List.range nb).map (hdrF b 0x20 8).testBit
    some ⟨op, fmt, b.getD 0x1F 0, hdrF b 8 8, hdrF b 0x10 8, hdrF b 0x18 4, b.drop (0xA000 - nh),
      if op = 1 then { InfSt.init with bits := bits } else m.recordInner b bits⟩

/-! ### The work of a request -/

/-- What a request comes to: status, detail, input used, output bytes, the stream it leaves, the stream whose totals it reports, and its work in
units of which a slot has 24,576 (R387). -/
structure CmpRes where
  status : Nat
  detail : Nat
  inUsed : Nat
  out : List Nat
  after : Option Stream
  shown : Stream
  cost : Nat

/-- FRB compression (R400). -/
def frbRecords : Nat → List Nat → List Nat
  | 0, _ => []
  | n + 1, l =>
    let ls := (List.range 16).map fun k => BitVec.ofNat 2048 (ofBytes ((l.drop (256 * k)).take 256))
    let len := 32 + frbLen ls
    frbImage (if len ≤ 1024 then 1 else if len ≤ 2048 then 2 else 3) ls ++ frbRecords n (l.drop 4096)

/-- FRB decompression (R401): status, input used, output; `cap` bytes of output area are left. -/
def frbPages : Nat → List Nat → Nat → Nat × Nat × List Nat
  | 0, _, _ => (0, 0, [])
  | n + 1, l, cap =>
    if l = [] then (0, 0, [])
    else
      let cls := l.getD 25 0
      if cls < 1 ∨ 3 < cls then (0x35, 0, [])
      else match frbDecode l cls (if cls = 1 then 1024 else if cls = 2 then 2048 else 4128) with
        | .error .invalid => (0x35, 0, [])
        | .error .crc => (0x36, 0, [])
        | .ok (ls, k) =>
          if cap < 4096 then (0x02, 0, [])
          else
            let (st, used, out) := frbPages n (l.drop k) (cap - 4096)
            (st, k + used, pageBytes ls ++ out)

/-- The status of a decompression that stopped (R397 to R399). -/
def infStatus (st : InfStop) (fin : Bool) (used n : Nat) : Nat :=
  match st with
  | .done => if used < n then 0x01 else 0x00
  | .full => 0x02
  | .more => if fin then 0x34 else 0x00
  | .err e => e

/-- Do the work of a request over the stream it starts from. -/
def Mach.cmpRun (m : Mach) (u i : Nat) (h : List Nat) (s : Stream) : Mach × CmpRes :=
  let before := (m.inst u i).stream
  let fl := h.getD 3 0
  let fin := fl.testBit 0
  let n := hdrF h 0x10 4
  let cap := hdrF h 0x14 4
  let (m, input, e) := m.accRead u i (hdrF h 0x08 8) n
  let kept := fun (x : Stream) => if fin then none else some x
  if s.fmt = 3 then
    match e with
    | some e => (m, ⟨e.status, e.detail 2, input.length, [], none, s, 0⟩)
    | none =>
      if s.op = 1 then
        let out := frbRecords (n / 4096) input
        let cost := 12288 * (n / 4096)
        if cap < out.length then (m, ⟨0x20, 0, 0, out, before, s, cost⟩)
        else (m, ⟨0, 0, n, out, none, { s with inTot := n, outTot := out.length }, cost⟩)
      else
        let (st, used, out) := frbPages (n + 1) input cap
        (m, ⟨st, 0, used, out, none, { s with inTot := used, outTot := out.length }, 2 * out.length⟩)
  else if s.op = 1 then
    let (out, s') := deflate s fin (fl.testBit 1) (fl.testBit 2) (fl.testBit 3) input
    match e with
    | some e => (m, ⟨e.status, e.detail 2, input.length, (deflate s false (fl.testBit 1) (fl.testBit 2) false input).1, before, s, 3 * input.length⟩)
    | none =>
      if cap < out.length then (m, ⟨0x20, 0, 0, out, before, s, 3 * n⟩)
      else (m, ⟨0, 0, n, out, kept s', s', 3 * n⟩)
  else
    let (st, s', used, out) := inflate s input cap
    match e, st with
    | some e, .more => (m, ⟨e.status, e.detail 2, used, out, none, s', 2 * out.length⟩)
    | _, _ =>
      let status := infStatus st fin used n
      let after := if status = 0x02 then some s' else if status = 0x00 then kept s' else none
      (m, ⟨status, 0, used, out, after, s', 2 * out.length⟩)

/-- Do the work of a request, from the stream its mode gives it (R389). -/
def Mach.cmpWork (m : Mach) (u i : Nat) (h : List Nat) : Mach × CmpRes :=
  let op := h.getD 0 0
  let fmt := h.getD 1 0
  let mode := h.getD 2 0
  let before := (m.inst u i).stream
  let none_ := Stream.new op fmt
  if mode = 0 then m.cmpRun u i h none_
  else if mode = 1 then
    match before with
    | some s => if s.op = op ∧ s.fmt = fmt then m.cmpRun u i h s else (m, ⟨0x14, 0, 0, [], before, none_, 0⟩)
    | none => (m, ⟨0x14, 0, 0, [], before, none_, 0⟩)
  else
    match m.accRead u i (hdrF h 0x20 8) 40960 with
    | (m, _, some e) => (m, ⟨e.status, e.detail 4, 0, [], if op = 1 then before else none, none_, 0⟩)
    | (m, b, none) =>
      match m.readRecord b with
      | some s => if s.op = op ∧ s.fmt = fmt then m.cmpRun u i h s else (m, ⟨0x15, 0, 0, [], before, none_, 0⟩)
      | none => (m, ⟨0x15, 0, 0, [], before, none_, 0⟩)

/-- Count whole 4 KiB units of a unit's input and output (Table 13.8). -/
def Mach.countKib (m : Mach) (u nin nout : Nat) : Mach :=
  let a := tget m.acc.kin u 0 + nin
  let b := tget m.acc.kout u 0 + nout
  (({ m with acc := { m.acc with kin := tset m.acc.kin u (a % 4096), kout := tset m.acc.kout u (b % 4096) } } : Mach).count (R.cmpu_cnt_kin u) (a / 4096)).count
    (R.cmpu_cnt_kout u) (b / 4096)

/-- A request of a compression unit ends: output, state record, completion (R383, R389). -/
def Mach.cmpFinish (m : Mach) (u i : Nat) (r : AccReq) : Mach :=
  let h := r.hdr
  let before := (m.inst u i).stream
  let lost := if h.getD 0 0 = 1 then before else none
  let (m, w) := m.cmpWork u i h
  let full := w.status == 0x20
  -- an output that does not fit leaves undefined bytes in the whole area (R395)
  let (bytes, m) := if full then m.drawBytes (hdrF h 0x14 4) else (w.out.take (hdrF h 0x14 4), m)
  let (m, n, e) := m.accWrite u i (hdrF h 0x18 8) bytes
  let (st, detail, after) := match e with
    | some e => if full then (w.status, w.detail, w.after) else (e.status, e.detail 3, lost)
    | none => (w.status, w.detail, w.after)
  let (m, st, detail, after) := match after with
    | some s =>
      if (h.getD 3 0).testBit 4 && !(st == 0x14 || st == 0x15) then
        let (m, b) := m.streamRecord s
        match m.accWrite u i (hdrF h 0x20 8) b with
        | (m, _, some e) => (m, e.status, e.detail 4, lost)
        | (m, _, none) => (m, st, detail, after)
      else (m, st, detail, after)
    | none => (m, st, detail, after)
  let outUsed := if full then 0 else n
  let m := m.countKib u w.inUsed outUsed
  let m := m.onInst u i fun x => { x with stream := after }
  m.endReq u i r ⟨st, detail, w.inUsed, outUsed, if h.getD 1 0 = 3 then 0 else w.shown.check, w.shown.inTot, w.shown.outTot⟩

/-- A submit store reaches a compression instance (R379, R380). -/
def execCmpSubmit (u i addr : Nat) (s : State) : Host.Outcome State Fault Refusal :=
  ans (decide (u < 2) && decide (i < 64) && decide (addr < 2 ^ 64)) s fun m =>
    if m.frozen then m else m.submit u i addr fun m h => (m, if cmpBad h then some 0x13 else none)

end Sys2Proof.Machine
end

