-- ==== Sys2Proof/Machine/Aes.lean ====
section
/-! DEFINITION. AES (FIPS 197) with the modes of Table 14.2, and AES key wrap with padding (R407), on lists of bytes. -/

namespace Sys2Proof.Machine

/-- Multiplication by x, and multiplication, in the field of 256 elements. -/
def gfX (b : Nat) : Nat := if 128 ≤ b then (2 * b) ^^^ 0x11b else 2 * b
def gfMul (a b : Nat) : Nat :=
  ((List.range 8).foldl (fun (x : Nat × Nat) i => (if b.testBit i then x.1 ^^^ x.2 else x.1, gfX x.2)) (0, a)).1
/-- The multiplicative inverse, as the power 254. -/
def gfInv (a : Nat) : Nat :=
  let p := (List.range 6).foldl (fun (x : Nat × Nat) _ => let q := gfMul x.2 x.2; (gfMul x.1 q, q)) (gfMul a a, gfMul a a)
  p.1
/-- The eight-bit rotation by k to the left. -/
def rol8 (b k : Nat) : Nat := (b <<< k ||| b >>> (8 - k)) % 256
/-- The S-box and its inverse. -/
def sBox (a : Nat) : Nat :=
  let b := gfInv a
  b ^^^ rol8 b 1 ^^^ rol8 b 2 ^^^ rol8 b 3 ^^^ rol8 b 4 ^^^ 0x63
def sBoxInv (a : Nat) : Nat := gfInv (rol8 a 1 ^^^ rol8 a 3 ^^^ rol8 a 6 ^^^ 0x05)

def xorL (a b : List Nat) : List Nat := List.zipWith (· ^^^ ·) a b

/-- The words of the key schedule: k words of n still to come, the last nk words kept in order. -/
def aesWords (nk : Nat) : Nat → Nat → Nat → List (List Nat) → List (List Nat)
  | 0, _, _, w => w
  | n + 1, i, rcon, w =>
    let prev := w.getLastD []
    let back := w.getD (w.length - nk) []
    let t := if i % nk = 0 then xorL ((prev.drop 1 ++ prev.take 1).map sBox) [rcon, 0, 0, 0]
      else if 6 < nk ∧ i % nk = 4 then prev.map sBox else prev
    aesWords nk n (i + 1) (if i % nk = 0 then gfX rcon else rcon) (w ++ [xorL back t])

/-- Groups of n, at most k of them. -/
def chunks (n : Nat) : Nat → List Nat → List (List Nat)
  | 0, _ => []
  | k + 1, l => if l = [] then [] else l.take n :: chunks n k (l.drop n)

/-- The round keys of a key of 16, 24 or 32 bytes. -/
def aesKeys (key : List Nat) : List (List Nat) :=
  let nk := key.length / 4
  chunks 16 (nk + 7) ((aesWords nk (4 * (nk + 7) - nk) nk 1 (chunks 4 nk key)).flatMap id)

/-- The state's columns mixed by a circulant row. -/
def mixCol (row c : List Nat) : List Nat :=
  (List.range 4).map fun i => (List.range 4).foldl (fun a j => a ^^^ gfMul (c.getD j 0) (row.getD ((j + 4 - i) % 4) 0)) 0
def mixCols (row s : List Nat) : List Nat := (chunks 4 4 s).flatMap (mixCol row)
/-- Row r of the state moved by r columns. -/
def shiftRows (s : List Nat) : List Nat := (List.range 16).map fun i => s.getD ((i + 4 * (i % 4)) % 16) 0
def shiftRowsInv (s : List Nat) : List Nat := (List.range 16).map fun i => s.getD ((i + 12 * (i % 4)) % 16) 0

/-- The rounds of the cipher over the keys left. -/
def aesRounds : List (List Nat) → List Nat → List Nat
  | [], s => s
  | [k], s => xorL (shiftRows (s.map sBox)) k
  | k :: r, s => aesRounds r (xorL (mixCols [2, 3, 1, 1] (shiftRows (s.map sBox))) k)
def aesEnc (ks : List (List Nat)) (b : List Nat) : List Nat := aesRounds (ks.drop 1) (xorL b (ks.headD []))

/-- The rounds of the inverse cipher, keys last first. -/
def aesRoundsInv : List (List Nat) → List Nat → List Nat
  | [], s => s
  | [k], s => xorL ((shiftRowsInv s).map sBoxInv) k
  | k :: r, s => aesRoundsInv r (mixCols [14, 11, 13, 9] (xorL ((shiftRowsInv s).map sBoxInv) k))
def aesDec (ks : List (List Nat)) (b : List Nat) : List Nat :=
  let r := ks.reverse
  aesRoundsInv (r.drop 1) (xorL b (r.headD []))

/-! ### Modes -/

def blocks (l : List Nat) : List (List Nat) := chunks 16 (l.length / 16 + 1) l

def aesEcb (dec : Bool) (ks : List (List Nat)) (d : List Nat) : List Nat := (blocks d).flatMap fun b => if dec then aesDec ks b else aesEnc ks b
def cbcEnc (ks : List (List Nat)) : List Nat → List (List Nat) → List Nat
  | _, [] => []
  | iv, b :: r => let c := aesEnc ks (xorL b iv); c ++ cbcEnc ks c r
def cbcDec (ks : List (List Nat)) : List Nat → List (List Nat) → List Nat
  | _, [] => []
  | iv, b :: r => xorL (aesDec ks b) iv ++ cbcDec ks b r
/-- Counter mode from a counter of which the low n bits increment. -/
def ctrMode (ks : List (List Nat)) (n : Nat) : Nat → List (List Nat) → List Nat
  | _, [] => []
  | c, b :: r => xorL b (aesEnc ks (toBytes 16 c)) ++ ctrMode ks n (c / 2 ^ n * 2 ^ n + (c + 1) % 2 ^ n) r

/-- Multiplication in the field of GCM, whose bit 0 is the most significant. -/
def gcmMul (x y : Nat) : Nat :=
  ((List.range 128).foldl (fun (z : Nat × Nat) i =>
    (if x.testBit (127 - i) then z.1 ^^^ z.2 else z.1, if z.2 % 2 = 1 then (z.2 / 2) ^^^ (0xe1 <<< 120) else z.2 / 2)) (0, y)).1
def pad16 (l : List Nat) : List Nat := l ++ List.replicate ((16 - l.length % 16) % 16) 0
def ghash (h : Nat) (d : List Nat) : Nat := (blocks d).foldl (fun y b => gcmMul (y ^^^ ofBytes b) h) 0

/-- GCM: the transformed data, and the tag over AAD and ciphertext. -/
def aesGcm (dec : Bool) (key iv aad d : List Nat) : List Nat × List Nat :=
  let ks := aesKeys key
  let h := ofBytes (aesEnc ks (List.replicate 16 0))
  let j0 := if iv.length = 12 then ofBytes (iv ++ [0, 0, 0, 1]) else ghash h (pad16 iv ++ toBytes 16 (8 * iv.length))
  let out := ctrMode ks 32 (j0 / 2 ^ 32 * 2 ^ 32 + (j0 + 1) % 2 ^ 32) (blocks d)
  let c := if dec then d else out
  let s := ghash h (pad16 aad ++ pad16 c ++ toBytes 8 (8 * aad.length) ++ toBytes 8 (8 * c.length))
  (out, xorL (toBytes 16 s) (aesEnc ks (toBytes 16 j0)))

/-- The next tweak of XTS: multiplication by x of a little-endian block. -/
def xtsNext (t : List Nat) : List Nat :=
  let v := 2 * ofBytes t.reverse
  (toBytes 16 (if v < 2 ^ 128 then v else (v % 2 ^ 128) ^^^ 0x87)).reverse
def xtsBlock (dec : Bool) (ks : List (List Nat)) (t b : List Nat) : List Nat :=
  xorL t (if dec then aesDec ks (xorL b t) else aesEnc ks (xorL b t))
/-- XTS over the blocks left, the last two with ciphertext stealing when the last is short. -/
def xtsRun (dec : Bool) (ks : List (List Nat)) : List Nat → List (List Nat) → List Nat
  | _, [] => []
  | t, [b] => xtsBlock dec ks t b
  | t, b :: c :: r =>
    if c.length < 16 then
      let (t1, t2) := if dec then (xtsNext t, t) else (t, xtsNext t)
      let x := xtsBlock dec ks t1 b
      xtsBlock dec ks t2 (c ++ x.drop c.length) ++ x.take c.length
    else xtsBlock dec ks t b ++ xtsRun dec ks (xtsNext t) (c :: r)
def aesXts (dec : Bool) (key iv d : List Nat) : List Nat :=
  let n := key.length / 2
  xtsRun dec (aesKeys (key.take n)) (aesEnc (aesKeys (key.drop n)) iv) (blocks d)

/-! ### Key wrap with padding (RFC 5649) -/

def kwpAiv (n : Nat) : List Nat := [0xA6, 0x59, 0x59, 0xA6] ++ toBytes 4 n

/-- One pass of the wrapping over the semiblocks, from step t. -/
def kwPass (ks : List (List Nat)) : Nat → List Nat → List (List Nat) → List Nat × List (List Nat)
  | _, a, [] => (a, [])
  | t, a, r :: rs =>
    let b := aesEnc ks (a ++ r)
    let (a', rs') := kwPass ks (t + 1) (xorL (b.take 8) (toBytes 8 t)) rs
    (a', b.drop 8 :: rs')
def kwpWrap (key d : List Nat) : List Nat :=
  let ks := aesKeys key
  let p := d ++ List.replicate ((8 - d.length % 8) % 8) 0
  let n := p.length / 8
  if n = 1 then aesEnc ks (kwpAiv d.length ++ p)
  else
    let (a, r) := (List.range 6).foldl (fun (x : List Nat × List (List Nat)) j => kwPass ks (n * j + 1) x.1 x.2) (kwpAiv d.length, chunks 8 n p)
    a ++ r.flatMap id

/-- One pass of the unwrapping, the semiblocks last first, from step t downwards. -/
def kwPassInv (ks : List (List Nat)) : Nat → List Nat → List (List Nat) → List Nat × List (List Nat)
  | _, a, [] => (a, [])
  | t, a, r :: rs =>
    let b := aesDec ks (xorL a (toBytes 8 t) ++ r)
    let (a', rs') := kwPassInv ks (t - 1) (b.take 8) rs
    (a', b.drop 8 :: rs')
/-- Unwrapping: none when the integrity check fails. -/
def kwpUnwrap (key c : List Nat) : Option (List Nat) :=
  let ks := aesKeys key
  let n := c.length / 8 - 1
  if n = 0 then none
  else
    let (a, p) := if n = 1 then (let b := aesDec ks c; (b.take 8, b.drop 8)) else
      (let (a, r) := (List.range 6).reverse.foldl (fun (x : List Nat × List (List Nat)) j => kwPassInv ks (n * j + n) x.1 x.2)
        (c.take 8, (chunks 8 n (c.drop 8)).reverse)
       (a, r.reverse.flatMap id))
    let len := ofBytes (a.drop 4)
    if a.take 4 = [0xA6, 0x59, 0x59, 0xA6] ∧ 8 * n < len + 8 ∧ len ≤ 8 * n ∧ (p.drop len).all (· == 0) then some (p.take len) else none

end Sys2Proof.Machine
end

