-- ==== Sys2Proof/Machine/Keccak.lean ====
section
/-! DEFINITION. SHA-3 and SHAKE (FIPS 202), and the hashes of Table 14.1 by their code. -/

namespace Sys2Proof.Machine

def rol64 (x k : Nat) : Nat := (x <<< k ||| x >>> (64 - k)) % 2 ^ 64

/-- The rotation offsets of ρ by lane x + 5 y, and the round constants of ι. -/
def kRho : List Nat := [0, 1, 62, 28, 27, 36, 44, 6, 55, 20, 3, 10, 43, 25, 39, 41, 45, 15, 21, 8, 18, 2, 61, 56, 14]
def kRc : List Nat :=
  [0x0000000000000001, 0x0000000000008082, 0x800000000000808a, 0x8000000080008000, 0x000000000000808b, 0x0000000080000001,
   0x8000000080008081, 0x8000000000008009, 0x000000000000008a, 0x0000000000000088, 0x0000000080008009, 0x000000008000000a]
  ++ [0x000000008000808b, 0x800000000000008b, 0x8000000000008089, 0x8000000000008003, 0x8000000000008002, 0x8000000000000080,
   0x000000000000800a, 0x800000008000000a, 0x8000000080008081, 0x8000000000008080, 0x0000000080000001, 0x8000000080008008]

/-- One round of Keccak on 25 lanes. -/
def kRound (a : List Nat) (rc : Nat) : List Nat :=
  let c := (List.range 5).map fun x => (List.range 5).foldl (fun v y => v ^^^ a.getD (x + 5 * y) 0) 0
  let d := (List.range 5).map fun x => c.getD ((x + 4) % 5) 0 ^^^ rol64 (c.getD ((x + 1) % 5) 0) 1
  let a := (List.range 25).map fun i => a.getD i 0 ^^^ d.getD (i % 5) 0
  -- lane (x, y) of π's result comes from lane (x + 3 y, x)
  let b := (List.range 25).map fun i => (let x := i % 5; let y := i / 5; let j := (x + 3 * y) % 5 + 5 * x; rol64 (a.getD j 0) (kRho.getD j 0))
  let e := (List.range 25).map fun i =>
    (let x := i % 5; let y := i / 5
     b.getD i 0 ^^^ ((b.getD ((x + 1) % 5 + 5 * y) 0 ^^^ (2 ^ 64 - 1)) &&& b.getD ((x + 2) % 5 + 5 * y) 0))
  (e.headD 0 ^^^ rc) :: e.drop 1
def keccakF (a : List Nat) : List Nat := kRc.foldl kRound a

/-- The bytes of the lanes. -/
def kBytes (a : List Nat) : List Nat := a.flatMap fun l => (toBytes 8 l).reverse
/-- Absorb one block of `rate` bytes. -/
def kAbsorb (a b : List Nat) : List Nat :=
  keccakF ((List.range 25).map fun i => a.getD i 0 ^^^ ofBytes ((List.range 8).map fun k => b.getD (8 * i + 7 - k) 0))
/-- Absorb all blocks of padded data. -/
def kAbsorbAll (rate : Nat) : Nat → List Nat → List Nat → List Nat
  | 0, a, _ => a
  | n + 1, a, l => if l = [] then a else kAbsorbAll rate n (kAbsorb a (l.take rate)) (l.drop rate)
/-- Squeeze n blocks. -/
def kSqueeze (rate : Nat) : Nat → List Nat → List Nat
  | 0, _ => []
  | n + 1, a => (kBytes a).take rate ++ kSqueeze rate n (keccakF a)

/-- The sponge with a rate in bytes, a domain suffix with its first padding bit, and an output length. -/
def keccak (rate sfx n : Nat) (m : List Nat) : List Nat :=
  let k := rate - m.length % rate
  let p := if k = 1 then [sfx ||| 0x80] else sfx :: List.replicate (k - 2) 0 ++ [0x80]
  let a := kAbsorbAll rate (m.length / rate + 1) (List.replicate 25 0) (m ++ p)
  (kSqueeze rate (n / rate + 1) a).take n

def sha224H : List Nat := [0xc1059ed8, 0x367cd507, 0x3070dd17, 0xf70e5939, 0xffc00b31, 0x68581511, 0x64f98fa7, 0xbefa4fa4]

/-- The hash with a code of Table 14.1 (0x10 to 0x13, 0x18 to 0x1B), its digest length and its block length in bytes. -/
def hashLen (alg : Nat) : Nat := [28, 32, 48, 64].getD (alg % 4) 0
def hashBlk (alg : Nat) : Nat := if alg < 0x18 then (if alg < 0x12 then 64 else 128) else 200 - 2 * hashLen alg
def hashOf (alg : Nat) (m : List Nat) : List Nat :=
  match alg with
  | 0x10 => (shaHash sha32 sha224H m).take 28
  | 0x11 => sha256 m
  | 0x12 => sha384 m
  | 0x13 => sha512 m
  | _ => keccak (200 - 2 * hashLen alg) 0x06 (hashLen alg) m

/-- SHAKE128 (0x1C) and SHAKE256 (0x1D). -/
def shake (alg n : Nat) (m : List Nat) : List Nat := keccak (if alg = 0x1C then 168 else 136) 0x1F n m

end Sys2Proof.Machine
end

