-- ==== Sys2Proof/Machine/Cry.lean ====
section
/-! DEFINITION. The cryptographic units (spec/14): key objects, acceptance, the work of a request and its slots, chained requests, and the random bit
generators.  AES, the hashes, HMAC and key wrap are computed; the public-key algorithms and random bits are opaque (log entry 24). -/

namespace Sys2Proof.Machine

/-! ### Table 14.1 -/

def isHash (a : Nat) : Bool := (decide (0x10 ≤ a) && decide (a ≤ 0x13)) || (decide (0x18 ≤ a) && decide (a ≤ 0x1B))
def isShake (a : Nat) : Bool := a == 0x1C || a == 0x1D
def isEc (a : Nat) : Bool := decide (0x40 ≤ a) && decide (a ≤ 0x42)
def isKem (a : Nat) : Bool := a == 0x50 || a == 0x51
def isDsa (a : Nat) : Bool := a == 0x58 || a == 0x59
def isAlg (a : Nat) : Bool :=
  a == 1 || isHash a || isShake a || a == 0x20 || a == 0x30 || isEc a || a == 0x48 || a == 0x49 || isKem a || isDsa a || a == 0x60

/-- The width in bytes of a coordinate, or of a 25519 value. -/
def ecWidth (a : Nat) : Nat := if a = 0x41 then 48 else if a = 0x42 then 66 else 32

/-- Whether an operation suits an algorithm (Tables 14.1 and 14.6). -/
def opSuits (op a : Nat) : Bool :=
  match op with
  | 1 => a == 1 || a == 0x30
  | 2 => a == 1 || a == 0x30
  | 3 => isHash a || isShake a
  | 4 => a == 0x20
  | 5 => a == 0x20
  | 6 => a == 0x30 || isEc a || a == 0x48 || isDsa a
  | 7 => a == 0x30 || isEc a || a == 0x48 || isDsa a
  | 8 => isEc a || a == 0x49
  | 9 => isKem a
  | 10 => isKem a
  | 11 => a == 1 || a == 0x20 || isEc a || a == 0x48 || a == 0x49 || isKem a || isDsa a
  | 12 => isAlg a
  | 13 => a == 0x60
  | _ => false

/-- Operations that may be spread over several requests (R413). -/
def chains (h : List Nat) : Bool :=
  let op := h.getD 0 0
  op == 3 || op == 4 || op == 5 || ((op == 1 || op == 2) && h.getD 1 0 == 1 && (h.getD 2 0 == 2 || h.getD 2 0 == 3 || h.getD 2 0 == 4))

/-- The IV length of an AES mode (Table 14.2). -/
def ivOk (mode n : Nat) : Bool := if mode = 1 then n == 0 else if mode = 4 then decide (1 ≤ n) && decide (n ≤ 128) else n == 16

/-- A request block that R411 refuses. -/
def cryBad (h : List Nat) : Bool :=
  let op := h.getD 0 0
  let a := h.getD 1 0
  let b := h.getD 2 0
  let fl := h.getD 3 0
  let aes := a == 1 && (op == 1 || op == 2)
  let rsa := a == 0x30 && op != 12
  decide (8 ≤ fl) || hdrF h 0x36 2 != 0 || !isAlg a || !opSuits op a
    || decide (2 ^ 30 < hdrF h 0x18 4) || decide (2 ^ 30 < hdrF h 0x1C 4) || decide (2 ^ 16 < hdrF h 0x30 4)
    || (!chains h && fl % 4 != 3) || (fl % 4 != 3 && hdrF h 0x38 8 % 512 != 0)
    || (aes && (decide (b < 1) || decide (5 < b) || !ivOk b (h.getD 0x35 0) || (fl.testBit 0 && decide (hdrF h 0x30 4 < h.getD 0x35 0))))
    || (a == 0x20 && op != 11 && op != 12 && (!isHash b || h.getD 0x34 0 == 0 || decide (hashLen b < h.getD 0x34 0)))
    || (rsa && (decide (64 ≤ b) || decide (b % 16 < 1) || decide (3 < b % 16) || (if op ≤ 2 then b / 16 != 2 else decide (2 ≤ b / 16))))
    || (isShake a && op == 3 && hdrF h 0x1C 4 == 0)

/-! ### Key objects (Table 14.5, R407 to R410) -/

/-- A key object: type, parameter, usage, wrapped, material length, and the material as it stands in memory. -/
structure KeyObj where
  typ : Nat
  par : Nat
  usage : Nat
  wrapped : Bool
  len : Nat
  mat : List Nat

def isPublic (t : Nat) : Bool := t == 4 || t == 6 || t == 8 || t == 10 || t == 12 || t == 14

/-- Type, parameter and length agree (R408). -/
def keyLenOk (t p n : Nat) : Bool :=
  match t with
  | 1 => p == 0 && (n == 16 || n == 24 || n == 32 || n == 48 || n == 64)
  | 2 => p == 0 && decide (1 ≤ n) && decide (n ≤ 256)
  | 3 => decide (32 ≤ p) && decide (p ≤ 128) && n == 8 * p + 4 + 20 * p
  | 4 => decide (32 ≤ p) && decide (p ≤ 128) && n == 8 * p + 4
  | 5 => isEc p && n == 3 * ecWidth p + 1
  | 6 => isEc p && n == 2 * ecWidth p + 1
  | 7 => p == 0x48 && n == 32
  | 8 => p == 0x48 && n == 32
  | 9 => p == 0x49 && n == 32
  | 10 => p == 0x49 && n == 32
  | 11 => (p == 0x50 && n == 2400) || (p == 0x51 && n == 3168)
  | 12 => (p == 0x50 && n == 1184) || (p == 0x51 && n == 1568)
  | 13 => (p == 0x58 && n == 4032) || (p == 0x59 && n == 4896)
  | 14 => (p == 0x58 && n == 1952) || (p == 0x59 && n == 2592)
  | _ => false

/-- The length of material wrapped. -/
def wrapLen (n : Nat) : Nat := (n + 7) / 8 * 8 + 8

/-- The 16 bytes at the front of an object, checked. -/
def keyHead (b : List Nat) : Option KeyObj :=
  let k : KeyObj := ⟨b.getD 0 0, b.getD 1 0, b.getD 2 0, (b.getD 3 0).testBit 0, hdrF b 4 4, []⟩
  if 64 ≤ k.usage ∨ 2 ≤ b.getD 3 0 ∨ (b.drop 8).any (· != 0) ∨ keyLenOk k.typ k.par k.len = false ∨ (isPublic k.typ = true ∧ k.wrapped = true) then none
  else some k

/-- The key type and usage bit that a request needs; the type of a generated object follows its algorithm. -/
def keyNeed (op a : Nat) : Nat × Option Nat :=
  let sign := if a = 0x30 then 3 else if isEc a then 5 else if a = 0x48 then 7 else 13
  match op with
  | 1 => if a = 1 then (1, some 0) else (4, some 0)
  | 2 => if a = 1 then (1, some 1) else (3, some 1)
  | 4 => (2, some 2)
  | 5 => (2, some 3)
  | 6 => (sign, some 2)
  | 7 => (sign + 1, some 3)
  | 8 => (if a = 0x49 then 9 else 5, some 4)
  | 9 => (12, some 4)
  | 10 => (11, some 4)
  | 11 => (if a = 1 then 1 else if a = 0x20 then 2 else if isEc a then 5 else if a = 0x48 then 7 else if a = 0x49 then 9 else if isKem a then 11 else 13, none)
  | _ => (0, some 5)

/-- The object suits the request: type, and for an algorithm of its own the parameter; for AES the key sizes of the mode (R408). -/
def keySuits (h : List Nat) (k : KeyObj) : Bool :=
  let op := h.getD 0 0
  let a := h.getD 1 0
  if op = 12 then !isPublic k.typ && !k.wrapped
  else k.typ == (keyNeed op a).1 && (decide (k.typ ≤ 4) || k.par == a)
    && (!(a == 1 && (op == 1 || op == 2)) || (if h.getD 2 0 = 5 then k.len == 32 || k.len == 48 || k.len == 64 else decide (k.len ≤ 32)))

/-- Read and unwrap the object at an address, with the checks in the order 0x41, 0x42, 0x44, 0x43, 0x46: the object with its material in the clear,
or a status and detail. -/
def Mach.getKey (m : Mach) (u i : Nat) (addr area : Nat) (suits : KeyObj → Bool) (need : Option Nat) (template : Bool) : Mach × Except (Nat × Nat) KeyObj :=
  match m.accRead u i addr 16 with
  | (m, _, some e) => (m, .error (e.status, e.detail area))
  | (m, b, none) =>
    match keyHead b with
    | none => (m, .error (0x41, 0))
    | some k =>
      if suits k = false then (m, .error (0x41, 0))
      else if need.any fun n => !k.usage.testBit n then (m, .error (0x42, 0))
      else if template then (m, .ok k)
      else if !k.wrapped && !isPublic k.typ && !m.on (R.cryu_kpol_plain (u - 2) i) then (m, .error (0x44, 0))
      else
        match m.accRead u i (addr + 16) (if k.wrapped then wrapLen k.len else k.len) with
        | (m, _, some e) => (m, .error (e.status, e.detail area))
        | (m, mat, none) =>
          let clear := if k.wrapped then (kwpUnwrap ((m.inst u i).wkey.getD []) mat).bind fun p => if p.length = k.len then some p else none else some mat
          match clear with
          | none => (m, .error (0x43, 0))
          | some p =>
            -- XTS: the two halves must differ (R408)
            if k.typ = 1 ∧ 32 < k.len ∧ p.take (k.len / 2) = p.drop (k.len / 2) then (m, .error (0x41, 0))
            else if (k.typ = 6 ∨ k.typ = 12) ∧ Config.verify [0x46, k.par] p = false then (m, .error (0x46, 0))
            else (m, .ok { k with mat := p })

/-- A wrapped object, and a plain one, as they are written. -/
def wrappedObj (wkey : List Nat) (typ par usage : Nat) (mat : List Nat) : List Nat :=
  [typ, par, usage, 1] ++ toBytes 4 mat.length ++ List.replicate 8 0 ++ kwpWrap wkey mat
def plainObj (typ par usage : Nat) (mat : List Nat) : List Nat := [typ, par, usage, 0] ++ toBytes 4 mat.length ++ List.replicate 8 0 ++ mat

/-! ### Sizes and slots -/

def kemCt (a : Nat) : Nat := if a = 0x50 then 1088 else 1568
def pubLen (a : Nat) : Nat :=
  if isEc a then 2 * ecWidth a + 1 else if a = 0x50 then 1184 else if a = 0x51 then 1568 else if a = 0x58 then 1952 else if a = 0x59 then 2592 else 32
def sigLen (a par : Nat) : Nat := if a = 0x30 then 8 * par else if isEc a then 2 * ecWidth a else if a = 0x48 then 64 else if a = 0x58 then 3309 else 4627
def to16 (n : Nat) : Nat := (n + 15) / 16 * 16

/-- The bytes that a request must write, where they are known before it runs; `k` is its key object as far as its front can be read (R411). -/
def outNeed (h : List Nat) (k : KeyObj) : Nat :=
  let op := h.getD 0 0
  let a := h.getD 1 0
  let n := hdrF h 0x18 4
  let fin := (h.getD 3 0).testBit 1
  let gcm := h.getD 2 0 == 4 && fin
  match op with
  | 1 => if a = 1 then n + (if gcm then h.getD 0x34 0 else 0) else 8 * k.par
  | 2 => if a = 1 then n - (if gcm then h.getD 0x34 0 else 0) else 0
  | 3 => if !fin then 0 else if isShake a then hdrF h 0x1C 4 else hashLen a
  | 4 => if fin then h.getD 0x34 0 else 0
  | 6 => sigLen a k.par
  | 8 => 16 + wrapLen (ecWidth a)
  | 9 => to16 (kemCt a) + 16 + wrapLen 32
  | 10 => 16 + wrapLen 32
  | 11 => if a = 1 ∨ a = 0x20 then 16 + wrapLen k.len else to16 (16 + wrapLen k.len) + 16 + pubLen a
  | 12 => 16 + wrapLen k.len
  | 13 => hdrF h 0x1C 4
  | _ => 0

/-- Whether a request needs a key object. -/
def needsKey (h : List Nat) : Bool := h.getD 0 0 != 3 && h.getD 0 0 != 13

/-- The engine: false symmetric, true public-key. -/
def onPk (h : List Nat) : Bool :=
  let op := h.getD 0 0
  let a := h.getD 1 0
  !(a == 1 || op == 3 || op == 4 || op == 5 || op == 12 || op == 13 || (op == 11 && a == 0x20))

/-- Work of a slot: a common multiple of the capacities of Table 14.8. -/
def slotWork : Nat := 417792

/-- The slots of a public-key operation (Table 14.9, R417), for a modulus of 64 × `par` bits and n message bytes; `blocks` of signing attempts. -/
def pkSlots (op a par n blocks : Nat) : Nat :=
  let b := 64 * par
  let pick := fun (x y z : Nat) => if a = 0x41 then y else if a = 0x42 then z else x
  if a = 0x30 then (if op = 2 ∨ op = 6 then cdiv (250 * b ^ 3) (2048 ^ 3) else cdiv (4 * b ^ 2) (2048 ^ 2))
  else if isEc a then (if op = 7 then pick 80 200 440 else pick 40 100 220)
  else if a = 0x48 then (if op = 7 then 40 else 16) + (if op = 11 then 0 else cdiv n 4352)
  else if a = 0x49 then 16
  else if a = 0x50 then (if op = 11 then 6 else if op = 9 then 8 else 10)
  else if a = 0x51 then (if op = 11 then 9 else if op = 9 then 12 else 14)
  else
    let l := a == 0x59
    if op = 11 then (if l then 36 else 24)
    else (if op = 7 then (if l then 30 else 20) else blocks * (if l then 144 else 96)) + cdiv n 4352

/-- The work of a request (R416 to R418); ML-DSA signing draws its number of blocks of attempts. -/
def Mach.cryCost (m : Mach) (u i : Nat) (h : List Nat) : Mach × Nat :=
  let op := h.getD 0 0
  let a := h.getD 1 0
  let n := hdrF h 0x18 4
  if onPk h then
    let (m, k, _) := m.accRead u i (hdrF h 8 8) 16
    let (d, m) := if isDsa a && op == 6 then m.draw else (0, m)
    (m, slotWork * pkSlots op a (k.getD 1 0) n (1 + d))
  else
    let hash := fun (x : Nat) => if x < 0x12 then 136 else if x < 0x18 then 102 else 96
    let aad := if (h.getD 3 0).testBit 0 then hdrF h 0x30 4 - h.getD 0x35 0 else 0
    (m, match op with
      | 1 => (n + aad) * (if h.getD 2 0 = 2 then 204 else 51)
      | 2 => (n + aad) * 51
      | 3 => if isShake a then 96 * hdrF h 0x1C 4 else n * hash a
      | 13 => 51 * hdrF h 0x1C 4
      | 11 => slotWork
      | 12 => slotWork
      | _ => n * hash (h.getD 2 0))

/-! ### Chained requests (R413) -/

/-- Read the context record of a chain: its contents, or a status and detail. -/
def Mach.getCtx (m : Mach) (u i : Nat) (h : List Nat) : Mach × Except (Nat × Nat) CryCtx :=
  match m.accRead u i (hdrF h 0x38 8) 512 with
  | (m, _, some e) => (m, .error (e.status, e.detail 5))
  | (m, b, none) =>
    let wkey := (m.inst u i).wkey.getD []
    let suits := fun (c : CryCtx) => c.op == h.getD 0 0 && c.alg == h.getD 1 0 && c.mode == h.getD 2 0
    match m.acc.ctxs.find? fun x => x.1 == b && x.2.1 == wkey with
    | some x => (m, if suits x.2.2 then .ok x.2.2 else .error (0x15, 0))
    | none =>
      -- a record of another module that holds the same key: its authentication and contents are free (log entry 23)
      if Config.verify (0x15 :: h.take 3) (wkey ++ b) then
        (m, .ok ⟨h.getD 0 0, h.getD 1 0, h.getD 2 0, fixBytes [0x16] 0 (wkey ++ b) 16, fixBytes [0x17] 0 (wkey ++ b) (16 + h.getD 0x35 0)⟩)
      else (m, .error (0x15, 0))

/-- Write a context record. -/
def Mach.putCtx (m : Mach) (u i : Nat) (h : List Nat) (c : CryCtx) : Mach × Option AccErr :=
  let (b, m) := m.drawBytes 512
  let m := { m with acc := { m.acc with ctxs := (b, (m.inst u i).wkey.getD [], c) :: m.acc.ctxs } }
  match m.accWrite u i (hdrF h 0x38 8) b with
  | (m, _, e) => (m, e)

/-! ### The work of a request -/

/-- What a request comes to: status, detail, output, and the context that it leaves. -/
structure CryRes where
  status : Nat
  detail : Nat
  out : List Nat
  ctx : Option CryCtx

def CryRes.fail (st : Nat) (detail : Nat := 0) : CryRes := ⟨st, detail, [], none⟩

/-- Whether a request draws randomness (R420). -/
def draws (h : List Nat) : Bool :=
  let op := h.getD 0 0
  let a := h.getD 1 0
  op == 13 || op == 11 || op == 9 || (op == 1 && a == 0x30) || (op == 6 && (isEc a || isDsa a || (a == 0x30 && h.getD 2 0 / 16 == 0)))

/-- An input that breaks the rule of its mode (Table 14.2, R413). -/
def lenBad (h : List Nat) : Bool :=
  let n := hdrF h 0x18 4
  let fin := (h.getD 3 0).testBit 1
  let mode := h.getD 2 0
  let aes := h.getD 1 0 == 1 && (h.getD 0 0 == 1 || h.getD 0 0 == 2)
  (chains h && !fin && n % 16 != 0)
    || (aes && (((mode == 1 || mode == 2) && n % 16 != 0) || (mode == 5 && (decide (n < 16) || decide (2 ^ 24 < n)))
      || (mode == 4 && (decide (h.getD 0x34 0 < 12) || decide (16 < h.getD 0x34 0) || (h.getD 0 0 == 2 && fin && decide (n < h.getD 0x34 0))))))

/-- AES over all the data of a chain so far, of which the last `n` bytes are this request's (R406). -/
def cryAes (h : List Nat) (key : List Nat) (data aux : List Nat) (n : Nat) : Nat × List Nat :=
  let dec := h.getD 0 0 == 2
  let fin := (h.getD 3 0).testBit 1
  let mode := h.getD 2 0
  let iv := aux.take (h.getD 0x35 0)
  let ks := aesKeys key
  let last := fun (l : List Nat) => l.drop (data.length - n)
  if mode = 1 then (0, aesEcb dec ks data)
  else if mode = 2 then (0, last (if dec then cbcDec ks iv (blocks data) else cbcEnc ks iv (blocks data)))
  else if mode = 3 then (0, last (ctrMode ks 128 (ofBytes iv) (blocks data)))
  else if mode = 5 then (0, aesXts dec key iv data)
  else
    let t := h.getD 0x34 0
    let body := if dec && fin then data.take (data.length - t) else data
    let (out, tag) := aesGcm dec key iv (aux.drop iv.length) body
    let out := last out
    if !fin then (0, out)
    else if dec then (if tag.take t = data.drop (data.length - t) then (0, out) else (0x40, List.replicate out.length 0))
    else (0, out ++ tag.take t)

/-- The result of an operation on its operands: key, data of the chain, aux, this request's input length, and a free-value counter. -/
def cryOp (h : List Nat) (wkey : List Nat) (k peer : KeyObj) (data aux : List Nat) (n seed usage : Nat) : Nat × List Nat :=
  let op := h.getD 0 0
  let a := h.getD 1 0
  let b := h.getD 2 0
  let t := h.getD 0x34 0
  let rnd := if draws h then seed else 0
  let f := fun (tag : Nat) (d : List Nat) (len : Nat) => fixBytes [tag, a, b, k.par] rnd d len
  let secret := fun (d : List Nat) (len : Nat) => wrappedObj wkey 2 0 usage (fixBytes [0x20, a, len] rnd d len)
  let pad := fun (l : List Nat) => l ++ List.replicate (to16 l.length - l.length) 0
  match op with
  | 1 => if a = 1 then cryAes h k.mat data aux n else (0, f 1 (k.mat ++ aux ++ data) (8 * k.par))
  | 2 =>
    if a = 1 then cryAes h k.mat data aux n
    else if Config.verify [2, a, b] (k.mat ++ aux ++ data) then
      (let l := f 2 (k.mat ++ aux ++ data) (8 * k.par); (0, l.take (ofBytes (l.take 2) % (8 * k.par - 2 * hashLen (0x10 + b % 16) - 1))))
    else (0x40, [])
  | 3 => (0, if isShake a then shake a (hdrF h 0x1C 4) data else hashOf a data)
  | 4 => (0, (hmac (hashOf b) (hashBlk b) k.mat data).take t)
  | 5 => (if (hmac (hashOf b) (hashBlk b) k.mat data).take t = aux.take t ∧ t ≤ aux.length then 0 else 0x40, [])
  | 6 => (0, f 6 (k.mat ++ data ++ aux) (sigLen a k.par))
  | 7 => (if sigLen a k.par ≤ aux.length ∧ Config.verify [7, a, b, k.par] (k.mat ++ data ++ aux) = true then 0 else 0x40, [])
  | 8 => (0, secret (k.mat ++ peer.mat) (ecWidth a))
  | 9 => (0, pad (f 9 k.mat (kemCt a)) ++ secret k.mat 32)
  | 10 => (0, secret (k.mat ++ data) 32)
  | 11 =>
    let priv := f 11 [] k.len
    let obj := wrappedObj wkey k.typ k.par k.usage priv
    (0, if a = 1 ∨ a = 0x20 then obj else pad obj ++ plainObj (k.typ + 1) k.par k.usage (f 12 [] (pubLen a)))
  | 12 => (0, wrappedObj wkey k.typ k.par k.usage k.mat)
  | _ => (0, f 13 [] (hdrF h 0x1C 4))

/-- Do the work of a request up to its outputs. -/
def Mach.cryWork (m : Mach) (u i : Nat) (h : List Nat) : Mach × CryRes :=
  let op := h.getD 0 0
  let a := h.getD 1 0
  let first := (h.getD 3 0).testBit 0
  let fin := (h.getD 3 0).testBit 1
  let noKey : KeyObj := ⟨0, 0, 0, false, 0, []⟩
  let (m, c) := if first then (m, Except.ok ⟨op, a, h.getD 2 0, [], []⟩) else m.getCtx u i h
  match c with
  | .error e => (m, CryRes.fail e.1 e.2)
  | .ok c =>
    let (m, k) := if needsKey h then m.getKey u i (hdrF h 8 8) 1 (keySuits h) (keyNeed op a).2 (op == 11) else (m, Except.ok noKey)
    match k with
    | .error e => (m, CryRes.fail e.1 e.2)
    | .ok k =>
      let (m, p) := if op = 8 then m.getKey u i (hdrF h 0x28 8) 4 (fun p => p.typ == k.typ + 1 && p.par == k.par) (some 4) false else (m, Except.ok noKey)
      match p with
      | .error e => (m, CryRes.fail e.1 e.2)
      | .ok p =>
        if lenBad h then (m, CryRes.fail 0x47)
        else if draws h && m.get (R.cryu_rbg_state (u - 2)) != 1 then (m, CryRes.fail 0x48)
        else
          let (m, aux, ea) := if (first || op == 5) && op != 8 then m.accRead u i (hdrF h 0x28 8) (hdrF h 0x30 4) else (m, c.aux, none)
          let (m, data, ed) := m.accRead u i (hdrF h 0x10 8) (hdrF h 0x18 4)
          match ea, ed with
          | some e, _ => (m, CryRes.fail e.status (e.detail 4))
          | none, some e => (m, CryRes.fail e.status (e.detail 2))
          | none, none =>
            let all := c.data ++ data
            let chained := chains h && !fin
            let (d, m) := m.draw
            if chained && op != 1 && op != 2 then (m, ⟨0, 0, [], some { c with data := all, aux := aux }⟩)
            else
              let (st, out) := cryOp h ((m.inst u i).wkey.getD []) k p all aux data.length m.seed (d % 64)
              let m := if draws h then { m with seed := m.seed + 1 } else m
              -- plaintext of an RSA decryption whose length shows only now (R411)
              if hdrF h 0x1C 4 < out.length then (m, CryRes.fail 0x20)
              else (m, ⟨st, 0, out, if chained then some { c with data := all, aux := aux } else none⟩)

/-- A request of a cryptographic unit ends: outputs, context record, completion. -/
def Mach.cryFinish (m : Mach) (u i : Nat) (r : AccReq) : Mach :=
  let (m, w) := m.cryWork u i r.hdr
  let (m, n, e) := m.accWrite u i (hdrF r.hdr 0x20 8) w.out
  let (st, detail) := match e with
    | some e => (e.status, e.detail 3)
    | none => (w.status, w.detail)
  let (m, st, detail) := match e, w.ctx with
    | none, some c =>
      (match m.putCtx u i r.hdr c with
       | (m, some e) => (m, e.status, e.detail 5)
       | (m, none) => (m, st, detail))
    | _, _ => (m, st, detail)
  m.endReq u i r ⟨st, detail, if st = 0 ∨ st = 0x40 then hdrF r.hdr 0x18 4 else 0, n, 0, 0, 0⟩

/-- The status that a block's contents earn at acceptance: 0x13, or 0x20 for an output area too small (R411). -/
def Mach.cryAccept (m : Mach) (u i : Nat) (h : List Nat) : Mach × Option Nat :=
  if cryBad h then (m, some 0x13)
  else
    let (m, b, _) := if needsKey h then m.accRead u i (hdrF h 8 8) 16 else (m, [], none)
    (m, if hdrF h 0x1C 4 < outNeed h ((keyHead b).getD ⟨0, 0, 0, false, 0, []⟩) then some 0x20 else none)

/-! ### Commands -/

/-- A submit store reaches a cryptographic instance (R405, R411). -/
def execCrySubmit (u i addr : Nat) (s : State) : Host.Outcome State Fault Refusal :=
  ans (decide (u < 2) && decide (i < 64) && decide (addr < 2 ^ 64)) s fun m =>
    if m.frozen then m else m.submit (2 + u) i addr fun m h => m.cryAccept (2 + u) i h

/-- A write of part k of `cryu.wkey` (R409): taken while the instance is disabled; the last part loads the key. -/
def Mach.wkeyWrite (m : Mach) (u i k val : Nat) : Mach :=
  if m.get (R.u_ictl_state (2 + u) i) ≠ 0 then m.set (R.cryu_kpol_wkerr u i) 1
  else
    let m := m.onInst (2 + u) i fun x => { x with wpart := tset x.wpart k val }
    if k = 3 then
      (m.onInst (2 + u) i fun x => { x with wkey := some ((List.range 4).flatMap fun j => toBytes 8 (tget x.wpart j 0)) }).set (R.cryu_kpol_wkset u i) 1
    else m

def execWrappingKeyLoad (u i val : Nat) (s : State) : Host.Outcome State Fault Refusal :=
  ans (decide (u < 2) && decide (i < 64) && decide (val < 2 ^ 64)) s fun m => if m.frozen then m else m.wkeyWrite u i 3 val

/-- A health test of the entropy source fails (R421). -/
def execEntropyHealthFailure (u : Nat) (s : State) : Host.Outcome State Fault Refusal :=
  ans (decide (u < 2)) s fun m =>
    if m.frozen || m.get (R.cryu_rbg_state u) == 3 then m
    else ((m.count (R.cryu_rbg_fails u)).set (R.cryu_rbg_state u) 2).unitError (2 + u) 0x97 0

/-- The start-up tests end: passed, or failed and restarted, until three restarts in a row have failed (R421). -/
def execEntropyRestartEnd (u : Nat) (pass : Bool) (s : State) : Host.Outcome State Fault Refusal :=
  ans (decide (u < 2)) s fun m =>
    if m.frozen || m.get (R.cryu_rbg_state u) == 1 || m.get (R.cryu_rbg_state u) == 3 then m
    else
      let put := fun (m : Mach) (n : Nat) => { m with acc := { m.acc with rbgFails := tset m.acc.rbgFails u n } }
      if pass then (put m 0).set (R.cryu_rbg_state u) 1
      else
        let n := tget m.acc.rbgFails u 0 + 1
        let m := put m n
        if 3 ≤ n then (m.set (R.cryu_rbg_state u) 3).unitError (2 + u) 0x98 0 else m.set (R.cryu_rbg_state u) 2

end Sys2Proof.Machine
end

