-- ==== Sys2Proof/Machine/Instances.lean ====
section
/-! DEFINITION. The rotation of the accelerator units and the commands of their instances (spec/13 to spec/15). -/

namespace Sys2Proof.Machine

/-! ### Rotation (R387, R415) -/

/-- The work of a request about to start. -/
def Mach.accCost (m : Mach) (u i : Nat) (h : List Nat) : Mach × Nat :=
  if u < 2 then (match m.cmpWork u i h with | (m, w) => (m, w.cost)) else m.cryCost u i h

/-- An instance uses its slot: requests advance in order, each using what the one before it left, while `left` work remains; a request of a
cryptographic unit uses the rest of a slot only if it needs the same engine. -/
def Mach.slotRun (u i : Nat) : Nat → Mach → Nat → Option Bool → Mach
  | 0, m, _, _ => m
  | n + 1, m, left, eng =>
    match (m.inst u i).q.head? with
    | none => m
    | some r =>
      let e := decide (2 ≤ u) && onPk r.hdr
      if (eng.any (· != e)) || (r.left.isNone && m.recWaits u i && decide (m.mode.stage < 3)) then m
      else
        let (m, need) := match r.left with
          | some k => (m, k)
          | none => m.accCost u i r.hdr
        if need ≤ left then Mach.slotRun u i n (if u < 2 then m.cmpFinish u i r else m.cryFinish u i r) (left - need) (some e)
        else m.onInst u i fun x => { x with q := { r with left := some (need - left) } :: x.q.drop 1 }

/-! ### Abort (R385) -/

/-- Every accepted request of an instance ends with a status, in order.  A request that had started leaves undefined output. -/
def Mach.endAll (st u i : Nat) : Nat → Mach → Mach
  | 0, m => m
  | n + 1, m =>
    match (m.inst u i).q.head? with
    | none => m
    | some r =>
      let m := match r.left with
        | none => m
        | some _ =>
          let (b, m) := m.drawBytes (if u < 2 then hdrF r.hdr 0x14 4 else hdrF r.hdr 0x1C 4)
          (m.accWrite u i (hdrF r.hdr (if u < 2 then 0x18 else 0x20) 8) b).1
      Mach.endAll st u i n (m.endReq u i r (Fin.refusal st))

/-- The slot of instance i of a unit (R387, R415): its time is never another's. `sram` is what the unit's checkers find in the structures that its
requests use: 0 nothing, 1 a single-bit error, 2 an uncorrectable one, with which they end (Tables 13.6 and 14.10). -/
def execRotationSlot (u i sram : Nat) (s : State) : Host.Outcome State Fault Refusal :=
  ans (decide (u < 4) && decide (i < 64) && decide (sram < 3)) s fun m =>
    if m.frozen then m
    else
      let base := if u < 2 then 0 else 4
      let (m, sram) := m.verdict (2175 + 16 * u + base) 2 sram
      let m := if sram = 0 then m else m.unitError u (0x8F + base + sram) i
      if sram = 2 then (Mach.endAll 0x3F u i 16 m).onInst u i fun x => { x with stream := none }
      else Mach.slotRun u i 17 m (if u < 2 then 24576 else slotWork) none

/-- An abort: status 0x16 for every accepted request, and the stream goes. -/
def Mach.abort (m : Mach) (u i : Nat) : Mach := (Mach.endAll 0x16 u i 16 m).onInst u i fun x => { x with stream := if x.q = [] then none else x.stream }

def execCmpAbort (u i : Nat) (s : State) : Host.Outcome State Fault Refusal :=
  ans (decide (u < 2) && decide (i < 64)) s fun m => if m.frozen then m else m.abort u i
def execCryAbort (u i : Nat) (s : State) : Host.Outcome State Fault Refusal :=
  ans (decide (u < 2) && decide (i < 64)) s fun m => if m.frozen then m else m.abort (2 + u) i

/-! ### Instance commands (R426, Table 15.2) -/

/-- A command ends with a result of Table 15.5. -/
def Mach.cmdDone (m : Mach) (u i result : Nat) : Mach :=
  m.sets [(R.u_ictl_result u i, result), (R.u_ictl_done u i, 1), (R.u_ictl_go u i, 0)]

def Mach.iState (m : Mach) (u i : Nat) : Nat := m.get (R.u_ictl_state u i)
def Mach.iAsg (m : Mach) (u i : Nat) : Bool := m.on (R.u_ictl_asg u i)

/-- A command is written with `go`: refused with result 5 while another is unfinished, else carried out. -/
def Mach.instGo (m : Mach) (u i op : Nat) (f : Mach → Mach) : Mach :=
  if m.frozen then m
  else if m.on (R.u_ictl_go u i) then m.sets [(R.u_ictl_result u i, 5), (R.u_ictl_done u i, 1)]
  else f (m.sets [(R.u_ictl_op u i, op), (R.u_ictl_go u i, 1)])

def Mach.cmdAssign (m : Mach) (u i : Nat) : Mach :=
  if m.iAsg u i then m.cmdDone u i 2
  else if (List.range 64).any fun j => j != i && m.iAsg u j && m.get (R.u_ittr2_part u j) == m.get (R.u_ittr2_part u i) then m.cmdDone u i 3
  else (m.set (R.u_ictl_asg u i) 1).cmdDone u i 1

def Mach.cmdEnable (m : Mach) (u i : Nat) : Mach :=
  if m.iAsg u i = false ∨ m.iState u i ≠ 0 then m.cmdDone u i 2
  else if 3 ≤ m.mode.stage then m.cmdDone u i 4
  else
    let m := m.set (R.u_ictl_state u i) 1
    let m :=
      if u < 2 then m.onInst u i fun x => { x with stream := x.held, held := none }
      else
        let (k, m') := m.drawBytes 32
        if m.on (R.cryu_kpol_wkset (u - 2) i) then m.onInst u i fun x => { x with drbg := true }
        else m'.onInst u i fun x => { x with wkey := some k, drbg := true }
    m.cmdDone u i 1

def Mach.cmdQuiesce (m : Mach) (u i : Nat) : Mach := if m.iState u i = 1 then m.set (R.u_ictl_state u i) 2 else m.cmdDone u i 2
def Mach.cmdResume (m : Mach) (u i : Nat) : Mach := if m.iState u i = 3 then (m.set (R.u_ictl_state u i) 1).cmdDone u i 1 else m.cmdDone u i 2

/-- Reset a quiesced instance (R428). -/
def Mach.cmdReset (m : Mach) (u i : Nat) : Mach :=
  if m.iState u i ≠ 3 then m.cmdDone u i 2
  else
    let m := { m with acc := { m.acc with
      tlb := m.acc.tlb.filter fun x => x.1 != 64 * u + i
      walk1 := m.acc.walk1.filter fun x => x.1 != 64 * u + i, walk2 := m.acc.walk2.filter fun x => x.1 != 64 * u + i } }
    let m := m.sets [(R.u_ictl_state u i, 0), (R.cmpu_i_stat u i, 0), (R.cmpu_i_last u i, 0), (R.cmpu_i_cnt u i, 0), (R.u_i_flt u i, 0),
      (R.u_i_fta u i, 0), (R.u_i_ttr1 u i, 0)]
    let m := m.setInst u i AccInst.init
    (if u < 2 then m else m.set (R.cryu_kpol_wkset (u - 2) i) 0).cmdDone u i 1

/-- Remove the assignment of a disabled instance. -/
def Mach.cmdRemove (m : Mach) (u i : Nat) : Mach :=
  if m.iState u i ≠ 0 ∨ m.iAsg u i = false then m.cmdDone u i 2
  else
    let m := m.sets [(R.u_ictl_asg u i, 0), (R.u_ittr2 u i, 0), (R.u_idlog u i, 0), (R.u_idlim u i, 0), (R.u_i_ttr1 u i, 0), (R.cmpu_irill u i, 0)]
    let m := if u < 2 then m else m.set (R.cryu_kpol (u - 2) i) 0
    (m.onInst u i fun x => { x with held := none, wkey := none, wpart := [] }).cmdDone u i 1

/-- Write the active stream to the record at `u.isave` (R426). -/
def Mach.cmdSave (m : Mach) (u i : Nat) : Mach :=
  if 2 ≤ u then m.cmdDone u i 6
  else if m.iState u i ≠ 3 then m.cmdDone u i 2
  else match (m.inst u i).stream with
    | none => m.cmdDone u i 9
    | some s =>
      let a := m.get (R.u_isave_addr u i) * 256
      if (m.devRange .acc a 40960).isSome then m.cmdDone u i 8
      else match m.streamRecord s with
        | (m, b) => (m.devWrite a b).cmdDone u i 1

/-- Read the record at `u.isave` and hold it for the next enable (R426). -/
def Mach.cmdRestore (m : Mach) (u i : Nat) : Mach :=
  if 2 ≤ u then m.cmdDone u i 6
  else if m.iState u i ≠ 0 ∨ m.iAsg u i = false then m.cmdDone u i 2
  else
    let a := m.get (R.u_isave_addr u i) * 256
    if (m.devRange .acc a 40960).isSome || m.devPoison a 40960 then m.cmdDone u i 8
    else match m.readRecord (m.devRead a 40960) with
      | none => m.cmdDone u i 7
      | some s => (m.onInst u i fun x => { x with held := some s }).cmdDone u i 1

/-- The command of an `op` value; other values are refused with result 2 (Table 15.7). -/
def Mach.instOp (m : Mach) (u i op : Nat) : Mach :=
  m.instGo u i op fun m =>
    match op with
    | 1 => m.cmdAssign u i
    | 2 => m.cmdEnable u i
    | 3 => m.cmdQuiesce u i
    | 4 => m.cmdResume u i
    | 5 => m.cmdReset u i
    | 6 => m.cmdRemove u i
    | 7 => m.cmdSave u i
    | 8 => m.cmdRestore u i
    | _ => m.cmdDone u i 2

def instCmd (u i op : Nat) (s : State) : Host.Outcome State Fault Refusal :=
  ans (decide (u < 4) && decide (i < 64)) s fun m => m.instOp u i op

def execInstanceAssign (u i : Nat) (s : State) : Host.Outcome State Fault Refusal := instCmd u i 1 s
def execInstanceEnable (u i : Nat) (s : State) : Host.Outcome State Fault Refusal := instCmd u i 2 s
def execInstanceQuiesce (u i : Nat) (s : State) : Host.Outcome State Fault Refusal := instCmd u i 3 s
def execInstanceResume (u i : Nat) (s : State) : Host.Outcome State Fault Refusal := instCmd u i 4 s
def execInstanceReset (u i : Nat) (s : State) : Host.Outcome State Fault Refusal := instCmd u i 5 s
def execInstanceRemove (u i : Nat) (s : State) : Host.Outcome State Fault Refusal := instCmd u i 6 s
def execInstanceSave (u i : Nat) (s : State) : Host.Outcome State Fault Refusal := instCmd u i 7 s
def execInstanceRestore (u i : Nat) (s : State) : Host.Outcome State Fault Refusal := instCmd u i 8 s

/-- A quiescing instance with nothing outstanding enters state 3 (R427). -/
def execInstanceQuiesced (u i : Nat) (s : State) : Host.Outcome State Fault Refusal :=
  ans (decide (u < 4) && decide (i < 64)) s fun m =>
    if m.frozen || m.iState u i != 2 || !(m.inst u i).q.isEmpty || m.recWaits u i then m
    else (m.set (R.u_ictl_state u i) 3).cmdDone u i 1

end Sys2Proof.Machine
end

