-- ==== Sys2Proof/Machine/Jl.lean ====
section
/-! DEFINITION. The link layer that Jalper ports and coupling ports share (spec/17, R473 to R488; spec/19, R516): port registers, header cells, frames
sent, lanes and widths. A port is numbered 0 to 31 for an I/O port and 32 + p for coupling port p. -/

namespace Sys2Proof.Machine

def Mach.jlP (m : Mach) (q : Nat) : JlPort := tget m.jl q JlPort.init
def Mach.setJlP (m : Mach) (q : Nat) (x : JlPort) : Mach := { m with jl := tset m.jl q x }
def Mach.onJlP (m : Mach) (q : Nat) (f : JlPort → JlPort) : Mach := m.setJlP q (f (m.jlP q))

/-! ### Registers of both kinds of port -/

def jlStateF (q : Nat) : Fld := if q < 32 then R.chan_jl_stat_state q else R.cpl_p_stat_state (q - 32)
def jlResF (q : Nat) : Fld := if q < 32 then R.chan_jl_stat_res q else R.cpl_p_stat_res (q - 32)
def jlFailedF (q : Nat) : Fld := if q < 32 then R.chan_jl_stat_failed q else R.cpl_p_stat_failed (q - 32)
def jlFirstF (q : Nat) : Fld := if q < 32 then R.chan_jl_stat_first q else R.cpl_p_stat_first (q - 32)
def jlDownF (q : Nat) : Fld := if q < 32 then R.chan_jl_ctl_down q else R.cpl_p_ctl_down (q - 32)
def jlUpF (q : Nat) : Fld := if q < 32 then R.chan_jl_ctl_up q else R.cpl_p_ctl_up (q - 32)
def jlResendF (q : Nat) : Fld := if q < 32 then R.chan_jl_cnt_resend q else R.cpl_p_cnt_resend (q - 32)
def jlFeccF (q : Nat) : Fld := if q < 32 then R.chan_jl_cnt_fecc q else R.cpl_p_cnt_fecc (q - 32)

def Mach.jlState (m : Mach) (q : Nat) : Nat := m.get (jlStateF q)

/-- The link of a port is up: state 6, or 7 while it narrows or retrains. -/
def Mach.jlUp (m : Mach) (q : Nat) : Bool := m.jlState q == 6 || m.jlState q == 7

/-- The I/O port is half of a bonded pair (R20). -/
def Mach.jlBonded (m : Mach) (p : Nat) : Bool := m.on (R.chan_jl_ctl_bond (p / 2 * 2))

/-- The port can carry a Jalper or coupling link: for an I/O port its personality, the even port's in a pair, whose odd port carries none (R473). -/
def Mach.jlChan (m : Mach) (q : Nat) : Bool :=
  if 32 ≤ q then true
  else if m.jlBonded q then q % 2 == 0 && m.get (R.chan_jl_ctl_pers q) == 1
  else m.get (R.chan_jl_ctl_pers q) == 1

/-- The block number of the port (Table 22.5). -/
def jlBlk (q : Nat) : Nat := 80 + q

/-- An error of a port, by its Jalper code: the coupling ports have codes of their own for 0xB0 to 0xB3 and 0xB6, and none for the others. -/
def Mach.jlError (m : Mach) (q code : Nat) : Mach :=
  if q < 32 then
    let m := m.sets [(R.chan_lerr_slot, 0), (R.chan_lerr_port, q), (R.chan_lerr_new, 1), (R.chan_lerr_code, code)]
    m.raise (2288 + 32 * q + (code - 0xB0)) (m.word R.chan_lerr)
  else if code = 0xB4 ∨ code = 0xB5 then m
  else
    let m := m.sets [(R.cpl_err_chan, 0), (R.cpl_err_port, q - 32), (R.cpl_err_new, 1), (R.cpl_err_code, code + 0x20)]
    m.raise (3312 + 16 * (q - 32) + (code - 0xB0)) (m.word R.cpl_err)

/-! ### Lanes (R486) -/

/-- The full width of a port. -/
def Mach.jlFull (m : Mach) (q : Nat) : Nat := if 32 ≤ q ∨ m.jlBonded q then 16 else 8

/-- The width shown and its first lane (Tables 17.12 and 19.16). -/
def Mach.jlSetWidth (m : Mach) (q w first : Nat) : Mach :=
  let m := m.set (jlFirstF q) first
  if 32 ≤ q then m.set (R.cpl_p_stat_width (q - 32)) w
  else
    let c := match w with
      | 1 => (1, 0) | 2 => (1, 1) | 4 => (2, 0) | 8 => (2, 1) | 16 => (3, 0) | _ => (0, 0)
    m.sets [(R.chan_jl_stat_width q, c.1), (R.chan_jl_stat_wlog q, c.2)]

def Mach.jlWidth (m : Mach) (q : Nat) : Nat :=
  if 32 ≤ q then m.get (R.cpl_p_stat_width (q - 32))
  else match m.get (R.chan_jl_stat_width q), m.get (R.chan_jl_stat_wlog q) with
    | 0, _ => 0 | c, l => 2 ^ (2 * c - 2 + l)

/-- The largest width, at most w, that a group of the port's lanes without a failed one carries, with the lowest such group. -/
def widthOf (failed full w : Nat) : Option (Nat × Nat) :=
  [16, 8, 4, 2, 1].findSome? fun v =>
    if w < v then none
    else ((List.range (full / v)).find? fun k => (List.range v).all fun i => !bit failed (v * k + i)).map fun k => (v, v * k)

/-! ### Cells and frames (R477 to R480) -/

/-- The data cells of a frame. -/
def dataCells (f : XFrame) : Nat := cdiv f.data.length 64

def padTo (n : Nat) (l : List Nat) : List Nat := l ++ List.replicate (n - l.length) 0

/-- A header cell (Table 17.2) and the data cells after it: kind, op or type, sequence number, acknowledgement word, credits returned, payload from
0x0C to 0x3B, data. -/
def cellBytes (kind op seq ack fc dc : Nat) (pay data : List Nat) : List Nat :=
  let h := [kind, op] ++ toBytes 2 data.length ++ toBytes 2 seq ++ toBytes 2 ack ++ [fc, 0] ++ toBytes 2 dc ++ (padTo 48 pay).take 48
  let d := padTo (64 * cdiv data.length 64) data
  h ++ toBytes 4 (crc32c (h ++ d)) ++ d

/-- The bytes of an exchange frame. -/
def frameBytes (seq : Nat) (t : TFrame) : List Nat :=
  let f := t.f
  cellBytes 2 t.typ seq 0 0 0
    (toBytes 2 f.addr ++ [0, 0] ++ toBytes 8 f.xid ++ toBytes 4 f.pos ++ toBytes 4 f.a ++ toBytes 4 f.b
      ++ [f.dcmd, f.flags, f.dstat, min f.sense.length 16] ++ padTo 16 f.sense) f.data

/-- Transmit the oldest frames that wait while the link is in state 6, fewer than 128 are unacknowledged, and the credits suffice (R479, R480). -/
def Mach.jlFlush (m : Mach) (q : Nat) : Nat → Mach
  | 0 => m
  | n + 1 =>
    let x := m.jlP q
    match x.link.waiting with
    | [] => m
    | (c, t) :: rest =>
      if m.frozen || m.jlState q != 6 || decide (128 ≤ x.link.replay.length) || decide (x.link.credits.getD 0 0 < 1)
          || decide (x.link.credits.getD 1 0 < c) then m
      else
        let k := { x.link with waiting := rest, replay := x.link.replay ++ [(x.link.txSeq, 0, t)], txSeq := (x.link.txSeq + 1) % 4096,
                               credits := [x.link.credits.getD 0 0 - 1, x.link.credits.getD 1 0 - c] }
        ((m.setJlP q { x with link := k }).emit (.frame 7 q (frameBytes x.link.txSeq t))).jlFlush q n

/-- A frame is handed to a port whose link is up. -/
def Mach.jlSend (m : Mach) (q typ : Nat) (f : XFrame) : Mach :=
  let m := m.onJlP q fun x => { x with link := { x.link with waiting := x.link.waiting ++ [(dataCells f, ⟨typ, f⟩)] } }
  m.jlFlush q (m.jlP q).link.waiting.length

/-- A control cell leaves (Tables 17.4 and 19.1). -/
def Mach.jlControl (m : Mach) (q op : Nat) (pay : List Nat) : Mach := m.emit (.frame 7 q (cellBytes 1 op 0 0 0 0 pay []))

/-- An idle cell that acknowledges what was accepted, says nak or not, and returns credits. -/
def Mach.jlAckCell (m : Mach) (q : Nat) (nak : Bool) (fc dc : Nat) : Mach :=
  m.emit (.frame 7 q (cellBytes 0 0 0 (0x8000 ||| (if nak then 0x4000 else 0) ||| ((m.jlP q).link.rxSeq + 4095) % 4096) fc dc [] []))

/-- An empty frame. -/
def XFrame.zero : XFrame := ⟨0, 0, 0, 0, 0, 0, 0, 0, [], []⟩

/-- Resend every unacknowledged frame in order; each counts and is reported, and a frame's eighth resend makes the port retrain, which shows as state 7
until its lanes have been set up again (R479, R486). -/
def Mach.jlResend (m : Mach) (q : Nat) : Mach :=
  let k := (m.jlP q).link
  let m := k.replay.foldl (fun m x => ((m.count (jlResendF q)).jlError q 0xB3).emit (.frame 7 q (frameBytes x.1 x.2.2))) m
  let m := m.onJlP q fun x => { x with link := { x.link with replay := x.link.replay.map fun y => (y.1, y.2.1 + 1, y.2.2) } }
  if k.replay.any fun x => 8 ≤ x.2.1 + 1 then
    ((m.onJlP q fun x => { x with link := { x.link with replay := x.link.replay.map fun y => (y.1, 0, y.2.2) } }).set (jlStateF q) 7).jlError q 0xB4
  else m

/-- The software-visible bit of a port whose link is up. -/
def Mach.jlShow (m : Mach) (q : Nat) (up : Bool) : Mach :=
  if q < 32 then m.set R.id_ioports_io (if up then m.get R.id_ioports_io ||| 2 ^ q else m.get R.id_ioports_io &&& (2 ^ 32 - 1 ^^^ 2 ^ q))
  else m.set R.id_ports_cpl (if up then m.get R.id_ports_cpl ||| 2 ^ (q - 32) else m.get R.id_ports_cpl &&& (2 ^ 18 - 1 ^^^ 2 ^ (q - 32)))

/-- The link of a port goes down, or its training is given up, and it shows a state: frames and credits are discarded (R481). -/
def Mach.jlReset (m : Mach) (q st : Nat) : Mach :=
  let was := m.jlUp q
  let m := m.onJlP q fun x => { JlPort.init with fenced := x.fenced, upReq := x.upReq }
  let m := (((m.set (jlStateF q) st).jlSetWidth q 0 0).jlShow q false)
  let m := if q < 32 then m.set (R.chan_jl_gen_gen q) 0 else m
  if was then m.jlError q 0xB1 else m

/-! ### Training (R487, Table 17.5) -/

/-- The highest generation that the port may target: `gmax`, and JL2 in M5 (R474, R50); JL3 alone for a coupling port. -/
def Mach.jlTop (m : Mach) (q : Nat) : Nat :=
  if 32 ≤ q then 3
  else
    let g := max 1 (m.get (R.chan_jl_ctl_gmax q))
    if m.modeM5 then min g 2 else g

/-- Begin a training with a target of at most g: every lane sends the pattern. -/
def Mach.jlTrain (m : Mach) (q g : Nat) : Mach :=
  let m := (m.onJlP q fun x => { x with cap := g, far := 0, target := 0, gap := false }).sets [(jlStateF q, 1), (jlFailedF q, 0)]
  m.jlSetWidth q 0 0

/-- A first training attempt after an accepted `up` has ended: the bit is cleared, and `res` reads 1 (R488). -/
def Mach.jlUpDone (m : Mach) (q : Nat) : Mach :=
  if (m.jlP q).upReq then (m.onJlP q fun x => { x with upReq := false }).sets [(jlUpF q, 0), (jlResF q, 1)] else m

/-- A training attempt ends without a link: in state 8 or 9. -/
def Mach.jlNoLink (m : Mach) (q st : Nat) : Mach := ((m.set (jlStateF q) st).jlSetWidth q 0 0).jlUpDone q

/-- A port that may train: a Jalper or coupling port, after boot seal (R620), that is neither fenced nor up. -/
def Mach.jlMayTrain (m : Mach) (q : Nat) : Bool :=
  !m.frozen && m.sealed && m.jlChan q && !(m.jlP q).fenced && !m.jlUp q && !m.blkFailed (jlBlk q)

def execJlTrainingStart (port : Nat) (s : State) : Host.Outcome State Fault Refusal :=
  ans (decide (port < 50)) s fun m => if m.jlMayTrain port then m.jlTrain port (m.jlTop port) else m

/-- The time for clock recovery and equalisation ends: at 28 Gbit/s (state 1), or at the target rate (state 4). -/
def execJlEqualisationEnd (port locked : Nat) (s : State) : Host.Outcome State Fault Refusal :=
  ans (decide (port < 50)) s fun m =>
    let q := port
    let st := m.jlState q
    if !m.jlMayTrain q || !(st == 1 || st == 4) then m
    else
      let full := m.jlFull q
      let f := (2 ^ full - 1) ^^^ (locked % 2 ^ full)
      let m := m.set (jlFailedF q) f
      match widthOf f full full with
      | none =>
        let t := (m.jlP q).target
        if st = 4 ∧ 1 < t ∧ q < 32 then m.jlTrain q (t - 1) else m.jlNoLink q 9
      | some (w, first) => (m.jlSetWidth q w first).set (jlStateF q) (if st = 1 then 2 else 5)

/-- The far side's TS cells: they set the target generation, and name the switch to it once it is set. JL1 needs no switch. -/
def execJlTs (port gens : Nat) (s : State) : Host.Outcome State Fault Refusal :=
  ans (decide (port < 50)) s fun m =>
    let q := port
    let x := m.jlP q
    if !m.jlMayTrain q then m
    else if m.jlState q = 3 then m.set (jlStateF q) 4
    else if m.jlState q ≠ 2 then m
    else
      let m := m.jlControl q 0x01 ([7] ++ toBytes 2 ((2 ^ m.jlFull q - 1) &&& ((2 ^ 16 - 1) ^^^ m.get (jlFailedF q))) ++ [min x.cap 3])
      let fgen := if bit gens 2 then 3 else if bit gens 1 then 2 else 1
      if 32 ≤ q ∧ !bit gens 2 then m.jlNoLink q 8
      else
        let t := if 32 ≤ q then 3 else min x.cap fgen
        let m := m.setJlP q { x with far := fgen, target := t }
        let m := if q < 32 then m.set (R.chan_jl_gen_fgen q) fgen else m
        m.set (jlStateF q) (if t = 1 then 5 else 3)

/-- A narrowing, or a retraining, has ended: the link resumes, what is unacknowledged first (R486). -/
def execJlNarrowingDone (port : Nat) (s : State) : Host.Outcome State Fault Refusal :=
  ans (decide (port < 50)) s fun m =>
    if m.frozen || m.jlState port != 7 then m
    else
      let m := m.set (jlStateF port) 6
      let m := (m.jlP port).link.replay.foldl (fun m x => m.emit (.frame 7 port (frameBytes x.1 x.2.2))) m
      m.jlFlush port (m.jlP port).link.waiting.length

def execJlReplayTimeout (port : Nat) (s : State) : Host.Outcome State Fault Refusal :=
  ans (decide (port < 50)) s fun m =>
    if m.frozen || m.jlState port != 6 || (m.jlP port).link.replay.isEmpty then m else m.jlResend port

end Sys2Proof.Machine
end

