-- ==== Sys2Proof/Machine/Resv.lean ====
section
/-! DEFINITION. The Reservoir (spec/17, R489 to R495): records and their two copies, moves, peer mirroring, the scan at boot seal. -/

namespace Sys2Proof.Machine

/-! ### Errors and slots -/

/-- A Reservoir code, recorded in `chan.lerr` (R497). -/
def Mach.rsvError (m : Mach) (code slot : Nat) : Mach :=
  let m := m.sets [(R.chan_lerr_slot, slot), (R.chan_lerr_port, 0), (R.chan_lerr_new, 1), (R.chan_lerr_code, code)]
  m.raise (2256 + (code - 0xA0)) (m.word R.chan_lerr)

/-- The slots of the Reservoir: two in each KiB (R490). -/
def Mach.rsvSlots (m : Mach) : Nat := (m.get R.chan_rsv_lim_lim + 1 - m.get R.chan_rsv_base_base) * 2048

/-- The primary and the mirror copy of a slot (R490). -/
def Mach.slotAt (m : Mach) (r : Nat) : Nat := m.get R.chan_rsv_base_base * 2 ^ 20 + 1024 * (r / 2) + 256 * (r % 2)
def Mach.mirrorAt (m : Mach) (r : Nat) : Nat := m.slotAt r + 512

/-- The Reservoir is in force (R489). -/
def Mach.rsvOk (m : Mach) : Bool := m.get R.chan_rsv_stat_cfg == 1

/-- The state of a slot's record changes; none frees the slot. The counts that software reads follow (Tables 17.18 and 17.19). -/
def Mach.setSlot (m : Mach) (r : Nat) (st : Option Nat) : Mach :=
  let t := match st with
    | some v => tset m.chan.slots r v
    | none => tdel m.chan.slots r
  let m := { m with chan := { m.chan with slots := t } }
  m.sets [(R.chan_rsv_stat_used, t.length), (R.chan_rsv_orph_orphan, (t.filter fun x => x.2 == 5).length),
    (R.chan_rsv_orph_ceded, (t.filter fun x => x.2 == 6).length)]

/-- The lowest free slot from 2 upward (log entry 25). -/
def Mach.rsvFree (m : Mach) : Option Nat :=
  if !m.rsvOk then none
  else (((List.range (m.chan.slots.length + 1)).map (· + 2)).find? fun r => (tfind m.chan.slots r).isNone).bind fun r =>
    if r < m.rsvSlots then some r else none

/-! ### Records (Table 17.7) -/

/-- A record with its check. -/
def withCrc (b : List Nat) : List Nat := b ++ toBytes 4 (crc32c b)

/-- The record of an operation. -/
def ChOp.bytes (x : ChOp) : List Nat :=
  withCrc (toBytes 4 0x4E4B5256 ++ [x.st, x.flags, 0, 0] ++ toBytes 8 x.upd ++ toBytes 8 x.xid ++ toBytes 4 x.scid ++ [x.part, x.cp, x.path, x.mask]
    ++ toBytes 8 x.blk ++ toBytes 4 x.tag ++ toBytes 4 0 ++ toBytes 8 x.first ++ toBytes 8 x.next ++ toBytes 4 x.pos ++ toBytes 4 x.ended
    ++ toBytes 2 x.redrv ++ toBytes 6 0 ++ toBytes 8 x.hold ++ toBytes 8 x.tod ++ (padTo 32 x.paths).take 32
    ++ [if x.st = 3 ∨ x.st = 4 then x.fin else 0, x.dev, min x.sense.length 16, 0] ++ toBytes 4 x.resid ++ (padTo 16 x.sense).take 16 ++ List.replicate 100 0)

/-- The operation that a record describes, as an adopted one begins. -/
def recOp (slot peer : Nat) (b : List Nat) : ChOp :=
  let f := fun (o n : Nat) => hdrF b o n
  { slot := slot, upd := f 8 8, st := f 4 1, flags := f 5 1, xid := f 0x10 8, scid := f 0x18 4 % 2 ^ 18, part := f 0x1C 1, cp := f 0x1D 1, path := f 0x1E 1,
    mask := f 0x1F 1, blk := f 0x20 8, tag := f 0x28 4, first := f 0x30 8, next := f 0x38 8, pos := f 0x40 4, ended := f 0x44 4, redrv := f 0x48 2,
    hold := f 0x50 8, tod := f 0x58 8, paths := (b.drop 0x60).take 32, fin := f 0x80 1, dev := f 0x81 1, sense := ((b.drop 0x88).take 16).take (f 0x82 1),
    resid := f 0x84 4, run := .idle, due := .nothing, unconf := false, mack := false, word := none, moved := 0, detail := 0, where_ := 0, stop := 0,
    redrive := false, busy := [], owedClear := false, owedHalt := false, peer := peer }

/-- A copy of a record is valid (R492). -/
def recValid (b : List Nat) : Bool := hdrF b 0 4 == 0x4E4B5256 && hdrF b 0xFC 4 == crc32c (b.take 252) && decide (hdrF b 4 1 ≤ 6)
def headValid (b : List Nat) : Bool := hdrF b 0 4 == 0x4E4B5248 && hdrF b 0xFC 4 == crc32c (b.take 252) && hdrF b 6 2 != 0

/-- The two copies of a slot that read valid. -/
def Mach.copies (m : Mach) (r : Nat) (ok : List Nat → Bool) : Option (List Nat) × Option (List Nat) :=
  let one := fun (a : Nat) => if m.devPoison a 256 then none else let b := m.devRead a 256; if ok b then some b else none
  (one (m.slotAt r), one (m.mirrorAt r))

/-- Write one copy as a whole line; false when it is answered ERR. -/
def Mach.putCopy (m : Mach) (a : Nat) (b : List Nat) : Mach × Bool :=
  if (m.devCheck .chan a).isSome then (m, false) else (m.devWrite a b, true)

/-- Write both copies; whether each was written. -/
def Mach.putSlot (m : Mach) (r : Nat) (b : List Nat) : Mach × Bool × Bool :=
  let (m, p) := m.putCopy (m.slotAt r) b
  let (m, q) := m.putCopy (m.mirrorAt r) b
  (m, p, q)

/-! ### Peer mirroring (R495, R524) -/

/-- A coupling port can mirror: up, partner up, no MNAK since its last INIT. -/
def Mach.mirOk (m : Mach) (p : Nat) : Bool :=
  decide (p < 18) && m.jlUp (32 + p) && m.get (R.cpl_p_stat_partner p) == 1 && !(m.jlP (32 + p)).mnak

/-- The port that mirrors under a `chan.rsv.peer` word: `pa`, or `pb` when `pa` is down. -/
def Mach.mirPort (m : Mach) (peer : Nat) : Option Nat :=
  if m.mirOk (bits peer 4 0) then some (bits peer 4 0) else if m.mirOk (bits peer 12 8) then some (bits peer 12 8) else none

/-- What software reads of mirroring (Tables 17.18 and 19.16). -/
def Mach.mirShow (m : Mach) : Mach :=
  let m := (List.range 18).foldl (fun m p => m.set (R.cpl_p_stat_mirok p) (b2n (m.mirOk p))) m
  m.set R.chan_rsv_stat_peer
    (if !m.on R.chan_rsv_peer_en then 0 else if (m.mirPort (m.word R.chan_rsv_peer)).isSome then 1 else if m.on R.chan_rsv_peer_strict then 3 else 2)

/-- Send a record update to the peer: whether its acknowledgement is awaited. With no port up it waits for one when `strict` is 1 (port 31), and is
confirmed locally alone otherwise. -/
def Mach.mirSend (m : Mach) (peer slot upd : Nat) (b : List Nat) : Mach × Bool :=
  match m.mirPort peer with
  | some p =>
    let m := { m with cpl := { m.cpl with mupd := m.cpl.mupd ++ [(p, slot, upd, b)] } }
    (m.jlSend (32 + p) 0x47 { XFrame.zero with a := slot, xid := upd, data := b }, true)
  | none =>
    let m := m.rsvError 0xBA slot
    if bit peer 62 then ({ m with cpl := { m.cpl with mupd := m.cpl.mupd ++ [(31, slot, upd, b)] } }, true) else (m, false)

/-! ### Updates (R491) -/

def Mach.opOf (m : Mach) (slot : Nat) : Option ChOp := tfind m.chan.ops slot

/-- Exchanges open on a port: the operations whose path lies on it. -/
def Mach.openOn (m : Mach) (p : Nat) : Nat := (m.chan.ops.filter fun x => x.2.path < 8 && x.2.paths.getD (4 * x.2.path) 255 == p).length

def Mach.showOpen (m : Mach) (x : Option ChOp) : Mach :=
  match x with
  | some x => if x.path < 8 then (let p := x.paths.getD (4 * x.path) 255; if p < 32 then m.set (R.chan_jl_gen_open p) (m.openOn p) else m) else m
  | none => m

/-- Store, or remove, an operation. -/
def Mach.setOp (m : Mach) (x : ChOp) : Mach :=
  let old := m.opOf x.slot
  (({ m with chan := { m.chan with ops := tset m.chan.ops x.slot x } }).showOpen old).showOpen (some x)
def Mach.delOp (m : Mach) (slot : Nat) : Mach :=
  let old := m.opOf slot
  ({ m with chan := { m.chan with ops := tdel m.chan.ops slot } }).showOpen old

/-- Write a slot's record of state 0 and free the slot. -/
def Mach.freeRec (m : Mach) (x : ChOp) : Mach :=
  let x := { x with st := 0, upd := x.upd + 1 }
  let (m, _) := m.putSlot x.slot x.bytes
  m.setSlot x.slot none

/-- Update the record of an operation: both copies, and the peer's for a mirrored one. A copy answered ERR moves the record to another free slot, at
most once. The operation as it then stands. -/
def Mach.updRec (m : Mach) (x : ChOp) : Mach × ChOp :=
  let x := { x with upd := x.upd + 1 }
  let (m, p, q) := m.putSlot x.slot x.bytes
  let (m, x) :=
    if p && q then (m.setSlot x.slot (some x.st), x)
    else
      let m := m.rsvError 0xB8 x.slot
      let stay := fun (m : Mach) => (if p || q then m else m.rsvError 0xB8 x.slot).setSlot x.slot (some x.st)
      match m.rsvFree with
      | none => (stay m, x)
      | some r =>
        let (m, p', q') := m.putSlot r x.bytes
        if p' || q' then
          let m := (m.freeRec x).delOp x.slot
          (m.setSlot r (some x.st), { x with slot := r })
        else (stay m, x)
  if x.flags % 2 = 1 then
    let (m, w) := m.mirSend x.peer x.slot x.upd x.bytes
    (m, { x with mack := w })
  else (m, { x with mack := false })

/-- An update that frames or the status wait for: what follows its confirmation. -/
def Mach.updDue (m : Mach) (x : ChOp) (due : ChDue) : Mach :=
  let (m, x) := m.updRec x
  m.setOp { x with unconf := true, due := due }

/-- An update that nothing waits for: it counts as confirmed at once. -/
def Mach.updFree (m : Mach) (x : ChOp) : Mach × ChOp :=
  let (m, x) := m.updRec x
  (m.count R.chan_rsv_cnt_upd, { x with mack := false })

/-! ### The scan (R492) -/

/-- Lines that memory, a cache or the directory lists within a range. -/
def Mach.touched (m : Mach) (lo hi : Nat) : List Nat :=
  let l := m.mem.map (fun c => c.1 / 256) ++ m.home.dir.map (·.1) ++ m.home.bsn.map (fun (w : Nat × BsnWay) => w.2.line)
  l.foldl (fun acc x => if decide (lo / 256 ≤ x) && decide (x < hi / 256) && !acc.contains x then acc ++ [x] else acc) []

/-- Take one slot in: the copy that stands, the other repaired, and a record that is open made orphan or ceded. True when one was found. -/
def Mach.scanSlot (m : Mach) (r : Nat) : Mach :=
  let zero := fun (a : Nat) => !m.devPoison a 256 && (m.devRead a 256).all (· == 0)
  match m.copies r recValid with
  | (none, none) => if zero (m.slotAt r) && zero (m.mirrorAt r) then m else m.rsvError 0xB9 r
  | (a, b) =>
    let up := fun (x : Option (List Nat)) => x.elim 0 fun x => hdrF x 8 8 + 1
    let best := if up b ≤ up a then a.getD [] else b.getD []
    let m := if a = b then m else ((m.putSlot r best).1).rsvError 0xB8 r
    let st := hdrF best 4 1
    if st = 0 then m
    else if 5 ≤ st then m.setSlot r (some st)
    else
      let n := if hdrF best 5 1 % 2 = 1 then 6 else 5
      let out := withCrc (best.take 4 ++ [n] ++ (best.drop 5).take 1 ++ [st, 0] ++ toBytes 8 (hdrF best 8 8 + 1) ++ (best.drop 16).take 236)
      ((m.putSlot r out).1).setSlot r (some n)

/-- The generation after a header's. -/
def nextGen (g : Nat) : Nat := if g = 0xFFFF then 1 else g + 1

/-- The scan: header, then every slot that may hold a record; code 0xBC when it finds an orphan or a ceded record. -/
def Mach.rsvScan (m : Mach) : Mach :=
  let m := { m with chan := { m.chan with slots := [] } }
  let gen := match m.copies 0 headValid with
    | (none, none) => 1
    | (a, b) => nextGen (max (a.elim 0 fun x => hdrF x 6 2) (b.elim 0 fun x => hdrF x 6 2))
  let h := withCrc (toBytes 4 0x4E4B5248 ++ toBytes 2 1 ++ toBytes 2 gen ++ toBytes 4 m.rsvSlots ++ [m.modNo] ++ List.replicate 239 0)
  let m := ((m.putSlot 0 h).1).set R.chan_rsv_stat_gen gen
  let base := m.slotAt 0
  let slots := (m.touched base (base + 512 * m.rsvSlots)).foldl (fun (acc : List Nat) line =>
    let k := line - base / 256
    let r := k / 4 * 2 + k % 2
    if acc.contains r then acc else acc ++ [r]) []
  let m := (slots.filter (2 ≤ ·)).foldl (fun m r => m.scanSlot r) m
  if m.chan.slots.isEmpty then m else m.rsvError 0xBC 0

/-- The checks of R489 at boot seal, as the value of `chan.rsv.stat.cfg`. -/
def Mach.rsvCheck (m : Mach) : Nat :=
  let lo := m.get R.chan_rsv_base_base
  let hi := m.get R.chan_rsv_lim_lim
  let inside := (List.range 16).any fun r => m.on (R.mem_rgn_base_en r) && m.get (R.mem_rgn_base_kind r) == 4
    && decide (m.get (R.mem_rgn_base_base r) ≤ lo) && decide (hi ≤ m.get (R.mem_rgn_lim_lim r))
  let sct := m.get R.chan_sct_base * 32
  if !m.on R.chan_rsv_base_en then 0
  else if !inside then 2
  else if m.on R.chan_sct_en && decide (lo < sct + 32) && decide (sct ≤ hi) then 3
  else if hi + 1 < lo + 64 ∨ lo + 1024 < hi + 1 then 4
  else 1

end Sys2Proof.Machine
end

