-- ==== Sys2Proof/Machine/Chan.lean ====
section
/-! DEFINITION. The channel subsystem (spec/16, R442 to R472): subchannels, paths, channel programs, operations and their records, status. The frames of
an exchange and the commands on top of it are in ChanRows. -/

namespace Sys2Proof.Machine

/-! ### Errors, the subchannel table -/

/-- A channel code, recorded in `chan.err` (R472). -/
def Mach.chanError (m : Mach) (code s path cp port : Nat) : Mach :=
  let m := m.sets [(R.chan_err_scid, s), (R.chan_err_path, path), (R.chan_err_port, port), (R.chan_err_new, 1), (R.chan_err_cp, cp), (R.chan_err_code, code)]
  m.raise (2256 + (code - 0xA0)) (m.word R.chan_err)

/-- A subchannel descriptor (Table 16.1): doorbell source and Rill where enabled, and the 32 bytes of its paths. -/
structure ChDesc where
  valid : Bool
  enabled : Bool
  part : Nat
  n : Nat
  src : Option Nat
  rill : Option Nat
  hold : Nat
  paths : List Nat
  deriving DecidableEq, Repr

def chDesc (b : List Nat) : ChDesc :=
  ⟨bit (hdrF b 0 1) 0, bit (hdrF b 0 1) 1, hdrF b 1 1 % 64, hdrF b 2 1, if bit (hdrF b 4 4) 31 then some (hdrF b 4 4 % 2 ^ 20) else none,
    if bit (hdrF b 8 2) 15 then some (hdrF b 8 2 % 4096) else none, hdrF b 10 2, (b.drop 16).take 32⟩

/-- A descriptor is invalid (R444). -/
def descBad (b : List Nat) : Bool :=
  let n := hdrF b 2 1
  let e := fun (k : Nat) => hdrF b (16 + 4 * k) 4
  decide (4 ≤ hdrF b 0 1) || decide (64 ≤ hdrF b 1 1) || decide (n < 1) || decide (8 < n) || hdrF b 3 1 != 0 || bits (hdrF b 4 4) 30 20 != 0
    || bits (hdrF b 8 2) 14 12 != 0 || hdrF b 12 4 != 0 || hdrF b 48 16 != 0
    || (List.range 8).any fun k =>
      if n ≤ k then e k != 0 else decide (32 ≤ bits (e k) 31 24) || bits (e k) 23 16 != 0 || (List.range k).any fun j => e j == e k

def Mach.sctAt (m : Mach) (s : Nat) : Nat := m.get R.chan_sct_base * 2 ^ 25 + 128 * s

/-- The entry of a subchannel is poisoned or unreadable. -/
def Mach.sctBad (m : Mach) (s : Nat) : Bool := (m.devCheck .chan (m.sctAt s)).isSome || m.devPoison (m.sctAt s) 128

/-- The descriptor of a subchannel, where the table is in force, its entry readable and not invalid. -/
def Mach.desc (m : Mach) (s : Nat) : Option ChDesc :=
  if !m.chan.tableOk || m.sctBad s then none
  else
    let b := m.devRead (m.sctAt s) 64
    if descBad b then none else some (chDesc b)

/-! ### Subchannels and paths -/

def Mach.sub (m : Mach) (s : Nat) : ChSub := tget m.chan.subs s ChSub.init
def Mach.setSub (m : Mach) (s : Nat) (x : ChSub) : Mach := { m with chan := { m.chan with subs := tset m.chan.subs s x } }

/-- Path k of a subchannel: not installed from the path count upward, and failed with a probe due until something else has come about (R443). -/
def Mach.pathSt (m : Mach) (s k : Nat) : ChPath :=
  if ((m.desc s).elim 0 fun (d : ChDesc) => d.n) ≤ k then ⟨0, 0, false⟩ else (m.sub s).paths.getD k (⟨2, 0, true⟩ : ChPath)

def Mach.setPath (m : Mach) (s k : Nat) (p : ChPath) : Mach :=
  let x := m.sub s
  m.setSub s { x with paths := (x.paths ++ List.replicate (8 - x.paths.length) (⟨2, 0, true⟩ : ChPath)).set k p }

/-- The I/O port and device address of path k among 32 bytes of paths. -/
def pathPort (paths : List Nat) (k : Nat) : Nat := paths.getD (4 * k) 255
def pathAddr (paths : List Nat) (k : Nat) : Nat := 256 * paths.getD (4 * k + 2) 0 + paths.getD (4 * k + 3) 0

/-- A path is usable by an operation (R463): operational, allowed by its mask, and its port not under a block reset (Table 22.5). -/
def Mach.usable (m : Mach) (x : ChOp) (k : Nat) : Bool :=
  (m.pathSt x.scid k).st == 1 && bit x.mask k && !m.blkDown (80 + pathPort x.paths k)

/-- Path selection (R463), without the paths to avoid: fewest open exchanges on the port, then the lowest index after the path last used. -/
def Mach.pickPath (m : Mach) (x : ChOp) (avoid : List Nat) : Option Nat :=
  let l := (m.sub x.scid).last
  (((List.range 8).map fun i => (l + 1 + i) % 8).filter fun k => m.usable x k && !avoid.contains k).foldl (fun best k =>
    match best with
    | none => some k
    | some b => if m.openOn (pathPort x.paths k) < m.openOn (pathPort x.paths b) then some k else some b) none

/-- The processor that serves a subchannel (R459). -/
def Mach.cpOf (m : Mach) (s : Nat) : Option Nat :=
  ((List.range 16).map fun i => (s + i) % 16).find? fun n => bit (m.get R.chan_cpst_present) n && !bit (m.get R.chan_cpst_stopped) n && !m.blkDown (134 + n)

/-- The start of a subchannel that has not ended. -/
def Mach.startOf (m : Mach) (s : Nat) : Option ChOp := (m.chan.ops.find? fun x => x.2.scid == s && decide (x.2.st < 4)).map (·.2)

/-- A completion record of the subchannel waits for room (R448, R458). -/
def Mach.recKept (m : Mach) (s : Nat) : Bool := m.rill.kept.any fun r => r.kind == 7 && r.body.contains (0x10, 4, s)

def Mach.subIdle (m : Mach) (s : Nat) : Bool :=
  (m.startOf s).isNone && (m.sub s).halt.isNone && (m.sub s).clear.isNone && !m.recKept s

/-! ### Accesses of a partition (R450 to R452) -/

/-- Who accesses memory for partition p: stage 2 only, under `chan.pttr2`, logged under `chan.pdlog`. -/
def Mach.partWho (m : Mach) (p : Nat) : AccWho :=
  ⟨⟨512 + p, 0, setBits (m.word (R.chan_pttr2 p)) 57 52 p, false⟩, fun m _ => m, fun m pg =>
    if !m.on (R.chan_pdlog_en p) then m
    else if m.get (R.chan_pdlim_size p) ≤ pg then m.set (R.chan_pdlog_over p) 1
    else m.logBit 4 (m.get (R.chan_pdlog_base p) * 4096) pg fun m => (m.set (R.chan_pdlog_over p) 1).chanError 0xAA 0 0 0 0⟩

/-- A block that cannot be read, or a status area that cannot be written (R449). -/
def Mach.subFail (m : Mach) (p blk status : Nat) : Mach :=
  let m := m.sets [(R.chan_p_last_addr p, blk / 128), (R.chan_p_stat_lstat p, status), (R.chan_p_stat_lnew p, 1)]
  (m.count (R.chan_p_stat_refused p)).chanError 0xA8 0 0 0 0

/-- Write bytes 0x41 to 0x7F of a status area, then 0x01 to byte 0x40; true when it was written (R458). -/
def Mach.putArea (m : Mach) (p blk : Nat) (area : List Nat) : Mach × Bool :=
  let (m, _, e) := m.whoWrite (m.partWho p) (blk + 0x41) area
  if e.isSome then (m.subFail p blk (area.headD 0), false)
  else
    let (m, _, e) := m.whoWrite (m.partWho p) (blk + 0x40) [1]
    if e.isSome then (m.subFail p blk (area.headD 0), false) else (m, true)

/-- The area of a halt, a clear or a refusal (Table 16.6). -/
def Mach.shortArea (m : Mach) (status tag detail : Nat) : List Nat :=
  [status, 0, 0] ++ toBytes 4 tag ++ List.replicate 18 0 ++ [detail, 0] ++ toBytes 4 0 ++ toBytes 8 0 ++ toBytes 8 m.tod ++ List.replicate 16 0

/-- A record of kind 0x07 for the descriptor's Rill. -/
def Mach.chanRecord (m : Mach) (s tag status dev : Nat) : Mach :=
  match (m.desc s).bind (·.rill) with
  | some r => m.stage 4 ⟨r, 7, m.tod, [(0x10, 4, s), (0x14, 4, tag), (0x18, 1, status), (0x19, 1, dev)], 3 + (m.cpOf s).getD (s % 16), true, false⟩
  | none => m

/-- What follows a written status area: the doorbell, then the record where the block asks for one. -/
def Mach.chanTell (m : Mach) (s tag status dev : Nat) (note : Bool) : Mach :=
  let m := match (m.desc s).bind (·.src) with
    | some src => m.ring src
    | none => m
  if note then m.chanRecord s tag status dev else m

/-- A halt or clear ends. -/
def Mach.fnDone (m : Mach) (s : Nat) (b : FnBlk) (status : Nat) : Mach :=
  let (m, ok) := m.putArea b.part b.blk (m.shortArea status b.tag 0)
  if ok then m.chanTell s b.tag status 0 b.note else m

def Mach.haltDone (m : Mach) (s status : Nat) : Mach :=
  match (m.sub s).halt with
  | some b => (m.setSub s { m.sub s with halt := none }).fnDone s b status
  | none => m

def Mach.clearDone (m : Mach) (s : Nat) : Mach :=
  match (m.sub s).clear with
  | some b => (m.setSub s { m.sub s with clear := none, clrPath := none }).fnDone s b 0
  | none => m

/-- The status area of a start (Table 16.6). -/
def Mach.startArea (m : Mach) (x : ChOp) : List Nat :=
  let sense := if x.fin = 1 then x.sense.take 16 else []
  [x.fin, x.dev, x.path] ++ toBytes 4 x.tag ++ toBytes 8 (if x.fin = 9 ∨ x.fin = 10 then x.where_ else x.next) ++ toBytes 4 x.resid ++ toBytes 4 x.ended
    ++ toBytes 2 x.redrv ++ [x.detail, sense.length] ++ toBytes 4 0 ++ toBytes 8 x.xid ++ toBytes 8 m.tod ++ padTo 16 sense

/-- A start ends: its status area is written, it is counted, its doorbell rung and its record made (R458, R468). -/
def Mach.startDone (m : Mach) (x : ChOp) : Mach :=
  let (m, ok) := m.putArea x.part x.blk (m.startArea x)
  let m := if x.fin ≤ 3 then m.count (R.chan_p_cnt_done x.part) else m.count (R.chan_p_cnt_err x.part)
  let m := if x.fin = 4 then m.count R.chan_cnt1_pxdone else m
  if ok then m.chanTell x.scid x.tag x.fin x.dev (bit x.flags 3) else m

/-! ### The life of an operation -/

/-- The final status is known: the record goes to state 3, and the status area waits for its confirmation (Table 17.8). -/
def Mach.finish (m : Mach) (x : ChOp) (fin : Nat) : Mach := m.updDue { x with st := 3, fin := fin, run := .idle, hold := 0 } .status

/-- The confirmed final status is written, a halt that the operation's end leaves nothing to do for completes, and the record goes to state 4. -/
def Mach.writeStatus (m : Mach) (x : ChOp) : Mach :=
  let m := (m.startDone x).haltDone x.scid 0
  m.updDue { x with st := 4 } .close

/-- Hold an operation that has no usable path (R467). -/
def Mach.holdOp (m : Mach) (x : ChOp) : Mach :=
  let ms := match (m.desc x.scid).elim 0 (·.hold) with
    | 0 => m.get R.chan_cfg_pxhold
    | h => h
  let m := m.chanError 0xA5 x.scid (if x.path < 8 then x.path else 0) x.cp (pathPort x.paths (if x.path < 8 then x.path else 0))
  let (m, x) := m.updFree { x with st := 2, hold := m.tod + ms * 1000000, path := 255, run := .idle, word := none, busy := [] }
  m.setOp { x with due := .fetch, unconf := false }

/-- A command begins on a path: the operation keeps its own while that is usable (R463). -/
def Mach.beginCmd (m : Mach) (x : ChOp) (w : ChWord) : Mach :=
  match if x.path < 8 && m.usable x x.path then some x.path else m.pickPath x [] with
  | none => m.holdOp x
  | some k =>
    let m := m.setSub x.scid { m.sub x.scid with last := k }
    m.setOp { x with path := k, word := some w, run := .cmd, due := .nothing, unconf := false, moved := 0, busy := [] }

/-- What a channel word's own check finds: a reason of Table 16.5 (log entry 26), from its kind, flags, and whether it follows a GOTO. -/
def wordFail (w : Nat) (afterGoto : Bool) : Option Nat :=
  let kind := bits w 127 124
  let dcmd := bits w 123 116
  let flags := bits w 115 112
  let count := bits w 95 64
  let addr := bits w 63 0
  if kind = 0 ∨ 5 < kind then some 6
  else if bits w 111 96 ≠ 0 then some 1
  else if (4 ≤ kind ∧ (dcmd ≠ 0 ∨ flags ≠ 0)) ∨ (kind = 1 ∧ 2 ≤ flags) then some 7
  else if kind = 2 ∧ bit flags 1 then some 5
  else if kind = 4 ∧ afterGoto then some 3
  else if (kind = 1 ∧ (count ≠ 0 ∨ addr ≠ 0)) ∨ (4 ≤ kind ∧ count ≠ 0) ∨ (kind = 5 ∧ addr ≠ 0) then some 2
  else if (kind = 2 ∨ kind = 3) ∧ (count = 0 ∨ (if bit flags 3 then 256 else 16777216) < count) then some 2
  else if (kind = 4 ∨ bit flags 3) ∧ addr % 16 ≠ 0 then some 4
  else none

/-- The extents of a list (Table 16.28), or the reason why it is refused. -/
def readExts (isIn : Bool) : Nat → List Nat → Option Nat ⊕ List (Nat × Nat × Bool)
  | 0, _ => .inr []
  | n + 1, b =>
    let len := hdrF b 8 4
    let f := hdrF b 12 4
    if 2 ≤ f then .inl (some 1)
    else if f = 1 ∧ !isIn then .inl (some 5)
    else if len = 0 ∨ 16777216 < len then .inl (some 2)
    else match readExts isIn n (b.drop 16) with
      | .inl r => .inl r
      | .inr l => .inr ((hdrF b 0 8, len, f == 1) :: l)

/-- Fetch and check the word at an address and what it names, and act on it (R453, R454, R456). -/
def Mach.fetchWord (m : Mach) (x : ChOp) : Nat → Nat → Bool → Mach
  | 0, _, _ => m
  | n + 1, at_, afterGoto =>
    let stop := fun (m : Mach) (fin detail : Nat) => m.finish { x with detail := detail, where_ := at_ } fin
    match m.whoRead (m.partWho x.part) at_ 16 with
    | (m, _, some _) => stop m 0x0A 1
    | (m, b, none) =>
      let w := ofBytes b
      let kind := bits w 127 124
      let addr := bits w 63 0
      match wordFail w afterGoto with
      | some r => stop m 0x09 r
      | none =>
        if kind = 4 then m.fetchWord x n addr true
        else if kind = 5 then m.finish { x with detail := 0 } 0
        else
          let word := fun (l : List (Nat × Nat × Bool)) => (⟨at_, kind, bits w 123 116, bit w 114, bit w 112, l⟩ : ChWord)
          if kind = 1 then m.beginCmd x (word [])
          else if bit w 115 then
            match m.whoRead (m.partWho x.part) addr (16 * bits w 95 64) with
            | (m, _, some _) => stop m 0x0A 1
            | (m, l, none) =>
              match readExts (kind == 3) (bits w 95 64) l with
              | .inl r => stop m 0x09 (r.getD 0)
              | .inr e => m.beginCmd x (word (if bit w 113 then e.map fun y => (y.1, y.2.1, true) else e))
          else m.beginCmd x (word [(addr, bits w 95 64, bit w 113)])

/-- The next word of an operation is fetched, unless a drain past step 2 stops it at its journaled point (R461; `again` for a command that a re-drive
repeats) or no processor runs; an operation whose table entry is poisoned ends with status 0x0E. -/
def Mach.doFetch (m : Mach) (x : ChOp) (again : Bool) : Mach :=
  if m.chan.tableOk && m.sctBad x.scid then (m.chanError 0xA7 x.scid 0 x.cp 0).finish x 0x0E
  else if (decide (2 ≤ m.mode.stage) && !again) || (m.cpOf x.scid).isNone then m.setOp { x with due := .fetch, unconf := false, run := .idle }
  else m.fetchWord x 2 x.next false

/-- Re-drive an operation from its last journaled point, or hold it (R466, R467). One whose halt is under way ends as if `xtmo` had passed (R469). -/
def Mach.reDrive (m : Mach) (x : ChOp) : Mach :=
  if x.st ≠ 1 then m
  else if bit x.flags 1 then m.finish x 2
  else if x.stop ≠ 0 then m.finish x x.stop
  else
    let y := { x with path := 255, run := ChRun.idle, busy := [], moved := 0 }
    if (m.pickPath y []).isNone then m.holdOp { y with path := x.path }
    else
      let y := { y with redrv := (x.redrv + 1) % 65536, redrive := true }
      let m := (m.count R.chan_cnt_redrv).chanError 0xA4 x.scid (if x.path < 8 then x.path else 0) x.cp (pathPort x.paths (if x.path < 8 then x.path else 0))
      if x.unconf then m.setOp y else m.doFetch y x.word.isSome

/-- A held operation whose path has become usable (R467). -/
def Mach.unhold (m : Mach) (x : ChOp) : Mach :=
  let (m, x) := m.updFree { x with st := 1, hold := 0 }
  (m.setOp x).reDrive { x with unconf := false }

/-- The frames that an operation in state 4 still owes, or a clear, lose their path. -/
def Mach.losePath (m : Mach) (s k : Nat) : Mach :=
  let m := (m.chan.ops.filter fun x => x.2.scid == s && x.2.path == k && x.2.st == 4).foldl (fun m x =>
    let y := x.2
    m.setOp { y with path := 255, owedClear := y.owedClear || (bit y.flags 2 && (m.sub s).clear.isSome),
                     run := match y.run with | .closed => .close | .halta => .halt | r => r }) m
  match (m.sub s).clrPath with
  | none => m
  | some (j, xid, _) =>
    if j ≠ k then m
    else match (List.range 8).find? fun j => (m.pathSt s j).st == 1 with
      | some j => m.setSub s { m.sub s with clrPath := some (j, xid, false) }
      | none => m.clearDone s

/-- A path fails (Table 16.10): its operations are re-driven or held. -/
def Mach.failPath (m : Mach) (s k reason : Nat) : Mach :=
  let port := (m.desc s).elim 0 fun d => pathPort d.paths k
  let m := ((m.setPath s k ⟨2, reason, false⟩).count R.chan_cnt1_pfail).chanError 0xA2 s k ((m.cpOf s).getD (s % 16)) port
  let m := (m.chan.ops.filter fun x => x.2.scid == s && x.2.path == k && x.2.st == 1).foldl (fun m x =>
    match m.opOf x.1 with
    | some y => m.reDrive y
    | none => m) m
  m.losePath s k

/-- A path becomes operational: held operations of the subchannel are re-driven. -/
def Mach.pathUp (m : Mach) (s k : Nat) : Mach :=
  let port := (m.desc s).elim 0 fun d => pathPort d.paths k
  let m := (m.setPath s k { m.pathSt s k with st := 1, due := false }).chanError 0xA3 s k ((m.cpOf s).getD (s % 16)) port
  (m.chan.ops.filter fun x => x.2.scid == s && x.2.st == 2).foldl (fun m x =>
    if m.usable x.2 k && (m.cpOf s).isSome then m.unhold x.2 else m) m

/-- Every operational path on a port fails with reason 1 (R481). -/
def Mach.chanLinkDown (m : Mach) (p : Nat) : Mach :=
  m.chan.subs.foldl (fun m y =>
    (List.range 8).foldl (fun m k =>
      if (m.pathSt y.1 k).st == 1 && (m.desc y.1).elim 255 (fun d => pathPort d.paths k) == p then m.failPath y.1 k 1 else m) m) m

/-- A port has finished training: the failed paths on it are probed (Table 16.10). -/
def Mach.chanLinkUp (m : Mach) (p : Nat) : Mach :=
  m.chan.subs.foldl (fun m y =>
    (List.range 8).foldl (fun m k =>
      let st := m.pathSt y.1 k
      if st.st == 2 && (m.desc y.1).elim 255 (fun d => pathPort d.paths k) == p then m.setPath y.1 k { st with due := true } else m) m) m

/-- Operations stopped at a journaled point by a drain go on at the boundary, or when the drain is abandoned (R461). -/
def Mach.chanResume (m : Mach) : Mach :=
  m.chan.ops.foldl (fun m y =>
    match m.opOf y.1 with
    | some x => if x.st = 1 ∧ x.due = .fetch ∧ !x.unconf then m.doFetch x false else m
    | none => m) m

/-! ### Channel processors (R459, R462) -/

/-- What processor n had is taken over: active operations are re-driven, held ones stay held. -/
def Mach.takeOver (m : Mach) (n : Nat) : Mach :=
  (m.chan.ops.filter fun x => x.2.cp == n).foldl (fun m y =>
    match m.opOf y.1, m.cpOf y.2.scid with
    | some x, some c =>
      let m := m.setOp { x with cp := c }
      if x.st = 1 then m.reDrive { x with cp := c } else m
    | _, _ => m) m

/-- The consequence set of a channel processor's reset (Table 22.5): codes 0xA0 and 0xA1. -/
def cpMarks : List Nat := [2256, 2257]

/-- Processor n is reset, as Table 22.5 binds for block 134 + n, for the channel subsystem itself (source 0xFFF, log entry 27). -/
def Mach.cpReset (m : Mach) (n : Nat) : Mach :=
  let b := 134 + n
  if m.blkDown b then m
  else
    let m := (m.count (R.spill_blk_resets b)).sets [(R.spill_blk_src b, 0xFFF), (R.spill_blk_state b, 2)]
    let m := cpMarks.foldl (fun m x => m.set (R.spill_src_st_cons x) 1) m
    { m with spill := { m.spill with blks := tset m.spill.blks b ⟨false, cpMarks, false⟩ } }

/-- Reset the lowest-numbered stopped processor whose block has not failed (R462). -/
def Mach.cpReviveOne (m : Mach) : Mach :=
  match (List.range 16).find? fun n => bit (m.get R.chan_cpst_present) n && bit (m.get R.chan_cpst_stopped) n && m.get (R.spill_blk_state (134 + n)) != 4 with
  | some n => m.cpReset n
  | none => m

/-- A processor stops: its operations are taken over; when it was the last one, holds are paused with the time left in them. -/
def Mach.cpStop (m : Mach) (n : Nat) : Mach :=
  if bit (m.get R.chan_cpst_stopped) n || !bit (m.get R.chan_cpst_present) n then m
  else
    let m := (m.set R.chan_cpst_stopped (m.get R.chan_cpst_stopped ||| 2 ^ n)).chanError 0xA1 0 0 n 0
    if (m.cpOf 0).isSome then m.takeOver n
    else
      let m := m.chanError 0xA9 0 0 n 0
      let m := (m.chan.ops.filter fun x => x.2.st == 2).foldl (fun m x => m.setOp { x.2 with hold := x.2.hold - m.tod }) m
      m.cpReviveOne

/-- A processor runs again: after a stop of all it takes over every operation, and each hold resumes with its remaining time. -/
def Mach.cpRun (m : Mach) (n : Nat) : Mach :=
  let all := (m.cpOf 0).isNone
  let m := m.set R.chan_cpst_stopped (m.get R.chan_cpst_stopped &&& (65535 ^^^ 2 ^ n))
  if !all then m
  else
    m.chan.ops.foldl (fun m y =>
      match m.opOf y.1 with
      | some x =>
        let x := { x with cp := n }
        if x.st = 2 then
          (let m := m.setOp { x with hold := x.hold + m.tod }
           if (List.range 8).any fun k => m.usable x k then m.unhold x else m)
        else if x.st = 1 then (m.setOp x).reDrive x
        else m.setOp x
      | none => m) m

end Sys2Proof.Machine
end

