-- ==== Sys2Proof/Machine/ChanRows.lean ====
section
/-! DEFINITION. Functions, frames and commands of the channel subsystem (spec/16, R444 to R471; spec/17, R483 to R485, R493). -/

namespace Sys2Proof.Machine

/-! ### Submitting functions (R447, R448) -/

/-- The contents of a function block that give status 0x13, the mask aside. -/
def fnBad (b : List Nat) : Bool :=
  let f := hdrF b 0 1
  decide (f < 1) || decide (3 < f) || decide (4 ≤ hdrF b 1 1) || hdrF b 3 1 != 0 || decide (2 ^ 18 ≤ hdrF b 8 4) || hdrF b 12 4 != 0 || hdrF b 24 40 != 0
    || (if f = 1 then hdrF b 16 8 % 16 != 0 else hdrF b 16 8 != 0)

/-- A function is refused. -/
def Mach.refuseFn (m : Mach) (p blk : Nat) (b : List Nat) (status detail : Nat) : Mach :=
  let (m, ok) := m.putArea p blk (m.shortArea status (hdrF b 4 4) detail)
  if ok then
    let m := m.count (R.chan_p_stat_refused p)
    if bit (hdrF b 1 1) 0 then m.chanRecord (hdrF b 8 4 % 2 ^ 18) (hdrF b 4 4) status 0 else m
  else m

/-- Whether a function of its kind finds the subchannel busy (R448). -/
def Mach.fnBusy (m : Mach) (s f : Nat) : Bool :=
  match f with
  | 1 => !m.subIdle s
  | 2 => (m.sub s).halt.isSome || (m.sub s).clear.isSome
  | _ => (m.sub s).clear.isSome

/-- The status and detail that refuse a function, and what else is reported; none accepts it. -/
def Mach.fnRefusal (m : Mach) (p pend : Nat) (b : List Nat) : Option (Nat × Nat) :=
  let s := hdrF b 8 4 % 2 ^ 18
  let f := hdrF b 0 1
  let d := m.desc s
  if 16 ≤ pend then some (0x11, 1)
  else if fnBad b || (bit (hdrF b 1 1) 1 && d.elim false fun y => y.valid && hdrF b 2 1 % 2 ^ y.n == 0) then some (0x13, 0)
  else if d.elim true fun y => !y.valid || !y.enabled || y.part != p then some (0x12, 0)
  else if 2 ≤ m.mode.stage then some (0x14, 0)
  else if (m.cpOf s).isNone then some (0x15, 0)
  else if m.fnBusy s f then some (0x10, 0)
  else if f = 1 ∧ 8192 ≤ (m.chan.ops.filter fun x => decide (x.2.st < 4) && some x.2.cp == m.cpOf s).length then some (0x11, 2)
  else if f = 1 ∧ (m.rsvFree.isNone ∨ (m.on R.chan_rsv_peer_en ∧ m.on R.chan_rsv_peer_strict ∧ (m.mirPort (m.word R.chan_rsv_peer)).isNone)) then some (0x16, 0)
  else none

/-- An accepted start takes a slot and an exchange identifier, and its record is written (R460, R482, R495). -/
def Mach.startFn (m : Mach) (p blk : Nat) (b : List Nat) : Mach :=
  let s := hdrF b 8 4
  let cp := (m.cpOf s).getD 0
  let peer := m.word R.chan_rsv_peer
  let mirrored := m.on R.chan_rsv_peer_en && (m.mirPort peer).isSome
  let m := if m.on R.chan_rsv_peer_en && !mirrored then m.rsvError 0xBA 0 else m
  let cnt := tget m.chan.cnt cp 0
  let xid := m.get R.chan_rsv_stat_gen * 2 ^ 48 + m.modNo * 2 ^ 46 + cp * 2 ^ 42 + cnt
  let slot := m.rsvFree.getD 2
  let m := { m with chan := { m.chan with cnt := tset m.chan.cnt cp ((cnt + 1) % 2 ^ 42) } }
  let m := m.count R.chan_cnt_starts
  m.updDue
    { slot := slot, upd := 0, st := 1, flags := b2n mirrored + 8 * b2n (bit (hdrF b 1 1) 0), xid := xid, scid := s, part := p, cp := cp, path := 255,
      mask := if bit (hdrF b 1 1) 1 then hdrF b 2 1 else 255, blk := blk, tag := hdrF b 4 4, first := hdrF b 16 8, next := hdrF b 16 8, pos := 0, ended := 0,
      redrv := 0, hold := 0, tod := m.tod, paths := (m.desc s).elim [] (·.paths), fin := 0, dev := 0, sense := [], resid := 0, run := .idle, due := .fetch,
      unconf := true, mack := false, word := none, moved := 0, detail := 0, where_ := 0, stop := 0, redrive := false, busy := [], owedClear := false,
      owedHalt := false, peer := peer } .fetch

def fnBlk (p blk : Nat) (b : List Nat) : FnBlk := ⟨blk, hdrF b 4 4, p, bit (hdrF b 1 1) 0⟩

/-- A halt (R469): a start on a path is halted at the device; one without a path ends at once. -/
def Mach.haltFn (m : Mach) (s : Nat) (f : FnBlk) : Mach :=
  match m.startOf s with
  | none => m.fnDone s f 5
  | some x =>
    if x.st = 3 then m.fnDone s f 5
    else if x.st = 2 ∨ 8 ≤ x.path then
      let x := { x with fin := 2, path := 255, st := 4, hold := 0, flags := x.flags ||| 2, owedHalt := true, run := .idle }
      ((m.startDone x).updDue x .close).fnDone s f 0
    else (m.setSub s { m.sub s with halt := some f }).updDue { x with flags := x.flags ||| 2 } .halt

/-- A path of the subchannel that is operational. -/
def Mach.anyPath (m : Mach) (s : Nat) : Option Nat := (List.range 8).find? fun k => (m.pathSt s k).st == 1

/-- The path on which a closing operation's frames go: its own while that is operational, else another. -/
def Mach.closePath (m : Mach) (x : ChOp) : Option Nat :=
  if x.path < 8 && (m.pathSt x.scid x.path).st == 1 then some x.path else m.anyPath x.scid

/-- Every failed path of a subchannel is probed at once. -/
def Mach.identAll (m : Mach) (s : Nat) : Mach :=
  (List.range 8).foldl (fun m k => if (m.pathSt s k).st = 2 then m.setPath s k { m.pathSt s k with due := true } else m) m

/-- A clear (R470): the start ends at once, CLEAR goes out on a usable path, failed paths are probed. -/
def Mach.clearFn (m : Mach) (s : Nat) (f : FnBlk) : Mach :=
  let m := m.identAll s
  let x? := m.startOf s
  let m := match x? with
    | some x => if x.st < 3 then m.startDone { x with fin := 3 } else m
    | none => m
  let m := (m.haltDone s 5)
  let m := m.setSub s { m.sub s with clear := some f, clrPath := none }
  let m := match x? with
    | none => match m.anyPath s with
      | some k => m.setSub s { m.sub s with clrPath := some (k, 0, false) }
      | none => m
    | some x =>
      if x.st < 3 then
        let y := { x with fin := 3, st := 4, hold := 0, flags := x.flags ||| 4, owedClear := true, path := (m.closePath x).getD 255, run := .idle, word := none }
        m.updDue y .close
      else m.setOp { x with flags := x.flags ||| 4, owedClear := true }
  if (m.anyPath s).isNone then m.clearDone s else m

/-- A submission reaches a start page: the block is read, and the function accepted or refused (R447, R449). `pend` says how many earlier submissions
of the partition the block then holds undecided, which timing determines (log entry 28). -/
def Mach.chanSubmit (m : Mach) (p addr pend : Nat) : Mach :=
  let blk := addr / 128 * 128
  let m := m.set (R.chan_p_stat_pending p) pend
  let (m, b, e) := m.whoRead (m.partWho p) blk 64
  if e.isSome then m.subFail p blk 0x0A
  else
    let s := hdrF b 8 4 % 2 ^ 18
    match m.fnRefusal p pend b with
    | some (st, d) =>
      let m := if st = 0x12 && m.chan.tableOk && m.sctBad s then m.chanError 0xA7 s 0 0 0 else m
      let m := if st = 0x16 then (if m.rsvOk && m.rsvFree.isNone then m.rsvError 0xBB 0 else if m.rsvOk then m.rsvError 0xBA 0 else m) else m
      m.refuseFn p blk b st d
    | none =>
      match hdrF b 0 1 with
      | 1 => m.startFn p blk b
      | 2 => m.haltFn s (fnBlk p blk b)
      | _ => m.clearFn s (fnBlk p blk b)

def execChannelSubmit (part addr pend : Nat) (s : State) : Host.Outcome State Fault Refusal :=
  ans (decide (part < 64)) s fun m => if m.frozen then m else m.chanSubmit part addr pend

/-! ### Subchannel commands (R444, Table 16.2) -/

/-- A command is finished. -/
def Mach.scmdDone (m : Mach) (r : Nat) : Mach := m.sets [(R.chan_scmd_go, 0), (R.chan_scmd_result, r), (R.chan_scmd_done, 1)]

/-- Write byte 0 of a table entry. -/
def Mach.sctByte0 (m : Mach) (s : Nat) (on off : Nat) : Mach :=
  m.devWrite (m.sctAt s) [((m.devRead (m.sctAt s) 1).headD 0 ||| on) &&& (255 ^^^ off)]

/-- What a query writes. -/
def Mach.queryBlock (m : Mach) (s : Nat) : List Nat :=
  let x := m.startOf s
  let st := if (m.sub s).clear.isSome then 3 else if (m.sub s).halt.isSome then 2 else match x with
    | some x => if x.st = 2 then 4 else 1
    | none => 0
  let cp := match x with
    | some x => x.cp
    | none => (m.cpOf s).getD (s % 16)
  let paths := (List.range 8).map fun k => (m.pathSt s k).reason * 16 + (m.pathSt s k).st
  m.devRead (m.sctAt s) 64 ++ [st, cp] ++ paths ++ List.replicate 6 0 ++ toBytes 8 (x.elim 0 (·.xid)) ++ toBytes 8 (x.elim 0 (·.hold)) ++ List.replicate 32 0

/-- Whether varying a path offline leaves the start of its subchannel no path in state operational or failed. -/
def Mach.leavesNone (m : Mach) (s k : Nat) : Bool :=
  (m.startOf s).isSome && !(List.range 8).any fun j => j != k && ((m.pathSt s j).st == 1 || (m.pathSt s j).st == 2)

def Mach.scmd (m : Mach) (s op path : Nat) : Mach :=
  let m := m.sets [(R.chan_scmd_scid, s), (R.chan_scmd_op, op), (R.chan_scmd_path, path), (R.chan_scmd_go, 1)]
  let a := m.get R.chan_scmda_addr * 128
  if !m.chan.tableOk then m.scmdDone 7
  else
    let m := if op != 1 && m.sctBad s then m.chanError 0xA7 s 0 0 0 else m
    let d := m.desc s
    let valid := d.elim false (·.valid)
    let enabled := d.elim false fun y => y.valid && y.enabled
    match op with
    | 1 =>
      if enabled then m.scmdDone 3
      else if (m.devRange .acc a 64).isSome || m.devPoison a 64 then m.scmdDone 6
      else
        let b := m.devRead a 64
        if descBad b then m.scmdDone 2
        else
          let m := m.devWrite (m.sctAt s) ([b.headD 0 % 2] ++ b.drop 1 ++ List.replicate 64 0)
          ({ m with chan := { m.chan with subs := tdel m.chan.subs s } }).scmdDone 1
    | 2 =>
      if !valid || enabled then m.scmdDone 3
      else (((m.sctByte0 s 2 0)).setSub s { m.sub s with paths := List.replicate 8 ⟨2, 0, true⟩ }).scmdDone 1
    | 3 => if !enabled || !m.subIdle s then m.scmdDone 3 else (m.sctByte0 s 0 2).scmdDone 1
    | 4 =>
      if m.sctBad s then m.scmdDone 3
      else if (m.devRange .acc a 128).isSome then m.scmdDone 6
      else (m.devWrite a (m.queryBlock s)).scmdDone 1
    | 5 =>
      if !valid then m.scmdDone 3
      else if d.elim 0 (·.n) ≤ path then m.scmdDone 4
      else if m.leavesNone s path then m.scmdDone 8
      else (m.setPath s path ⟨3, 5, false⟩).scmdDone 1
    | 6 =>
      if !valid then m.scmdDone 3
      else if d.elim 0 (·.n) ≤ path then m.scmdDone 4
      else if (m.pathSt s path).st ≠ 3 then m.scmdDone 3
      else (m.setPath s path ⟨2, 0, true⟩).scmdDone 1
    | 7 => if !valid || enabled then m.scmdDone 3 else (m.sctByte0 s 0 1).scmdDone 1
    | _ => m.scmdDone 3

def chanCmd (s op path : Nat) (x : State) : Host.Outcome State Fault Refusal :=
  ans (decide (s < 2 ^ 18) && decide (path < 8)) x fun m => if m.frozen then m else m.scmd s op path

def execSubchannelDefine (scid : Nat) (s : State) : Host.Outcome State Fault Refusal := chanCmd scid 1 0 s
def execSubchannelEnable (scid : Nat) (s : State) : Host.Outcome State Fault Refusal := chanCmd scid 2 0 s
def execSubchannelDisable (scid : Nat) (s : State) : Host.Outcome State Fault Refusal := chanCmd scid 3 0 s
def execSubchannelQuery (scid : Nat) (s : State) : Host.Outcome State Fault Refusal := chanCmd scid 4 0 s
def execVaryOffline (scid path : Nat) (s : State) : Host.Outcome State Fault Refusal := chanCmd scid 5 path s
def execVaryOnline (scid path : Nat) (s : State) : Host.Outcome State Fault Refusal := chanCmd scid 6 path s
def execSubchannelUndefine (scid : Nat) (s : State) : Host.Outcome State Fault Refusal := chanCmd scid 7 0 s

/-! ### Confirmations and timers -/

/-- Act on a command of one operation. -/
def opCmd (slot : Nat) (s : State) (f : Mach → ChOp → Mach) : Host.Outcome State Fault Refusal :=
  ans true s fun m =>
    match m.opOf slot with
    | some x => if m.frozen then m else f m x
    | none => m

/-- Both copies of an update are written, and the peer's acknowledgement has come where one is due: what waited for it happens. `parity` says whether
the processor meets a control store parity error in doing so: 1 a first one, 2 a second or an uncorrectable one (R198). -/
def execRecordConfirmed (slot parity : Nat) (s : State) : Host.Outcome State Fault Refusal :=
  opCmd slot s fun m x =>
    if !x.unconf || x.mack then m
    else
      let m := (m.count R.chan_rsv_cnt_upd).setOp { x with unconf := false }
      let m := match parity with
        | 1 => m.chanError 0xA0 0 0 x.cp 0
        | 2 => m.cpStop x.cp
        | _ => m
      match m.opOf slot with
      | none => m
      | some x =>
        match x.due with
        | .nothing => m
        | .fetch => m.doFetch x (x.redrive && x.word.isSome)
        | .halt => m.setOp { x with run := .halt, due := .nothing }
        | .status => m.writeStatus x
        | .close => m.setOp { x with run := if x.owedHalt then .halt else .close, due := .nothing }

def execHoldExpired (slot : Nat) (s : State) : Host.Outcome State Fault Refusal :=
  opCmd slot s fun m x =>
    if x.st ≠ 2 ∨ (m.cpOf x.scid).isNone then m else (m.chanError 0xA6 x.scid 0 x.cp 0).finish { x with path := 255 } 4

/-- No frame of an exchange for `xtmo`: of an operation's, or for slot 0 of a clear's on its subchannel. -/
def execExchangeTimeout (slot scid : Nat) (s : State) : Host.Outcome State Fault Refusal :=
  ans (decide (scid < 2 ^ 18)) s fun m =>
    if m.frozen then m
    else if slot = 0 then
      match (m.sub scid).clear, (m.sub scid).clrPath with
      | some _, some (k, _, true) =>
        let m := m.clearDone scid
        if (m.pathSt scid k).st = 1 then m.failPath scid k 2 else m
      | _, _ => m
    else match m.opOf slot with
      | none => m
      | some x =>
        if 8 ≤ x.path then m
        else if x.st = 1 ∧ (x.run = .busy ∨ x.run = .halta) then m.failPath x.scid x.path 2
        else if x.st = 4 ∧ x.run = .halta then (m.setOp { x with owedHalt := false, run := .close }).failPath x.scid x.path 2
        else m

/-- The probe interval of a failed path elapses (Table 16.10). -/
def execPathProbeInterval (scid k : Nat) (s : State) : Host.Outcome State Fault Refusal :=
  ans (decide (scid < 2 ^ 18) && decide (k < 8)) s fun m =>
    let st := m.pathSt scid k
    let port := (m.desc scid).elim 255 fun d => pathPort d.paths k
    if m.frozen || st.st != 2 then m
    else if m.jlChan port && m.jlUp port then m.setPath scid k { st with due := true }
    else m.setPath scid k ⟨2, 4, false⟩

/-- A busy operation begins again with the path that it tried first (R464). -/
def Mach.retryBusy (m : Mach) (x : ChOp) : Mach :=
  if x.run ≠ .wait then m
  else
    let k := match x.busy.head? with
      | some k => if m.usable x k then some k else m.pickPath x []
      | none => m.pickPath x []
    match k with
    | some k => m.setOp { x with path := k, busy := [], run := .cmd }
    | none => m.reDrive x

def execDeviceBusyWaitEnd (slot : Nat) (s : State) : Host.Outcome State Fault Refusal := opCmd slot s fun m x => m.retryBusy x

/-! ### Frames to a device (Table 17.3) -/

/-- Send a frame of an operation on a path. -/
def Mach.opFrame (m : Mach) (x : ChOp) (k typ : Nat) (f : XFrame) : Mach :=
  m.jlSend (pathPort x.paths k) typ { f with addr := pathAddr x.paths k, xid := x.xid }

/-- The bytes that a command covers. -/
def ChWord.total (w : ChWord) : Nat := (w.exts.map fun e => e.2.1).foldl (· + ·) 0

/-- The signal of a marked command (R457). -/
def Mach.markCmd (m : Mach) (x : ChOp) (w : ChWord) : Mach :=
  let (m, _, _) := m.whoWrite (m.partWho x.part) (x.blk + 0x48) (toBytes 8 w.at_ ++ toBytes 4 x.resid ++ toBytes 4 x.ended)
  match (m.desc x.scid).bind (·.src) with
  | some src => m.ring src
  | none => m

/-- CMD begins the command that is due. -/
def execCmd (slot : Nat) (s : State) : Host.Outcome State Fault Refusal :=
  opCmd slot s fun m x =>
    match x.word with
    | some w =>
      if x.st ≠ 1 ∨ x.run ≠ .cmd ∨ 8 ≤ x.path ∨ m.jlUp (pathPort x.paths x.path) = false then m
      else
        let m := if w.mark && !x.redrive then m.markCmd x w else m
        let m := m.opFrame x x.path 1 { XFrame.zero with pos := x.ended, a := w.total, b := w.kind, dcmd := w.dcmd, flags := b2n x.redrive }
        (m.setSub x.scid { m.sub x.scid with last := x.path }).setOp { x with run := .busy, moved := 0 }
    | none => m

/-- The pieces of a command's extents that n bytes from an offset cover. -/
def extPieces : List (Nat × Nat × Bool) → Nat → Nat → List (Nat × Nat × Bool)
  | [], _, _ => []
  | (a, l, d) :: r, off, n =>
    if n = 0 then []
    else if l ≤ off then extPieces r (off - l) n
    else
      let j := min n (l - off)
      ((a + off) % 2 ^ 64, j, d) :: extPieces r 0 (n - j)

/-- Read pieces until one fails. -/
def Mach.readPieces (m : Mach) (p : Nat) : List (Nat × Nat × Bool) → Mach × List Nat × Option AccErr
  | [] => (m, [], none)
  | (a, n, _) :: r =>
    match m.whoRead (m.partWho p) a n with
    | (m, _, some e) => (m, [], some e)
    | (m, b, none) =>
      let (m, c, e) := m.readPieces p r
      (m, b ++ c, e)

/-- Write bytes to pieces until one fails; discarded pieces take theirs. -/
def Mach.writePieces (m : Mach) (p : Nat) : List (Nat × Nat × Bool) → List Nat → Mach × Option AccErr
  | [], _ => (m, none)
  | (a, n, drop) :: r, b =>
    if drop then m.writePieces p r (b.drop n)
    else
      match m.whoWrite (m.partWho p) a (b.take n) with
      | (m, _, some e) => (m, some e)
      | (m, _, none) => m.writePieces p r (b.drop n)

/-- The next WDATA frame of a write command. Poisoned data halts the command instead (R484); a refused access ends the operation. -/
def execWdata (slot : Nat) (s : State) : Host.Outcome State Fault Refusal :=
  opCmd slot s fun m x =>
    match x.word with
    | some w =>
      if x.st ≠ 1 ∨ x.run ≠ .busy ∨ w.kind ≠ 2 ∨ w.total ≤ x.moved ∨ m.jlUp (pathPort x.paths x.path) = false then m
      else
        let n := min 4096 (w.total - x.moved)
        match m.readPieces x.part (extPieces w.exts x.moved n) with
        | (m, _, some .poison) => m.setOp { x with stop := 0x0B, run := .halt }
        | (m, _, some _) => m.finish { x with detail := 2, where_ := w.at_ } 0x0A
        | (m, b, none) =>
          let m := m.opFrame x x.path 2 { XFrame.zero with pos := x.ended, a := x.moved, flags := if w.total ≤ x.moved + n then 4 else 0, data := b }
          m.setOp { x with moved := x.moved + n }
    | none => m

/-- HALT on the path of an operation, or for one that ended while held on the first path that is operational (R469). -/
def execHalt (slot : Nat) (s : State) : Host.Outcome State Fault Refusal :=
  opCmd slot s fun m x =>
    if x.run ≠ .halt ∨ x.unconf then m
    else match if x.st = 4 then m.closePath x else if x.path < 8 then some x.path else none with
      | some k => if m.jlUp (pathPort x.paths k) then (m.opFrame x k 3 { XFrame.zero with pos := x.ended }).setOp { x with run := .halta, path := k } else m
      | none => m

/-- CLEAR for an operation that a clear ended, or for slot 0 the clear of a subchannel without one, whose identifier is zero. -/
def execClear (slot scid : Nat) (s : State) : Host.Outcome State Fault Refusal :=
  ans (decide (scid < 2 ^ 18)) s fun m =>
    if m.frozen then m
    else if slot = 0 then
      match (m.sub scid).clrPath, m.desc scid with
      | some (k, 0, false), some d =>
        let q := pathPort d.paths k
        if (m.pathSt scid k).st = 1 && m.jlUp q then
          (m.jlSend q 4 { XFrame.zero with addr := pathAddr d.paths k }).setSub scid { m.sub scid with clrPath := some (k, 0, true) }
        else m
      | _, _ => m
    else match m.opOf slot with
      | none => m
      | some x =>
        if x.st ≠ 4 ∨ x.run ≠ .close ∨ !x.owedClear ∨ x.unconf then m
        else match m.closePath x with
          | some k =>
            if m.jlUp (pathPort x.paths k) then
              let m := (m.opFrame x k 4 { XFrame.zero with pos := x.ended }).setOp { x with owedClear := false, path := k }
              if (m.sub x.scid).clear.isSome then m.setSub x.scid { m.sub x.scid with clrPath := some (k, x.xid, true) } else m
            else m
          | none => m

/-- A probe of a failed path (Table 16.10). -/
def execIdentCmd (scid k : Nat) (s : State) : Host.Outcome State Fault Refusal :=
  ans (decide (scid < 2 ^ 18) && decide (k < 8)) s fun m =>
    let st := m.pathSt scid k
    match m.desc scid with
    | some d =>
      let q := pathPort d.paths k
      if m.frozen || !d.valid || !d.enabled || st.st != 2 || !st.due || !m.jlChan q || !m.jlUp q then m
      else (m.jlSend q 5 { XFrame.zero with addr := pathAddr d.paths k }).setPath scid k { st with due := false }
    | none => m

/-- The link has acknowledged a CLOSE: the slot is free (Table 17.8). -/
def Mach.closeAcked (m : Mach) (xid : Nat) : Mach :=
  match m.chan.ops.find? fun y => y.2.xid == xid && y.2.run == ChRun.closed with
  | some (slot, x) => ((m.freeRec x).count R.chan_rsv_cnt_upd).delOp slot
  | none => m

/-- CLOSE ends the exchange (R484). -/
def Mach.sendClose (m : Mach) (x : ChOp) : Mach :=
  if x.st ≠ 4 ∨ x.run ≠ .close ∨ x.owedClear ∨ x.owedHalt ∨ x.unconf then m
  else match m.closePath x with
    | some k => if m.jlUp (pathPort x.paths k) then (m.opFrame x k 6 { XFrame.zero with pos := x.ended }).setOp { x with run := .closed, path := k } else m
    | none => m

/-! ### Frames from a device (R484) -/

/-- The operation whose exchange a frame belongs to; frames on another path than the one in use are discarded (R485). -/
def Mach.xchg (m : Mach) (p : Nat) (f : XFrame) : Option ChOp :=
  (m.chan.ops.find? fun y => y.2.xid == f.xid && decide (y.2.path < 8) && pathPort y.2.paths y.2.path == p && pathAddr y.2.paths y.2.path == f.addr).map (·.2)

/-- An I/O port's link goes down: its paths fail. -/
def Mach.ioDown (m : Mach) (p st : Nat) : Mach := (m.jlReset p st).chanLinkDown p

/-- A protocol violation: code 0xB6, and the link goes down. -/
def Mach.ioViolation (m : Mach) (p : Nat) : Mach := (m.jlError p 0xB6).ioDown p 0

/-- The operation is at a command on the device. -/
def ChOp.onDevice (x : ChOp) : Bool := x.st == 1 && (x.run == .busy || x.run == .halt || x.run == .halta)

/-- Read data: contiguous offsets from 0; what lies beyond the count is discarded (R455). -/
def Mach.rxRdata (m : Mach) (p : Nat) (f : XFrame) : Mach :=
  match m.xchg p f with
  | none => m
  | some x =>
    match x.word with
    | none => m
    | some w =>
      if !x.onDevice || f.pos != x.ended then m
      else if w.kind ≠ 3 ∨ f.a ≠ x.moved ∨ f.data = [] then m.ioViolation p
      else
        match m.writePieces x.part (extPieces w.exts x.moved (min f.data.length (w.total - x.moved))) f.data with
        | (m, some _) => m.finish { x with detail := 2, where_ := w.at_ } 0x0A
        | (m, none) => m.setOp { x with moved := x.moved + f.data.length }

/-- A command ends (R455, R456): the operation ends, or goes on from a new journaled point. -/
def Mach.rxEnd (m : Mach) (p : Nat) (f : XFrame) : Mach :=
  match m.xchg p f with
  | none => m
  | some x =>
    match x.word with
    | none => m
    | some w =>
      if !x.onDevice || f.pos != x.ended then m
      else
        let c := w.total
        let bad := w.kind != 1 && ((decide (f.a < c) && w.exact) || decide (c < f.a))
        let y := { x with dev := f.dstat, sense := f.sense.take 16, resid := if w.kind = 1 then 0 else c - f.a, ended := x.ended + 1, pos := x.ended + 1,
                          next := w.at_ + 16, word := none, redrive := false }
        if x.run ≠ .busy ∨ bit x.flags 1 then m.setOp y
        else if bit f.dstat 6 then m.finish { y with detail := 0 } 1
        else if bad then m.finish { y with detail := 0 } 8
        else if bit f.dstat 5 then m.finish { y with detail := 0 } 0
        else m.updDue { y with run := .idle } .fetch

/-- A device-busy answer: the command is offered on the next usable path, or waits (R464). -/
def Mach.rxBusy (m : Mach) (p : Nat) (f : XFrame) : Mach :=
  match m.xchg p f with
  | none => m
  | some x =>
    if x.st ≠ 1 ∨ x.run ≠ .busy ∨ f.pos ≠ x.ended then m
    else
      let b := x.busy ++ [x.path]
      match m.pickPath x b with
      | some k => m.setOp { x with busy := b, path := k, run := .cmd }
      | none => m.setOp { x with busy := b, run := .wait }

def Mach.rxFree (m : Mach) (p : Nat) (f : XFrame) : Mach :=
  (m.chan.ops.filter fun y => y.2.run == .wait && (List.range 8).any fun k =>
    (m.pathSt y.2.scid k).st != 0 && pathPort y.2.paths k == p && pathAddr y.2.paths k == f.addr).foldl (fun m y => m.retryBusy y.2) m

/-- A halt is done: the start ends with status 0x02, or with 0x0B where poisoned data caused it. -/
def Mach.rxHalta (m : Mach) (p : Nat) (f : XFrame) : Mach :=
  match m.xchg p f with
  | none => m
  | some x =>
    if x.run ≠ .halta then m
    else if x.st = 4 then m.setOp { x with owedHalt := false, run := .close }
    else
      let y := match x.word with
        | some w => { x with dev := f.dstat, resid := w.total - f.a }
        | none => x
      m.finish { y with detail := 0 } (if x.stop ≠ 0 then x.stop else 2)

def Mach.rxCleara (m : Mach) (p : Nat) (f : XFrame) : Mach :=
  match m.chan.subs.find? fun (y : Nat × ChSub) => y.2.clear.isSome && (match y.2.clrPath, m.desc y.1 with
      | some (k, xid, true), some d => xid == f.xid && pathPort d.paths k == p && pathAddr d.paths k == f.addr
      | _, _ => false) with
  | some (s, _) => m.clearDone s
  | none => m

/-- Paths in a state that name a port and a device address. -/
def Mach.pathsAt (m : Mach) (p addr : Nat) : List (Nat × Nat) :=
  m.chan.subs.flatMap fun (y : Nat × ChSub) => match m.desc y.1 with
    | some d => ((List.range 8).filter fun k => (m.pathSt y.1 k).st == 2 && pathPort d.paths k == p && pathAddr d.paths k == addr).map fun k => (y.1, k)
    | none => []

def Mach.rxIdentr (m : Mach) (p : Nat) (f : XFrame) : Mach := (m.pathsAt p f.addr).foldl (fun m y => m.pathUp y.1 y.2) m

/-- The device address is unknown: the path fails with reason 3. -/
def Mach.rxRej (m : Mach) (p : Nat) (f : XFrame) : Mach :=
  match m.xchg p f with
  | some x => if (m.pathSt x.scid x.path).st = 1 then m.failPath x.scid x.path 3 else m
  | none => if f.xid = 0 then (m.pathsAt p f.addr).foldl (fun m y => m.setPath y.1 y.2 ⟨2, 3, false⟩) m else m

/-- A frame that an I/O port has accepted reaches the subsystem; a type that no device sends is a violation. -/
def Mach.ioFrame (m : Mach) (p typ : Nat) (f : XFrame) : Mach :=
  match typ with
  | 0x21 => m.rxRdata p f | 0x22 => m.rxEnd p f | 0x23 => m.rxBusy p f | 0x24 => m.rxFree p f | 0x25 => m.rxHalta p f | 0x26 => m.rxCleara p f
  | 0x27 => m.rxIdentr p f | 0x28 => m.rxRej p f | 0x29 => m | _ => m.ioViolation p

def ioRow (typ port : Nat) (f : XFrame) (s : State) : Host.Outcome State Fault Refusal :=
  ans (decide (port < 32)) s fun m => if m.frozen || !m.jlUp port then m else m.ioFrame port typ f

def execRdata (port : Nat) (f : XFrame) (s : State) : Host.Outcome State Fault Refusal := ioRow 0x21 port f s
def execEndCmd (port : Nat) (f : XFrame) (s : State) : Host.Outcome State Fault Refusal := ioRow 0x22 port f s
def execBusy (port : Nat) (f : XFrame) (s : State) : Host.Outcome State Fault Refusal := ioRow 0x23 port f s
def execFree (port : Nat) (f : XFrame) (s : State) : Host.Outcome State Fault Refusal := ioRow 0x24 port f s
def execHalta (port : Nat) (f : XFrame) (s : State) : Host.Outcome State Fault Refusal := ioRow 0x25 port f s
def execCleara (port : Nat) (f : XFrame) (s : State) : Host.Outcome State Fault Refusal := ioRow 0x26 port f s
def execIdentr (port : Nat) (f : XFrame) (s : State) : Host.Outcome State Fault Refusal := ioRow 0x27 port f s
def execRej (port : Nat) (f : XFrame) (s : State) : Host.Outcome State Fault Refusal := ioRow 0x28 port f s
/-- KEEP restarts the exchange timeout and nothing else (R465). -/
def execKeep (port : Nat) (f : XFrame) (s : State) : Host.Outcome State Fault Refusal := ioRow 0x29 port f s

/-! ### Reservoir commands (R493) -/

def Mach.rcmdDone (m : Mach) (r : Nat) : Mach := m.sets [(R.chan_rsv_cmd_go, 0), (R.chan_rsv_cmd_result, r), (R.chan_rsv_cmd_done, 1)]

/-- The contents of a slot: the copy that stands. -/
def Mach.slotBytes (m : Mach) (r : Nat) : List Nat :=
  match m.copies r (fun b => recValid b || headValid b) with
  | (some a, _) => a
  | (none, some b) => b
  | (none, none) => m.devRead (m.slotAt r) 256

/-- Adopt an orphan: its operation goes on, or what was left of its end is done. -/
def Mach.rsvAdopt (m : Mach) (r : Nat) : Mach :=
  match tfind m.chan.slots r with
  | some 5 =>
    let b := m.slotBytes r
    let x := recOp r (m.word R.chan_rsv_peer) b
    let was := hdrF b 6 1
    match m.desc x.scid, m.cpOf x.scid with
    | some d, some cp =>
      if !d.valid || !d.enabled || d.part != x.part || !m.subIdle x.scid then m.rcmdDone 4
      else
        let x := { x with cp := cp, flags := x.flags &&& 8, path := 255 }
        let m := if was = 1 ∨ was = 2 then
            (let (m, x) := m.updFree { x with st := 1, hold := 0 }
             (m.setOp x).reDrive x)
          else if was = 3 then
            (let (m, x) := m.updFree { x with st := 3 }
             (m.setOp x).writeStatus x)
          else m.updDue { x with st := 4 } .close
        m.rcmdDone 1
    | _, _ => m.rcmdDone 4
  | some 6 => m.rcmdDone 3
  | _ => m.rcmdDone 2

def Mach.rsvRelease (m : Mach) (r : Nat) : Mach :=
  match tfind m.chan.slots r with
  | some st => if st = 5 ∨ st = 6 then (m.freeRec (recOp r 0 (m.slotBytes r))).rcmdDone 1 else m.rcmdDone 2
  | none => m.rcmdDone 2

def Mach.rsvQuery (m : Mach) (r : Nat) : Mach :=
  let a := m.get R.chan_rsv_cmda_addr * 256
  if !m.rsvOk || decide (m.rsvSlots ≤ r) then m.rcmdDone 6
  else if (m.devCheck .chan a).isSome then m.rcmdDone 7
  else (m.devWrite a (m.slotBytes r)).rcmdDone 1

/-- A command of `chan.rsv.cmd`. -/
def Mach.rsvCmd (m : Mach) (slot op : Nat) : Mach :=
  let m := m.sets [(R.chan_rsv_cmd_slot, slot), (R.chan_rsv_cmd_op, op), (R.chan_rsv_cmd_go, 1)]
  match op with
  | 1 => if m.rsvOk && decide (m.rsvSlots ≤ slot) then m.rcmdDone 6 else m.rsvAdopt slot
  | 2 => if m.rsvOk && decide (m.rsvSlots ≤ slot) then m.rcmdDone 6 else m.rsvRelease slot
  | 3 => m.rsvQuery slot
  | _ => m.rcmdDone 2

def rsvRow (slot op : Nat) (s : State) : Host.Outcome State Fault Refusal :=
  ans (decide (slot < 2 ^ 32)) s fun m => if m.frozen then m else m.rsvCmd slot op

def execReservoirAdopt (slot : Nat) (s : State) : Host.Outcome State Fault Refusal := rsvRow slot 1 s
def execReservoirRelease (slot : Nat) (s : State) : Host.Outcome State Fault Refusal := rsvRow slot 2 s
def execReservoirQuery (slot : Nat) (s : State) : Host.Outcome State Fault Refusal := rsvRow slot 3 s

end Sys2Proof.Machine
end

