-- ==== Sys2Proof/Machine/Cpl.lean ====
section
/-! DEFINITION. Coupling ports (spec/19, R516 to R528): requests, receiving, mirroring, partner loss. Ports are numbered 0 to 17. -/

namespace Sys2Proof.Machine

/-- A coupling code, recorded in `cpl.err` (R528). -/
def Mach.cplError (m : Mach) (code p ch : Nat) : Mach :=
  let m := m.sets [(R.cpl_err_chan, ch), (R.cpl_err_port, p), (R.cpl_err_new, 1), (R.cpl_err_code, code)]
  m.raise (3312 + 16 * p + (code - 0xD0)) (m.word R.cpl_err)

/-- Accesses of partition p's requests: as the channel subsystem's, not logged (R518). -/
def Mach.cplWho (m : Mach) (p : Nat) : AccWho := { m.partWho p with log := fun m _ => m }

/-! ### Requests (R518 to R521) -/

/-- A block that cannot be read, or whose completion cannot be written (R519). -/
def Mach.cplFail (m : Mach) (p port : Nat) : Mach := (m.count (R.cpl_q_stat_refused p)).cplError 0xD9 port 0

/-- Write a completion (Table 19.3): bytes 0x41 to 0x7F, then 0x01 to byte 0x40, then the doorbell. -/
def Mach.cplWrite (m : Mach) (p blk : Nat) (h : List Nat) (status xid n : Nat) : Mach :=
  let area := [status, 0, 0] ++ (h.drop 4).take 4 ++ toBytes 8 xid ++ toBytes 4 n ++ toBytes 4 0 ++ toBytes 8 m.tod ++ List.replicate 32 0
  match m.whoWrite (m.cplWho p) (blk + 0x41) area with
  | (m, _, some _) => m.cplFail p (hdrF h 2 1 % 32)
  | (m, _, none) =>
    match m.whoWrite (m.cplWho p) (blk + 0x40) [1] with
    | (m, _, some _) => m.cplFail p (hdrF h 2 1 % 32)
    | (m, _, none) => if bit (hdrF h 1 1) 0 then m.ring (hdrF h 0x28 4 % 2 ^ 20) else m

/-- The submit store of a synchronous request has been performed (R520). -/
def Mach.cplWake (m : Mach) (th : Option Nat) : Mach :=
  match th with
  | some t => m.onTh t fun x => if x.wait = .coupling then { x with wait := .none, got := x.got ++ [0] } else x
  | none => m

/-- An accepted request ends. -/
def Mach.cplEnd (m : Mach) (r : CplReq) (status n : Nat) : Mach :=
  let m := { m with cpl := { m.cpl with reqs := m.cpl.reqs.filter (· != r) } }
  let m := if hdrF r.hdr 0 1 = 2 then m.set (R.cpl_q_stat_async r.part) (m.get (R.cpl_q_stat_async r.part) - 1) else m
  (m.cplWrite r.part r.blk r.hdr status r.xid n).cplWake r.th

/-- Reserved fields, codes and lengths of a block (status 0x13). -/
def cplBad (h : List Nat) : Bool :=
  let op := hdrF h 0 1
  decide (op < 1) || decide (3 < op) || decide (2 ≤ hdrF h 1 1) || decide (17 < hdrF h 2 1) || decide (63 < hdrF h 3 1) || decide (4096 < hdrF h 16 4)
    || decide (4096 < hdrF h 20 4) || decide (2 ^ 20 ≤ hdrF h 0x28 4) || hdrF h 0x2C 20 != 0
    || (if op = 3 then hdrF h 3 1 != 0 || hdrF h 20 4 != 0 || hdrF h 24 8 != 0 else hdrF h 32 8 != 0)

/-- The status that refuses a request. -/
def Mach.cplRefusal (m : Mach) (p : Nat) (h : List Nat) : Option Nat :=
  let q := hdrF h 2 1
  if cplBad h then some 0x13
  else if !bit (m.get (R.cpl_pmask_ports p)) q || !m.jlUp (32 + q) || m.blkDown (112 + q) then some 0x12
  else if hdrF h 0 1 = 2 ∧ 32 ≤ m.get (R.cpl_q_stat_async p) then some 0x10
  else none

/-- An accepted request's frame: its data is read, and it leaves or ends with status 0x24 or 0x25. -/
def Mach.cplStart (m : Mach) (r : CplReq) : Mach :=
  let h := r.hdr
  let op := hdrF h 0 1
  match m.whoRead (m.cplWho r.part) (hdrF h 8 8) (hdrF h 16 4) with
  | (m, _, some .poison) => m.cplEnd r 0x25 0
  | (m, _, some _) => m.cplEnd r 0x24 0
  | (m, d, none) =>
    if op ≠ 3 then m.jlSend (32 + r.port) (if op = 1 then 0x41 else 0x43) { XFrame.zero with addr := hdrF h 3 1, xid := r.xid, a := hdrF h 20 4, data := d }
    else
      -- which of SRSP and ARSP answers an identifier that nothing inbound carries is left open (log entry 29)
      let (typ, m) := match m.cpl.inb.find? fun y => y.1 == r.port && y.2.1 == r.xid with
        | some y => (if y.2.2 = 1 then 0x42 else 0x44, m)
        | none => (if m.draw.1 % 2 = 0 then 0x42 else 0x44, m.draw.2)
      let m := { m with cpl := { m.cpl with inb := m.cpl.inb.filter fun y => !(y.1 == r.port && y.2.1 == r.xid) } }
      m.jlSend (32 + r.port) typ { XFrame.zero with xid := r.xid, data := d }

/-- A submit store reaches a request page, from a thread or from none. A thread's store waits where a synchronous request is accepted. -/
def Mach.cplSubmit (m : Mach) (p addr : Nat) (th : Option Nat) : Mach :=
  let blk := addr / 128 * 128
  match m.whoRead (m.cplWho p) blk 64 with
  | (m, _, some _) => m.cplFail p 0
  | (m, h, none) =>
    match m.cplRefusal p h with
    | some st => (m.count (R.cpl_q_stat_refused p)).cplWrite p blk h st 0 0
    | none =>
      let port := hdrF h 2 1
      let op := hdrF h 0 1
      let n := tget m.cpl.cnt port 0
      let (xid, m) := if op = 3 then (hdrF h 32 8, m)
        else (m.modNo * 2 ^ 46 + port * 2 ^ 41 + n, { m with cpl := { m.cpl with cnt := tset m.cpl.cnt port ((n + 1) % 2 ^ 41) } })
      let m := if op = 2 then m.set (R.cpl_q_stat_async p) (m.get (R.cpl_q_stat_async p) + 1) else m
      let m := match op, th with
        | 1, some t => m.onTh t fun x => { x with wait := .coupling }
        | _, _ => m
      let r : CplReq := ⟨port, xid, p, blk, h, if op = 1 then th else none⟩
      ({ m with cpl := { m.cpl with reqs := m.cpl.reqs ++ [r] } }).cplStart r

/-- `th` is the thread whose store it is, or 96. -/
def execCouplingSubmit (part addr th : Nat) (s : State) : Host.Outcome State Fault Refusal :=
  ans (decide (part < 64)) s fun m => if m.frozen then m else m.cplSubmit part addr (if th < 96 then some th else none)

/-- The request of an operation that an answer names. -/
def Mach.cplReq (m : Mach) (p xid op : Nat) : Option CplReq := m.cpl.reqs.find? fun r => r.port == p && r.xid == xid && hdrF r.hdr 0 1 == op

/-- A response arrives: response area, completion, doorbell (R520). -/
def Mach.cplAnswer (m : Mach) (p op : Nat) (f : XFrame) : Mach :=
  match m.cplReq p f.xid op with
  | none => m
  | some r =>
    let area := hdrF r.hdr 20 4
    match m.whoWrite (m.cplWho r.part) (hdrF r.hdr 24 8) (f.data.take area) with
    | (m, _, some _) => m.cplEnd r 0x24 f.data.length
    | (m, _, none) => m.cplEnd r (if area < f.data.length then 1 else 0) f.data.length

/-- A request ends without a response. -/
def Mach.cplNoAnswer (m : Mach) (p xid status : Nat) : Mach :=
  match m.cpl.reqs.find? fun r => r.port == p && r.xid == xid && hdrF r.hdr 0 1 != 3 with
  | some r => (if status = 0x22 then m.cplError 0xD7 p (hdrF r.hdr 3 1) else m).cplEnd r status 0
  | none => m

/-- The link acknowledges a response that a respond request sent (R521). -/
def Mach.respAcked (m : Mach) (p xid : Nat) : Mach :=
  match m.cplReq p xid 3 with
  | some r => m.cplEnd r 0 0
  | none => m

/-! ### Receiving (R522) -/

/-- An inbound request is answered RBUSY or RREJ. -/
def Mach.cplTurnAway (m : Mach) (p typ : Nat) (f : XFrame) : Mach :=
  (m.jlSend (32 + p) typ { XFrame.zero with xid := f.xid }).cplError 0xDA p (f.addr % 64)

def Mach.cplInbound (m : Mach) (p kind : Nat) (f : XFrame) : Mach :=
  let c := f.addr
  if 64 ≤ c ∨ !m.on (R.cpl_rq_en c) then m.cplTurnAway p 0x46 f
  else
    let prod := m.get (R.cpl_rqi_prod c)
    let size := 2 ^ m.get (R.cpl_rq_lsize c)
    if (prod + 65536 - m.get (R.cpl_rqi_cons c)) % 65536 = size then m.cplTurnAway p 0x45 f
    else
      let a := m.get (R.cpl_rq_base c) * 8192 + 8192 * (prod % size)
      let who := m.cplWho (m.get (R.cpl_rq_part c))
      let head := [kind, p] ++ toBytes 2 f.data.length ++ toBytes 4 f.a ++ toBytes 8 f.xid ++ toBytes 8 (m.get (R.cpl_p_peer_sys p)) ++ toBytes 8 m.tod
      match m.whoWrite who a head with
      | (m, _, some _) => m.cplTurnAway p 0x46 f
      | (m, _, none) =>
        match m.whoWrite who (a + 256) f.data with
        | (m, _, some _) => m.cplTurnAway p 0x46 f
        | (m, _, none) =>
          let m := m.set (R.cpl_rqi_prod c) ((prod + 1) % 65536)
          let m := { m with cpl := { m.cpl with inb := m.cpl.inb ++ [(p, f.xid, kind)] } }
          m.ring (m.get (R.cpl_rqi_src c))

/-! ### Mirroring (R524, R525) -/

/-- A mirror update arrives (R525). -/
def Mach.cplMupd (m : Mach) (p : Nat) (f : XFrame) : Mach :=
  let sys := m.get (R.cpl_p_peer_sys p)
  let nak := fun (why : Nat) => m.jlSend (32 + p) 0x49 { XFrame.zero with a := f.a, b := why, xid := f.xid }
  match (List.range 4).find? fun k => m.on (R.cpl_mir_en k) && m.get (R.cpl_mirid_sys k) == sys with
  | none => nak 3
  | some k =>
    if m.on (R.cpl_mir_frozen k) then nak 1
    else if m.get (R.cpl_mir_size k) * 4096 ≤ f.a then nak 2
    else
      let a := m.get (R.cpl_mir_base k) * 2 ^ 20 + 256 * f.a
      let old := m.devRead a 256
      let write := m.devPoison a 256 || !recValid old || decide (hdrF old 8 8 < f.xid)
      if (m.devCheck .cpl a).isSome then m
      else (if write then m.devWrite a ((padTo 256 f.data).take 256) else m).jlSend (32 + p) 0x48 { XFrame.zero with a := f.a, xid := f.xid }

/-- Updates that a port no longer carries are sent again, in order, on the other mirror port, wait for one, or are confirmed locally alone. -/
def Mach.mirMove (m : Mach) (p : Nat) : Mach :=
  let mine := m.cpl.mupd.filter fun u => u.1 == p
  let m := { m with cpl := { m.cpl with mupd := m.cpl.mupd.filter fun u => u.1 != p } }
  mine.foldl (fun m (u : Nat × Nat × Nat × List Nat) =>
    let (_, slot, upd, b) := u
    let x := m.opOf slot
    let (m, wait) := m.mirSend (x.elim (m.word R.chan_rsv_peer) (·.peer)) slot upd b
    match x with
    | some x => if x.upd = upd ∧ !wait then m.setOp { x with mack := false } else m
    | none => m) m

/-- A port of the coupling block has become able, or unable, to mirror. -/
def Mach.mirChanged (m : Mach) : Mach :=
  let m := (List.range 18).foldl (fun m p => if !m.mirOk p && m.cpl.mupd.any fun u => u.1 == p then m.mirMove p else m) m
  let m := if (List.range 18).any (fun p => m.mirOk p) && (m.cpl.mupd.any fun u => u.1 == 31) then m.mirMove 31 else m
  m.mirShow

def Mach.cplMack (m : Mach) (p : Nat) (f : XFrame) : Mach :=
  if !m.cpl.mupd.any fun u => u.1 == p && u.2.1 == f.a && u.2.2.1 == f.xid then m
  else
    let m := { m with cpl := { m.cpl with mupd := m.cpl.mupd.filter fun u => !(u.1 == p && u.2.1 == f.a && u.2.2.1 == f.xid) } }
    let m := m.count R.chan_rsv_cnt_pack
    match m.opOf f.a with
    | some x => if x.upd = f.xid then m.setOp { x with mack := false } else m
    | none => m

def Mach.cplMnak (m : Mach) (p : Nat) : Mach := ((m.cplError 0xD8 p 0).onJlP (32 + p) fun x => { x with mnak := true }).mirChanged

/-! ### Partner loss (R526, R527) -/

/-- Every mirror area that names a system is frozen. -/
def Mach.freezeAreas (m : Mach) (sys : Nat) : Mach :=
  (List.range 4).foldl (fun m k => if m.on (R.cpl_mir_en k) ∧ m.get (R.cpl_mirid_sys k) = sys then m.set (R.cpl_mir_frozen k) 1 else m) m

def Mach.cplStop (m : Mach) (p : Nat) : Mach :=
  (((m.set (R.cpl_p_stat_partner p) 2).cplError 0xD4 p 0).freezeAreas (m.get (R.cpl_p_peer_sys p))).mirChanged

/-- STOP on every coupling port that is up (R526): cause 1 at a checkstop, 2 at a module reset. -/
def Mach.sendStops (m : Mach) (cause : Nat) : Mach :=
  (List.range 18).foldl (fun m p => if m.jlUp (32 + p) then m.jlControl (32 + p) 0x10 [cause] else m) m

/-- A coupling port's link goes down: its requests end with status 0x23 (R521), and mirroring moves. -/
def Mach.cplDown (m : Mach) (p st : Nat) : Mach :=
  let m := m.jlReset (32 + p) st
  let m := (m.cpl.reqs.filter fun r => r.port == p).foldl (fun m r => m.cplEnd r 0x23 0) m
  m.mirChanged

/-- The link of a port of either kind goes down. -/
def Mach.linkDown (m : Mach) (q st : Nat) : Mach := if q < 32 then m.ioDown q st else m.cplDown (q - 32) st
def Mach.linkViolation (m : Mach) (q : Nat) : Mach := (m.jlError q 0xB6).linkDown q 0

/-- A frame that a coupling port has accepted (Table 19.2). -/
def Mach.cplFrame (m : Mach) (p typ : Nat) (f : XFrame) : Mach :=
  match typ with
  | 0x41 => m.cplInbound p 1 f | 0x42 => m.cplAnswer p 1 f | 0x43 => m.cplInbound p 2 f | 0x44 => m.cplAnswer p 2 f
  | 0x45 => m.cplNoAnswer p f.xid 0x20 | 0x46 => m.cplNoAnswer p f.xid 0x21
  | 0x47 => m.cplMupd p f | 0x48 => m.cplMack p f | 0x49 => m.cplMnak p | _ => m.linkViolation (32 + p)

def cplRow (port : Nat) (s : State) (f : Mach → Mach) : Host.Outcome State Fault Refusal :=
  ans (decide (port < 18)) s fun m => if m.frozen || !m.jlUp (32 + port) then m else f m

def execSreq (port : Nat) (f : XFrame) (s : State) : Host.Outcome State Fault Refusal := cplRow port s fun m => m.cplFrame port 0x41 f
def execSrsp (port : Nat) (f : XFrame) (s : State) : Host.Outcome State Fault Refusal := cplRow port s fun m => m.cplFrame port 0x42 f
def execAreq (port : Nat) (f : XFrame) (s : State) : Host.Outcome State Fault Refusal := cplRow port s fun m => m.cplFrame port 0x43 f
def execArsp (port : Nat) (f : XFrame) (s : State) : Host.Outcome State Fault Refusal := cplRow port s fun m => m.cplFrame port 0x44 f
def execRbusy (port : Nat) (f : XFrame) (s : State) : Host.Outcome State Fault Refusal := cplRow port s fun m => m.cplFrame port 0x45 f
def execRrej (port : Nat) (f : XFrame) (s : State) : Host.Outcome State Fault Refusal := cplRow port s fun m => m.cplFrame port 0x46 f
def execMupd (port : Nat) (f : XFrame) (s : State) : Host.Outcome State Fault Refusal := cplRow port s fun m => m.cplFrame port 0x47 f
def execMack (port : Nat) (f : XFrame) (s : State) : Host.Outcome State Fault Refusal := cplRow port s fun m => m.cplFrame port 0x48 f
def execMnak (port : Nat) (f : XFrame) (s : State) : Host.Outcome State Fault Refusal := cplRow port s fun m => m.cplFrame port 0x49 f
def execCp2Stop (port : Nat) (s : State) : Host.Outcome State Fault Refusal := cplRow port s fun m => m.cplStop port

def execCouplingRequestTimeout (port xid : Nat) (s : State) : Host.Outcome State Fault Refusal :=
  ans (decide (port < 18)) s fun m => if m.frozen then m else m.cplNoAnswer port xid 0x22

/-- Every port whose last INIT named this port's partner has been down for 1 ms with no STOP. -/
def execPartnerSilent (port : Nat) (s : State) : Host.Outcome State Fault Refusal :=
  ans (decide (port < 18)) s fun m =>
    let sys := m.get (R.cpl_p_peer_sys port)
    let ports := (List.range 18).filter fun p => m.get (R.cpl_p_peer_sys p) == sys
    if m.frozen || sys == 0 || ports.any (fun p => m.jlUp (32 + p) || m.get (R.cpl_p_stat_partner p) != 1) then m
    else ((ports.foldl (fun m p => m.set (R.cpl_p_stat_partner p) 3) m).cplError 0xD5 port 0).freezeAreas sys

def Mach.mirRelease (m : Mach) (k : Nat) : Mach := m.sets [(R.cpl_mir_frozen k, 0), (R.cpl_mir_release k, 0)]
def execMirrorRelease (k : Nat) (s : State) : Host.Outcome State Fault Refusal := ans (decide (k < 4)) s fun m => if m.frozen then m else m.mirRelease k

/-- CP2 INIT (R516): a zero identifier or small grants leave the port in state 8. -/
def execCp2Init (port sys frames cells : Nat) (s : State) : Host.Outcome State Fault Refusal :=
  ans (decide (port < 18) && decide (sys < 2 ^ 64)) s fun m =>
    let q := 32 + port
    if !m.jlMayTrain q || m.jlState q != 5 then m
    else
      let own := m.get R.cpl_sysid_id
      let m := m.jlControl q 0x02 (toBytes 8 own ++ [m.modNo, port] ++ toBytes 2 (m.get R.chan_rsv_stat_gen) ++ toBytes 2 256 ++ toBytes 4 16384)
      if own = 0 ∨ sys = 0 ∨ frames < 64 ∨ cells < 4096 then (m.jlError q 0xB6).jlNoLink q 8
      else
        let m := m.onJlP q fun x => { x with link := ⟨0, 0, [], [], [frames, cells], false, []⟩, grant := (frames, cells), gap := false, mnak := false }
        let m := m.sets [(R.cpl_p_stat_state port, 6), (R.cpl_p_stat_partner port, 1), (R.cpl_p_peer_sys port, sys)]
        (((m.jlShow q true).jlError q 0xB2).jlUpDone q).mirChanged

end Sys2Proof.Machine
end

