-- ==== Sys2Proof/Machine/JlRx.lean ====
section
/-! DEFINITION. What Jalper and coupling ports receive, their lanes, links and repair requests (spec/17, R475 to R488; spec/19, R516). -/

namespace Sys2Proof.Machine

/-! ### Lanes, link up and down (R486 to R488) -/

/-- A lane of a link that is up fails: the link narrows, or goes down when no lane is left (R486). -/
def Mach.laneFail (m : Mach) (q lane : Nat) : Mach :=
  let f := m.get (jlFailedF q)
  if m.frozen || !m.jlUp q || decide (m.jlFull q ≤ lane) || bit f lane then m
  else
    let f := f ||| 2 ^ lane
    let m := m.set (jlFailedF q) f
    match widthOf f (m.jlFull q) (m.jlWidth q) with
    | none => m.linkDown q 0
    | some (w, first) =>
      if w = m.jlWidth q ∧ first = m.get (jlFirstF q) then m
      else (((m.jlSetWidth q w first).set (jlStateF q) 7).jlControl q 0x03 [w, first]).jlError q 0xB0

def execJlLaneFailure (port lane : Nat) (s : State) : Host.Outcome State Fault Refusal :=
  ans (decide (port < 50) && decide (lane < 16)) s fun m => m.laneFail port lane

/-- The far side's LANEMAP: this end switches too; one that names no narrower group is ignored (log entry 30). -/
def Mach.laneMap (m : Mach) (q w first : Nat) : Mach :=
  if m.frozen || !m.jlUp q || !(w == 1 || w == 2 || w == 4 || w == 8) || first % max 1 w != 0 || decide (m.jlFull q < first + w)
      || decide (m.jlWidth q < w) then m
  else ((m.jlSetWidth q w first).set (jlStateF q) 7).jlError q 0xB0

def execJlLanemap (port w first : Nat) (s : State) : Host.Outcome State Fault Refusal :=
  ans (decide (port < 50)) s fun m => m.laneMap port w first

/-- INIT of a channel adapter (R480, R487): grants below the least leave the port in state 8; otherwise the link is up. -/
def execJlInit (port vendor part maxx frames cells : Nat) (s : State) : Host.Outcome State Fault Refusal :=
  ans (decide (port < 32)) s fun m =>
    let q := port
    if !m.jlMayTrain q || m.jlState q != 5 then m
    else
      let m := m.jlControl q 0x02 ([m.modNo, port] ++ toBytes 2 (bits (m.word R.id_part) 31 16) ++ toBytes 2 (m.get R.chan_rsv_stat_gen) ++ toBytes 2 256 ++ toBytes 4 16384)
      if frames < 32 ∨ cells < 1024 then (m.jlError q 0xB6).jlNoLink q 8
      else
        let x := m.jlP q
        let m := m.setJlP q { x with link := ⟨0, 0, [], [], [frames, cells], false, []⟩, grant := (frames, cells), gap := false }
        let m := m.sets [(R.chan_jl_stat_state q, 6), (R.chan_jl_gen_vendor q, vendor), (R.chan_jl_gen_part q, part), (R.chan_jl_gen_maxx q, maxx),
          (R.chan_jl_gen_gen q, x.target), (R.chan_jl_gen_fgen q, x.far)]
        let m := (m.jlShow q true).jlError q 0xB2
        let m := if x.target < x.far then m.jlError q 0xB5 else m
        (m.jlUpDone q).chanLinkUp q

def execJlLinkDown (port : Nat) (s : State) : Host.Outcome State Fault Refusal :=
  ans (decide (port < 50)) s fun m => if m.frozen || !m.jlUp port then m else m.linkDown port 0

/-- The port is fenced, and its link down and powered off (R488). -/
def Mach.portOff (m : Mach) (q : Nat) : Mach :=
  ((m.onJlP q fun x => { x with fenced := true }).linkDown q 10).sets [(jlDownF q, 0), (jlResF q, 1)]

/-- A request of `down` is handled within 10 µs (R488, Table 1.18): accepted only in M6 and while no other is pending. -/
def Mach.portDown (m : Mach) (q : Nat) : Mach :=
  if !m.jlChan q then m.set (jlDownF q) 0
  else if m.mode_ ≠ 6 then m.sets [(jlDownF q, 0), (jlResF q, 2)]
  else if (m.jlP q).upReq then m.sets [(jlDownF q, 0), (jlResF q, 4)]
  else if m.blkDown (jlBlk q) && !m.blkFailed (jlBlk q) then m.set (jlResF q) 4
  else m.portOff q

/-- A request of `up`: it stands until the first training attempt has ended. -/
def Mach.portUp (m : Mach) (q : Nat) : Mach :=
  if !m.jlChan q then m.set (jlUpF q) 0
  else if m.mode_ ≠ 6 then m.sets [(jlUpF q, 0), (jlResF q, 2)]
  else if (m.jlP q).upReq then m.set (jlResF q) 4
  else if m.blkDown (jlBlk q) && !m.blkFailed (jlBlk q) then m.sets [(jlUpF q, 0), (jlResF q, 4)]
  else if !(m.jlP q).fenced then m.sets [(jlUpF q, 0), (jlResF q, 3)]
  else
    let m := (m.onJlP q fun x => { x with fenced := false, upReq := true }).set (jlUpF q) 1
    m.jlTrain q (m.jlTop q)

def execJlPortDown (port : Nat) (s : State) : Host.Outcome State Fault Refusal :=
  ans (decide (port < 32)) s fun m => if m.frozen then m else m.portDown port
def execJlPortUp (port : Nat) (s : State) : Host.Outcome State Fault Refusal :=
  ans (decide (port < 32)) s fun m => if m.frozen then m else m.portUp port
def execCouplingPortDown (port : Nat) (s : State) : Host.Outcome State Fault Refusal :=
  ans (decide (port < 18)) s fun m => if m.frozen then m else m.portDown (32 + port)
def execCouplingPortUp (port : Nat) (s : State) : Host.Outcome State Fault Refusal :=
  ans (decide (port < 18)) s fun m => if m.frozen then m else m.portUp (32 + port)

/-! ### Acknowledgements (R478, R480) -/

/-- The far side acknowledges frames up to a sequence number: a CLOSE among them frees its slot, a response its request. -/
def Mach.jlAcked (m : Mach) (q seq : Nat) : Mach :=
  let k := (m.jlP q).link
  let is := fun (y : Nat) => decide ((seq + 4096 - y) % 4096 < 128)
  let gone := k.replay.filter fun y => is y.1
  let m := m.onJlP q fun x => { x with link := { x.link with replay := k.replay.filter fun y => !is y.1 } }
  gone.foldl (fun m y =>
    if q < 32 then (if y.2.2.typ = 6 then m.closeAcked y.2.2.f.xid else m)
    else if y.2.2.typ = 0x42 ∨ y.2.2.typ = 0x44 then m.respAcked (q - 32) y.2.2.f.xid else m) m

/-- CLOSE for an operation, or with `ack` the link's acknowledgement of one that was sent. -/
def execClose (slot : Nat) (ack : Bool) (s : State) : Host.Outcome State Fault Refusal :=
  opCmd slot s fun m x =>
    if !ack then m.sendClose x
    else if x.run ≠ .closed then m
    else
      let q := pathPort x.paths x.path
      match (m.jlP q).link.replay.find? fun y => y.2.2.typ == 6 && y.2.2.f.xid == x.xid with
      | some y => m.jlAcked q y.1
      | none => m

/-! ### Codewords and cells (R475 to R478) -/

/-- The additive scrambler x^58 + x^39 + 1, all ones at the first cell bit: n key bits from a state, as a number whose first bit is the most
significant. -/
def scramble : Nat → Nat → Nat → Nat
  | 0, _, acc => acc
  | n + 1, st, acc =>
    let b := (if st.testBit 57 then 1 else 0) ^^^ (if st.testBit 38 then 1 else 0)
    scramble n ((st * 2 + b) % 2 ^ 58) (acc * 2 + b)

/-- The 640 cell bytes of a codeword, descrambled. -/
def descramble (bytes : List Nat) : List Nat := toBytes 640 (ofBytes bytes ^^^ scramble 5120 (2 ^ 58 - 1) 0)

/-- The frame of a unit's bytes (Table 17.2). -/
def unitFrame (u : List Nat) : XFrame :=
  { addr := hdrF u 12 2, xid := hdrF u 16 8, pos := hdrF u 24 4, a := hdrF u 28 4, b := hdrF u 32 4, dcmd := hdrF u 36 1, flags := hdrF u 37 1,
    dstat := hdrF u 38 1, sense := ((u.drop 40).take 16).take (hdrF u 39 1), data := (u.drop 64).take (hdrF u 2 2) }

/-- The cells of the unit that a header cell begins. -/
def unitCells (h : List Nat) : Nat := if h.headD 0 = 2 ∧ hdrF h 2 2 ≤ 4096 then 1 + cdiv (hdrF h 2 2) 64 else 1

/-- A frame that fails its check or comes out of sequence: one nak until another is accepted. -/
def Mach.jlNak (m : Mach) (q : Nat) : Mach :=
  if (m.jlP q).link.nakSent then m else (m.onJlP q fun x => { x with link := { x.link with nakSent := true } }).jlAckCell q true 0 0

/-- A whole unit, in the order of R478. -/
def Mach.jlUnit (m : Mach) (q : Nat) (u : List Nat) : Mach :=
  let kind := u.headD 0
  if ofBytes ((u.drop 60).take 4) ≠ crc32c (u.take 60 ++ u.drop 64) then (if kind = 2 then m.jlNak q else m)
  else
    let ack := hdrF u 6 2
    let m := if bit ack 15 then m.jlAcked q (ack % 4096) else m
    let x := m.jlP q
    let c := (x.link.credits.getD 0 0 + hdrF u 8 1, x.link.credits.getD 1 0 + hdrF u 10 2)
    if x.grant.1 < c.1 ∨ x.grant.2 < c.2 ∨ 2 < kind then m.linkViolation q
    else
      let m := m.setJlP q { x with link := { x.link with credits := [c.1, c.2] } }
      let m := if bit ack 14 then (m.jlAcked q (ack % 4096)).jlResend q else m
      let m := m.jlFlush q (m.jlP q).link.waiting.length
      if kind = 0 then m
      else if kind = 1 then
        match u.getD 1 0 with
        | 0x03 => m.laneMap q (u.getD 12 0) (u.getD 13 0)
        | 0x10 => if 32 ≤ q then m.cplStop (q - 32) else m
        | _ => m
      else if hdrF u 4 2 % 4096 ≠ (m.jlP q).link.rxSeq then m.jlNak q
      else
        let m := m.onJlP q fun x => { x with link := { x.link with rxSeq := (x.link.rxSeq + 1) % 4096, nakSent := false } }
        let m := m.jlAckCell q false 1 (cdiv (hdrF u 2 2) 64)
        if q < 32 then m.ioFrame q (u.getD 1 0) (unitFrame u) else m.cplFrame (q - 32) (u.getD 1 0) (unitFrame u)

/-- Take up cells one by one while the link is up: what is kept of a unit not yet whole stands in the port. -/
def Mach.jlCells (m : Mach) (q : Nat) : Nat → List Nat → Mach
  | 0, _ => m
  | n + 1, b =>
    if b = [] || !m.jlUp q then m
    else
      let u := (m.jlP q).link.rx ++ b.take 64
      let keep := fun (m : Mach) (r : List Nat) => m.onJlP q fun x => { x with link := { x.link with rx := r } }
      if 64 * unitCells u ≤ u.length then ((keep m []).jlUnit q u).jlCells q n (b.drop 64) else (keep m u).jlCells q n (b.drop 64)

/-- A codeword arrives: its 20 header bits, its 640 scrambled cell bytes, whether symbols were corrected, and whether it was correctable. One that was
not is discarded whole, and cells are taken up again at the cell that `fsp` names (R476). -/
def Mach.jlCodeword (m : Mach) (q hdr : Nat) (bytes : List Nat) (fixed ok : Bool) : Mach :=
  if m.frozen || !m.jlUp q then m
  else if !ok then m.onJlP q fun x => { x with gap := true, link := { x.link with rx := [] } }
  else
    let m := if fixed then m.count (jlFeccF q) else m
    let b := descramble bytes
    let fsp := bits hdr 7 4
    if !(m.jlP q).gap then m.jlCells q 10 b
    else if 9 < fsp then m
    else (m.onJlP q fun x => { x with gap := false }).jlCells q 10 (b.drop (64 * fsp))

def execJlCodeword (port hdr : Nat) (bytes : List Nat) (fixed ok : Bool) (s : State) : Host.Outcome State Fault Refusal :=
  ans (decide (port < 50) && bytes.length == 640) s fun m => m.jlCodeword port hdr bytes fixed ok

end Sys2Proof.Machine
end

