-- ==== Sys2Proof/Machine/MemPorts.lean ====
section
/-! DEFINITION. Memory ports and redundancy groups (spec/10): where a line lies, pieces and check words, reads and their repair, lost ports,
rebuild, scrub, initialisation, and the buffer link. -/

namespace Sys2Proof.Machine

/-! ### Where a line lies (R302, R303) -/

def Mach.memP (m : Mach) (p : Nat) : MemPort := tget m.memp.ports p MemPort.init
def Mach.onMemP (m : Mach) (p : Nat) (f : MemPort → MemPort) : Mach := { m with memp := { m.memp with ports := tset m.memp.ports p (f (m.memP p)) } }

/-- First byte address of this module's memory, and its size. -/
def Mach.myBase (m : Mach) : Nat := m.get (R.aq_home_base m.modNo) * 2 ^ 30
def Mach.mySize (m : Mach) : Nat := m.get (R.aq_home_size m.modNo) * 2 ^ 30

/-- The line number of line index i of group g. -/
def Mach.lineOf (m : Mach) (g i : Nat) : Nat :=
  let a := m.myBase + 1024 * i
  ((List.range 4).find? fun r => homeSlice (a + 256 * r) == g).elim (a / 256) (a / 256 + ·)

/-- The piece of line index i that a port holds: 0 to 3 data, 4 parity. -/
def pieceOn (p i : Nat) : Nat := if p % 5 = i % 5 then 4 else (p % 5 + 4 - i % 5) % 5

/-- The port within its group that holds a piece. -/
def portOf (g i k : Nat) : Nat := 5 * g + (if k = 4 then i % 5 else (i % 5 + 1 + k) % 5)

/-- The lines of a group (R303). -/
def Mach.groupLines (m : Mach) : Nat := 2 ^ (30 + min 4 (m.get R.mem_cfg_cap))

/-- The directory region (R303): base and size. -/
def Mach.dirBase (m : Mach) : Nat := m.myBase + m.mySize / 8 * 7
def Mach.inDirRegion (m : Mach) (line : Nat) : Bool := decide (m.dirBase ≤ 256 * line) && decide (256 * line < m.myBase + m.mySize)

/-- The 64 bytes of a piece of a line. -/
def piece (d : Line) (k : Nat) : Nat :=
  if k < 4 then lineGet d (64 * k) 64 else lineGet d 0 64 ^^^ lineGet d 64 64 ^^^ lineGet d 128 64 ^^^ lineGet d 192 64

/-- The check word's crc (R305). -/
def pieceCrc (port addr data : Nat) : Nat := crc32c (toBytes 8 (port * 2 ^ 34 + addr) ++ toBytes 64 data)

/-! ### Errors and lost ports (R309 to R311, R325) -/

/-- A memory port code: recorded and raised under the port. -/
def Mach.memError (m : Mach) (code port line : Nat) : Mach :=
  let m := m.sets [(R.mem_err_line, line), (R.mem_err_new, 1), (R.mem_err_port, port), (R.mem_err_code, code)]
  m.raise (1824 + 16 * port + (code - 0x60)) (m.word R.mem_err)

def Mach.memBit (m : Mach) (p : Nat) (up : Bool) : Mach :=
  let w := m.get R.id_ports_mem
  m.set R.id_ports_mem (if up then w ||| 2 ^ p else if bit w p then w ^^^ 2 ^ p else w)

/-- Cost of a unit in command and write-data credits (R318). -/
def unitCost (u : FabUnit) : Nat × Nat := (1, u.slots.length - 1)

/-- Transmit what waits on a port, oldest first, at most n units. -/
def Mach.memSend (m : Mach) (p : Nat) : Nat → Mach
  | 0 => m
  | n + 1 =>
    let x := m.memP p
    match x.link.waiting with
    | [] => m
    | (_, u) :: rest =>
      let (c, d) := unitCost u
      if m.frozen || !(m.get (R.mem_port_stat_state p) == 6) || decide (512 ≤ x.link.replay.length) || decide (x.link.credits.getD 0 0 < c)
          || decide (x.link.credits.getD 1 0 < d) then m
      else
        let k : LinkSt FabUnit := { x.link with
          waiting := rest, replay := x.link.replay ++ [(x.link.txSeq, 0, u)], txSeq := (x.link.txSeq + 1) % 1024,
          credits := [x.link.credits.getD 0 0 - c, x.link.credits.getD 1 0 - d] }
        let m := m.onMemP p fun x => { x with link := k }
        (m.emit (.frame 4 p (x.link.txSeq :: u.slots))).memSend p n

/-- Issue a command with a fresh tag: at most one for each piece, 512 in all (R308, R318). -/
def Mach.memIssue (m : Mach) (p op addr : Nat) (slots : Nat → List Nat) : Mach :=
  let x := m.memP p
  if !(m.get (R.mem_port_stat_state p) == 6) || decide (512 ≤ x.out.length) || (decide (op ≤ 2) && x.out.any fun c => decide (c.op ≤ 2) && c.addr == addr) then m
  else
    match (List.range 512).find? fun i => !(x.out.any fun c => c.tag == (x.tag + i) % 512) with
    | none => m
    | some i =>
      let t := (x.tag + i) % 512
      let m := m.onMemP p fun x => { x with out := x.out ++ [⟨t, op, addr⟩], tag := (t + 1) % 512 }
      let m := m.onMemP p fun x => { x with link := { x.link with waiting := x.link.waiting ++ [(0, ⟨0, slots t⟩)] } }
      m.memSend p ((m.memP p).link.waiting.length)

def memHead (op tag addr crc psn ver : Nat) : Nat := op <<< 122 ||| tag <<< 112 ||| addr <<< 64 ||| crc <<< 32 ||| psn <<< 31 ||| ver <<< 28

/-- A piece read. -/
def Mach.memRd (m : Mach) (p addr : Nat) : Mach := m.memIssue p 1 addr fun t => [memHead 1 t addr 0 0 0]

/-- The line of a piece. -/
def Mach.lineAt (m : Mach) (p addr : Nat) : Nat := m.lineOf (p / 5) addr

/-- Performance counters of a port, unless frozen (Table 12.5). -/
def Mach.countMem (m : Mach) (f : Fld) : Mach := if (List.range 96).any m.frozenThread then m else m.count f

/-- A piece write with its check word (R305, R307). -/
def Mach.memWr (m : Mach) (p addr : Nat) : Mach :=
  let line := m.lineAt p addr
  let d := piece (m.mem.rdLine line) (pieceOn p addr)
  let psn := b2n (m.dirE line).psn
  (m.memIssue p 2 addr fun t => memHead 2 t addr (pieceCrc p addr d) psn 1 :: (List.range 4).map fun i => (d >>> (128 * (3 - i))) % 2 ^ 128).countMem
    (R.mem_port_perf_wr p)

/-- Whether a port cannot serve line index i: lost, or rebuilding and i not yet rebuilt (R310, R313). -/
def Mach.pieceLost (m : Mach) (p i : Nat) : Bool :=
  let g := p / 5
  (m.get (R.mem_grp_stat_lost g) == p % 5
    && (m.get (R.mem_grp_stat_state g) == 3 || (m.get (R.mem_grp_stat_state g) == 4 && decide (m.get (R.mem_grp_rb_ptr g) ≤ i))))
    || m.get (R.spill_blk_state (48 + p)) == 1

/-- A port is lost (R309, R311): its commands are dropped, reads of data pieces are issued again as parity reads, and the group is degraded; the
second loss in a group fails it. -/
def Mach.losePort (m : Mach) (p st code : Nat) : Mach :=
  let g := p / 5
  let out := (m.memP p).out
  let m := if code = 0 then m else m.memError code p 0
  let m := (m.onMemP p fun x => { x with out := [], link := MemPort.init.link }).memBit p false
  let m := m.set (R.mem_port_stat_state p) st
  let gs := m.get (R.mem_grp_stat_state g)
  if gs = 3 ∨ gs = 4 then
    if m.get (R.mem_grp_stat_lost g) = p % 5 then (if gs = 4 then (m.set (R.mem_grp_stat_state g) 3).memError 0x64 p 0 else m)
    else (m.set (R.mem_grp_stat_state g) 5).memError 0x65 (5 * g) 0
  else if gs = 2 then
    let m := (m.sets [(R.mem_grp_stat_state g, 3), (R.mem_grp_stat_lost g, p % 5)]).memError 0x64 p 0
    out.foldl (fun m c => if c.op = 1 ∧ c.addr % 5 ≠ p % 5 then m.memRd (5 * g + c.addr % 5) c.addr else m) m
  else m

/-- Once all five ports of a group in state 0 have trained or failed, the group leaves state 0 if it may (R621). -/
def Mach.settle (m : Mach) (g : Nat) : Mach :=
  let st := fun p => m.get (R.mem_port_stat_state p)
  let ports := (List.range 5).map (5 * g + ·)
  if m.get (R.mem_grp_stat_state g) ≠ 0 ∨ !(ports.all fun p => st p == 6 || st p == 7 || st p == 8 || st p == 9) then m
  else
    let odd := ports.filter fun p => !(st p == 6 && (m.memP p).kept)
    match odd with
    | [] => m.set (R.mem_grp_stat_state g) 2
    | [p] =>
      let m := if st p = 6 then (m.set (R.mem_port_stat_state p) 7).memBit p false else m
      (m.sets [(R.mem_grp_stat_state g, 3), (R.mem_grp_stat_lost g, p % 5)]).memError 0x64 p 0
    | _ => m

/-! ### Commands (Table 10.6) -/

def execMemRd (port addr : Nat) (s : State) : Host.Outcome State Fault Refusal := ans (decide (port < 20)) s fun m => if m.frozen then m else m.memRd port addr
def execMemWr (port addr : Nat) (s : State) : Host.Outcome State Fault Refusal := ans (decide (port < 20)) s fun m => if m.frozen then m else m.memWr port addr
def execMemCrd (port reg : Nat) (s : State) : Host.Outcome State Fault Refusal :=
  ans (decide (port < 20)) s fun m => if m.frozen then m else m.memIssue port 3 reg fun t => [memHead 3 t reg 0 0 0]
def execMemCwr (port reg val : Nat) (s : State) : Host.Outcome State Fault Refusal :=
  ans (decide (port < 20)) s fun m => if m.frozen then m else m.memIssue port 4 reg fun t => [memHead 4 t reg val 0 0]

/-! ### Responses (R306, R319) -/

def Mach.rdKey (g i : Nat) : Nat := g * 2 ^ 42 + i

/-- A line is uncorrectable (R306): delivered and written back poisoned, its data free; in the directory region the domain stops (R270). -/
def Mach.lineBad (m : Mach) (g i : Nat) : Mach :=
  let line := m.lineOf g i
  let m := { m with memp := { m.memp with rd := tdel m.memp.rd (Mach.rdKey g i) } }
  if m.inDirRegion line then (m.memError 0x61 (5 * g) line).aqError 0x33 (16 + g) line
  else
    let m := { m with mem := m.mem.wrLine line (Config.freeLine m.seed), seed := m.seed + 1 }
    let m := m.setDir line { m.dirE line with psn := true }
    ((List.range 5).foldl (fun m k => if m.pieceLost (portOf g i k) i then m else m.memWr (portOf g i k) i) m).memError 0x61 (5 * g) line

/-- Take stock of a line's read: complete it, rebuild a missing piece from the parity, ask for the parity, or give the line up. -/
def Mach.readStock (m : Mach) (g i : Nat) : Mach :=
  let r := tget m.memp.rd (Mach.rdKey g i) MemRead.init
  let line := m.lineOf g i
  let lost := (List.range 5).filter fun k => m.pieceLost (portOf g i k) i
  let miss := (List.range 4).filter fun k => r.bad.contains k || lost.contains k
  let val := fun k => (tget r.got k (0, false)).1
  let done (m : Mach) (ps : List Nat) (psn : Bool) : Mach :=
    let d : Line := BitVec.ofNat 2048 (ps.foldl (fun w p => w * 2 ^ 512 + p) 0)
    let m : Mach := { m with mem := m.mem.wrLine line d, memp := { m.memp with rd := tdel m.memp.rd (Mach.rdKey g i) } }
    m.setDir line { m.dirE line with psn := psn }
  match miss with
  | [] => if (List.range 4).all fun k => (tfind r.got k).isSome then done m ((List.range 4).map val) ((List.range 4).any fun k => (tget r.got k (0, false)).2) else m
  | [k] =>
    if r.bad.contains 4 || lost.contains 4 then m.lineBad g i
    else
      let others := (List.range 4).filter (· != k)
      if (tfind r.got 4).isNone then m.memRd (portOf g i 4) i
      else if others.all fun j => (tfind r.got j).isSome then
        let v := others.foldl (fun x j => x ^^^ val j) (val 4)
        let m := done m ((List.range 4).map fun j => if j = k then v else val j) ((4 :: others).any fun j => (tget r.got j (0, false)).2)
        if r.bad.contains k then
          ((m.memWr (portOf g i k) i).count (R.mem_port_cnt_corr (portOf g i k))).memError 0x60 (portOf g i k) line
        else m
      else m
  | _ => m.lineBad g i

/-- A response for a tag: the outstanding command of the op, removed. -/
def Mach.memAnswer (m : Mach) (p tag : Nat) (ops : List Nat) : Option (MemCmd × Mach) :=
  (takeFirst (fun (c : MemCmd) => c.tag == tag && ops.contains c.op) (m.memP p).out).map fun x => (x.1, m.onMemP p fun y => { y with out := x.2 })

/-- A piece arrives, good or bad. -/
def Mach.pieceIn (m : Mach) (p i : Nat) (v : Option (Nat × Bool)) : Mach :=
  let g := p / 5
  let k := pieceOn p i
  let r := tget m.memp.rd (Mach.rdKey g i) MemRead.init
  let r : MemRead := match v with
    | some x => { r with got := tset r.got k x }
    | none => { r with bad := r.bad ++ [k] }
  ({ m with memp := { m.memp with rd := tset m.memp.rd (Mach.rdKey g i) r } } : Mach).readStock g i

def execMemRdd (port tag piece crc : Nat) (psn : Bool) (ver : Nat) (s : State) : Host.Outcome State Fault Refusal :=
  ans (decide (port < 20)) s fun m =>
    if m.frozen then m
    else match m.memAnswer port tag [1] with
      | none => m
      | some (c, m) => (m.pieceIn port c.addr (if crc = pieceCrc port c.addr piece ∧ ver = 1 then some (piece, psn) else none)).countMem (R.mem_port_perf_rd port)

def execMemRerr (port tag : Nat) (s : State) : Host.Outcome State Fault Refusal :=
  ans (decide (port < 20)) s fun m =>
    if m.frozen then m
    else match m.memAnswer port tag [1] with
      | none => m
      | some (c, m) => m.pieceIn port c.addr none

def execMemWra (port tag : Nat) (s : State) : Host.Outcome State Fault Refusal :=
  ans (decide (port < 20)) s fun m => if m.frozen then m else ((m.memAnswer port tag [2, 4]).map (·.2)).getD m

def execMemCra (port tag val : Nat) (s : State) : Host.Outcome State Fault Refusal :=
  ans (decide (port < 20)) s fun m =>
    if m.frozen then m
    else match m.memAnswer port tag [3] with
      | none => m
      | some (c, m) => m.onMemP port fun x => { x with cra := some (c.addr, val) }

def execMemResponseTimeout (port tag : Nat) (s : State) : Host.Outcome State Fault Refusal :=
  ans (decide (port < 20)) s fun m => if m.frozen || !((m.memP port).out.any fun c => c.tag == tag) then m else m.losePort port 7 0x66

/-! ### The link (R317 to R320) -/

/-- The complete responses at the front of the received slots of a port reach their commands, at most n; a response may span flits. -/
def Mach.memDeliver (m : Mach) (p : Nat) : Nat → Mach
  | 0 => m
  | n + 1 =>
    match (m.memP p).link.rx with
    | [] => m
    | h :: rest =>
      let data := if bits h 127 122 = 0x21 then 4 else 0
      if rest.length < data then m else
      let m := m.onMemP p fun x => { x with link := { x.link with rx := rest.drop data } }
      let run (f : State → Host.Outcome State Fault Refusal) : Mach :=
        match f ⟨[], m⟩ with
        | .next s => s.m
        | _ => m
      let tag := bits h 121 112
      match bits h 127 122 with
      | 0x21 => (run (execMemRdd p tag ((rest.take 4).foldl (fun w x => w * 2 ^ 128 + x) 0) (bits h 63 32) (bit h 31) (bits h 30 28))).memDeliver p n
      | 0x22 => (run (execMemWra p tag)).memDeliver p n
      | 0x23 => (run (execMemCra p tag (bits h 63 32))).memDeliver p n
      | 0x24 => (run (execMemRerr p tag)).memDeliver p n
      | _ => m.memDeliver p n

/-- A flit on a memory port (R290, R317). -/
def Mach.memFlit (m : Mach) (p : Nat) (bytes : List Nat) : Mach :=
  if m.frozen || m.get (R.mem_port_stat_state p) != 6 then m
  else
    let h := ofBytes (bytes.take 12)
    let kind := bits h 95 94
    let k := (m.memP p).link
    let ackOf := (k.rxSeq + 1023) % 1024
    if bytes.length ≠ 128 ∨ crc32c (bytes.take 124) ≠ ofBytes (bytes.drop 124) ∨ kind = 3 ∨ (kind = 0 ∧ bits h 93 84 ≠ k.rxSeq) then m.emit (.frame 5 p [ackOf, 1])
    else
      let ack := bits h 83 74
      let acked := fun (q : Nat) => decide ((ack + 1024 - q) % 1024 < 512)
      let k := { k with
        replay := if bit h 73 then k.replay.filter fun x => !acked x.1 else k.replay,
        credits := [k.credits.getD 0 0 + bits h 71 64, k.credits.getD 1 0 + bits h 47 40] }
      let resend := bit h 72
      let m := if resend then k.replay.foldl (fun m x => ((m.count (R.mem_port_cnt_replay p)).memError 0x62 p 0).emit (.frame 4 p (x.1 :: x.2.2.slots))) m else m
      let worn := resend && k.replay.any fun x => x.2.1 + 1 == 8
      let k := if resend then { k with replay := k.replay.map fun x => (x.1, x.2.1 + 1, x.2.2) } else k
      if worn then (m.onMemP p fun x => { x with link := k }).losePort p 7 0
      else if kind ≠ 0 then
        let m := m.onMemP p fun x => { x with link := k }
        m.memSend p k.waiting.length
      else
        let slots := (List.range 7).filterMap fun i => if bit h (33 + i) then some (ofBytes ((bytes.drop (12 + 16 * i)).take 16)) else none
        let m := (m.onMemP p fun x => { x with link := { k with rxSeq := (k.rxSeq + 1) % 1024, rx := k.rx ++ slots } }).emit (.frame 5 p [k.rxSeq, 0])
        (m.memSend p k.waiting.length).memDeliver p (k.rx.length + slots.length)

def execMemoryLinkFlit (port : Nat) (bytes : List Nat) (s : State) : Host.Outcome State Fault Refusal :=
  ans (decide (port < 20)) s fun m => m.memFlit port bytes

/-- A lane fails (R320). -/
def execMemLaneFailure (port lane : Nat) (s : State) : Host.Outcome State Fault Refusal :=
  ans (decide (port < 20) && decide (lane < 9)) s fun m =>
    if m.frozen || m.get (R.mem_port_stat_state port) != 6 || bit (m.get (R.mem_port_stat_failed port)) lane then m
    else
      let f := m.get (R.mem_port_stat_failed port)
      let m := m.set (R.mem_port_stat_failed port) (f ||| 2 ^ lane)
      if f ≠ 0 then m.losePort port 7 0
      else if lane = 8 then m
      else ((m.sets [(R.mem_port_stat_spare_used port, 1), (R.mem_port_stat_spare_for port, lane)]).memError 0x63 port 0).emit (.frame 6 port [lane])

/-- The buffer's LANEMAP: this end switches too. -/
def execMemLanemap (port lane : Nat) (s : State) : Host.Outcome State Fault Refusal :=
  ans (decide (port < 20) && decide (lane < 9)) s fun m =>
    if m.frozen || m.get (R.mem_port_stat_state port) != 6 then m
    else m.sets [(R.mem_port_stat_failed port, m.get (R.mem_port_stat_failed port) ||| 2 ^ lane), (R.mem_port_stat_spare_used port, 1), (R.mem_port_stat_spare_for port, lane)]

/-! ### Training (Table 10.7) and port requests (R312) -/

def Mach.memTrain (m : Mach) (p : Nat) : Mach :=
  ((m.onMemP p fun x => { MemPort.init with cra := x.cra }).memBit p false).sets [(R.mem_port_stat_state p, 1), (R.mem_port_stat_failed p, 0),
    (R.mem_port_stat_spare_used p, 0), (R.mem_port_stat_spare_for p, 0), (R.mem_port_stat_cap p, 0)]

/-- A training ends without reaching state 6: the port stays lost, and a pending `up` is handled. -/
def Mach.memFailed (m : Mach) (p st code : Nat) : Mach :=
  let m := m.set (R.mem_port_stat_state p) st
  let m := if code = 0 then m else m.memError code p 0
  let m : Mach := { m with memp := { m.memp with upReq := m.memp.upReq.filter (· != p) } }
  (m.set (R.mem_port_ctl_up p) 0).settle (p / 5)

def execMemTrainingStart (port : Nat) (s : State) : Host.Outcome State Fault Refusal :=
  ans (decide (port < 20)) s fun m => if m.frozen || m.get (R.mem_port_stat_state port) != 0 then m else m.memTrain port

def execMemEqualisationEnd (port locked : Nat) (s : State) : Host.Outcome State Fault Refusal :=
  ans (decide (port < 20)) s fun m =>
    if m.frozen || !(m.get (R.mem_port_stat_state port) == 1 || m.get (R.mem_port_stat_state port) == 2) then m
    else
      let f := 511 ^^^ (locked % 512)
      let m := m.set (R.mem_port_stat_failed port) f
      let bad := (List.range 9).filter fun i => bit f i
      match bad with
      | [] => m.set (R.mem_port_stat_state port) 3
      | [l] => if l = 8 then m.set (R.mem_port_stat_state port) 3
          else (m.sets [(R.mem_port_stat_state port, 3), (R.mem_port_stat_spare_used port, 1), (R.mem_port_stat_spare_for port, l)]).memError 0x63 port 0
      | _ => m.memFailed port 9 0

/-- The buffer's identity (R320): vendor, part, and capacity as log2 of GiB. -/
def execMemIdent (port vendor part cap : Nat) (s : State) : Host.Outcome State Fault Refusal :=
  ans (decide (port < 20) && decide (vendor < 65536) && decide (part < 65536)) s fun m =>
    if m.frozen || m.get (R.mem_port_stat_state port) != 3 then m
    else
      let m := m.set (R.mem_port_stat_cap port) (cap - 6)
      if cap = 6 + m.get R.mem_cfg_cap then m.set (R.mem_port_stat_state port) 4 else m.memFailed port 8 0x6A

def execMemCrdinit (port : Nat) (s : State) : Host.Outcome State Fault Refusal :=
  ans (decide (port < 20)) s fun m =>
    if m.frozen || m.get (R.mem_port_stat_state port) != 4 then m
    else (m.onMemP port fun x => { x with link := ⟨0, 0, [], [], [128, 512], false, []⟩ }).set (R.mem_port_stat_state port) 5

/-- READY, whose byte 1 says whether the buffer kept its contents (R320, R621). -/
def execMemReady (port : Nat) (kept : Bool) (s : State) : Host.Outcome State Fault Refusal :=
  ans (decide (port < 20)) s fun m =>
    if m.frozen || m.get (R.mem_port_stat_state port) != 5 then m
    else
      let g := port / 5
      let m := ((m.onMemP port fun x => { x with kept := kept }).set (R.mem_port_stat_state port) 6).memBit port true
      let was := m.memp.upReq.contains port
      let m : Mach := { m with memp := { m.memp with upReq := m.memp.upReq.filter (· != port) } }
      let m := if was then m.sets [(R.mem_port_ctl_up port, 0), (R.mem_port_stat_res port, 1)] else m
      if m.get (R.mem_grp_stat_state g) = 3 ∧ m.get (R.mem_grp_stat_lost g) = port % 5 then m.sets [(R.mem_grp_stat_state g, 4), (R.mem_grp_rb_ptr g, 0)]
      else m.settle g

def Mach.memRes (m : Mach) (p r : Nat) : Mach := m.set (R.mem_port_stat_res p) r

/-- A `down` request (R312): a port with commands outstanding is fenced first (R584). -/
def Mach.memDown (m : Mach) (p : Nat) : Mach :=
  let gs := m.get (R.mem_grp_stat_state (p / 5))
  if m.memp.upReq.contains p ∨ m.blkDown (48 + p) then m.memRes p 5
  else if m.mode_ ≠ 6 then m.memRes p 2
  else if gs = 3 ∨ gs = 4 then m.memRes p 3
  else if (m.memP p).out = [] then (m.losePort p 10 0).memRes p 1
  else (m.fenceRepair (48 + p)).set (R.mem_port_ctl_down p) 1

/-- An `up` request (R312, R53). -/
def Mach.memUp (m : Mach) (p : Nat) : Mach :=
  let st := m.get (R.mem_port_stat_state p)
  if m.memp.upReq.contains p ∨ m.blkDown (48 + p) then m.memRes p 5
  else if m.mode_ ≠ 6 then m.memRes p 2
  else if st = 7 ∨ st = 8 ∨ st = 9 ∨ st = 10 then
    (({ m with memp := { m.memp with upReq := m.memp.upReq ++ [p] } } : Mach).memTrain p).set (R.mem_port_ctl_up p) 1
  else m.memRes p 4

def execMemPortDown (port : Nat) (s : State) : Host.Outcome State Fault Refusal := ans (decide (port < 20)) s fun m => if m.frozen then m else m.memDown port
def execMemPortUp (port : Nat) (s : State) : Host.Outcome State Fault Refusal := ans (decide (port < 20)) s fun m => if m.frozen then m else m.memUp port

/-! ### Rebuild, scrub, initialisation (R313 to R315) -/

/-- Whether a port can take the write of a piece: it is up, with a free tag and no command of that piece outstanding (R308). -/
def Mach.memFree (m : Mach) (p addr : Nat) : Bool :=
  m.get (R.mem_port_stat_state p) == 6 && decide ((m.memP p).out.length < 512) && !((m.memP p).out.any fun c => decide (c.op ≤ 2) && c.addr == addr)

/-- Whether a line is busy at its home (R275). -/
def Mach.lineBusy (m : Mach) (line : Nat) : Bool := (tfind m.home.txn line).isSome

/-- The next line of a rebuild: the missing piece is computed and written (R313). -/
def execRebuildLine (g : Nat) (s : State) : Host.Outcome State Fault Refusal :=
  ans (decide (g < 4)) s fun m =>
    let i := m.get (R.mem_grp_rb_ptr g)
    if m.frozen || m.get (R.mem_grp_stat_state g) != 4 || m.lineBusy (m.lineOf g i) || !m.memFree (5 * g + m.get (R.mem_grp_stat_lost g)) i then m
    else
      let m := m.memWr (5 * g + m.get (R.mem_grp_stat_lost g)) i
      if i + 1 = m.groupLines then
        (m.sets [(R.mem_grp_rb_ptr g, i + 1), (R.mem_grp_stat_state g, 2), (R.mem_grp_stat_lost g, 7)]).memError 0x6B (5 * g) 0
      else m.set (R.mem_grp_rb_ptr g) (i + 1)

/-- The next line of a scrub (R314): the pieces that fail their check, and whether the parity fails to match four valid data pieces. -/
def execPatrolScrubLine (g : Nat) (bad : List Nat) (parityBad : Bool) (s : State) : Host.Outcome State Fault Refusal :=
  ans (decide (g < 4)) s fun m =>
    let i := tget m.memp.scrub g 0
    let line := m.lineOf g i
    let gs := m.get (R.mem_grp_stat_state g)
    if m.frozen || !(gs == 2 || gs == 3 || gs == 4) || m.get R.mem_cfg_scrub_h == 0 || m.lineBusy line then m
    else
      let m : Mach := { m with memp := { m.memp with scrub := tset m.memp.scrub g ((i + 1) % m.groupLines) } }
      let lost := (List.range 5).filter fun k => m.pieceLost (portOf g i k) i
      let bad := bad.eraseDups.filter fun k => !lost.contains k
      match bad with
      | [] => if parityBad && lost.isEmpty then (m.memWr (portOf g i 4) i).memError 0x68 (portOf g i 4) line else m
      | [k] =>
        if !lost.isEmpty then m.lineBad g i
        else ((m.memWr (portOf g i k) i).count (R.mem_port_cnt_corr (portOf g i k))).memError 0x60 (portOf g i k) line
      | _ => m.lineBad g i

/-- `mem.grp.ctl.init` (R315). -/
def Mach.groupInit (m : Mach) (g : Nat) : Mach :=
  let gs := m.get (R.mem_grp_stat_state g)
  if m.frozen || m.mode_ != 0 || m.sealed || !(gs == 0 || gs == 2) then m
  else m.sets [(R.mem_grp_ctl_init g, 1), (R.mem_grp_stat_state g, 1)]

def execGroupInit (g : Nat) (s : State) : Host.Outcome State Fault Refusal := ans (decide (g < 4)) s (·.groupInit g)

/-- Whether the directory entry of a line lies in a group (R269). -/
def Mach.dirIn (m : Mach) (g line : Nat) : Bool := homeSlice (m.dirBase + (256 * line - m.myBase) / 8) == g

/-- Every group is full or degraded (R622). -/
def Mach.groupsReady (m : Mach) : Bool := (List.range 4).all fun g => m.get (R.mem_grp_stat_state g) == 2 || m.get (R.mem_grp_stat_state g) == 3

/-- The initialisation ends (R315), unless two ports of the group are down; once every group has been initialised, no sweep is needed (R622): every line of the group is zero, and the directory entries in it are in state U. -/
def execGroupInitComplete (g : Nat) (s : State) : Host.Outcome State Fault Refusal :=
  ans (decide (g < 4)) s fun m =>
    if m.frozen || !m.on (R.mem_grp_ctl_init g) then m
    else
      let mine := fun (a : Nat) => decide (m.myBase ≤ a) && decide (a < m.myBase + m.mySize)
      let down := (List.range 5).filter fun p => m.get (R.mem_port_stat_state (5 * g + p)) != 6
      let m := m.set (R.mem_grp_ctl_init g) 0
      if 2 ≤ down.length then m.set (R.mem_grp_stat_state g) 0
      else
      let m : Mach := { m with
        mem := m.mem.filter fun c => !(mine c.1 && homeSlice c.1 == g)
        home := { m.home with dir := m.home.dir.filter fun e => !(mine (256 * e.1) && m.dirIn g e.1) }
        memp := { m.memp with inited := g :: m.memp.inited.filter (· != g) } }
      let m := match down with
        | p :: _ => (m.sets [(R.mem_grp_stat_state g, 3), (R.mem_grp_stat_lost g, p)]).memError 0x64 (5 * g + p) 0
        | [] => m.sets [(R.mem_grp_stat_state g, 2), (R.mem_grp_stat_lost g, 7)]
      if m.groupsReady && (List.range 4).all fun k => m.memp.inited.contains k then m.set R.mode_boot_sweep 1 else m

end Sys2Proof.Machine
end

