-- ==== Sys2Proof/Machine/PcieIn.lean ====
section
/-! DEFINITION. Inbound requests of PCIe root ports (spec/18, R499, R505 to R507). -/

namespace Sys2Proof.Machine

/-- How a request is decoded (Table 18.2): a ring or the doorbell control area, unsupported with its code, refused, or its physical address. -/
inductive InDec where
  | ring | control | ur (code : Nat) | ca | at_ (pa : Nat)
deriving DecidableEq, Repr

/-- Decode a memory request within one 4 KiB page, in the order of Table 18.2. -/
def Mach.decodeIn (m : Mach) (p addr : Nat) (wr write : Bool) : Mach × InDec :=
  if write && decide (0x000fe00000100000 ≤ addr) && decide (addr < 0x000fe00000200000) then (m, if addr < 0x000fe000001f0000 then .ring else .control)
  else if decide (2 ^ 52 ≤ addr) || (m.mcsOff addr).isSome || (m.pcieWin addr).isSome then (m, .ur 0xC5)
  else match mtuPlace ⟨256 + p, 0, m.word (R.pcie_p_ttr2 p), false⟩ ⟨addr, wr⟩ false m with
    | .ok o m => (m, .at_ o.pa)
    | .error .refused m => (m, .ca)
    | .error _ m => (m, .ur 0xC6)

/-- A completion leaves: tag, status (0 successful, 1 UR, 4 CA), EP, data. -/
def Mach.sendCpl (m : Mach) (p tag status : Nat) (ep : Bool) (bs : List Nat) : Mach := m.emit (.pcie p [4, tag, status, b2n ep] bs)

/-- A malformed request is an uncorrectable error of the port. -/
def Mach.malformed (m : Mach) (p : Nat) : Mach := if m.on (R.pcie_p_stat_pwr p) then m.contain p 0xC9 else m

def inRow (port : Nat) (s : State) (f : Mach → Mach) : Host.Outcome State Fault Refusal :=
  rootRow port s fun m => if m.pcieUp port && !m.blkDown (80 + port) then f m else m

/-- A memory read: completed with data once every posted write before it has been performed. -/
def execPcieInboundMemoryRead (port rid tag addr len : Nat) (s : State) : Host.Outcome State Fault Refusal :=
  inRow port s fun m =>
    if len = 0 ∨ 4096 < addr % 4096 + len then m.malformed port
    else match m.decodeIn port addr false false with
      | (m, .at_ pa) =>
        let bad := m.devPoison pa len
        let m := if bad then m.pcieError port 0xC8 addr rid else m
        m.sendCpl port tag 0 bad (m.devRead pa len)
      | (m, .ca) => (m.pcieError port 0xC6 addr rid).sendCpl port tag 4 false []
      | (m, .ur c) => (m.pcieError port c addr rid).sendCpl port tag 1 false []
      | (m, _) => (m.pcieError port 0xC5 addr rid).sendCpl port tag 1 false []

/-- A memory write: a ring, or performed at home; one that carries EP poisons every line it touches. -/
def execPcieInboundMemoryWrite (port rid addr : Nat) (bytes : List Nat) (ep : Bool) (s : State) : Host.Outcome State Fault Refusal :=
  inRow port s fun m =>
    if bytes = [] ∨ 512 < bytes.length ∨ 4096 < addr % 4096 + bytes.length then m.malformed port
    else
      let m := if ep then m.pcieError port 0xC7 addr rid else m
      match m.decodeIn port addr true true with
      | (m, .ring) =>
        if ep then m else m.ringPage ((addr - 0x000fe00000100000) / 4096) (addr % 4096) bytes.length (ofBytes bytes)
      | (m, .control) => m.dbellError 0xE5 0xFF 0
      | (m, .ur c) => m.pcieError port c addr rid
      | (m, .ca) => m.pcieError port 0xC6 addr rid
      | (m, .at_ pa) => m.devWrite pa bytes ep

/-- The value that an AtomicOp leaves: 0 FetchAdd, 1 Swap, 2 CAS. -/
def atomicResult (op n old a b : Nat) : Nat :=
  match op with
  | 0 => (old + a) % 2 ^ (8 * n)
  | 1 => a
  | _ => if old = a then b else old

/-- An AtomicOp of n bytes, performed at home; the completion carries the value found. -/
def execPcieInboundAtomicop (port rid tag addr op n a b : Nat) (s : State) : Host.Outcome State Fault Refusal :=
  inRow port s fun m =>
    if !(n == 4 || n == 8 || (n == 16 && op == 2)) || addr % n != 0 then m.malformed port
    else match m.decodeIn port addr true false with
      | (m, .at_ pa) =>
        let old := m.devRead pa n
        if m.devPoison pa n then (m.pcieError port 0xC8 addr rid).sendCpl port tag 0 true old
        else (m.devWrite pa (toBytes n (atomicResult op n (ofBytes old) (a % 2 ^ (8 * n)) (b % 2 ^ (8 * n))))).sendCpl port tag 0 false old
      | (m, .ca) => (m.pcieError port 0xC6 addr rid).sendCpl port tag 4 false []
      | (m, .ur c) => (m.pcieError port c addr rid).sendCpl port tag 1 false []
      | (m, _) => (m.pcieError port 0xC5 addr rid).sendCpl port tag 1 false []

/-- An I/O, configuration or MCS request: UR. -/
def execPcieInboundUnsupported (port rid tag addr : Nat) (s : State) : Host.Outcome State Fault Refusal :=
  inRow port s fun m => (m.pcieError port 0xC5 addr rid).sendCpl port tag 1 false []

/-- An error message: 0 ERR_COR, 1 ERR_NONFATAL, 2 ERR_FATAL. -/
def execPcieErrorMessage (port rid kind : Nat) (s : State) : Host.Outcome State Fault Refusal :=
  inRow port s fun m =>
    match kind with
    | 0 => (m.count (R.pcie_p_cnt_corr port)).pcieError port 0xC0 0 rid
    | 1 => m.pcieError port 0xCA 0 rid
    | _ => m.contain port 0xC9

/-- The checks of R502 at boot seal, as the value of `pcie.ecam.res`. -/
def Mach.pcieCheck (m : Mach) : Nat :=
  let roots := (List.range 32).filter fun p => m.isRoot p
  let mw := fun (p : Nat) => (m.get (R.pcie_p_mwin_base p) * 2 ^ 30, (m.get (R.pcie_p_mwin_base p) + m.get (R.pcie_p_mwin_size p)) * 2 ^ 30)
  let ecam := (m.get R.pcie_ecam_base * 2 ^ 33, (m.get R.pcie_ecam_base + 1) * 2 ^ 33)
  let wins := ecam :: ((List.range 32).filter fun p => m.on (R.pcie_p_mwin_en p)).map mw
  let homes := ((List.range 4).filter fun n => m.on (R.aq_home_en n)).map fun n =>
    (m.get (R.aq_home_base n) * 2 ^ 30, (m.get (R.aq_home_base n) + m.get (R.aq_home_size n)) * 2 ^ 30)
  let aps := ((List.range 4).filter fun n => m.on (R.mem_cis_ap_en n)).map fun n =>
    (m.get (R.mem_cis_ap_base n) * 2 ^ 30, (m.get (R.mem_cis_ap_base n) + m.get (R.mem_cis_ap_size n)) * 2 ^ 30)
  let fixed := [(0x000fe00000000000, 0x000fe00002000000), (0x000fe00010000000, 0x000fe00010000000 + 4 * 0x2000000)] ++ homes ++ aps
  let clash := fun (x y : Nat × Nat) => decide (x.1 < y.2) && decide (y.1 < x.2)
  if roots = [] then 0
  else if !m.on R.pcie_ecam_en then 4
  else if roots.any fun p => !m.on (R.pcie_p_mwin_en p) || m.get (R.pcie_p_mwin_size p) == 0 then 3
  else if (List.range wins.length).any fun i =>
      fixed.any (clash (wins.getD i (0, 0))) || (List.range i).any fun j => clash (wins.getD i (0, 0)) (wins.getD j (0, 0)) then 2
  else 1

end Sys2Proof.Machine
end

