-- ==== Sys2Proof/Machine/Weir.lean ====
section
/-! DEFINITION. The Weir power budget (spec/21, R561 to R569): budget intervals, samples, sensors and parking. -/

namespace Sys2Proof.Machine

/-- Top of the mode's frequency range in units of 25 MHz (Table 2.2). -/
def Mach.topFreq (m : Mach) : Nat := match m.baseMode with
  | 2 => 224 | 4 => 160 | _ => 200

/-- The limit in force (R561). -/
def Mach.limit (m : Mach) : Nat :=
  if m.baseMode = 4 then min (m.get R.weir_limit_watts) m.mode.eco else m.get R.weir_limit_watts

/-- A busy core: some virtual processor is placed on it. -/
def Mach.busy (m : Mach) (c : Nat) : Bool := (m.vpOn (2 * c)).isSome || (m.vpOn (2 * c + 1)).isSome

/-- The thermal ceiling of a core, and for a pair of M3 the lower of its two. -/
def Mach.ceil_ (m : Mach) (c : Nat) : Nat :=
  let h := m.get (R.weir_core_ceil c)
  if m.baseMode = 3 ∧ m.get (R.core_state_pair c) < 48 then min h (m.get (R.weir_core_ceil (m.get (R.core_state_pair c)))) else h

/-- Lower the common frequency until the busy cores fit (R564). -/
def Mach.fitFreq (m : Mach) (room : Nat) : Nat → Nat → Nat
  | 0, f => f
  | n + 1, f =>
    let total := ((List.range 48).filter m.busy).foldl (fun t c => t + Config.corePower c (min f (m.ceil_ c))) 0
    if 80 < f ∧ room < total then m.fitFreq room n (f - 1) else f

/-- Frequencies and core credits of an interval (R564, R565). -/
def Mach.setFreqs (m : Mach) (room : Nat) : Mach :=
  let f := if m.modeM5 then 200 else m.fitFreq room 144 m.topFreq
  (List.range 48).foldl (fun m c =>
    if (m.core c).park != .running then m.sets [(R.weir_core_ccred c, 0), (R.weir_core_trim c, 0)]
    else
      let fc := if m.busy c || m.modeM5 then min f (m.ceil_ c) else 80
      let fc := if fc - m.weir.off < 80 then 80 else fc - m.weir.off
      let cr := if m.busy c && !m.modeM5 then Config.corePower c fc * 250 * 105 / 100 * (if m.baseMode = 3 then 2 else 1) else 0
      m.sets [(R.weir_core_freq c, fc), (R.weir_core_ccred c, min cr 65535), (R.weir_core_trim c, 0)]) m

/-- A budget interval starts (R561 to R566): u and the average of the last interval, its peak, and whether its samples stayed 5 % or more below L. -/
def execBudgetInterval (u avg peak : Nat) (low : Bool) (s : State) : Host.Outcome State Fault Refusal :=
  ans (decide (u < 4096) && decide (avg < 4096) && decide (peak < 4096)) s fun m =>
    if m.frozen then m
    else
      let oldL := m.get R.weir_stat_inforce
      let m := if oldL * 101 < avg * 100 then (m.count R.weir_cnt_over).weirError 0xF3 0 0x3F avg 0xFFFF else m
      let L := m.limit
      let m := m.sets [(R.weir_stat_avg, avg), (R.weir_stat_noncore, u), (R.weir_stat_peak, peak), (R.weir_stat_inforce, L)]
      let off := if low then m.weir.off - 1 else m.weir.off
      let atFloor := ((List.range 48).filter m.busy).all fun c => m.get (R.weir_core_freq c) == 80
      -- the slots of the compression and cryptographic units (R388, R566)
      let slot := m.get (R.cmpu_rate_slot 0)
      let st := if low then max 256 (slot - 256) else if m.weir.off != 0 && atFloor && !m.modeM5 then min 1024 (slot + 256) else slot
      let m := m.sets ((List.range 4).map fun u => (R.cmpu_rate_slot u, st))
      let m := { m with weir := { m.weir with off := off } }
      let m := m.set R.weir_stat_throttle (b2n (off != 0))
      -- ceilings of cool cores rise (R568)
      let m := (List.range 48).foldl (fun m c =>
        if 8 ≤ m.get (R.weir_core_head c) then m.set (R.weir_core_ceil c) (min m.topFreq (m.get (R.weir_core_ceil c) + 1)) else m) m
      let m := if m.modeM5 then m else
        (List.range 64).foldl (fun m p => m.set (R.casc_part_st_credit p) ((L - u) * 250 * m.get (R.casc_part_ctl_share p) / 1024)) m
      m.setFreqs (L - u)

/-- A 1 µs sample (R562 to R566): module power, non-core power, and the energy in µJ of each thread (charged to its partition) and each core
(charged to its core credit). -/
def execPowerSample (watts noncore : Nat) (perThread perCore : List Nat) (s : State) : Host.Outcome State Fault Refusal :=
  ans (decide (watts < 4096) && decide (noncore < 4096) && perThread.all (· < 65536) && perCore.all (· < 65536)) s fun m =>
    if m.frozen then m
    else
      let L := m.get R.weir_stat_inforce
      let m := { m with weir := { m.weir with lastU := noncore } }
      -- fast throttle
      let above := decide (L < watts)
      let m := if above then
          (let m := { m with weir := { m.weir with off := m.weir.off + 1 } }
           (List.range 48).foldl (fun m c => m.set (R.weir_core_freq c) (max 80 (m.get (R.weir_core_freq c) - 1))) m)
        else m
      let m := m.set R.weir_stat_throttle (b2n (m.weir.off != 0))
      let m := if m.weir.off != 0 then m.count R.weir_cnt_thr else m
      if m.modeM5 then m
      else
        -- core credits and trimming (R565)
        let m := (List.range 48).foldl (fun m c =>
          let e := perCore.getD c 0
          if m.on (R.weir_core_trim c) then m.set (R.weir_core_freq c) (max 80 (m.get (R.weir_core_freq c) - 1))
          else if m.get (R.weir_core_ccred c) = 0 then m
          else if m.get (R.weir_core_ccred c) ≤ e then m.sets [(R.weir_core_ccred c, 0), (R.weir_core_trim c, 1)]
          else m.set (R.weir_core_ccred c) (m.get (R.weir_core_ccred c) - e)) m
        -- partition credits (R562)
        let m := (List.range 96).foldl (fun m t =>
          match m.vpOn t with
          | none => m
          | some vp => m.set (R.casc_part_st_credit (m.vpPart vp)) (BitVec.ofInt 32 (m.credit (m.vpPart vp) - perThread.getD t 0)).toNat) m
        -- an exhausted partition leaves its threads (R563)
        (List.range 64).foldl (fun m p =>
          let vs := (List.range 1024).filter fun v => m.vpSt v == 3 && m.vpPart v == p
          if vs != [] && decide (m.credit p ≤ 0) then (vs.foldl (fun m v => m.beginLeave v 2 2) m).cascError 0xF7 p 0xFFFF 0 else m) m

/-! ### Temperature (R567, R568) -/

/-- The signed temperature of a sensor, in 1/16 °C. -/
def Mach.tempOf (m : Mach) (n : Nat) : Int := sx 16 (m.get (R.weir_temp_temp n))

/-- The sensors of a core (R567). -/
def coreSensors (c : Nat) : List Nat := (List.range 4).map fun j => 64 * (c / 12) + 4 * (c % 12) + j

/-- The headroom of a core from its working sensors: 95 °C minus the hottest, in whole degrees, 0 when none works. -/
def Mach.headroom (m : Mach) (c : Nat) : Nat :=
  let ts := ((coreSensors c).filter fun n => !m.on (R.weir_temp_fail n)).map m.tempOf
  match ts with
  | [] => 0
  | t :: r => (max 0 ((95 * 16 - r.foldl max t) / 16)).toNat

/-- Lower the ceilings of some cores by 200 MHz. -/
def Mach.lowerCeil (m : Mach) (cs : List Nat) : Mach :=
  cs.foldl (fun m c => m.set (R.weir_core_ceil c) (max 80 (m.get (R.weir_core_ceil c) - 8))) m

/-- One sensor's reading: failure, and codes 0xF6, 0xF4 and 0xF1. -/
def Mach.readSensor (m : Mach) (n : Nat) (raw : Nat) (stale : Bool) : Mach :=
  if m.on (R.weir_temp_fail n) then m
  else
    let t := sx 16 raw
    let m := m.set (R.weir_temp_temp n) raw
    let core := if n < 256 ∧ n % 64 < 48 then 12 * (n / 64) + n % 64 / 4 else 0x3F
    if t < -40 * 16 ∨ 150 * 16 < t ∨ stale = true then (m.set (R.weir_temp_fail n) 1).weirError 0xF6 n core raw n
    else
      let m := if 105 * 16 ≤ t then m.weirError 0xF4 n core raw n else m
      if core = 0x3F ∧ 95 * 16 ≤ t then
        (let m := m.lowerCeil (if n < 256 then (List.range 12).map (12 * (n / 64) + ·) else List.range 48)
         let m := if m.modeM5 then m else m.sets ((List.range 4).map fun u => (R.cmpu_rate_slot u, 1024))
         m.weirError 0xF1 n core raw n)
      else m

/-- The sensors are read (every 10 µs) and the ceilings follow. -/
def execSensorReading (temps stale : List Nat) (s : State) : Host.Outcome State Fault Refusal :=
  ans (temps.all (· < 65536) && stale.all (· < 272)) s fun m =>
    if m.frozen then m
    else
      let m := ((temps.take 272).zipIdx).foldl (fun m x => m.readSensor x.2 x.1 (stale.contains x.2)) m
      (List.range 48).foldl (fun m c =>
        let h := m.headroom c
        let m := m.set (R.weir_core_head c) (min h 255)
        let m := if h = 0 then m.set (R.weir_core_ceil c) 80 else if h < 3 then m.lowerCeil [c] else m
        let m := m.set (R.weir_core_freq c) (if (m.core c).park == .running then min (m.get (R.weir_core_freq c)) (m.get (R.weir_core_ceil c)) else m.get (R.weir_core_freq c))
        if m.get (R.weir_core_park c) = 3 ∧ 10 ≤ h then m.set (R.weir_core_park c) 2 else m) m

/-! ### Parking (R569, R168, Table 5.9) -/

/-- Whether a core can change its power state: no episode, no swap, no work outstanding, buffers drained. -/
def Mach.drained (m : Mach) (c : Nat) : Bool :=
  let ok := fun (t : Nat) => (m.th t).sbuf.isEmpty && (m.th t).win.isEmpty && (m.th t).ep.isNone
  ok (2 * c) && ok (2 * c + 1) && (m.core c).comb.isEmpty && (m.core c).wpend.isEmpty && (m.core c).miss.isEmpty && (m.core c).swap.isNone

/-- Idle for parking: no virtual processor, and each thread vacant, held since boot, or a held thread in `wait`. -/
def Mach.idle (m : Mach) (c : Nat) : Bool :=
  !m.busy c && ([2 * c, 2 * c + 1].all fun t => match (m.th t).run with
    | .vacant => true | .held => true | .lost => true | .stopped => true
    | .physical => (m.th t).wait == .waitInsn
    | .placed _ => false)

/-- Write back and invalidate an L2 whole, the L1s with it, and drop its translation and walk caches (R49). -/
def Mach.flushL2 (m : Mach) (c : Nat) : Mach :=
  let k := m.core c
  let m := k.l2.foldl (fun m x => m.retire c x.2.line x.2.st x.2.data x.2.psn) m
  let m := (k.evb.filter fun e => !e.sent).foldl (fun m e => m.retire c e.line e.st e.data e.psn) m
  m.onCore c fun k => { k with l1i := [], l1d := [], l2 := [], evb := k.evb.filter (·.sent), holds := [], tlb := [], walk1 := [], walk2 := [], pf := [] }

/-- Deep park a drained core. -/
def Mach.deepPark (m : Mach) (c code : Nat) : Mach :=
  ((m.flushL2 c).onCore c fun k => { k with park := .deep }).set (R.weir_core_park c) code

/-- A core at headroom 0 for 1 ms: its virtual processors are taken off, and once they are gone it is deep-parked with code 0xF2 (R568). -/
def execThermalPark (core : Nat) (s : State) : Host.Outcome State Fault Refusal :=
  ans (decide (core < 48)) s fun m =>
    if m.frozen || m.get (R.weir_core_head core) != 0 || m.get (R.weir_core_park core) == 3 then m
    else if m.busy core then
      [2 * core, 2 * core + 1].foldl (fun m t => match m.vpOn t with
        | some vp => if m.vpSt vp = 3 ∨ m.vpSt vp = 4 then m.beginLeave vp (if m.vpSt vp = 4 then 4 else 2) 1 else m
        | none => m) m
    else
      let m := m.combFlush core
      if m.drained core then
        let hot := (coreSensors core).foldl (fun t n => max t (m.tempOf n)) (m.tempOf ((coreSensors core).headD 0))
        (m.deepPark core 3).weirError 0xF2 ((coreSensors core).headD 0) core (BitVec.ofInt 32 hot).toNat core
      else m

/-- An idle core is shallow-parked; in M4 there is no shallow step. -/
def execShallowPark (core : Nat) (s : State) : Host.Outcome State Fault Refusal :=
  ans (decide (core < 48)) s fun m =>
    if m.frozen || !m.idle core || m.baseMode == 4 || (m.core core).park != .running then m
    else
      let m := m.combFlush core
      if m.drained core then (m.onCore core fun k => { k with park := .shallow }).set (R.weir_core_park core) 1 else m

/-- A further idle time deep-parks the core (R569). -/
def execDeepPark (core : Nat) (s : State) : Host.Outcome State Fault Refusal :=
  ans (decide (core < 48)) s fun m =>
    if m.frozen || !m.idle core || !((m.core core).park == .shallow || (m.baseMode == 4 && (m.core core).park == .running)) || m.on (R.core_state_warm core) then m
    else
      let m := m.combFlush core
      if m.drained core then m.deepPark core 2 else m

/-- A parked core resumes for a placement or an interruption (R49). -/
def execCoreUnpark (core : Nat) (s : State) : Host.Outcome State Fault Refusal :=
  ans (decide (core < 48)) s fun m =>
    if m.frozen || !((m.core core).park == .shallow || (m.core core).park == .deep) || m.role core != 0 then m else m.unpark core

end Sys2Proof.Machine
end

