-- ==== Sys2Proof/Machine/Retry.lean ====
section
/-! DEFINITION. Checkpoint commit, run-ahead, retry and core sparing (spec/05), and the control store with its patches (spec/06). -/

namespace Sys2Proof.Machine

/-! ### Commit and run-ahead -/

/-- The share of a thread is full (R149). -/
def Mach.shareFull (m : Mach) (th : Nat) : Bool :=
  let t := m.th th
  decide ((m.share th).1 ≤ t.win.length) || decide ((m.share th).2 ≤ t.win.foldl (fun n k => n + k.uops) 0)

/-- A demand request of the thread is outstanding beyond its L2. -/
def Mach.waitsLine (m : Mach) (th : Nat) : Bool := (m.core (th / 2)).miss.any fun x => x.th == th && x.why == .demand

/-- Run-ahead begins (R158): its instructions change nothing that this state holds, and requests that they issue are prefetches (Table 5.2). -/
def execRunAheadEnter (th : Nat) (s : State) : Host.Outcome State Fault Refusal :=
  ans (decide (th < 96)) s fun m =>
    if m.executes th && m.shareFull th && m.waitsLine th then m.onTh th fun t => { t with runAhead := true } else m

/-- Run-ahead ends when the awaited line has arrived. -/
def execRunAheadEnd (th : Nat) (s : State) : Host.Outcome State Fault Refusal :=
  ans (decide (th < 96)) s fun m =>
    if m.frozen || m.waitsLine th then m else m.onTh th fun t => { t with runAhead := false }

/-! ### Choosing a replacement (R169, R184, R186) -/

def Mach.healthySpare (m : Mach) (c : Nat) : Bool := m.role c == 1 && (m.core c).swap.isNone && !(m.core c).flushing && !m.on (R.core_state_swap c)

/-- Distance between tiers: same, adjacent, opposite. -/
def tierDist (a b : Nat) : Nat := let d := (a / 12 + 4 - b / 12) % 4; if d = 3 then 1 else d

/-- A replacement in M3 other than `not`: an unpaired core of the tier, then a spare of the tier (R184). -/
def Mach.pairSpare (m : Mach) (c : Nat) (not : Option Nat) : Option Nat :=
  let near := (List.range 48).filter fun d => d / 12 == c / 12 && d != c && some d != not && !m.on (R.core_state_swap d)
  match near.find? fun d => m.role d == 0 && m.get (R.core_state_pair d) == 0x3F with
  | some d => some d
  | none => near.find? m.healthySpare

/-- The replacement for a core: the warm spare, then cold ones by tier and number; cores that M2 leaves unused come first at their distance.
In M3 an unpaired core of the tier, then a spare of the tier. -/
def Mach.replacement (m : Mach) (c : Nat) : Option Nat :=
  if m.baseMode = 3 then
    m.pairSpare c none
  else
    match (List.range 48).find? fun d => m.healthySpare d && m.on (R.core_state_warm d) with
    | some d => some d
    | none =>
      let idle2 := fun (d : Nat) => m.baseMode == 2 && m.role d == 0 && d != c && !m.m2Cores.contains d && !m.on (R.core_state_swap d)
      (List.range 3).findSome? fun dist =>
        let near := (List.range 48).filter fun d => tierDist d c == dist
        match near.find? idle2 with
        | some d => some d
        | none => near.find? m.healthySpare

/-! ### Swaps (R171 to R177) -/

/-- A thread that has state to move. -/
def Thread.present (t : Thread) : Bool := match t.run with
  | .placed _ => true | .physical => true | .stopped => true | _ => false

/-- The event part of a swap record (Table 20.3). -/
def swapExtra (src dst outcome cause delay excl : Nat) : List (Nat × Nat × Nat) :=
  [(0x10, 1, src), (0x11, 1, dst), (0x12, 1, outcome), (0x13, 1, cause), (0x14, 4, delay), (0x18, 4, excl)]

/-- A thread loses its state (outcome 5, R177). -/
def Mach.loseState (m : Mach) (th cause : Nat) : Mach :=
  let c := th / 2
  let vp := m.vpOn th
  let m := m.onTh th fun t => { Thread.init with run := .lost, removals := t.removals }
  let m := match vp with
    | some v => (m.setVp v 5 5).sets [(R.casc_thr_placed th, 0), (R.casc_thr_vp th, 0), (R.casc_vp_st_thread v, 0)]
    | none => m
  let m := m.set (R.core_err_outcome c) 5
  m.raise (32 * c + 15) (m.word (R.core_err c)) (some th) (swapExtra c 0x3F 5 cause 0 0)

/-- A thread goes to Cascade as a preempted virtual processor (R177); a physical thread loses its state. Its retired stores are performed. -/
def Mach.handOver (m : Mach) (th cause : Nat) : Mach :=
  let t := m.th th
  if !t.present then m
  else
    let m := (m.performStores t.sbuf).onTh th fun t => { t with sbuf := [] }
    match m.vpOn th with
    | none => m.loseState th cause
    | some vp =>
      let m := m.asyncExit th
      let m := m.saveFrame vp (m.th th).cur (m.th th).link
      let m := m.setTh th { Thread.init with run := .vacant, removals := t.removals, pendPhys := t.pendPhys }
      (m.sets [(R.casc_thr_placed th, 0), (R.casc_thr_vp th, 0), (R.casc_vp_st_thread vp, 0)]).setVp vp 2 1

/-- A core is marked failed (R34, R178), and the mark is carried to the next module reset (R626). -/
def Mach.markFailed (m : Mach) (c : Nat) : Mach :=
  m.sets [(R.core_state_role c, 2), (R.mode_fcarry_failed, m.get R.mode_fcarry_failed ||| 2 ^ c)]

/-- A core's threads are handed to Cascade, and the core is flushed (outcome 4). -/
def Mach.handOut (m : Mach) (c cause : Nat) : Mach :=
  let held := (m.vpOn (2 * c)).isSome || (m.vpOn (2 * c + 1)).isSome
  let lost := !held && ((m.th (2 * c)).present || (m.th (2 * c + 1)).present)
  let m := ((m.endHolds c).combFlush c).onCore c fun k => { k with swap := none, flushing := true, miss := [] }
  let m := (m.handOver (2 * c) cause).handOver (2 * c + 1) cause
  let m := m.sets [(R.core_err_outcome c, if lost then 5 else 4), (R.core_last_cause c, cause), (R.core_last_dest c, 0x3F), (R.core_state_swap c, 0)]
  let m := m.showEpisode c
  if held then m.raise (32 * c + 14) (m.word (R.core_err c)) none (swapExtra c 0x3F 4 cause 0 0) else m

/-- As `handOut`, the core being marked failed. -/
def Mach.handAll (m : Mach) (c cause : Nat) : Mach := (m.handOut c cause).markFailed c

/-- A capsule frame: the lowest free one of the nearest tier (R175). -/
def Mach.capsuleFrame (m : Mach) (c : Nat) : Nat :=
  let used := m.cores.filterMap fun x => x.2.swap.map (·.cap.frame)
  ((List.range 3).findSome? fun d => (List.range 16).find? fun f => tierDist (12 * (f / 4)) c == d && !used.contains f).getD 0

/-- The swap begins: both threads stop at their last commit, the capsule is built, and the flush begins (steps 1 to 4). -/
def Mach.beginSwap (m : Mach) (c dst cause : Nat) : Mach :=
  let stop := fun (m : Mach) (t : Nat) => m.onTh t fun x => { x.discard with ep := none, serial := false, paused := false, adWait := none, runAhead := false }
  let m := stop (stop m (2 * c)) (2 * c + 1)
  let t0 := m.th (2 * c)
  let t1 := m.th (2 * c + 1)
  let k := m.core c
  let cap : Capsule := ⟨c, dst, b2n t0.present + 2 * b2n t1.present, cause, m.tod, BitVec.ofNat 64 (m.word (R.core_err c)), t0.com, t1.com,
    t0.sbuf, t1.sbuf, k.comb, k.miss, m.capsuleFrame c⟩
  let m := m.onCore c fun k => { k with swap := some ⟨dst, cause, cap, false⟩, flushing := true, relMarks := [] }
  let m := (m.onCore dst fun k => { k with park := .running }).set (R.weir_core_park dst) 0
  (m.sets [(R.core_state_swap c, 1), (R.core_state_swap dst, 1)]).showEpisode c

/-- Core d takes the place of the partner b of a pair: it runs, is assignable, and no longer a warm spare (R184). -/
def Mach.joins (m : Mach) (d b : Nat) : Mach :=
  (m.onCore d fun k => { k with park := .running }).sets [(R.weir_core_park d, 0), (R.core_state_warm d, 0), (R.core_state_role d, 0),
    (R.core_state_pair b, 0x3F), (R.core_state_replaced_by b, d), (R.core_state_stands_for d, b)]

/-- A persistent error of a core (R169, R184, R185), which ends the hold times of its L2 (R283). -/
def Mach.persistent (m : Mach) (c : Nat) (atts : List Nat) : Mach :=
  let m := m.endHolds c
  if m.mode_ = 0 then
    let m := m.set R.mode_fcarry_failed (m.get R.mode_fcarry_failed ||| 2 ^ c)
    let m := if (m.th (2 * c)).present then m.loseState (2 * c) 1 else m
    m.callReset 2 (32 * c + 15)
  else if m.baseMode = 3 ∧ m.get (R.core_state_pair c) < 48 then
    let p := m.get (R.core_state_pair c)
    let bad := if atts = [c] then [c] else if atts = [p] then [p] else [c, p]
    match bad, m.replacement c with
    | [b], some d =>
      if b = c then m.beginSwap c d 3
      else
        -- the partner alone is replaced: the lead keeps its threads
        let m := (m.joins d b).sets [(R.core_state_pair c, d), (R.core_state_pair d, c), (R.core_last_cause b, 3), (R.core_last_dest b, d)]
        let m := (m.onCore b fun k => { k with flushing := true }).markFailed b
        let m := (m.onTh (2 * c) fun t => { t with ep := none, serial := false, paused := false }).onTh (2 * c + 1) fun t => { t with ep := none, serial := false, paused := false }
        ((m.set (R.core_err_outcome b) 3).showEpisode c).raise (32 * b + 14) (m.word (R.core_err b)) none (swapExtra b d 3 3 0 0)
    | [_, _], some d =>
      match m.pairSpare c (some d) with
      | some e =>
        let m := (m.joins e p).sets [(R.core_state_pair c, e), (R.core_state_pair e, c)]
        ((m.onCore p fun k => { k with flushing := true }).markFailed p).beginSwap c d 3
      | none => dissolve m c p bad
    | _, none => dissolve m c p bad
    | _, _ => m
  else
    match m.replacement c with
    | some d => m.beginSwap c d 1
    | none => m.handAll c 1
where
  /-- The pair is dissolved: its threads go to Cascade; a core found sound becomes unpaired and deep-parked (R185). -/
  dissolve (m : Mach) (c p : Nat) (bad : List Nat) : Mach :=
    let m := m.handOut c 3
    let m := m.sets [(R.core_state_pair c, 0x3F), (R.core_state_pair p, 0x3F), (R.core_state_lead c, 0), (R.mode_stat_units, m.get R.mode_stat_units - 1)]
    let m := if bad.contains p then (m.onCore p fun k => { k with flushing := true }).markFailed p else m.deepPark p 2
    if bad.contains c then m.markFailed c else (m.onCore c fun k => { k with flushing := false }).deepPark c 2

/-! ### Retry (R165) -/

/-- An error attributed to a thread opens an episode, ends an attempt, or, after the third, is persistent. -/
def Mach.retryStep (m : Mach) (th code : Nat) (both : Bool) (checker : Option Nat) : Mach :=
  let c := th / 2
  let t := m.th th
  let other := 2 * c + 1 - th % 2
  match t.ep with
  | none =>
    let n := match t.win with | [] => 1 | k :: _ => k.n
    let m := (m.onTh th fun t => { t.discard with ep := some ⟨1, n, 0, both, code, checker.toList⟩, adWait := none }).coreErr c code (th % 2) 1 n 0 both
    m.showEpisode c
  | some ep =>
    let atts := match checker with | some x => if ep.atts.contains x then ep.atts else ep.atts ++ [x] | none => ep.atts
    if ep.attempts = 3 then
      let m := (m.onTh th fun t => { t.discard with ep := none, serial := false }).coreErr c code (th % 2) 3 ep.n 0 ep.both
      (m.onTh other fun t => { t with paused := false }).persistent c atts
    else
      let a := ep.attempts + 1
      let m := m.onTh th fun t => { t.discard with ep := some { ep with attempts := a, atts := atts }, serial := a == 3, adWait := none }
      let m := if ep.both then m else m.onTh other fun t => { t with paused := true }
      m.coreErr c code (th % 2) a ep.n 0 ep.both

/-- The second error of a control store word, or a golden copy that cannot be corrected (R194, R197): a precise machine check. -/
def Mach.controlStoreCheck (m : Mach) (th : Nat) : Mach :=
  let c := th / 2
  let m := (m.onTh th fun t => { t.discard with ep := none, serial := false, adWait := none }).onTh (2 * c + 1 - th % 2) fun t => { t with paused := false }
  let m := (m.set (R.core_cs_mc c) 1).showEpisode c
  (m.raiseCore c 26 (m.word (R.core_cs c)) (some th)).machineCheck th (32 * c + 26) true

/-- The lead of the pair that a core belongs to in M3, else the core itself. -/
def Mach.leadOf (m : Mach) (c : Nat) : Nat :=
  if m.baseMode = 3 ∧ m.get (R.core_state_pair c) < 48 ∧ !m.on (R.core_state_lead c) then m.get (R.core_state_pair c) else c

/-- The L1 way or translation-cache entry in error is invalidated (R162, codes 0x04 and 0x05 of Table 5.3); `cs` names it: source 0 the L1 way, another
the entry, by its number (log entry 18). -/
def Mach.badEntry (m : Mach) (core code : Nat) (cs : CsErr) : Mach :=
  if code ≠ 4 ∧ code ≠ 5 then m
  else m.onCore core fun k =>
    if cs.src ≠ 0 then { k with tlb := k.tlb.eraseIdx cs.addr }
    else if code = 4 then { k with l1i := tdel k.l1i cs.addr } else { k with l1d := tdel k.l1d cs.addr }

/-- A checker error (Table 5.3): `th` is 0 or 1 for one thread, 2 for both (R164). -/
def Mach.checkError (m : Mach) (core th code : Nat) (cs : CsErr) : Mach :=
  let c := m.leadOf core
  let ths := if th = 2 then [2 * c, 2 * c + 1] else [2 * c + th]
  if m.frozen || (m.core c).swap.isSome then m
  else if code = 0x10 then
    let m := (m.count (R.core_rty_corr core)).coreErr core 0x10 (th % 2) 0 0 1 false
    m.raiseCore core 10 (m.word (R.core_err core))
  else if code = 0x11 then
    let m := m.coreErr core 0x11 (th % 2) 0 0 5 (th == 2)
    let m := m.raiseCore core 11 (m.word (R.core_err core))
    let m := ths.foldl (fun m t => m.loseState t 1) m
    m.persistent c [core]
  else if code = 0x07 then
    let m := m.sets [(R.core_cs_addr core, cs.addr), (R.core_cs_seg core, cs.seg), (R.core_cs_src core, if cs.golden = 2 then 3 else cs.src), (R.core_cs_new core, 1)]
    if (m.core c).relMarks.contains (cs.addr, cs.src) ∨ cs.golden = 2 then ths.foldl (fun m t => m.controlStoreCheck t) m
    else
      let m := m.count (R.core_cs_reloads core)
      let m := m.onCore c fun k => { k with relMarks := k.relMarks ++ [(cs.addr, cs.src)] }
      let m := m.raiseCore core 24 (m.word (R.core_cs core)) (some (2 * c + th % 2))
      let m := if cs.golden = 1 then m.raiseCore core 25 (m.word (R.core_cs core)) else m
      (ths.filter fun t => (m.th t).present).foldl (fun m t => m.retryStep t 0x07 (th == 2) (some core)) m
  else
    let m := m.badEntry core code cs
    let m := m.raiseCore core code (m.word (R.core_err core)) (some (2 * c + th % 2))
    (ths.filter fun t => (m.th t).present).foldl (fun m t => m.retryStep t code (th == 2) (if code = 0x08 then none else some core)) m

/-- Whether Table 5.3 lists a code that a checker attributes to a checkpoint or the commit copy. -/
def checkCode (code : Nat) : Bool := decide (1 ≤ code ∧ code ≤ 9) || code == 0x10 || code == 0x11

def execCoreCheckError (core th code : Nat) (cs : CsErr) (s : State) : Host.Outcome State Fault Refusal :=
  ans (decide (core < 48) && decide (th < 3) && decide (code < 256) && cs.wf) s fun m => if checkCode code then m.checkError core th code cs else m

/-- The oldest checkpoint of a thread commits (R152), unless an injection has armed a checker of its core (R590). -/
def execCheckpointCommit (th : Nat) (s : State) : Host.Outcome State Fault Refusal :=
  ans (decide (th < 96)) s fun m =>
    if m.frozen || (m.core (th / 2)).swap.isSome then m
    else
      let (m, code) := m.verdict (32 * (th / 2)) 8 0
      if code = 0 ∨ (m.th th).win.isEmpty then ((m.commitOldest th).getD m).tryStop th
      else m.checkError (th / 2) (th % 2) code ⟨0, 0, 0, 0⟩

/-! ### Errors of the L2 and its eviction buffer (R262 to R264) -/

/-- A way is deleted: its line is written back or goes, and the way is not used again. -/
def Mach.deleteWay (m : Mach) (c key : Nat) : Mach :=
  match tfind (m.core c).l2 key with
  | none => m
  | some x =>
    let m := if x.st = .m then (m.evictWay c key).getD m else m.dropLine c x.line
    (m.onCore c fun k => { k with delWays := key :: k.delWays }).l2Error c 0x07 x.line (key % 16)

/-- Tag or state lost in both copies: a persistent error of the core, and the lines of the set that the directory gives this L2 are poisoned at
their home. -/
def Mach.setLost (m : Mach) (c set : Nat) : Mach :=
  let mine := m.home.dir.filter fun x => x.2.st == .x && x.1 % 1024 == set && bit x.2.vec (m.agentOf c)
  let m := mine.foldl (fun m x =>
    let m := m.setDir x.1 { x.2 with psn := true }
    match m.bsnFind x.1 with
    | some (k, w) => m.setBsn k { w with psn := true }
    | none => m) m
  let m := ((m.core c).l2.filter fun x => x.1 / 16 == set).foldl (fun m x => m.dropLine c x.2.line) m
  m.persistent (m.leadOf c) [c]

/-- What a checker of a way of the L2 finds (Table 8.8), or of entry `key` of its eviction buffer for code 6; 0 for nothing. -/
def Mach.l2Check (m : Mach) (c key code : Nat) : Mach :=
  if code = 6 then
    match (m.core c).evb[key % 16]? with
    | none => m
    | some e =>
      let m := if e.st = .m then m.onCore c fun k => { k with evb := updWhere (fun y => y.line == e.line) (fun y => { y with psn := true }) k.evb }
        else m.dropLine c e.line
      m.l2Error c 0x06 e.line (key % 16)
  else match tfind (m.core c).l2 key with
    | none => m
    | some x =>
      let way := key % 16
      match code with
      | 1 =>
        let n := tget (m.core c).wayErrs key 0 + 1
        let m := (m.onCore c fun k => { k with wayErrs := tset k.wayErrs key n }).l2Error c 0x01 x.line way
        if n = 16 then m.deleteWay c key else m
      | 2 | 3 =>
        if x.st = .m then
          let m := m.onCore c (·.setWay key { x with psn := true })
          ((m.evictWay c key).getD m).l2Error c 0x03 x.line way
        else (m.dropLine c x.line).l2Error c 0x02 x.line way
      | 4 => m.l2Error c 0x04 x.line way
      | 5 => (m.l2Error c 0x05 x.line way).setLost c (key / 16)
      | _ => m

/-- A fill that waits for a way of the set goes on, and the evicted lines of the set are offered to their home (R237); `code` is what the checkers of
the way named find. -/
def execL2Eviction (core set way code : Nat) (s : State) : Host.Outcome State Fault Refusal :=
  ans (decide (core < 48) && decide (set < 1024) && decide (way < 16) && decide (code < 7)) s fun m =>
    if m.frozen || (m.core core).swap.isSome then m
    else
      let (m, code) := m.verdict (32 * core + 15) 6 code
      let m := m.l2Check core (16 * set + way) code
      if (m.core core).swap.isSome then m
      else
        let m := m.finishAll core
        ((m.core core).evb.filter fun e => e.line % 1024 == set && !e.sent).foldl (fun m e => m.offer core e) m

/-- 1 ms of hang time without a commit (R163): only a thread that holds unretired work and waits for nothing. -/
def execHangTimerExpiry (th : Nat) (s : State) : Host.Outcome State Fault Refusal :=
  ans (decide (th < 96)) s fun m =>
    let t := m.th th
    if t.win.isEmpty || !m.executes th || m.waitsLine th then m else m.checkError (th / 2) (th % 2) 0x09 ⟨0, 0, 0, 0⟩

/-! ### The swap's later steps -/

/-- The replacement reads the capsule; `bad` bits name the sections whose CRC fails (header, threads 0 and 1, stores 0 and 1, combining, misses). -/
def execCapsuleRead (core bad : Nat) (s : State) : Host.Outcome State Fault Refusal :=
  ans (decide (core < 48) && decide (bad < 128)) s fun m =>
    match (m.core core).swap with
    | none => m
    | some w =>
      if m.frozen then m
      else
        let m := if bad = 0 then m else m.raiseCore core 12 (m.word (R.core_err core))
        let m := if bad.testBit 1 && (m.th (2 * core)).present then m.loseState (2 * core) w.cause else m
        let m := if bad.testBit 2 && (m.th (2 * core + 1)).present then m.loseState (2 * core + 1) w.cause else m
        if bad &&& 0x79 = 0 then m.onCore core fun k => { k with swap := some { w with read := true } }
        else (m.set (R.core_state_swap w.repl) 0).handAll core w.cause

/-- Move a reserved line, and a hold time that runs on it, from the old L2 to the new one (R173). -/
def Mach.moveLine (m : Mach) (c d : Nat) (line : Nat) : Mach :=
  match (m.core c).find line with
  | none => m
  | some (key, w) =>
    match m.fill d line w.st w.data w.psn 0 false with
    | none => m
    | some m =>
      let k := m.core c
      let m := m.setCore c { k.dropL1 line with
        l2 := tdel k.l2 key, holds := k.holds.filter (· != line), probes := k.probes.filter fun y => y.2.line != line }
      let m := m.onCore d fun y => { y with
        holds := if k.holds.contains line then y.holds ++ [line] else y.holds, probes := y.probes ++ k.probes.filter fun z => z.2.line == line }
      if m.homeOf (256 * line) = some m.modNo then m.setDir line (((m.dirE line).del (m.agentOf c)).add (m.agentOf d)) else m

/-- Thread h moves to its number on the replacement core. -/
def Mach.moveThread (m : Mach) (c d h : Nat) : Mach :=
  let a := 2 * c + h
  let b := 2 * d + h
  let m := match (m.th a).cur.resv with
    | some line =>
      if m.homeOf (256 * line) = some m.modNo ∧ (m.dirE line).has (m.agentOf c) = false then m.onTh a (·.lose line) else m.moveLine c d line
    | none => m
  let t := m.th a
  let m := (m.setTh b t).setTh a { Thread.init with run := .vacant }
  match t.run with
  | .placed vp => m.sets [(R.casc_thr_placed a, 0), (R.casc_thr_vp a, 0), (R.casc_thr_placed b, 1), (R.casc_thr_vp b, vp), (R.casc_vp_st_thread vp, b)]
  | _ => m

/-- The home waits for this core's answer to a probe of a line that a thread of the core holds reserved: step 6 comes after the answer. -/
def Mach.probesOut (m : Mach) (c : Nat) : Bool :=
  [2 * c, 2 * c + 1].any fun t => match (m.th t).cur.resv with
    | some line => (match tfind m.home.txn line with | some x => x.awaits.contains (m.agentOf c) | none => false)
    | none => false

/-- Misses are handed over, buffers loaded and the threads resume (steps 6 and 7); `delay` and `excl` are the swap delay and the external waits, in ns. -/
def execSwapResumption (core delay excl : Nat) (s : State) : Host.Outcome State Fault Refusal :=
  ans (decide (core < 48) && decide (delay < 2 ^ 24) && decide (excl < 2 ^ 24)) s fun m =>
    match (m.core core).swap with
    | none => m
    | some w =>
      if m.frozen || !w.read || m.probesOut core then m
      else
        let d := w.repl
        let k := m.core core
        let m := k.miss.foldl (fun m x => m.send 0x09 { noMsg with
          src := 64 * m.modNo + 55, dst := m.homeAgent x.line, tag := x.tag, line := x.line, req := m.agentOf core, aux := m.agentOf d }) m
        let m := m.onCore core fun k => { k with miss := [], comb := [], wpend := [], swap := none }
        let m := m.onCore d fun y => { y with miss := k.miss, comb := k.comb, wpend := k.wpend, park := .running }
        let m := { m with shoot := { m.shoot with done := tset (tdel m.shoot.done core) d (tget m.shoot.done d [] ++ tget m.shoot.done core []) } }
        let m := (m.moveThread core d 0).moveThread core d 1
        let pair : Nat := m.get (R.core_state_pair core)
        let m : Mach := m.sets [(R.core_state_replaced_by core, d), (R.core_state_stands_for d, core), (R.core_state_swap core, 0), (R.core_state_swap d, 0),
          (R.core_state_role d, 0), (R.core_state_warm d, 0), (R.core_state_lead d, m.get (R.core_state_lead core)),
          (R.core_last_excl core, excl), (R.core_last_delay core, delay), (R.core_last_dest core, d), (R.core_last_cause core, w.cause)]
        let m : Mach := if m.baseMode = 3 ∧ pair < 48 then m.sets [(R.core_state_pair d, pair), (R.core_state_pair pair, d), (R.core_state_pair core, 0x3F), (R.core_state_lead core, 0)] else m
        let m : Mach := if w.cause = 2 then m.sets [(R.core_swap_result core, 1), (R.core_swap_done core, 1), (R.core_swap_go core, 0)] else (m.markFailed core).set (R.core_err_outcome core) 3
        m.raise (32 * core + 14) (m.word (R.core_err core)) none (swapExtra core d 3 w.cause delay excl)

/-- The old L2's flush ends (R174), after its hold times and combining lines: every line is written back and its slot leaves every vector; the core is power-gated, and after a planned
swap a spare. -/
def execL2FlushComplete (core : Nat) (s : State) : Host.Outcome State Fault Refusal :=
  ans (decide (core < 48)) s fun m =>
    if m.frozen || !(m.core core).flushing || (m.core core).swap.isSome || (m.core core).holds != [] || (m.core core).comb != [] then m
    else
      let m := (m.endHolds core).flushL2 core
      let planned := m.get (R.core_last_cause core) == 2 && m.get (R.core_state_replaced_by core) != 0x3F
      let m := m.setCore core { Core.init with park := .gated, delWays := (m.core core).delWays, wayErrs := (m.core core).wayErrs, shoot := (m.core core).shoot, evb := (m.core core).evb }
      let m := if planned then m.set (R.core_state_role core) 1 else m.markFailed core
      m.set (R.weir_core_park core) 2

/-- The next lowest spare is warmed (R170). -/
def execSpareWarmed (core : Nat) (s : State) : Host.Outcome State Fault Refusal :=
  ans (decide (core < 48)) s fun m =>
    if m.frozen || !m.healthySpare core || (List.range 48).any fun d => (m.healthySpare d && decide (d < core)) || m.on (R.core_state_warm d) then m
    else (m.onCore core fun k => { k with park := .shallow, l1i := [], l1d := [], l2 := [] }).sets [(R.core_state_warm core, 1), (R.weir_core_park core, 1)]

/-- A write of `core.swap` (R179, Table 5.13). -/
def Mach.plannedSwap (m : Mach) (core val : Nat) : Mach :=
  if m.frozen then m else
  let m := if bit val 20 then m.set (R.core_swap_done core) 0 else m
  let m := m.set (R.core_swap_target core) (bits val 13 8)
  let refuse := fun (r : Nat) => m.sets [(R.core_swap_result core, r), (R.core_swap_done core, 1)]
  let tgt := bits val 13 8
  if !bit val 0 then m
  else if (m.core core).swap.isSome || m.on (R.core_state_swap core) || m.on (R.core_state_episode core) then refuse 5
  else if m.mode_ = 0 ∨ m.mode_ = 7 then refuse 4
  else if m.role core ≠ 0 then refuse 6
  else
    let go := fun (d : Nat) => (m.set (R.core_swap_go core) 1).beginSwap core d 2
    if tgt = 0x3F then (match m.replacement core with | some d => go d | none => refuse 3)
    else if !(List.range 48).any m.healthySpare then refuse 3
    else if tgt < 48 ∧ m.healthySpare tgt then go tgt
    else refuse 2

def execPlannedSwap (core val : Nat) (s : State) : Host.Outcome State Fault Refusal :=
  ans (decide (core < 48) && decide (val < 2 ^ 64)) s fun m => m.plannedSwap core val

/-! ### Patches (spec/06) -/

/-- Odd parity of a 20-bit segment (R189). -/
def oddParity (n : Nat) : Bool := (List.range 20).foldl (fun b i => b != n.testBit i) false

def be (bs : List Nat) (o n : Nat) : Nat := ofBytes ((bs.drop o).take n)

/-- The eight segments of a 160-bit microword have odd parity. -/
def wordParity (w : Nat) : Bool := (List.range 8).all fun s => oddParity (w / 2 ^ (20 * s) % 2 ^ 20)

/-- No value stands twice in a list. -/
def nodup (l : List Nat) : Bool := (l.zipIdx).all fun x => !((l.drop (x.2 + 1)).contains x.1)

/-- The match table at an offset: (base, patch RAM offset). -/
def matchTable (bs : List Nat) (o n : Nat) : List (Nat × Nat) := (List.range n).map fun i => (be bs (o + 8 * i) 2, be bs (o + 8 * i + 2) 2)
def patchWords (bs : List Nat) (o n : Nat) : List Nat := (List.range n).map fun i => be bs (o + 20 * i) 20

/-- The checks of Table 6.6 in order on the image at an address: a result code, or the patch with its level. -/
def Mach.checkPatch (m : Mach) (addr : Nat) : Nat ⊕ PatchIn :=
  if !m.inKind1 addr (addr + 63) ∨ (m.devRange .hub addr 64).isSome then .inl 4
  else
    let hd := m.devRead addr 64
    let len := be hd 0x18 4
    if !m.inKind1 addr (addr + max 64 len - 1) ∨ 67008 < len then .inl (if 67008 < len then 5 else 4)
    else
      let bs := m.devRead addr (max 64 len)
      let nc := be bs 0x10 2
      let mc := be bs 0x12 2
      let nh := be bs 0x14 2
      let mh := be bs 0x16 2
      let body := 0x40 + 8 * mc + 20 * nc + 8 * mh + 20 * nh
      let sig := (body + 7) / 8 * 8
      if be bs 0 4 ≠ 0x4E4B5043 ∨ be bs 4 2 ≠ 1 ∨ 2048 < nc ∨ 64 < mc ∨ 1024 < nh ∨ 32 < mh ∨ len ≠ sig + 4736 ∨ be bs 0xA 2 ≠ 0 ∨ be bs 0xC 4 = 0
          ∨ be bs 0x20 32 ≠ 0 then .inl 5
      else if be bs 6 2 ≠ 0x25B0 ∨ be bs 8 2 ≠ bits (m.word R.id_part) 31 16 then .inl 6
      else if !(Config.verify [0x6, 0] (bs.take sig ++ (bs.drop sig).take 96) && Config.verify [0x6, 1] (bs.take sig ++ (bs.drop (sig + 96)).take 4627)) then .inl 7
      else
        let cm := matchTable bs 0x40 mc
        let cw := patchWords bs (0x40 + 8 * mc) nc
        let hm := matchTable bs (0x40 + 8 * mc + 20 * nc) mh
        let hw := patchWords bs (0x40 + 8 * mc + 20 * nc + 8 * mh) nh
        if !(cw ++ hw).all wordParity then .inl 8
        else if !(nodup (cm.map (·.1)) && nodup (hm.map (·.1)) && cm.all (fun e => decide (e.1 < 24576) && decide (e.2 < 2048))
            && hm.all fun e => decide (e.1 < 16384) && decide (e.2 < 1024)) then .inl 9
        else .inr ⟨⟨cm, cw, hm, hw⟩, be bs 0xC 4⟩

/-- A write of `mode.patch` (R201). -/
def Mach.patchGo (m : Mach) (val : Nat) : Mach :=
  if m.frozen then m else
  let m := if m.sealed ∨ m.patchIn.isSome then m else m.set R.mode_patch_addr (bits val 51 3)
  let done := fun (r : Nat) => m.sets [(R.mode_patchst_result, r), (R.mode_patchst_done, 1)]
  if !bit val 0 then m
  else if m.patchIn.isSome then done 2
  else if m.sealed then done 3
  else match m.checkPatch (m.get R.mode_patch_addr * 8) with
    | .inl r => done r
    | .inr p => ({ m with patchIn := some p } : Mach).set R.mode_patch_go 1

def execPatchGo (val : Nat) (s : State) : Host.Outcome State Fault Refusal := ans (decide (val < 2 ^ 64)) s (·.patchGo val)

/-- The image is written to all stores (R199, R201). -/
def execPatchApplied (s : State) : Host.Outcome State Fault Refusal :=
  ans true s fun m =>
    match m.patchIn with
    | none => m
    | some p =>
      if m.frozen then m
      else ({ m with patch := some p.patch, patchIn := none } : Mach).sets [(R.mode_patch_go, 0), (R.mode_patchst_level, p.level),
        (R.mode_patchst_applied, 1), (R.mode_patchst_done, 1), (R.mode_patchst_result, 1)]

end Sys2Proof.Machine
end

