-- ==== Sys2Proof/Machine/Stop.lean ====
section
/-! DEFINITION. ERR_N (R580), the slots of the Sluice ring (Tables 9.9 and 9.10), and the domain checkstop (R299, R300, R587). -/

namespace Sys2Proof.Machine

/-! ### Service pins -/

/-- Service lands that the module drives, as `Out.pin` numbers them: ERR_N and MAINEN. -/
def pinErrN : Nat := 0
def pinMainEn : Nat := 1

/-- The error register 0x1001 (Table 23.5). -/
def Mach.errReg (m : Mach) : Nat :=
  b2n (m.on R.spill_errn_asserted)
    ||| (if (List.range 272).any fun n => !m.on (R.weir_temp_fail n) && decide ((95 * 16 : Int) ≤ sx 16 (m.get (R.weir_temp_temp n))) then 8 else 0)
    ||| (if m.od.passive then 16 else 0) ||| (if m.frozen then 128 else 0)

/-- An EMCY event (R600): up to 16 wait, oldest first; a further one is dropped and counted, saturated at 255. -/
def Mach.emcy (m : Mach) (code src act flags : Nat) : Mach :=
  if m.od.emcy.length < 16 then
    { m with od := { m.od with emcy := m.od.emcy ++ [⟨code, m.errReg, src, act, flags, m.tod⟩] } }
  else { m with od := { m.od with drops := min 255 (m.od.drops + 1) } }

/-- The indicators (R646): IND_FLT while ERR_N is asserted, the module is checkstopped, or a press was refused less than 2 s ago; IND_ID as
`mode.ind.id` says, with 0 on while the node is stopped, else blinking in M6. -/
def Mach.indShow (m : Mach) : Mach :=
  let id := m.get R.mode_ind_id
  m.sets [(R.mode_ind_flt, b2n (m.on R.spill_errn_asserted || m.frozen || m.mode.press)),
    (R.mode_ind_idst, if id ≠ 0 then id - 1 else if m.od.nmt = 3 then 1 else if m.mode_ = 6 then 2 else 0)]

/-- ERR_N is asserted, low; the first source since the last clear is kept, 0xFFF for checkstop, hub loss or injection (R580). -/
def Mach.assertErrn (m : Mach) (src : Nat) : Mach :=
  if m.on R.spill_errn_asserted then m
  else (m.sets [(R.spill_errn_first, src), (R.spill_errn_asserted, 1)]).emit (.pin pinErrN false) |>.indShow

/-! ### Slots -/

/-- An 80-bit slot (Table 9.9). -/
def slotWord (num kind orig vote pay : Nat) : Nat :=
  let b := (num % 256) <<< 60 ||| (kind % 16) <<< 56 ||| (orig % 4) <<< 54 ||| (vote % 16) <<< 50 ||| pay % 2 ^ 48
  10 <<< 76 ||| b <<< 8 ||| crc8 68 b

/-- A slot leaves on a ring (0 A, 1 B). -/
def Mach.sendSlot (m : Mach) (ring num kind orig vote pay : Nat) : Mach := m.emit (.frame 8 ring [slotWord num kind orig vote pay])

/-- The payload of CHK (Table 9.10). -/
def chkPay (cause md src : Nat) : Nat := cause % 256 ||| (md % 4) <<< 8 ||| (src % 4096) <<< 10

/-! ### Checkstop -/

/-- The module enters checkstop: the first cause stands in `aq.dom`, a drain and a quiesce end, STOP goes out with cause 1, ERR_N is asserted,
and everything but the time of day is frozen (R65, R300, R526, R587). -/
def Mach.freeze (m : Mach) (cause md src : Nat) : Mach :=
  if m.frozen then m
  else
    let m := if m.get R.aq_dom_chk_cause = 0 then m.sets [(R.aq_dom_chk_cause, cause), (R.aq_dom_chk_mod, md), (R.aq_dom_chk_src, src)] else m
    let m := (m.sendStops 1).assertErrn 0xFFF
    let m := m.sets [(R.mode_cur_drain, 0), (R.mode_cur_step, 0)]
    ({ m with sl := { m.sl with quiesce := none, out := [], wait := none }, mode := { m.mode with stage := 0, dom := false }, frozen := true } : Mach).indShow.emcy 0xFF02
      (if m.get R.aq_dom_chk_src = 0xFFF then 0xFFF else m.get R.aq_dom_chk_src) 6 0

/-- The Sluice ports carry slots: more than one module, and in use. -/
def Mach.sluiceUsed (m : Mach) : Bool := decide (1 < m.dsize) && m.on R.aq_sl_ctl_en

/-- A cause that this module detects (R299): CHK on both rings, then the freeze. -/
def Mach.checkstop (m : Mach) (cause src : Nat) : Mach :=
  if m.frozen then m
  else
    let pay := chkPay cause m.modNo src
    let num := m.tod / 8
    let m := if m.sluiceUsed then (m.sendSlot 0 num 0xF m.modNo 0 pay).sendSlot 1 num 0xF m.modNo 0 pay else m
    m.freeze cause m.modNo src

end Sys2Proof.Machine
end

