-- ==== Sys2Proof/Machine/Spillway.lean ====
section
/-! DEFINITION. The Spillway (spec/22, R573 to R590): sources, counting and escalation, reactions, block resets with their fences and consequential
marks, ERR_N, injection, and loss of the hub. -/

namespace Sys2Proof.Machine

/-! ### Sources (R573, R574) -/

/-- The block code of a source; the named sources of Tables 22.2 and 22.3 carry 0 (Table 22.6). -/
def codeOf (s : Nat) : Nat :=
  if s < 1536 then (let k := s % 32; if k ≤ 9 then k else if k ≤ 12 then k + 6 else if 16 ≤ k ∧ k ≤ 23 then k - 15 else 0)
  else if s < 1600 then 0x10 + s % 16
  else if s < 1616 then 0x30 + (s - 1600)
  else if s < 1808 then 0x40 + s % 16
  else if s < 1824 then 0x50 + (s - 1808)
  else if s < 2144 then 0x60 + s % 16
  else if s < 2160 then 0x70 + (s - 2144)
  else if s < 2176 then 0x80 + (s - 2160)
  else if s < 2256 then 0x90 + s % 16
  else if s < 2288 then 0xA0 + (s - 2256)
  else if s < 3312 then 0xB0 + (s - 2288) % 32
  else if s < 3600 then 0xD0 + s % 16
  else if s < 3616 then 0xE0 + (s - 3600)
  else if s < 3632 then 0xF0 + (s - 3616)
  else 0

/-- The fixed minimum in force (R578): Grotto code 0x82 has none while `grotto.ctl.noesc` is 1. -/
def Mach.minAct (m : Mach) (s : Nat) : Nat := if s = 2162 ∧ m.on R.grotto_ctl_noesc then 0 else minAction s

/-! ### Blocks (Table 22.5) -/

/-- The even port of a bonded pair holds the block (R20). -/
def Mach.ioOf (m : Mach) (p : Nat) : Nat := if m.jlBonded p then p / 2 * 2 else p

/-- The block that holds a source, if Table 22.5 lists one; channel codes 0xA0 and 0xA1 name their processor. -/
def Mach.srcBlock (m : Mach) (e : SpEvent) : Option Nat :=
  let s := e.src
  if s < 1536 then some (s / 32)
  else if s < 1616 then none
  else if s < 1808 then some (68 + (s - 1616) / 16)
  else if s < 1824 then none
  else if s < 2144 then some (48 + (s - 1824) / 16)
  else if s < 2176 then none
  else if s < 2240 then some (130 + (s - 2176) / 16)
  else if s = 2256 ∨ s = 2257 then some (134 + bits e.err.toNat R.chan_err_cp.hi R.chan_err_cp.lo)
  else if s < 2288 then none
  else if s < 3312 then some (80 + m.ioOf ((s - 2288) / 32))
  else if s < 3600 then some (112 + (s - 3312) / 16)
  else none

/-- The consequence set of a block (Table 22.5). -/
def Mach.blkMarks (m : Mach) (b : Nat) : List Nat :=
  if b < 48 then [1, 2, 3, 4, 5, 6, 7, 8, 9, 10, 13, 16, 17, 18, 19, 20, 21, 22, 24, 25, 29].map (32 * b + ·)
  else if b < 68 then [0, 2, 3, 4, 6].map (1824 + 16 * (b - 48) + ·)
  else if b < 80 then [0, 1, 2, 3, 6].map (1616 + 16 * (b - 68) + ·)
  else if b < 112 then
    if m.isRoot (b - 80) then ((List.range 14).filter (· != 11)).map (2288 + 32 * (b - 80) + 16 + ·)
    else (if m.jlBonded (b - 80) then [b - 80, b - 79] else [b - 80]).flatMap (fun p => (List.range 7).map (2288 + 32 * p + ·)) ++ [2258, 2259, 2260, 2261]
  else if b < 130 then [0, 1, 2, 3, 6].map (3312 + 16 * (b - 112) + ·) ++ [2282]
  else if b < 132 then [0, 1, 2].map (2176 + 16 * (b - 130) + ·) ++ [2249, 2250, 2251]
  else if b < 134 then [4, 5, 6, 7, 8].map (2176 + 16 * (b - 130) + ·) ++ [2249, 2250, 2251]
  else cpMarks

/-- Whether a marked event concerns the block: a code shared by several blocks has to name it in its error register (Table 22.5). -/
def Mach.namesBlk (m : Mach) (e : SpEvent) (b : Nat) : Bool :=
  let f := fun (x : Fld) => bits e.err.toNat x.hi x.lo
  if 2258 ≤ e.src ∧ e.src ≤ 2261 then m.ioOf (f R.chan_err_port) == b - 80
  else if e.src = 2256 ∨ e.src = 2257 then f R.chan_err_cp == b - 134
  else if 2249 ≤ e.src ∧ e.src ≤ 2251 then f R.aq_mtu_err_unit == b - 130
  else true

/-- The resets whose marks cover an event (R586). -/
def Mach.markers (m : Mach) (blks : Tab BlkReset) (e : SpEvent) : List BlkReset :=
  (blks.filter fun x => x.2.marks.contains e.src && m.namesBlk e x.1).map (·.2)

/-- `spill.src.st.cons` of the sources of a list, from the marks in force. -/
def Mach.showMarks (m : Mach) (l : List Nat) : Mach :=
  l.foldl (fun m s => m.set (R.spill_src_st_cons s) (b2n (m.spill.blks.any fun x => x.2.marks.contains s))) m

def Mach.setBlk (m : Mach) (b : Nat) (x : BlkReset) : Mach := { m with spill := { m.spill with blks := tset m.spill.blks b x } }

/-- The marks of a block end. -/
def Mach.dropMarks (m : Mach) (b : Nat) : Mach :=
  match tfind m.spill.blks b with
  | none => m
  | some x => ({ m with spill := { m.spill with blks := tdel m.spill.blks b } } : Mach).showMarks x.marks

/-- Whether a reset of a block is taken (R585): it is present, neither fenced nor under reset nor failed, and no other bar holds. -/
def Mach.mayReset (m : Mach) (b : Nat) : Bool :=
  !m.blkDown b &&
  (if b < 48 then
    (m.core b).swap.isNone && !(m.core b).flushing && !m.on (R.core_state_swap b) && m.role b != 2
      && !(m.mode_ == 0 && !((List.range 48).any fun c => c != b && m.role c != 2))
  else if b < 68 then
    (let gs := m.get (R.mem_grp_stat_state ((b - 48) / 5)); gs != 3 && gs != 4) && m.get (R.mem_port_stat_state (b - 48)) != 10
  else if b < 80 then
    (let p := b - 68
     !(m.get (R.aq_fab_stat_state p) == 6 && !((List.range 4).any fun t => 3 * t + p % 3 != p && m.get (R.aq_fab_stat_state (3 * t + p % 3)) == 6))
       && m.on (R.aq_fab_ctl_en p))
  else if b < 112 then m.isRoot (b - 80) || (m.jlChan (b - 80) && !(m.jlP (b - 80)).fenced)
  else if b < 130 then !(m.jlP (b - 80)).fenced
  else if b < 134 then true
  else bit (m.get R.chan_cpst_present) (b - 134))

/-- A block reset begins (R584, R586): counted, fenced, its consequence set marked; none where R585 bars it. A core's reset is its swap, without a
fence of its own; a processor that has stopped owes no replies. -/
def Mach.startReset (m : Mach) (b src : Nat) (errn : Bool) : Option Mach :=
  if !m.mayReset b then none
  else
    let marks := m.blkMarks b
    let m := (m.count (R.spill_blk_resets b)).sets [(R.spill_blk_src b, src), (R.spill_blk_state b, 1)]
    let m := (m.setBlk b ⟨errn, marks, false⟩).showMarks marks
    if b < 48 then
      some (if m.role b = 0 then m.persistent (m.leadOf b) [b] else m.handAll b 1)
    else if 134 ≤ b ∧ bit (m.get R.chan_cpst_stopped) (b - 134) then some (m.set (R.spill_blk_state b) 2)
    else some m

/-! ### Judging an event (R575 to R578, R581, R586) -/

/-- The source belongs to the block under repair (R53, R581). -/
def Mach.underRepair (m : Mach) (e : SpEvent) : Bool :=
  m.mode_ == 6 &&
  (match m.srcBlock e with
   | none => false
   | some b =>
     if b < 48 then false
     else if b < 68 then m.get (R.mem_port_stat_state (b - 48)) == 10 || m.memp.upReq.contains (b - 48) || (m.get (R.spill_blk_state b) == 1 && ((tfind m.spill.blks b).map (·.repair)).getD false)
     else if b < 80 then m.get (R.aq_fab_stat_state (b - 68)) == 10 || m.on (R.aq_fab_ctl_retrain (b - 68))
     else if b < 130 then (m.jlP (b - 80)).fenced || (m.jlP (b - 80)).upReq
     else false)

/-- A counted event (R575): W is added to B, and the source becomes severe when B exceeds (N − 1) × W. -/
def Mach.countSrc (m : Mach) (s : Nat) : Mach :=
  let w := max 1 (m.get (R.spill_src_ctl_w s))
  let n := m.get (R.spill_src_ctl_n s)
  let b := m.get (R.spill_src_st_bucket s) + w
  let m := (m.count (R.spill_src_cnt_count s)).set (R.spill_src_st_bucket s) b
  if n ≠ 0 ∧ (n - 1) * w < b then m.set (R.spill_src_st_severe s) 1 else m

/-- What the Spillway makes of an event: its action, its ERR_N bit, severe, consequential. -/
structure Verdict where
  ev : SpEvent
  act : Nat
  errn : Bool
  sev : Bool
  cons : Bool
  cnt : Nat
  bkt : Nat
deriving DecidableEq, Repr

/-- Judge one event against the marks at the start of its cycle. -/
def Mach.judge (blks : Tab BlkReset) (m : Mach) (e : SpEvent) : Mach × Verdict :=
  let s := e.src
  let mn := m.minAct s
  let ms := m.markers blks e
  let m := m.count R.spill_stat_events
  let done := fun (m : Mach) (act : Nat) (errn sev cons : Bool) =>
    let rep := m.underRepair e
    let act := if act = 7 then 6 else act
    (m, (⟨e, max mn (if rep then min act 2 else act), errn && !rep, sev, cons, m.get (R.spill_src_cnt_count s), m.get (R.spill_src_st_bucket s)⟩ : Verdict))
  if ms != [] && mn == 0 then
    let m := m.count (R.spill_src_cnt_cons s)
    done m (min 2 (m.get (R.spill_src_ctl_ord s))) (m.on (R.spill_src_ctl_ord_errn s) && ms.any (·.errn)) (m.on (R.spill_src_st_severe s)) true
  else
    let m := m.countSrc s
    -- an uncorrectable error of the counters of a source puts them to zero (Table 22.3, k = 6)
    let m := if s = 3638 then m.sets [(R.spill_src_st_bucket (e.err.toNat % 4096), 0), (R.spill_src_st_severe (e.err.toNat % 4096), 0)] else m
    let sev := m.on (R.spill_src_st_severe s)
    if sev then done m (m.get (R.spill_src_ctl_sev s)) (m.on (R.spill_src_ctl_sev_errn s)) true false
    else done m (m.get (R.spill_src_ctl_ord s)) (m.on (R.spill_src_ctl_ord_errn s)) false false

/-! ### Reactions (Table 22.4, R579, R582) -/

/-- Whether a core can take a machine check of no particular thread. -/
def Mach.mckCore (m : Mach) (c : Nat) : Bool := m.role c == 0 && !((m.core c).park == .deep || (m.core c).park == .gated)

/-- The thread that a machine check goes to (R579). -/
def Mach.mckThread (m : Mach) (e : SpEvent) : Option Nat :=
  if e.src < 1536 then some (e.thread.getD (2 * (e.src / 32)))
  else
    let t := m.get R.spill_cfg_mcthr
    if t < 96 && m.mckCore (t / 2) then some t else ((List.range 48).find? m.mckCore).map (2 * ·)

/-- A machine check becomes pending, merged into one that is pending already. -/
def Mach.pendMachineCheck (m : Mach) (th src : Nat) : Mach :=
  m.onTh th fun t => if t.pendMck.isSome then t else { t with pendMck := some (src, false) }

/-- The flags of Table 22.6, byte 0x13. -/
def Verdict.flags (v : Verdict) : Nat := b2n v.sev + 2 * b2n v.cons + 4 * b2n v.ev.inj + 8 * b2n v.errn

/-- The event part of a record (Table 22.6; Table 20.3 for core sources k = 14 and 15). -/
def Verdict.body (v : Verdict) (act blk : Nat) : List (Nat × Nat × Nat) :=
  if v.ev.src < 1536 ∧ (v.ev.src % 32 = 14 ∨ v.ev.src % 32 = 15) then v.ev.extra
  else
    [(0x10, 2, v.ev.src), (0x12, 1, codeOf v.ev.src), (0x13, 1, v.flags), (0x14, 1, act),
      (0x15, 1, blk), (0x18, 8, v.ev.err.toNat), (0x20, 4, v.cnt), (0x24, 4, v.bkt)]

/-- The record of an action, and the doorbell of action 2 (R582, Table 22.4). -/
def Mach.spillRecord (m : Mach) (v : Verdict) (act blk : Nat) : Mach :=
  let full := decide (256 ≤ (m.rill.kept.filter fun r => r.prod == 1).length)
  if m.on R.spill_cfg_rill_en && !full then
    let kind := if v.ev.src < 1536 ∧ (v.ev.src % 32 = 14 ∨ v.ev.src % 32 = 15) then 3 else 2
    m.stage 4 ⟨m.get R.spill_cfg_rill, kind, m.tod, v.body act blk, 1, true, decide (2 ≤ act)⟩
  else
    let m := if m.on R.spill_cfg_rill_en then m.count R.spill_stat_lost else m
    if 2 ≤ act then m.ring (m.get R.spill_cfg_src) else m

/-- The reaction of an event of a cycle whose highest action is 4 or less. -/
def Mach.react (m : Mach) (v : Verdict) : Mach :=
  if v.act = 4 then
    match (m.srcBlock v.ev).bind fun b => (m.startReset b v.ev.src v.errn).map fun m' => (b, m') with
    | some (b, m') => m'.spillRecord v 4 b
    | none => m.spillRecord v 2 0xFF
  else if v.act = 0 then m
  else
    let m := if v.act = 3 ∧ minAction v.ev.src ≠ 3 then (match m.mckThread v.ev with | some t => m.pendMachineCheck t v.ev.src | none => m) else m
    m.spillRecord v v.act 0xFF

/-- Insert an event before the first one of a higher source. -/
def insEvent (e : SpEvent) : List SpEvent → List SpEvent
  | [] => [e]
  | x :: r => if e.src < x.src then e :: x :: r else x :: insEvent e r

/-- The events of one hub cycle (R583). -/
def Mach.spillCycle (m : Mach) (l : List SpEvent) : Mach :=
  let blks := m.spill.blks
  let (m, vs) := (l.foldl (fun acc e => insEvent e acc) []).foldl
    (fun (x : Mach × List Verdict) e => let (m, v) := Mach.judge blks x.1 e; (m, x.2 ++ [v])) (m, [])
  let m := vs.foldl (fun m v => if v.errn then m.assertErrn (if v.ev.inj then 0xFFF else v.ev.src) else m) m
  let m := vs.foldl (fun m v => if v.errn ∨ (3 ≤ v.act ∧ v.act ≤ 5) then m.emcy 0xFF01 v.ev.src v.act v.flags else m) m
  let top := vs.foldl (fun a v => max a v.act) 0
  if 5 ≤ top then
    match vs.find? fun v => v.act == top with
    | some v => if top = 5 then m.callReset 2 v.ev.src else m.checkstop (if codeOf v.ev.src = 0 then 0xFE else codeOf v.ev.src) v.ev.src
    | none => m
  else vs.foldl (fun m v => m.react v) m

/-- The Spillway takes the n oldest events detected, and one that is detected now: source (a reserved number for none), error register, thread. -/
def execSpillwayEvent (n src ereg th : Nat) (s : State) : Host.Outcome State Fault Refusal :=
  ans true s fun m =>
    if m.frozen then m
    else
      let new := if srcExists src then [(⟨src, BitVec.ofNat 64 ereg, if th < 96 then some th else none, false, []⟩ : SpEvent)] else []
      ({ m with spill := { m.spill with inbox := m.spill.inbox.drop n } } : Mach).spillCycle (m.spill.inbox.take n ++ new)

/-! ### Buckets (R575, R576) -/

/-- The severe state ends where B is zero and `latch` is 0. -/
def Mach.severeEnd (m : Mach) (s : Nat) : Mach :=
  if m.get (R.spill_src_st_bucket s) = 0 ∧ ¬ m.on (R.spill_src_ctl_latch s) then m.set (R.spill_src_st_severe s) 0 else m

/-- A unit of the run of a source ends: B falls by one. -/
def execBucketUnitEnd (src : Nat) (s : State) : Host.Outcome State Fault Refusal :=
  ans (decide (src < 4096)) s fun m =>
    if m.frozen || m.get (R.spill_src_st_bucket src) == 0 then m
    else (m.set (R.spill_src_st_bucket src) (m.get (R.spill_src_st_bucket src) - 1)).severeEnd src

/-- A clear of `spill.src.st.severe` sets B to zero. -/
def Mach.severeClear (m : Mach) (s : Nat) : Mach := m.sets [(R.spill_src_st_severe s, 0), (R.spill_src_st_bucket s, 0)]

def execSevereClear (src : Nat) (s : State) : Host.Outcome State Fault Refusal :=
  ans (decide (src < 4096)) s fun m => if m.frozen then m else m.severeClear src

/-! ### Block resets (R584 to R586) -/

/-- A request of `spill.brst` is finished. -/
def Mach.brstDone (m : Mach) (r : Nat) : Mach :=
  { m with spill := { m.spill with brst := none } }.sets [(R.spill_brst_result, r), (R.spill_brst_done, 1), (R.spill_brst_go, 0)]

/-- A block's reset has ended; a request that waited for it is finished. -/
def Mach.blkEnded (m : Mach) (b r : Nat) : Mach := if m.spill.brst = some b then m.brstDone r else m

/-- `go` of `spill.brst`: a reset as if its source were 0xFFF; ignored while a request is unfinished. -/
def Mach.brstGo (m : Mach) (b : Nat) : Mach :=
  if m.on R.spill_brst_go then m
  else
    let m := m.sets [(R.spill_brst_block, b), (R.spill_brst_go, 1)]
    if 150 ≤ b then m.brstDone 2
    else if m.blkFailed b then m.brstDone 4
    else match m.startReset b 0xFFF false with
      | none => m.brstDone 3
      | some m' => { m' with spill := { m'.spill with brst := some b } }

def execBlockResetRequest (block : Nat) (s : State) : Host.Outcome State Fault Refusal :=
  ans (decide (block < 256)) s fun m => if m.frozen then m else m.brstGo block

/-- A unit goes down: accepted requests end with status 0x3F and active streams are discarded. -/
def Mach.unitDown (m : Mach) (u : Nat) : Mach :=
  (List.range 64).foldl (fun m i =>
    if (m.inst u i).q = [] ∧ (m.inst u i).stream = none then m
    else (Mach.endAll 0x3F u i 16 m).onInst u i fun x => { x with stream := none }) m

/-- The block goes down, and what is outstanding is forced (Table 22.5). -/
def Mach.forceBlk (m : Mach) (b : Nat) : Mach :=
  if b < 48 then m
  else if b < 68 then (m.losePort (b - 48) 7 0).memTrain (b - 48)
  else if b < 80 then m.fabTrain (b - 68)
  else if b < 112 ∧ m.isRoot (b - 80) then (m.enterContain (b - 80) 0).containRelease (b - 80)
  else if b < 130 then
    if m.jlUp (b - 80) then m.linkDown (b - 80) 0 else m.jlReset (b - 80) 0
  else if b < 134 then m.unitDown (b - 130)
  else m.cpStop (b - 134)

/-- The fence ends: its time is over, or no reply is owed. -/
def execFenceLimit (block : Nat) (s : State) : Host.Outcome State Fault Refusal :=
  ans (decide (block < 150)) s fun m =>
    if m.frozen || m.get (R.spill_blk_state block) != 1 then m
    else if ((tfind m.spill.blks block).map (·.repair)).getD false then
      -- a memory port that is powered down for repair (R312)
      (((m.set (R.spill_blk_state block) 0).dropMarks block).losePort (block - 48) 10 0).sets [(R.mem_port_ctl_down (block - 48), 0), (R.mem_port_stat_res (block - 48), 1)]
    else (m.set (R.spill_blk_state block) 2).forceBlk block

/-- Whether a block under reset has reached the end that Table 22.5 gives. -/
def Mach.resetOver (m : Mach) (b : Nat) : Bool :=
  if b < 48 then (m.core b).swap.isNone && !(m.core b).flushing && !m.on (R.core_state_swap b)
  else if b < 68 then m.get (R.mem_port_stat_state (b - 48)) == 6
  else if b < 80 then m.get (R.aq_fab_stat_state (b - 68)) == 6
  else if b < 112 ∧ m.isRoot (b - 80) then !m.on (R.pcie_p_stat_cont (b - 80))
  else if b < 130 then m.jlState (b - 80) == 6
  else true

/-- A core leaving reset as a spare's replacement, and a processor that restarts, run from the golden words and the applied patch set. -/
def execBlockResetComplete (block : Nat) (s : State) : Host.Outcome State Fault Refusal :=
  ans (decide (block < 150)) s fun m =>
    let st := m.get (R.spill_blk_state block)
    if m.frozen || !(st == 2 || (decide (block < 48) && st == 1)) || !m.resetOver block then m
    else
      let m := m.set (R.spill_blk_state block) 3
      let m := if 134 ≤ block then m.cpRun (block - 134) else m
      m.blkEnded block 1

/-- The limit of Table 22.5 passes: the block has failed, and stays fenced and down until module reset (R585). -/
def execBlockResetTimeout (block : Nat) (s : State) : Host.Outcome State Fault Refusal :=
  ans (decide (block < 150)) s fun m =>
    let st := m.get (R.spill_blk_state block)
    if m.frozen || !(st == 1 || st == 2) || ((tfind m.spill.blks block).map (·.repair)).getD false then m
    else
      let m := if st = 1 then m.forceBlk block else m
      let m := (m.set (R.spill_blk_state block) 4).dropMarks block
      let m := if 80 ≤ block ∧ block < 112 ∧ m.isRoot (block - 80) then m.enterContain (block - 80) 0
        else if 80 ≤ block ∧ block < 130 then (m.onJlP (block - 80) fun x => { x with fenced := true }).jlReset (block - 80) 10
        else if 48 ≤ block ∧ block < 68 then m.losePort (block - 48) 7 0
        else if 68 ≤ block ∧ block < 80 then m.fabDown (block - 68) 9 0
        else m
      let m := (m.raiseHub 9 block).blkEnded block 4
      if 134 ≤ block ∧ (m.cpOf 0).isNone then m.cpReviveOne else m

/-- 10 µs after the reset the marks expire (R586). -/
def execConsequentialMarkExpiry (block : Nat) (s : State) : Host.Outcome State Fault Refusal :=
  ans (decide (block < 150)) s fun m =>
    if m.frozen || m.get (R.spill_blk_state block) != 3 then m
    else (m.set (R.spill_blk_state block) 0).dropMarks block

/-! ### ERR_N, injection, loss of the hub -/

/-- `spill.errn.clr` releases ERR_N (R580). -/
def Mach.errnClear (m : Mach) : Mach :=
  if m.on R.spill_errn_asserted then ((m.set R.spill_errn_asserted 0).emit (.pin pinErrN true)).indShow.emcy 0 0xFFF 0 0 else m

def execErrnClear (s : State) : Host.Outcome State Fault Refusal := ans true s fun m => if m.frozen then m else m.errnClear

/-- The sources whose checkers this model has: core checks of a checkpoint, L2 and Basin ways, directory entries, pieces of memory, and the SRAM of the
accelerator units. -/
def hasChecker (s : Nat) : Bool :=
  if s < 1536 then (let k := s % 32; decide (1 ≤ k ∧ k ≤ 6) || k == 8 || decide (16 ≤ k ∧ k ≤ 21))
  else if s < 1600 then decide (1 ≤ s % 16 ∧ s % 16 ≤ 5)
  else if s < 1616 then decide (s ≤ 1603)
  else decide (2176 ≤ s ∧ s < 2208 ∧ s % 16 ≤ 1) || decide (2208 ≤ s ∧ s < 2240 ∧ (s % 16 = 4 ∨ s % 16 = 5))

/-- `go` of `spill.inj` (R590): only in M7; one injection is pending at a time. -/
def Mach.injGo (m : Mach) (mode src : Nat) : Mach :=
  if m.mode_ ≠ 7 then m.sets [(R.spill_inj_res, 2), (R.spill_inj_go, 0)]
  else if m.spill.inj.isSome then m.set R.spill_inj_res 3
  else
    let m := m.sets [(R.spill_inj_mode, mode), (R.spill_inj_src, src)]
    if mode = 1 ∧ hasChecker src then { m with spill := { m.spill with inj := some src } }.set R.spill_inj_go 1
    else
      let m := if srcExists src then { m with spill := { m.spill with inbox := m.spill.inbox ++ [⟨src, 0, none, true, []⟩] } } else m
      m.sets [(R.spill_inj_res, 1), (R.spill_inj_go, 0)]

def execFaultInjection (mode src : Nat) (s : State) : Host.Outcome State Fault Refusal :=
  ans (decide (mode < 4) && decide (src < 4096)) s fun m => if m.frozen then m else m.injGo mode src

/-- 100 µs without a heartbeat (R589): ERR_N, the reason of the reset, and a hub that does nothing more. -/
def execHubLost (s : State) : Host.Outcome State Fault Refusal :=
  ans true s fun m => 
    let m := (m.assertErrn 0xFFF).callReset 4 0
    ({ m with frozen := true, od := { m.od with hubLost := true } } : Mach).emcy 0xFF03 0xFFF 0 0

end Sys2Proof.Machine
end

