-- ==== Sys2Proof/Machine/Modes.lean ====
section
/-! DEFINITION. Operating modes and epoch boundaries (spec/02): requests, the drain, the boundary, and an abandoned drain; the concurrent-repair
button (R69, R646). -/

namespace Sys2Proof.Machine

/-! ### Identity words (R33, R34) -/

/-- Roles from a mask of assignable cores, a failed core keeping its role, and the identity words that follow from the roles. -/
def Mach.assignCores (m : Mach) (mask : Nat) : Mach :=
  let m := (List.range 48).foldl (fun m c => if m.role c = 2 then m else m.set (R.core_state_role c) (if bit mask c then 0 else 1)) m
  let n := fun (r : Nat) => ((List.range 48).filter fun c => m.role c == r).length
  let maskOf := fun (p : Nat → Bool) => (List.range 48).foldl (fun w c => if p c then w + 2 ^ c else w) 0
  m.sets [(R.id_cores_assign, n 0), (R.id_cores_spare, n 1), (R.id_cores_failed, n 2), (R.id_coremask_assignable, maskOf fun c => m.role c == 0),
    (R.id_healthmask_healthy, maskOf fun c => m.role c != 2)]

/-! ### Requests (R55, R56, R66 to R71) -/

/-- Table 2.3 from M1 to M6. -/
def Mach.reachable (m : Mach) (target : Nat) : Bool :=
  let cur := m.mode_
  if cur = 6 then target == m.get R.mode_cur_base
  else if target = 6 then decide (1 ≤ cur ∧ cur ≤ 5)
  else decide (1 ≤ cur ∧ cur ≤ 4) && decide (1 ≤ target ∧ target ≤ 4)

/-- A feature that a mode needs is absent (R56). -/
def Mach.modeAbsent (m : Mach) (target : Nat) : Bool := (target == 3 && !m.on R.id_mfeat_paired) || (target == 5 && !m.on R.id_mfeat_helnal)

/-- `mode.m2mask` names only assignable cores, and exactly half of them; zero selects the default (R51, Table 2.10). -/
def Mach.maskOk (m : Mach) (mask : Nat) : Bool :=
  let a := m.assignable
  mask == 0 || ((List.range 48).all (fun c => !bit mask c || a.contains c) && (a.filter fun c => bit mask c).length == a.length / 2)

/-- The base mode after a boundary. -/
def Mach.nextBase (m : Mach) (target : Nat) : Nat := if target = 6 then m.get R.mode_cur_base else target

/-- A core carries work (R178). -/
def Mach.carries (m : Mach) (c : Nat) : Bool := (m.th (2 * c)).present || (m.th (2 * c + 1)).present

/-- A drain is in progress, or an earlier request has not been accepted (R67). -/
def Mach.modeBusy (m : Mach) : Bool := m.mode.stage != 0 || m.sl.quiesce.isSome

/-- The result of Table 2.10 that refuses a request, or 0 for one that is accepted. -/
def Mach.reqCheck (m : Mach) (target cause : Nat) : Nat :=
  if m.modeBusy then 2
  else if m.mode_ = 0 ∨ m.mode_ = 7 then 3
  else if cause = 0 ∨ 4 < cause then 5
  else if cause = 1 ∧ target = m.mode_ then 5
  else if cause = 1 ∧ !m.reachable target then 3
  else if cause = 1 ∧ m.modeAbsent target then 4
  else if cause ≠ 1 ∧ target ≠ m.mode_ then 5
  else if cause = 2 ∧ (List.range 48).any fun c =>
      (bit (m.get R.weir_cstage_assign) c && m.role c == 2) || (!bit (m.get R.weir_cstage_assign) c && m.carries c) then 5
  else if cause = 3 ∧ 1024 < (List.range 64).foldl (fun n p => n + m.get (R.casc_part_ctl_nshare p)) 0 then 5
  else if (if cause = 1 then m.nextBase target else m.baseMode) = 2 ∧ !m.maskOk (m.get R.mode_m2mask_cores) then 0xA
  else 0

/-- A request is finished. -/
def Mach.modeDone (m : Mach) (r : Nat) : Mach := m.sets [(R.mode_stat_result, r), (R.mode_stat_done, 1), (R.mode_req_go, 0), (R.mode_req_cancel, 0)]

/-- A drain begins: what R71 latches, and step 1 of R60. Cascade stops dispatching, running virtual processors leave, combining buffers are written out
and debug stops end (R610). -/
def Mach.beginDrain (m : Mach) (target cause : Nat) (dom : Bool) : Mach :=
  let m := { m with mode := { m.mode with
    target := target, cause := cause, newMask := m.get R.mode_m2mask_cores, cstage := m.get R.weir_cstage_assign,
    nshare := (List.range 64).map fun p => m.get (R.casc_part_ctl_nshare p), eco := m.get R.mode_cfg_eco_cap, stage := 1, dom := dom } }
  let m := m.sets [(R.mode_cur_drain, 1), (R.mode_cur_step, 1), (R.mode_req_go, 0)]
  let m := ((List.range 96).filter fun t => (m.vpOn t).isSome).foldl (fun m t => m.endStop t 4) m
  let m := (List.range 1024).foldl (fun m v =>
    if m.vpSt v = 3 then m.beginLeave v 2 3 else if m.vpSt v = 4 ∧ (m.vpThread v).isSome then m.beginLeave v 4 0 else m) m
  (List.range 48).foldl (fun m c => m.combFlush c) m

/-- The drain is over; `mode.cur` shows none. -/
def Mach.endDrain (m : Mach) : Mach :=
  { m with mode := { m.mode with stage := 0, dom := false } }.sets [(R.mode_cur_drain, 0), (R.mode_cur_step, 0)]

/-- A token waits for an empty slot of the ring (R297). -/
def Mach.token (m : Mach) (kind pay : Nat) : Mach := { m with sl := { m.sl with out := m.sl.out ++ [(kind, pay)] } }

/-- What a quiesce token says of the request: `mode.req`'s low byte (log entry 32). -/
def reqPay (target cause : Nat) : Nat := target % 8 ||| (cause % 8) <<< 4

/-- A change of base mode in a domain of more than one module (R57). -/
def Mach.isDomain (m : Mach) (target cause : Nat) : Bool := decide (1 < m.dsize) && cause == 1 && target != 6 && m.mode_ != 6

/-- A request, from whichever requester: the result that refuses it, or 0. -/
def Mach.modeRequest (m : Mach) (target cause : Nat) : Mach × Nat :=
  match m.reqCheck target cause with
  | 0 =>
    if m.isDomain target cause then
      (({ m with sl := { m.sl with quiesce := some ⟨m.modNo, 1, target, cause, none⟩ } } : Mach).token 2 (reqPay target cause), 0)
    else (m.beginDrain target cause false, 0)
  | r => (m.sets [(R.mode_stat_result, r), (R.mode_stat_done, 1)], r)

/-- A cancel: it acts on a request that is pending, or on a drain in step 1, of this module (R68). -/
def Mach.modeCancel (m : Mach) (result : Nat) : Option Mach :=
  match m.sl.quiesce with
  | some q =>
    if q.orig = m.modNo ∧ (q.phase = 1 ∨ m.mode.stage = 1) then
      let m := if q.phase = 1 then { m with sl := { m.sl with out := m.sl.out.filter fun x => x.1 != 2 } } else m
      some ((({ m with sl := { m.sl with quiesce := some { q with phase := 5 } } } : Mach).token 6 (reqPay q.target q.cause)).endDrain.modeDone result)
    else none
  | none => if m.mode.stage = 1 then some (m.endDrain.modeDone result) else none

/-- A write of `mode.req` under a mask of written bits (Table 2.8). -/
def Mach.modeReqWrite (m : Mach) (val mask : Nat) : Mach :=
  if m.frozen then m else
  let k := val &&& mask
  let put := fun (m : Mach) (f : Fld) => m.set f ((m.get f &&& (7 ^^^ bits mask f.hi f.lo)) ||| bits k f.hi f.lo)
  let m := put (put m R.mode_req_cause) R.mode_req_target
  if bit k 9 then
    (if bit k 8 then (m.modeCancel 8).getD (m.modeDone 8) else (m.modeCancel 7).getD m)
  else if bit k 8 then
    (let (m, r) := m.modeRequest (m.get R.mode_req_target) (m.get R.mode_req_cause)
     if r = 0 ∧ m.mode.stage = 0 then m.set R.mode_req_go 1 else m)
  else m

def execModeRequest (val : Nat) (s : State) : Host.Outcome State Fault Refusal := ans (decide (val < 2 ^ 64)) s (·.modeReqWrite val (2 ^ 64 - 1))
def execModeCancel (val : Nat) (s : State) : Host.Outcome State Fault Refusal := ans (decide (val < 2 ^ 64)) s (·.modeReqWrite (setBits val 9 9 1) (2 ^ 64 - 1))

/-- A debounced change of the concurrent-repair button; a press requests M6, or in M6 its base mode, and a refused press lights IND_FLT for 2 s. -/
def execConcurrentRepairButton (pressed : Bool) (s : State) : Host.Outcome State Fault Refusal :=
  ans true s fun m =>
    let m := m.set R.mode_ind_crb (b2n pressed)
    if !pressed then m
    else if m.frozen then ({ m with mode := { m.mode with press := true } } : Mach).indShow
    else
      let (m, r) := m.modeRequest (if m.mode_ = 6 then m.get R.mode_cur_base else 6) 1
      if r = 0 then m else ({ m with mode := { m.mode with press := true } } : Mach).indShow

def execFaultIndicatorTimeout (s : State) : Host.Outcome State Fault Refusal :=
  ans true s fun m => ({ m with mode := { m.mode with press := false } } : Mach).indShow

/-! ### The drain (R60, R61) -/

/-- A step of the drain begins. -/
def Mach.drainStep (m : Mach) (k : Nat) : Mach := { m with mode := { m.mode with stage := k } }.set R.mode_cur_step k

/-- A thread whose retired stores belong to no virtual processor: firmware that runs on through the drain. -/
def Mach.isPhysical (m : Mach) (t : Nat) : Bool := (m.th t).run == .physical

/-- Step 1 is complete: no virtual processor is placed, and what they retired has drained. -/
def Mach.step1Over (m : Mach) : Bool :=
  ((List.range 96).all fun t => (m.vpOn t).isNone && (m.isPhysical t || (m.th t).sbuf.isEmpty)) &&
  (List.range 48).all fun c => ((m.core c).comb.all fun x => m.isPhysical x.th) && (m.core c).wpend.all fun x => m.isPhysical x.2.1

def execEpochDrainStep2 (s : State) : Host.Outcome State Fault Refusal :=
  ans true s fun m => if m.frozen || m.mode.stage != 1 || !m.step1Over then m else m.drainStep 2

/-- An operation stands at a journaled point (R60, R461). -/
def ChOp.journaled (x : ChOp) : Bool :=
  !x.unconf && (if x.st = 1 then x.run == .idle && x.due == .fetch else !(x.run == .cmd || x.run == .busy))

/-- Step 2 is complete: every channel program stands at its next journaled point. -/
def Mach.step2Over (m : Mach) : Bool := m.chan.ops.all fun x => x.2.journaled

def execEpochDrainStep3 (s : State) : Host.Outcome State Fault Refusal :=
  ans true s fun m => if m.frozen || m.mode.stage != 2 || !m.step2Over then m else m.drainStep 3

/-- Step 3 is complete: every queue of an instance is empty. -/
def Mach.step3Over (m : Mach) : Bool := m.acc.inst.all fun x => x.2.q.isEmpty

def execEpochDrainStep4 (s : State) : Host.Outcome State Fault Refusal :=
  ans true s fun m => if m.frozen || m.mode.stage != 3 || !m.step3Over then m else (m.drainStep 4).fireAll

/-- The writer's slots follow as `RILL_WRITER_SLOT`. -/
def execEpochDrainStep5 (s : State) : Host.Outcome State Fault Refusal :=
  ans true s fun m => if m.frozen || m.mode.stage != 4 then m else m.drainStep 5

/-- All five steps are complete: nothing staged has room to be written (R61). -/
def Mach.drainOver (m : Mach) : Bool := m.mode.stage == 5 && m.rillIdle

/-! ### The boundary (R63, Table 2.5) -/

/-- Pairs of M3 (R52): in each tier, assignable cores in ascending order two by two, the lower one leading; an odd one is deep-parked. -/
def Mach.formPairs (m : Mach) : List Nat → Mach
  | a :: b :: r => (m.sets [(R.core_state_pair a, b), (R.core_state_pair b, a), (R.core_state_lead a, 1)]).formPairs r
  | [a] => m.deepPark a 2
  | [] => m

/-- Cores in use and their pairs and parking under the mode in force (R51, R52, Table 2.1). -/
def Mach.arrangeCores (m : Mach) : Mach :=
  let m := (List.range 48).foldl (fun m c => m.sets [(R.core_state_pair c, 0x3F), (R.core_state_lead c, 0)]) m
  let a := m.assignable
  let m := a.foldl (fun m c => if (m.core c).park == .gated then m else m.unpark c) m
  match m.baseMode with
  | 3 =>
    let m := (List.range 4).foldl (fun m t => m.formPairs (a.filter fun c => c / 12 == t)) m
    m.set R.mode_stat_units ((a.filter fun c => m.on (R.core_state_lead c)).length)
  | 2 =>
    let u := m.m2Cores
    let m := (a.filter fun c => !u.contains c).foldl (fun m c => m.deepPark c 2) m
    m.set R.mode_stat_units u.length
  | 7 => m.set R.mode_stat_units ((List.range 48).filter fun c => m.role c != 2).length
  | _ => m.set R.mode_stat_units a.length

/-- Thermal ceilings when a mode change moves the top of the range (R568). -/
def Mach.moveCeils (m : Mach) (oldTop : Nat) : Mach :=
  let top := m.topFreq
  (List.range 48).foldl (fun m c =>
    let h := m.get (R.weir_core_ceil c)
    m.set (R.weir_core_ceil c) (if h = oldTop then top else min h top)) m

/-- No reservation is held at the start of an epoch. -/
def Mach.clearResv (m : Mach) : Mach :=
  let z := fun (a : Arch) => ({ a with resv := none } : Arch)
  { m with thr := m.thr.map fun (x : Nat × Thread) =>
      (x.1, { x.2 with cur := z x.2.cur, com := z x.2.com, win := x.2.win.map fun k => { k with fin := z k.fin } }) }

/-- What Weir starts an epoch with: no throttle offset, the limit in force, partition credits from the non-core power u, frequencies and core credits
(R561 to R565, Table 2.5). -/
def Mach.freshInterval (m : Mach) (u : Nat) : Mach :=
  let m := { m with weir := { m.weir with off := 0 } }
  let L := m.limit
  let m := m.sets [(R.weir_stat_throttle, 0), (R.weir_stat_inforce, L), (R.weir_stat_noncore, u)]
  let m := m.sets ((List.range 64).map fun p =>
    (R.casc_part_st_credit p, if m.modeM5 then 0 else (L - u) * 250 * m.get (R.casc_part_ctl_share p) / 1024))
  m.setFreqs (L - u)

/-- The record of a boundary (Table 20.3). -/
def Mach.epochRecord (m : Mach) (cause old new : Nat) : Mach :=
  if m.on R.mode_rill_en then
    m.stage 4 ⟨m.get R.mode_rill_rill, 1, m.tod, [(0x10, 8, m.get R.mode_epoch_count), (0x18, 1, cause), (0x19, 1, old), (0x1A, 1, new)], 0, true, false⟩
  else m

/-- What the cause has staged is applied (R59). -/
def Mach.applyStaged (m : Mach) (cause : Nat) : Mach :=
  match cause with
  | 2 => m.assignCores m.mode.cstage
  | 3 => m.sets ((List.range 64).map fun p => (R.casc_part_ctl_share p, m.mode.nshare.getD p 0))
  | 4 => match m.od.next with
    | some a => m.selWrite a
    | none => m
  | _ => m

/-- An epoch boundary: mode `new` with base `base`, a cause, and the non-core power of the interval that ends. -/
def Mach.boundary (m : Mach) (new base cause u : Nat) : Mach :=
  let old := m.mode_
  let oldTop := m.topFreq
  let wasM5 := m.modeM5
  let m := m.applyStaged cause
  let m := (m.count R.mode_epoch_count).sets [(R.mode_cur_cur, new), (R.mode_cur_base, base), (R.mode_cur_drain, 0), (R.mode_cur_step, 0),
    (R.mode_cause_cause, cause), (R.mode_cause_old, old), (R.mode_cause_tod, m.tod / 256)]
  let mask := if m.maskOk m.mode.newMask then m.mode.newMask else 0
  let m := { m with mode := { m.mode with m2mask := mask, stage := 0, dom := false }, sl := { m.sl with quiesce := none } }
  let m := m.arrangeCores.clearResv.moveCeils oldTop
  let m := { m with vp := m.vp.map fun (x : Nat × VpX) => (x.1, { x.2 with vt := 0, since := m.tod }) }
  let m := if m.modeM5 && !wasM5 then m.sets ((List.range 4).map fun k => (R.cmpu_rate_slot k, 256)) else m
  ((m.freshInterval u).countDeferred.chanResume.epochRecord cause old new).indShow

/-- The boundary of the request accepted. -/
def Mach.takeBoundary (m : Mach) (u : Nat) : Mach :=
  let cause := m.mode.cause
  let new := if cause = 1 then m.mode.target else m.mode_
  let base := if cause = 1 then m.nextBase m.mode.target else m.get R.mode_cur_base
  (m.boundary new base cause u).modeDone 1

def execEpochBoundary (u : Nat) (s : State) : Host.Outcome State Fault Refusal :=
  ans (decide (u < 4096)) s fun m => if m.frozen || m.mode.dom || !m.drainOver then m else m.takeBoundary u

/-- A drain is abandoned (R64). -/
def Mach.abandon (m : Mach) : Mach :=
  let k := m.mode.stage
  if k = 0 then m
  else (((m.endDrain.sets [(R.mode_stat_step, k)]).modeDone 6).raiseHub 2 k).countDeferred.chanResume

/-- `mode.cfg.drain_lim` passes; in a domain the limit is the requester's, and QABORT goes round (R297). -/
def execDrainTimeout (s : State) : Host.Outcome State Fault Refusal :=
  ans true s fun m =>
    if m.frozen || m.mode.stage == 0 then m
    else match m.sl.quiesce with
      | none => m.abandon
      | some q =>
        if q.orig ≠ m.modNo ∨ q.slot.isSome then m
        else
          let m := { m with sl := { m.sl with quiesce := some { q with phase := 5 }, out := [] } }
          (m.token 6 (reqPay q.target q.cause)).abandon

end Sys2Proof.Machine
end

