-- ==== Sys2Proof/Machine/Sluice.lean ====
section
/-! DEFINITION. The Sluice ring (spec/09, R294 to R300; R57, R630): slots, the time of day, domain quiesces, liveness, the forming of a domain, and CHK. -/

namespace Sys2Proof.Machine

/-- A slot leaves on its ring, or on the other one where this module turns it (R298). -/
def Mach.slotOut (m : Mach) (ring num kind orig vote pay : Nat) : Mach :=
  m.sendSlot (if m.sl.turn = some ring then 1 - ring else ring) num kind orig vote pay

/-- The vote of this module as a bit of a slot. -/
def Mach.voteBit (m : Mach) (yes : Bool) : Nat := if yes then 2 ^ m.modNo else 0

/-- Every module of the domain has voted. -/
def Mach.allVotes (m : Mach) (vote : Nat) : Bool := vote % 16 == 2 ^ m.dsize - 1

/-- A token that waits is written into an empty slot, and the slot leaves (R297). QCOMMIT names its own slot's number plus 16. -/
def Mach.emptySlot (m : Mach) (ring num : Nat) : Mach :=
  match m.sl.out, m.sl.wait with
  | (k, p) :: rest, none =>
    let pay := if k = 5 then (num + 16) % 256 else p
    let q := m.sl.quiesce.map fun q => if k = 5 then { q with phase := 4, slot := some pay } else q
    let m := { m with sl := { m.sl with out := rest, wait := some (k, pay, num % 256), quiesce := q } }
    m.slotOut ring num k m.modNo (if k = 2 then m.voteBit true else if k = 4 then m.voteBit m.drainOver else 0) pay
  | _, _ => m.slotOut ring num 0 0 0 0

/-- A slot that this module has dealt with goes on round the ring; module 0 takes off what it originated (R295). -/
def Mach.passOn (m : Mach) (ring num kind orig vote pay : Nat) : Mach :=
  if m.modNo = 0 ∧ (kind = 0 ∨ kind = 1 ∨ kind = 7 ∨ orig = 0) then m else m.slotOut ring num kind orig vote pay

/-- A slot whose contents are used up goes on empty. -/
def Mach.passEmpty (m : Mach) (ring num : Nat) : Mach := if m.modNo = 0 then m else m.emptySlot ring num

/-- The token written by this module has gone round (R297). -/
def Mach.tokenBack (m : Mach) (kind vote : Nat) : Mach :=
  let m := { m with sl := { m.sl with wait := none } }
  match m.sl.quiesce with
  | none => m
  | some q =>
    let next := fun (m : Mach) (phase k : Nat) =>
      ({ m with sl := { m.sl with quiesce := some { q with phase := phase } } } : Mach).token k (reqPay q.target q.cause)
    match kind with
    | 2 => if q.phase ≠ 1 then m
      else if m.allVotes vote then (next m 2 3).beginDrain q.target q.cause true else (next m 5 6).modeDone 9
    | 3 => if q.phase = 2 then next m 3 4 else m
    | 4 => if q.phase ≠ 3 then m else if m.allVotes vote then next m 4 5 else next m 3 4
    | 6 => { m with sl := { m.sl with quiesce := none } }
    | _ => m

/-- This module's token in a slot of the number it was written into, or another module's. -/
def Mach.token_ (m : Mach) (ring num kind orig vote pay : Nat) (f : Mach → Mach × Nat) : Mach :=
  if orig = m.modNo then (m.tokenBack kind vote).passEmpty ring num
  else
    let (m, v) := f m
    m.passOn ring num kind orig (vote ||| v) pay

def Mach.onQuiesce (m : Mach) (orig : Nat) (f : Quiesce → Mach) : Mach :=
  match m.sl.quiesce with
  | some q => if q.orig = orig then f q else m
  | none => m

/-- QREQ: the vote says whether this module would accept the request; one that meets a quiesce in progress gets none. -/
def Mach.qreq (m : Mach) (ring num orig vote pay : Nat) : Mach :=
  m.token_ ring num 2 orig vote pay fun m =>
    let target := pay % 8
    let cause := pay / 16 % 8
    if m.sl.quiesce.isSome then (m, 0)
    else
      let yes := m.reqCheck target cause == 0
      ({ m with sl := { m.sl with quiesce := some ⟨orig, 1, target, cause, none⟩ } }, m.voteBit yes)

def Mach.qdrain (m : Mach) (ring num orig vote pay : Nat) : Mach :=
  m.token_ ring num 3 orig vote pay fun m =>
    (m.onQuiesce orig fun q => if m.mode.stage ≠ 0 ∨ q.phase ≠ 1 then m
      else ({ m with sl := { m.sl with quiesce := some { q with phase := 2 } } } : Mach).beginDrain q.target q.cause true, 0)

def Mach.qpoll (m : Mach) (ring num orig vote pay : Nat) : Mach :=
  m.token_ ring num 4 orig vote pay fun m => (m, m.voteBit (m.mode.dom && m.drainOver))

def Mach.qcommit (m : Mach) (ring num orig vote pay : Nat) : Mach :=
  m.token_ ring num 5 orig vote pay fun m =>
    (m.onQuiesce orig fun q => { m with sl := { m.sl with quiesce := some { q with phase := 4, slot := some (pay % 256) } } }, 0)

def Mach.qabort (m : Mach) (ring num orig vote pay : Nat) : Mach :=
  m.token_ ring num 6 orig vote pay fun m =>
    (m.onQuiesce orig fun _ =>
      let m := if m.mode.dom then m.abandon else m
      { m with sl := { m.sl with quiesce := none } }, 0)

/-- TOD: the count is set to the payload plus the measured delay of the ring (R296). -/
def Mach.todSlot (m : Mach) (ring num pay : Nat) : Mach :=
  let locked := if ring = 0 then m.sl.lockA else m.sl.lockB
  if m.modNo = 0 then m
  else
    let m := if !locked then m else
      let want := pay + (if ring = 0 then m.sl.delayA else m.sl.delayB)
      let d := sx 48 (want + 2 ^ 48 - m.tod % 2 ^ 48)
      let m := { m with tod := (((m.tod : Int) + d) % 2 ^ 64).toNat }
      let m := m.set R.aq_sl_stat_tod_step (BitVec.ofInt 16 (max (-32768) (min 32767 d))).toNat
      if 16 < d.natAbs then m.aqError 0x54 32 0 else m
    m.passOn ring num 1 0 0 pay

/-- The words that a module compares and exchanges at formation: `aq.home`, base mode, and the region table. -/
def Mach.homeWords (m : Mach) : List Nat := (List.range 4).map fun n => m.word (R.aq_home n)

/-- The domain is formed (R630): the other modules' words, 37 for each in ascending order of module (four of `aq.home`, the base mode, sixteen base
and limit words of the region table), are compared and taken over. -/
def Mach.form (m : Mach) (peers : List Nat) : Mach :=
  let others := (List.range m.dsize).filter (· != m.modNo)
  let ports := others.all fun n => (List.range 12).any fun p => m.get (R.aq_fab_stat_state p) == 6 && m.get (R.aq_fab_stat_peer_mod p) == n
  if m.get R.aq_dom_joined ≠ 0 ∨ !ports ∨ peers.length ≠ 37 * others.length then m
  else
    let blocks := (List.range others.length).map fun i => (peers.drop (37 * i)).take 37
    let same := blocks.all fun b => b.take 4 == m.homeWords && b.getD 4 0 == m.baseMode
    let rgn := blocks.flatMap fun b => (List.range 16).map fun r => (b.getD (5 + 2 * r) 0, b.getD (6 + 2 * r) 0)
    let m := ({ m with sl := { m.sl with rgn := rgn, misses := [] } } : Mach).set R.aq_dom_joined (2 ^ m.dsize - 1)
    if same then m else m.aqError 0x35 32 0

/-- LIVE: the vote bit of a sealed module, the count of missing votes where the slot has gone round, and the forming of the domain (R298, R630). -/
def Mach.liveSlot (m : Mach) (ring num vote : Nat) (peers : List Nat) : Mach :=
  let vote := vote ||| m.voteBit (m.get R.mode_seal_state == 2)
  let m := if m.allVotes vote then m.form peers else m
  let m := if m.modNo ≠ 0 ∨ m.get R.aq_dom_joined = 0 then m else
    { m with sl := { m.sl with misses := (List.range m.dsize).foldl (fun t n => tset t n (if bit vote n then 0 else tget t n 0 + 1)) m.sl.misses } }
  m.passOn ring num 7 0 vote 0

/-- CHK is forwarded in its slot, and the module freezes (R300). -/
def Mach.chkSlot (m : Mach) (ring num orig pay : Nat) : Mach :=
  (m.slotOut ring num 0xF orig 0 pay).freeze (pay % 256) (pay / 256 % 4) (pay / 1024 % 4096)

/-- An arriving slot (R295): without sync it is no slot; one whose CRC fails is discarded and counted, and a token of this module that was in it is
written again. -/
def Mach.slotIn (m : Mach) (ring w : Nat) : Mach :=
  let num := bits w 75 68
  let lost := fun (m : Mach) => match m.sl.wait with
    | some (k, p, n) => if n = num then { m with sl := { m.sl with wait := none, out := (k, p) :: m.sl.out } } else m
    | none => m
  if bits w 79 76 ≠ 10 then m
  else if crc8 68 (bits w 75 8) ≠ w % 256 then
    (lost ((m.count R.aq_sl_stat_crcerr).aqError 0x53 32 0)).passEmpty ring num
  else
    let orig := bits w 63 62
    let vote := bits w 61 58
    let pay := bits w 55 8
    match bits w 67 64 with
    | 0 => (lost m).passEmpty ring num
    | 1 => m.todSlot ring num pay
    | 2 => m.qreq ring num orig vote pay
    | 3 => m.qdrain ring num orig vote pay
    | 4 => m.qpoll ring num orig vote pay
    | 5 => m.qcommit ring num orig vote pay
    | 6 => m.qabort ring num orig vote pay
    | 7 => m.liveSlot ring num vote []
    | 0xF => m.chkSlot ring num orig pay
    | k => m.passOn ring num k orig vote pay

/-- A command about a slot of a ring: the Sluice ports are in use. -/
def slotCmd (ring num orig vote pay : Nat) (s : State) (f : Mach → Mach) : Host.Outcome State Fault Refusal :=
  ans (decide (ring < 2) && decide (num < 256) && decide (orig < 4) && decide (vote < 16) && decide (pay < 2 ^ 48)) s fun m =>
    if m.frozen || !m.sluiceUsed then m else f m

def execQreq (ring num orig vote pay : Nat) (s : State) : Host.Outcome State Fault Refusal := slotCmd ring num orig vote pay s (·.qreq ring num orig vote pay)
def execQdrain (ring num orig vote pay : Nat) (s : State) : Host.Outcome State Fault Refusal := slotCmd ring num orig vote pay s (·.qdrain ring num orig vote pay)
def execQpoll (ring num orig vote pay : Nat) (s : State) : Host.Outcome State Fault Refusal := slotCmd ring num orig vote pay s (·.qpoll ring num orig vote pay)
def execQcommit (ring num orig vote pay : Nat) (s : State) : Host.Outcome State Fault Refusal := slotCmd ring num orig vote pay s (·.qcommit ring num orig vote pay)
def execQabort (ring num orig vote pay : Nat) (s : State) : Host.Outcome State Fault Refusal := slotCmd ring num orig vote pay s (·.qabort ring num orig vote pay)
def execTod (ring num pay : Nat) (s : State) : Host.Outcome State Fault Refusal := slotCmd ring num 0 0 pay s (·.todSlot ring num pay)
def execLive (ring num vote : Nat) (peers : List Nat) (s : State) : Host.Outcome State Fault Refusal := slotCmd ring num 0 vote 0 s (·.liveSlot ring num vote peers)
def execChk (ring num orig pay : Nat) (s : State) : Host.Outcome State Fault Refusal := slotCmd ring num orig 0 pay s (·.chkSlot ring num orig pay)

/-- The slot that QCOMMIT has named begins: the boundary is taken (R297). -/
def execQuiesceBoundarySlot (u : Nat) (s : State) : Host.Outcome State Fault Refusal :=
  ans (decide (u < 4096)) s fun m =>
    match m.sl.quiesce with
    | some q => if m.frozen || q.slot.isNone || m.mode.stage != 5 then m else m.takeBoundary u
    | none => m

/-- Module 0 originates a slot on both rings every 8 ns: TOD in every 32nd, LIVE in every 128th, else a token that waits, or an empty slot (R295). -/
def execSluiceSlotOriginate (s : State) : Host.Outcome State Fault Refusal :=
  ans true s fun m =>
    if m.frozen || !m.sluiceUsed || m.modNo != 0 || decide (m.boot.phase < 3) then m
    else
      let n := m.tod / 8
      let put := fun (m : Mach) (ring : Nat) =>
        if n % 32 = 0 then m.slotOut ring n 1 0 0 (m.tod % 2 ^ 48)
        else if n % 128 = 16 then m.slotOut ring n 7 0 (m.voteBit (m.get R.mode_seal_state == 2)) 0
        else m.emptySlot ring n
      put (put m 0) 1

def execSluiceSlotForward (ring w : Nat) (s : State) : Host.Outcome State Fault Refusal :=
  ans (decide (ring < 2) && decide (w < 2 ^ 80)) s fun m => if m.frozen || !m.sluiceUsed then m else m.slotIn ring w

/-- A module has missed `miss_lim` LIVE slots in a row: it is dead (R298). -/
def execMissedLiveSlots (md : Nat) (s : State) : Host.Outcome State Fault Refusal :=
  ans (decide (md < 4)) s fun m =>
    if m.frozen || !m.sluiceUsed || m.get R.aq_dom_joined == 0 || decide (tget m.sl.misses md 0 < max 2 (m.get R.aq_sl_ctl_miss_lim)) then m
    else m.aqError 0x52 32 0

/-- Four slots without sync at this module's input (`near`), or at the next module's, so that this module turns the broken ring's slots (R298). The rules
of loss apply in a formed domain (R630). -/
def execSluiceInputLost (ring : Nat) (near : Bool) (s : State) : Host.Outcome State Fault Refusal :=
  ans (decide (ring < 2)) s fun m =>
    if m.frozen || !m.sluiceUsed then m
    else if !near then (if m.sl.turn.isSome then m else ({ m with sl := { m.sl with turn := some ring } } : Mach).set R.aq_dom_fold 1)
    else if m.on (if ring = 0 then R.aq_sl_stat_lost_a else R.aq_sl_stat_lost_b) then m
    else
      let m := m.set (if ring = 0 then R.aq_sl_stat_lost_a else R.aq_sl_stat_lost_b) 1
      let m := { m with sl := if ring = 0 then { m.sl with lockA := false } else { m.sl with lockB := false } }
      let both := m.on R.aq_sl_stat_lost_a && m.on R.aq_sl_stat_lost_b
      let m := if both then m.set R.aq_dom_sl_up 0 else m
      if m.get R.aq_dom_joined = 0 then m
      else if both then (m.aqError 0x51 32 0).checkstop 0x51 0xFFF
      else if m.on R.aq_dom_fold then m.aqError 0x51 32 0
      else (m.set R.aq_dom_fold 1).aqError 0x50 32 0

/-- A cause of R299 is detected. -/
def execDomainCheckstop (cause src : Nat) (s : State) : Host.Outcome State Fault Refusal :=
  ans (decide (cause < 256) && decide (src < 4096)) s (·.checkstop cause src)

/-- A receiver locks onto its ring, and the module measures its delay from module 0 (R296, R631). -/
def execSluiceReceiverLock (ring delay : Nat) (s : State) : Host.Outcome State Fault Refusal :=
  ans (decide (ring < 2) && decide (delay < 65536)) s fun m =>
    if m.frozen || !m.sluiceUsed || decide (m.boot.phase < 3) then m
    else
      let m := { m with sl := if ring = 0 then { m.sl with lockA := true, delayA := delay } else { m.sl with lockB := true, delayB := delay } }
      m.sets [(if ring = 0 then R.aq_sl_stat_lost_a else R.aq_sl_stat_lost_b, 0), (R.aq_dom_sl_up, 1)]

end Sys2Proof.Machine
end

