-- ==== Sys2Proof/Machine/Boot.lean ====
section
/-! DEFINITION. Power-up, reset, boot and boot seal (spec/24), and the supplies (R636, R638). -/

namespace Sys2Proof.Machine

/-! ### Supplies and the frame's signals (R617, R636, R638) -/

/-- V_AO enters its range: a power-on reset (R617, Table 24.1). The flash, the levels of the inputs, what was sent, and the free-value counter stand. -/
def execPowerOnReset (s : State) : Host.Outcome State Fault Refusal :=
  ans true s fun m => { Mach.reset with seed := m.seed, sent := m.sent, boot := { Mach.reset.boot with
      pwrgd := m.boot.pwrgd, resetN := m.boot.resetN, flash := m.boot.flash } }

/-- V_AO below 2.7 V: the always-on domain stops, and with it everything; MAINEN is no longer asserted. -/
def execVAoLoss (s : State) : Host.Outcome State Fault Refusal :=
  ans true s fun m =>
    let m := if m.boot.mainen then m.emit (.pin pinMainEn false) else m
    { m with frozen := true, boot := { m.boot with vao := false, mainen := false, phase := 0 } }

def execMainenAssert (s : State) : Host.Outcome State Fault Refusal :=
  ans true s fun m =>
    if m.boot.vao && !m.boot.mainen then ({ m with boot := { m.boot with mainen := true } } : Mach).emit (.pin pinMainEn true) else m

/-- The reset sequence has begun: the module is not held in reset. -/
def Mach.begun (m : Mach) : Bool := decide (2 ≤ m.boot.phase)

/-- An external module reset of a module that runs (R617); the reason is 3 when it ends a checkstop (R587). -/
def Mach.externalReset (m : Mach) : Mach :=
  if !m.begun then m
  else if m.frozen && !m.od.hubLost then m.callReset 3 (m.get R.aq_dom_chk_src)
  else m.callReset 1 0xFFF

def execPwrgdRise (s : State) : Host.Outcome State Fault Refusal := ans true s fun m => { m with boot := { m.boot with pwrgd := true } }

def Mach.pwrgdFall (m : Mach) : Mach := ({ m with boot := { m.boot with pwrgd := false } } : Mach).externalReset

def execPwrgdFall (s : State) : Host.Outcome State Fault Refusal := ans true s (·.pwrgdFall)

/-- A reference that stops or drifts while PWRGD is high is handled as a fall of PWRGD (R638). -/
def execReferenceClockLoss (s : State) : Host.Outcome State Fault Refusal := ans true s fun m => if m.boot.pwrgd then m.pwrgdFall else m

def execResetNChange (level : Bool) (s : State) : Host.Outcome State Fault Refusal :=
  ans true s fun m =>
    let m : Mach := { m with boot := { m.boot with resetN := level } }
    if level then m else m.externalReset

/-- The set point of a rail in mV; V_IN and V_AO have limits of their own (Tables 25.1 and 25.2). -/
def Mach.setPoint (m : Mach) (rail : Nat) : Nat :=
  if rail < 50 then Config.coreVolt (rail - 2) (m.get (R.weir_core_freq (rail - 2)))
  else if rail < 55 then 750 else if rail = 55 then 850 else if rail = 56 then 800 else 1200

/-- Whether a sample in mV lies in the operating range, and in the absolute range, of a rail. -/
def Mach.inRange (m : Mach) (rail mv : Nat) : Bool × Bool :=
  match rail with
  | 0 => (decide (11400 ≤ mv) && decide (mv ≤ 12600), decide (10800 ≤ mv) && decide (mv ≤ 13200))
  | 1 => (decide (3135 ≤ mv) && decide (mv ≤ 3465), decide (3000 ≤ mv) && decide (mv ≤ 3600))
  | _ =>
    let p := m.setPoint rail
    (decide (97 * p ≤ 100 * mv) && decide (100 * mv ≤ 103 * p), decide (94 * p ≤ 100 * mv) && decide (100 * mv ≤ 106 * p))

/-- A report of R636: kind 1 a warning (module source k = 7), 2 a fault (k = 8). -/
def Mach.supplyReport (m : Mach) (rail kind mv : Nat) : Mach :=
  let m := m.sets [(R.weir_supply_mv, mv), (R.weir_supply_rail, rail), (R.weir_supply_kind, kind), (R.weir_supply_new, 1)]
  m.raiseHub (6 + kind) (m.word R.weir_supply)

/-- One sample of a rail (R636). -/
def Mach.railSample (m : Mach) (rail mv : Nat) : Mach :=
  let x := tget m.boot.rails rail ⟨0, 0, 0, false, false⟩
  let (op, ab) := m.inRange rail mv
  let y : Excursion := { x with
    outRun := (if op then 0 else min (x.outRun + 1) 10),
    inRun := (if op then min (x.inRun + 1) 100 else 0),
    absRun := (if ab then 0 else min (x.absRun + 1) 3) }
  let begins := !x.now && y.outRun == 10
  let y : Excursion := if begins then { y with now := true, fault := false } else if x.now && y.inRun == 100 then { y with now := false, fault := false } else y
  let breaks := y.now && y.absRun == 3 && !y.fault
  let y : Excursion := if breaks then { y with fault := true } else y
  let m : Mach := { m with boot := { m.boot with rails := tset m.boot.rails rail y } }
  let m := if begins then m.supplyReport rail 1 mv else m
  if breaks then m.supplyReport rail 2 mv else m

/-- One sample instant: values in mV of the rails from number 0 on, the lower rail first. -/
def execSupplyExcursion (mv : List Nat) (s : State) : Host.Outcome State Fault Refusal :=
  ans true s fun m => if m.frozen || !m.boot.vao then m else (mv.take 58).zipIdx.foldl (fun m (x : Nat × Nat) => m.railSample x.2 x.1) m

/-! ### Module reset (R618 to R620) -/

/-- Slots are powered off at a module reset (R511, R620). -/
def Mach.slotsOff (m : Mach) : Mach :=
  (List.range 32).foldl (fun m p => if m.on (R.pcie_p_stat_pwr p) then (m.slotPin p 1 false).slotPin p 0 false else m) m

/-- What a module reset clears and keeps (Table 24.1). Memory behind the buffers keeps what was written to it, the directory region included. -/
def Mach.moduleReset (m : Mach) : Mach :=
  let z : Mach := { Mach.reset with
    mem := m.mem, tod := m.tod, seed := m.seed, sent := m.sent,
    home := { Mach.reset.home with dir := m.home.dir },
    acc := { Mach.reset.acc with recs := m.acc.recs, ctxs := m.acc.ctxs },
    boot := { Mach.reset.boot with
      pwrgd := m.boot.pwrgd, resetN := m.boot.resetN, mainen := m.boot.mainen, flash := m.boot.flash, rails := m.boot.rails } }
  (z.sets [(R.spill_rcause, m.word R.spill_rcause), (R.spill_errn, m.word R.spill_errn), (R.mode_fcarry, m.word R.mode_fcarry),
    (R.mode_ind_crb, m.get R.mode_ind_crb)]).indShow

/-- A module reset that has been called for runs (R620): CHK to a formed domain, STOP on the coupling ports, slots off, then the reset. After the loss
of the hub nothing is sent. -/
def execModuleReset (s : State) : Host.Outcome State Fault Refusal :=
  ans true s fun m =>
    match m.boot.pendReset with
    | none => m
    | some (cause, src) =>
      let m :=
        if cause = 4 then m
        else
          let pay := chkPay 0xFF m.modNo src
          let num := m.tod / 8
          let m := if m.get R.aq_dom_joined ≠ 0 ∧ !m.frozen then (m.sendSlot 0 num 0xF m.modNo 0 pay).sendSlot 1 num 0xF m.modNo 0 pay else m
          (if m.frozen then m else m.sendStops 2).slotsOff
      m.moduleReset

/-! ### The sequence (Table 24.2) -/

/-- S: the straps are sampled (R617, R645). -/
def execResetSequenceStart (module dsz node : Nat) (ftestN : Bool) (s : State) : Host.Outcome State Fault Refusal :=
  ans (decide (module < 4) && decide (dsz < 4) && decide (node < 128)) s fun m =>
    if m.boot.phase ≠ 1 ∨ !m.boot.pwrgd ∨ !m.boot.resetN then m
    else
      ({ m with boot := { m.boot with ftestN := ftestN, phase := 2 } } : Mach).sets
        [(R.id_place_module, module), (R.id_place_dsize, dsz + 1), (R.id_place_can_node, node)]

/-- Identity words after `mode.fcarry` (R626): a failed core that was assignable is replaced by a spare in the order of R169. -/
def Mach.applyCarry (m : Mach) : Mach :=
  let fail := (List.range 48).filter fun c => bit (m.get R.mode_fcarry_failed) c && m.role c != 2
  let lost := fail.filter fun c => m.role c == 0
  let m := m.sets (fail.map fun c => (R.core_state_role c, 2))
  let m := lost.foldl (fun m c =>
    match (List.range 3).findSome? fun d => (List.range 48).find? fun k => m.role k == 1 && tierDist k c == d with
    | some k => m.set (R.core_state_role k) 0
    | none => m) m
  m.assignCores ((List.range 48).foldl (fun w c => if m.role c = 0 then w + 2 ^ c else w) 0)

/-- S + 1 ms: identity words, and training of memory and fabric ports. -/
def execPllLock (s : State) : Host.Outcome State Fault Refusal :=
  ans true s fun m =>
    if m.boot.phase ≠ 2 then m
    else
      let m := ({ m with boot := { m.boot with phase := 3 } } : Mach).applyCarry
      let m := (List.range 20).foldl (fun m p => m.memTrain p) m
      if 1 < m.dsize then (List.range 12).foldl (fun m p => if m.on (R.aq_fab_ctl_en p) then m.fabTrain p else m) m else m

/-- S + 1.5 ms: the boot ROM and the service controller start. -/
def execBootRomStart (s : State) : Host.Outcome State Fault Refusal :=
  ans true s fun m => if m.boot.phase ≠ 3 then m else { m with boot := { m.boot with phase := 4 }, od := { m.od with nmt := 0 } }

/-! ### Images (R624, R625) -/

/-- The result of R625 for an image that `rd` reads: 0 for a valid one, else its first failed check; with its length. -/
def Mach.imageCheck (m : Mach) (rd : Nat → Nat → List Nat) (type : Nat) : Nat × Nat :=
  let h := rd 0 64
  let f := fun (o n : Nat) => ofBytes ((h.drop o).take n)
  let len := f 0x10 4
  let entry := f 0x14 4
  if f 0 4 ≠ 0x4E4B4649 ∨ f 4 2 ≠ 1 ∨ f 6 1 ≠ type ∨ f 7 1 ≠ 0 ∨ f 0xE 2 ≠ 0 ∨ f 0x18 40 ≠ 0 ∨ len > 33554432 ∨ len < 0x40 + 7432 ∨ len % 8 ≠ 0
      ∨ entry < 0x40 ∨ len - 7432 ≤ entry ∨ entry % 4 ≠ 0 then (2, len)
  else if f 8 2 ≠ 0x25B0 ∨ f 0xA 2 ≠ bits (m.word R.id_part) 31 16 then (3, len)
  else if !Config.verify [0x25, 1] (toBytes 48 (ofBytes (sha384 (rd (len - 7432) 2696)))) then (4, len)
  else if !Config.verify [0x25, 2] (rd 0 len) then (5, len)
  else if f 0xC 2 < m.get R.mode_boot_minsvn then (6, len)
  else (0, len)

/-- Boot code starts at F, in the state of R627. -/
def Mach.startBoot (m : Mach) (area entry : Nat) : Mach :=
  match m.bootThread with
  | none => m
  | some th =>
    let a := ((({ Arch.reset with ia := BitVec.ofNat 64 (0x000FD00000000000 + entry) } : Arch).setG 1 0x000FD00000000000).setG 2 (BitVec.ofNat 64 area))
    m.onTh th fun t => { t with run := .physical, cur := a, com := a, win := [] }

/-- An area has been read into the boot scratch and checked (R627): boot code starts, the other area is tried, or none is left. -/
def execBootAreaChecked (readErr : Bool) (s : State) : Host.Outcome State Fault Refusal :=
  ans true s fun m =>
    if m.boot.phase ≠ 4 then m
    else
      let resF := fun (a : Nat) => if a = 0 then R.mode_boot_resa else R.mode_boot_resb
      let first := m.selArea
      let second := m.on (resF first)
      let a := if second then 1 - first else first
      let rd := fun (o n : Nat) => m.flashRd (areaBase a + o) n
      let (r, len) := if readErr then (7, 0) else m.imageCheck rd 1
      if r = 0 then
        let svn := ofBytes (rd 0xC 2)
        let d := sha384 (rd 0 (len - 4736))
        let m := m.sets ([(resF a, 1), (R.mode_boot_area, a), (R.mode_boot_svn, svn)] ++
          (List.range 6).map fun k => (R.mode_meas_digest k, ofBytes ((d.drop (8 * k)).take 8)))
        ({ m with boot := { m.boot with phase := 5, scratch := [] } } : Mach).startBoot a (ofBytes (rd 0x14 4))
      else if second then
        let m := m.sets [(resF a, r), (R.mode_boot_area, 3)]
        let m : Mach := { m with boot := { m.boot with phase := 5 } }
        match m.bootThread with
        | some th => m.onTh th fun t => { t with run := .stopped }
        | none => m
      else m.sets [(resF a, r), (R.mode_boot_fb, 1)]

/-! ### The directory sweep (R622) -/

def execDirectorySweep (s : State) : Host.Outcome State Fault Refusal :=
  ans true s fun m =>
    if m.frozen || m.boot.phase < 3 || m.sealed || m.on R.mode_boot_sweep || m.home.sweeping || !m.groupsReady then m
    else ({ m with home := { m.home with sweeping := true } } : Mach).sets ((List.range 4).map fun g => (R.mem_grp_stat_state g, 1))

/-- The sweep ends: entries of groups not initialised since the reset are in state U with no agent, and keep their poison. -/
def execDirectorySweepComplete (s : State) : Host.Outcome State Fault Refusal :=
  ans true s fun m =>
    if m.frozen || !m.home.sweeping then m
    else
      let swept := fun (line : Nat) => (List.range 4).any fun g => !m.memp.inited.contains g && m.dirIn g line
      let dir : Tab DirE := (m.home.dir.map fun (x : Nat × DirE) => if swept x.1 then (x.1, ({ x.2 with st := .u, vec := 0 } : DirE)) else x).filter fun x =>
        x.2 != ⟨.u, 0, false⟩
      let m := ({ m with home := { m.home with sweeping := false, dir := dir } } : Mach).sets
        ((R.mode_boot_sweep, 1) :: (List.range 4).map fun g => (R.mem_grp_stat_state g, if m.get (R.mem_grp_stat_lost g) = 7 then 2 else 3))
      let lines : List Nat := m.home.waitq.map fun y => y.2.line
      lines.eraseDups.foldl (fun m l => m.homeServe l (2 * m.home.waitq.length + 4)) m

/-! ### Boot seal (R628) -/

/-- Enabled region entries: number, first byte, byte after the last; an entry of kind 0 is ignored (Table 10.8). -/
def Mach.rgnEntries (m : Mach) : List (Nat × Nat × Nat) :=
  ((List.range 16).filter fun r => m.on (R.mem_rgn_base_en r) && m.get (R.mem_rgn_base_kind r) != 0).map fun r =>
    (r, m.get (R.mem_rgn_base_base r) * 2 ^ 20, (m.get (R.mem_rgn_lim_lim r) + 1) * 2 ^ 20)

def meets (a b c d : Nat) : Bool := decide (a < d) && decide (c < b)

/-- The checks of R324: result and entry at fault. -/
def Mach.rgnCheck (m : Mach) : Nat × Nat :=
  let l := m.rgnEntries
  let k2 := l.filter fun x => m.get (R.mem_rgn_base_kind x.1) == 2
  let two : Option Nat := match k2 with
    | [] => some 0
    | [a] => if a.2.1 = m.dirBase ∧ a.2.2 = m.myBase + m.mySize then none else some a.1
    | _ :: b :: _ => some b.1
  match two with
  | some b => (2, b)
  | none =>
    match l.find? fun x => l.any fun y => decide (x.1 < y.1) && meets x.2.1 x.2.2 y.2.1 y.2.2 with
    | some x => (3, x.1)
    | none =>
      match l.find? fun x => decide (x.2.1 < m.myBase) || decide (m.myBase + m.mySize < x.2.2) with
      | some x => (4, x.1)
      | none =>
        match l.find? fun x => decide (x.2.2 ≤ x.2.1) with
        | some x => (5, x.1)
        | none =>
          match l.find? fun x => decide (4 < m.get (R.mem_rgn_base_kind x.1)) with
          | some x => (6, x.1)
          | none => (1, 0)

/-- The seal enters M7 (R54). -/
def Mach.factory (m : Mach) : Bool := !m.boot.ftestN && m.dsize == 1

/-- The result that refuses a seal, or 1 (R628, Table 24.5). -/
def Mach.sealCheck (m : Mach) : Nat :=
  let t := m.get R.mode_req_target
  if m.sealed then 7
  else if m.rgnCheck.1 ≠ 1 then 2
  else if !m.groupsReady || !m.on R.mode_boot_sweep then 3
  else if !m.on (R.aq_home_en m.modNo) || 4 < m.get R.mem_cfg_cap || m.get (R.aq_home_size m.modNo) != 2 ^ (10 + m.get R.mem_cfg_cap) then 4
  else if m.patchIn.isSome then 5
  else if !((decide (1 ≤ t ∧ t ≤ 5) && !m.modeAbsent t) || (t == 7 && m.factory)) then 6
  else 1

/-- The whole of a range lies in one entry of a kind. -/
def Mach.inKind (m : Mach) (kind lo hi : Nat) : Bool :=
  m.rgnEntries.any fun x => m.get (R.mem_rgn_base_kind x.1) == kind && decide (x.2.1 ≤ lo) && decide (hi ≤ x.2.2)

/-- The check of the Cistern (R330), as `mem.cis.stat.cfg`. -/
def Mach.cisCheck (m : Mach) : Nat :=
  let ap := fun (n : Nat) => (m.get (R.mem_cis_ap_base n) * 2 ^ 30, (m.get (R.mem_cis_ap_base n) + m.get (R.mem_cis_ap_size n)) * 2 ^ 30)
  let aps := (List.range 4).filter fun n => m.on (R.mem_cis_ap_en n)
  let hit := fun (n lo hi : Nat) => meets (ap n).1 (ap n).2 lo hi
  let clash := fun (n : Nat) =>
    (aps.any fun k => k != n && hit n (ap k).1 (ap k).2)
      || ((List.range 4).any fun k => m.on (R.aq_home_en k) && hit n (m.get (R.aq_home_base k) * 2 ^ 30) ((m.get (R.aq_home_base k) + m.get (R.aq_home_size k)) * 2 ^ 30))
      || hit n 0x000fe00000000000 0x000fe00002000000 || hit n 0x000fe00010000000 0x000fe00018000000
      || (m.on R.pcie_ecam_en && hit n (m.get R.pcie_ecam_base * 2 ^ 33) ((m.get R.pcie_ecam_base + 1) * 2 ^ 33))
      || ((List.range 32).any fun p => m.on (R.pcie_p_mwin_en p)
        && hit n (m.get (R.pcie_p_mwin_base p) * 2 ^ 30) ((m.get (R.pcie_p_mwin_base p) + m.get (R.pcie_p_mwin_size p)) * 2 ^ 30))
  let lo := m.get R.mem_cis_pool_base * 2 ^ 20
  let hi := (m.get R.mem_cis_plim_lim + 1) * 2 ^ 20
  if !m.on R.mem_cis_ctl_en then 0
  else if !m.on R.id_mfeat_cistern then 2
  else if aps.any clash then 3
  else if !m.inKind 1 lo hi then 4
  else if hi < m.chunkBase + 65536 then 5
  else 1

/-- The Grotto starts, or stays disabled with its reason (R354 to R356). -/
def Mach.grottoStart (m : Mach) : Mach :=
  let off := fun (c : Nat) => m.set R.grotto_stat_cause c
  let k3 := m.rgnEntries.filter fun x => m.get (R.mem_rgn_base_kind x.1) == 3
  if !m.on R.grotto_ctl_en then off 1
  else if !m.on R.id_mfeat_grotto then off 2
  else if m.get R.id_mfeat_cry = 0 then off 8
  else match k3 with
    | [x] =>
      if x.2.2 - x.2.1 < 2 ^ 28 then off 4
      else if (m.imageCheck (fun o n => m.devRead (x.2.1 + o) n) 2).1 ≠ 0 then (off 5).grottoError 0x86 0
      else if m.rng = .absent then off 9
      else
        let (k, m) := m.draw
        ({ m with grotto := { m.grotto with monKey := k } } : Mach).sets [(R.grotto_stat_state, 2), (R.grotto_stat_cause, 0), (R.grotto_wd_left, 0x7D0)]
    | _ => off 3

/-- Mirror areas (R525): an enabled area that is not inside one kind-4 entry, or meets the Reservoir or the subchannel table, is disabled. -/
def Mach.mirCheck (m : Mach) (k : Nat) : Mach :=
  let lo := m.get (R.cpl_mir_base k) * 2 ^ 20
  let hi := lo + m.get (R.cpl_mir_size k) * 2 ^ 20
  let rlo := m.get R.chan_rsv_base_base * 2 ^ 20
  let rhi := (m.get R.chan_rsv_lim_lim + 1) * 2 ^ 20
  let sct := m.get R.chan_sct_base * 2 ^ 25
  if m.on (R.cpl_mir_en k) && (!m.inKind 4 lo hi || (m.on R.chan_rsv_base_en && meets lo hi rlo rhi) || (m.on R.chan_sct_en && meets lo hi sct (sct + 2 ^ 25))) then
    (m.set (R.cpl_mir_en k) 0).cplError 0xDB 0 0
  else m

/-- Personalities are fixed (R473): a port of no use reads state 11, a bonded pair is shown. -/
def Mach.fixPersonalities (m : Mach) : Mach :=
  let pers := fun (p : Nat) => m.get (R.chan_jl_ctl_pers (if m.jlBonded p then p / 2 * 2 else p))
  let m := m.sets (((List.range 32).filter fun p => pers p == 0 || pers p == 3).map fun p => (R.chan_jl_stat_state p, 11))
  m.set R.id_ioports_bonded ((List.range 16).foldl (fun w p => if m.on (R.chan_jl_ctl_bond (2 * p)) then w + 2 ^ p else w) 0)

/-- Step 4 of R628 for the Cistern, the Grotto, the subchannel table, the Reservoir, the PCIe windows, the target table and the mirror areas. -/
def Mach.sealUnits (m : Mach) : Mach :=
  let m := m.set R.mem_cis_stat_cfg m.cisCheck
  let m := m.grottoStart
  let sct := m.get R.chan_sct_base * 2 ^ 25
  let m : Mach := { m with chan := { m.chan with tableOk := m.on R.chan_sct_en && m.inKind 4 sct (sct + 2 ^ 25) } }
  let rs := m.rsvCheck
  let m := m.set R.chan_rsv_stat_cfg rs
  let m := if 1 < rs then m.rsvError 0xBD 0 else m
  let pr := m.pcieCheck
  let m := m.set R.pcie_ecam_res pr
  let m := if 1 < pr then (List.range 32).foldl (fun m p => if m.isRoot p then m.set (R.pcie_p_stat_state p) 5 else m) m else m
  let tt := m.get R.dbell_ttab_base * 2 ^ 23
  let m := m.set R.dbell_ttab_res (if !m.on R.dbell_ttab_en then 3 else if m.inKind 1 tt (tt + 2 ^ 23) then 1 else 2)
  let m := (List.range 4).foldl (fun m k => m.mirCheck k) m
  if rs = 1 then m.rsvScan else m

/-- Every other thread becomes vacant, the boot thread is held (R628, R629). -/
def Mach.sealThreads (m : Mach) : Mach :=
  let m := (List.range 96).foldl (fun m t => if (m.th t).run = .held then m.onTh t fun x => { x with run := .vacant } else m) m
  match m.bootThread with
  | some th => m.set (R.casc_thr_held th) 1
  | none => m

/-- `mode.seal.go` (R628). -/
def Mach.bootSeal (m : Mach) : Mach :=
  let r := m.sealCheck
  let c := m.rgnCheck
  let m := if m.sealed then m else m.sets [(R.mem_rgnst_result, c.1), (R.mem_rgnst_bad, c.2)]
  let fin := fun (m : Mach) (r : Nat) => m.sets [(R.mode_seal_result, r), (R.mode_seal_done, 1), (R.mode_seal_go, 0)]
  if r ≠ 1 then fin m r
  else
    let m := (m.set R.mode_seal_state 1).sealThreads
    let m := ({ m with boot := { m.boot with scratch := [] } } : Mach).sealUnits.fixPersonalities
    let t := if m.factory then 7 else m.get R.mode_req_target
    let m : Mach := { m with mode := { m.mode with
      newMask := m.get R.mode_m2mask_cores, nshare := (List.range 64).map fun p => m.get (R.casc_part_ctl_nshare p), eco := m.get R.mode_cfg_eco_cap } }
    let m := fin ((m.boundary t t 1 m.weir.lastU).set R.mode_seal_state 2) 1
    (List.range 50).foldl (fun m q => if m.jlMayTrain q then m.jlTrain q (m.jlTop q) else m) m

def execBootSeal (s : State) : Host.Outcome State Fault Refusal := ans true s fun m => if m.frozen || m.boot.phase != 5 then m else m.bootSeal

/-! ### Starting a held thread (R629) -/

def Mach.threadStart (m : Mach) (th addr : Nat) : Mach :=
  let r :=
    if m.get R.mode_seal_state ≠ 2 then 3
    else if 95 < th ∨ !m.on (R.casc_thr_held th) ∨ (m.th th).run ≠ .vacant then 2
    else if !m.inKind1 addr (addr + 3) then 4
    else 1
  let m := m.sets [(R.mode_tstart_thread, th), (R.mode_tstart_addr, addr / 4), (R.mode_tstart_result, r), (R.mode_tstart_done, 1), (R.mode_tstart_go, 0)]
  if r ≠ 1 then m
  else
    let a := ({ Arch.reset with ia := BitVec.ofNat 64 addr } : Arch).setG 1 (BitVec.ofNat 64 th)
    (m.unpark (th / 2)).onTh th fun t => { t with run := .physical, cur := a, com := a, win := [], wait := .none, link := none, det := ⟨0, 0, 0⟩ }

def execThreadStart (thread addr : Nat) (s : State) : Host.Outcome State Fault Refusal :=
  ans (decide (thread < 128) && decide (addr < 2 ^ 52) && addr % 4 == 0) s fun m => if m.frozen then m else m.threadStart thread addr

end Sys2Proof.Machine
end

