-- ==== Sys2Proof/Machine/Branch.lean ====
section
/-! DEFINITION. Branches and loops (spec/03, R84, R85, R87, R96), and the undefined instruction. -/

namespace Sys2Proof.Machine

/-- A word offset of a branch, as a byte displacement. -/
def wordOff (n off : Nat) : W64 := BitVec.ofInt 64 (4 * sx n off)

/-- `b` (R84). -/
def execBr (th off : Nat) (s : State) : Host.Outcome State Fault Refusal :=
  ans (decide (th < 96) && decide (off < 2 ^ 26)) s fun m => m.runInsn th (Shape.simple (encB 0x20 off)) do
    let r ← X.regs th
    pure ⟨.jump (r.ia + wordOff 26 off), [], none⟩

/-- `bl`: g31 receives the address after it (R84). -/
def execBrl (th off : Nat) (s : State) : Host.Outcome State Fault Refusal :=
  ans (decide (th < 96) && decide (off < 2 ^ 26)) s fun m => m.runInsn th (Shape.simple (encB 0x21 off)) do
    let r ← X.regs th
    X.upd th (·.setG 31 (r.ia + 4))
    pure ⟨.jump (r.ia + wordOff 26 off), [], none⟩

/-- `bc` (R87): a predicate over cc with field a zero, or a test of g[a]; the reserved codes raise the specification exception. -/
def execBrc (th cond a off : Nat) (s : State) : Host.Outcome State Fault Refusal :=
  ans (decide (th < 96) && decide (cond < 32) && decide (a < 32) && decide (off < 65536)) s fun m =>
    m.runInsn th (Shape.simple (encI 0x22 cond a off)) do
      let w := encI 0x22 cond a off
      let r ← X.regs th
      if cond < 16 then X.spec w (a == 0 && decide (cond < 12))
      else X.spec w (decide (cond % 16 < 6))
      if (if cond < 16 then ccPred cond r.cc else regTest (cond % 16) (r.gr a)) then
        pure ⟨.jump (r.ia + wordOff 16 off), [], none⟩
      else pure Done.plain

/-- `bgr` (R84, R85): a target that is not a multiple of 4 faults with code 0x0104, g[t] not written. -/
def execBgr (i : FI) (s : State) : Host.Outcome State Fault Refusal :=
  ans i.wf s fun m => m.runInsn i.th (Shape.simple (encI 0x23 i.t i.a i.imm)) do
    let r ← X.regs i.th
    let target := r.gr i.a + BitVec.ofInt 64 (sx 16 i.imm)
    X.need (target.toNat % 4 == 0) (.exc 0x0104 target.toNat false none)
    X.upd i.th (·.setG i.t (r.ia + 4))
    pure ⟨.jump target, [], none⟩

/-- `loop` (R96): with g[a] = 0 it completes as if the body's last instruction had just ended level n, and the next lower level steps. -/
def execLoop (th n z a off : Nat) (s : State) : Host.Outcome State Fault Refusal :=
  ans (decide (th < 96) && decide (n < 4) && decide (z < 8) && decide (a < 32) && decide (off < 65536)) s fun m =>
    m.runInsn th (Shape.simple (encL 0x28 n z a off)) do
      X.spec (encL 0x28 n z a off) (z == 0 && off != 0)
      let r ← X.regs th
      let lea := r.ia + BitVec.ofNat 64 (4 * off)
      let cnt := r.gr a
      let set := fun (x : Arch) => ({ x with lsa := tset x.lsa n (r.ia + 4), lea := tset x.lea n lea, lct := tset x.lct n cnt } : Arch).setPsw
        (20 + n) (20 + n) (if cnt = 0 then 0 else 1)
      X.upd th set
      if cnt = 0 then
        let r' := (set r).stepLoops lea (lea + 4) n
        X.upd th fun _ => r'
        pure ⟨.jump r'.ia, [], none⟩
      else pure ⟨.jump (r.ia + 4), [], none⟩

/-- A word whose op or fn is not listed raises the operation exception (R84). -/
def execUndefinedInstruction (th word : Nat) (s : State) : Host.Outcome State Fault Refusal :=
  ans (decide (th < 96) && decide (word < 2 ^ 32)) s fun m => m.runInsn th (Shape.simple word) do
    X.oper word false
    pure Done.plain

end Sys2Proof.Machine
end

