-- ==== Sys2Proof/Machine/Cistern.lean ====
section
/-! DEFINITION. The Cistern's events and commands (spec/11): the map scan, the ends of expansions, waits and evictions, discard, evict, query. -/

namespace Sys2Proof.Machine

/-- Serve the requests that wait for the lines of a page. -/
def Mach.servePage (m : Mach) (pf : Nat) : Mach :=
  (List.range 16).foldl (fun m l => m.homeServe (16 * pf + l) (2 * m.home.waitq.length + 4)) m

/-! ### Commands (R352) -/

/-- A command ends with a result of Table 11.9. -/
def Mach.cisEnd (m : Mach) (r : Nat) : Mach :=
  ({ m with cis := { m.cis with cmd := none } } : Mach).sets [(R.mem_cis_cmd_done, 1), (R.mem_cis_cmd_result, r), (R.mem_cis_cmd_go, 0)]

/-- Whether a command has to wait for its page: it is busy, or a transaction runs on one of its lines. -/
def Mach.pageBusy (m : Mach) (pf : Nat) : Bool :=
  (match tfind m.cis.exp pf with | some x => x.busy != 0 | none => m.expPending pf) || m.home.txn.any fun y => y.1 / 16 == pf

/-- Run the pending command if its page lets it. -/
def Mach.cisRun (m : Mach) : Mach :=
  match m.cis.cmd with
  | none => m
  | some op =>
    let pf := m.get R.mem_cis_cmda_addr
    if m.pageBusy pf then m
    else
      let x := tfind m.cis.exp pf
      match op with
      | 3 =>
        let d := m.rdDesc pf
        let psn := match x with
          | some x => (List.range 16).any fun l => (m.pageCopy (16 * pf + l) x).2
          | none => d.psn != 0
        (m.sets [(R.mem_cis_cmd_qclass, d.cls), (R.mem_cis_cmd_qexp, b2n x.isSome), (R.mem_cis_cmd_qdirty, b2n d.dirty), (R.mem_cis_cmd_qpsn, b2n psn)]).cisEnd 1
      | 2 => if x.isSome then m.beginEvict pf 1 none else m.cisEnd 1
      | _ => if x.isSome then m.beginEvict pf 2 none else (m.discardPage pf).cisEnd 1

/-- A `go` of `mem.cis.cmd` with an op. -/
def Mach.cisGo (m : Mach) (op : Nat) : Mach :=
  if m.frozen then m
  else if m.cis.cmd.isSome then m.sets [(R.mem_cis_cmd_done, 1), (R.mem_cis_cmd_result, 3)]
  else
    let m := m.set R.mem_cis_cmd_op op
    if !m.cisOn || !m.on R.mem_cis_stat_ready then m.cisEnd 4
    else if !(op == 1 || op == 2 || op == 3) || !m.myPage (m.get R.mem_cis_cmda_addr) then m.cisEnd 2
    else (({ m with cis := { m.cis with cmd := some op } } : Mach).set R.mem_cis_cmd_go 1).cisRun

def execCisternDiscard (s : State) : Host.Outcome State Fault Refusal := ans true s (·.cisGo 1)
def execCisternEvict (s : State) : Host.Outcome State Fault Refusal := ans true s (·.cisGo 2)
def execCisternQuery (s : State) : Host.Outcome State Fault Refusal := ans true s (·.cisGo 3)

/-! ### Events -/

/-- The slot's data have arrived: the page is decoded and installed, and its waiting requests are served (R344, R347). -/
def execExpansionComplete (page : Nat) (s : State) : Host.Outcome State Fault Refusal :=
  ans true s fun m =>
    match tfind m.cis.exp page with
    | none => m
    | some x => if m.frozen || x.busy != 1 then m else ((m.installPage page x).servePage page).cisRun

/-- A waiting expansion finds a way eligible (R345). -/
def execExpansionWaitEnd (page : Nat) (s : State) : Host.Outcome State Fault Refusal :=
  ans true s fun m =>
    match takeFirst (fun (w : Nat × Nat) => w.1 == page) m.cis.waits with
    | none => m
    | some (w, rest) =>
      if m.frozen then m
      else (({ m with cis := { m.cis with waits := rest } } : Mach).chooseWay page w.2).getD m

/-- Every recall of a page being evicted is answered: it is placed, dropped or held, or discarded, and its way goes on to what it was freed
for (R346, R349, R352). -/
def execPageEvictionComplete (page : Nat) (s : State) : Host.Outcome State Fault Refusal :=
  ans true s fun m =>
    match tfind m.cis.exp page with
    | none => m
    | some x =>
      if m.frozen || x.busy != 2 || m.home.txn.any (fun y => y.1 / 16 == page) then m
      else
        let m := if x.why = 2 then (m.discardPage page).cisEnd 1
          else
            let (m, left) := m.endEvict page x
            if x.why = 1 then m.cisEnd (if left then 1 else 5)
            else match x.next with
              | none => m
              | some (q, age) =>
                if left then { m with cis := { m.cis with exp := tset m.cis.exp q ⟨x.way, age, 1, 0, none⟩ } } else m.startExpansion q age
        (m.servePage page).cisRun

/-- The pages of the map that have a nonzero descriptor, in ascending order. -/
def Mach.mapPages (m : Mach) : List Nat :=
  let lo := m.get R.mem_cis_pool_base * 2 ^ 20
  let cells := m.mem.filter fun c => decide (lo ≤ c.1) && decide (c.1 < m.chunkBase)
  ((cells.map fun c => (c.1 - lo) / 16).eraseDups).map (m.get (R.mem_cis_ap_base m.modNo) * 2 ^ 18 + ·)

/-- One descriptor of the scan (R331). -/
def Mach.scanPage (m : Mach) (pf : Nat) : Mach :=
  let d := m.rdDesc pf
  let k := (d.slot - m.chunkBase) / 65536
  let i := (d.slot - m.chunkBase) % 65536 / slotSize d.cls
  let inPool := decide (m.chunkBase ≤ d.slot) && decide (k < m.nChunks) && d.slot % slotSize d.cls == 0
  let free := match tfind m.cis.chunks k with
    | none => true
    | some (c, w) => c == d.cls && !w.testBit i
  let m :=
    if d.cls = 0 then m
    else if d.cls > 3 ∨ !inPool ∨ !free then (m.wrDesc pf { Desc.zero with psn := 0xFFFF }).cisError 0x77 pf
    else { m with cis := { m.cis with chunks := tset m.cis.chunks k (d.cls, ((tfind m.cis.chunks k).elim 0 (·.2)) ||| 2 ^ i) } }
  if d.dirty then
    let e := m.rdDesc pf
    (m.wrDesc pf { e with psn := 0xFFFF, dirty := false }).cisError 0x79 pf
  else m

/-- The scan of the page map ends (R331), and aperture requests proceed. -/
def execMapScanComplete (s : State) : Host.Outcome State Fault Refusal :=
  ans true s fun m =>
    if m.frozen || !m.cisOn || m.on R.mem_cis_stat_ready then m
    else
      let m := m.mapPages.foldl (fun m pf => m.scanPage pf) m
      let m := (m.set R.mem_cis_stat_ready 1).cisShow
      let lines : List Nat := m.home.waitq.map fun y => y.2.line
      (lines.filter m.apLine).eraseDups.foldl (fun m l => m.homeServe l (2 * m.home.waitq.length + 4)) m

end Sys2Proof.Machine
end

