-- ==== Sys2Proof/Machine/FloatArith.lean ====
section
/-! DEFINITION. Binary floating point (spec/04, R129 to R134): decoding, exact values, rounding, and the operations of Table 4.3 on bit
patterns. -/

namespace Sys2Proof.Machine

/-- A format: precision, greatest exponent, width of the exponent field. -/
structure Fmt where
  p : Nat
  emax : Nat
  w : Nat

def f64 : Fmt := ⟨53, 1023, 11⟩
def f32 : Fmt := ⟨24, 127, 8⟩

/-- The value of a bit pattern: a NaN (signalling or not), an infinity, or ±m × 2^e. -/
inductive Fp where
  | nan (sig : Bool)
  | inf (neg : Bool)
  | fin (neg : Bool) (m : Nat) (e : Int)
deriving DecidableEq, Repr

/-- The exception flags in the order of `fpsr` bits 4:0. -/
def flV : Nat := 16
def flZ : Nat := 8
def flO : Nat := 4
def flU : Nat := 2
def flX : Nat := 1

/-- Read a bit pattern. -/
def Fmt.dec (f : Fmt) (x : Nat) : Fp :=
  let fr := bits x (f.p - 2) 0
  let ex := bits x (f.p - 1 + f.w - 1) (f.p - 1)
  let neg := bit x (f.p - 1 + f.w)
  if ex = 2 ^ f.w - 1 then (if fr = 0 then .inf neg else .nan (!bit fr (f.p - 2)))
  else if ex = 0 then .fin neg fr (2 - (f.emax : Int) - f.p)
  else .fin neg (2 ^ (f.p - 1) + fr) ((ex : Int) - f.emax - f.p + 1)

def Fmt.sign (f : Fmt) (neg : Bool) : Nat := if neg then 2 ^ (f.p - 1 + f.w) else 0

/-- The canonical NaN (R130), and the infinities. -/
def Fmt.cnan (f : Fmt) : Nat := (2 ^ f.w - 1) * 2 ^ (f.p - 1) + 2 ^ (f.p - 2)
def Fmt.infinity (f : Fmt) (neg : Bool) : Nat := f.sign neg + (2 ^ f.w - 1) * 2 ^ (f.p - 1)
def Fmt.maxFinite (f : Fmt) (neg : Bool) : Nat := f.infinity neg - 1

/-- Round ±(m + fraction) × 2^e at the quantum 2^q under a mode (R132): the significand, and whether it is inexact. -/
def roundAt (rm : Nat) (neg : Bool) (m : Nat) (e q : Int) (sticky : Bool) : Nat × Bool :=
  if q ≤ e then (m <<< (e - q).toNat, sticky)
  else
    let sh := (q - e).toNat
    let s := m >>> sh
    let r := m % 2 ^ sh
    let half := 2 ^ (sh - 1)
    let inex := r != 0 || sticky
    let up := match rm with
      | 0 => decide (half < r) || (r == half && (sticky || s % 2 == 1))
      | 1 => false
      | 2 => inex && !neg
      | _ => inex && neg
    (if up then s + 1 else s, inex)

/-- Round an exact nonzero value, or zero, to a format (R132): bit pattern and exceptions raised. -/
def Fmt.round (f : Fmt) (rm : Nat) (enU : Bool) (neg : Bool) (m : Nat) (e : Int) (sticky : Bool) : Nat × Nat :=
  if m = 0 then (f.sign neg, 0)
  else
    let lead : Int := e + (nbits m : Int) - 1
    let qu : Int := lead - (f.p - 1 : Nat)
    let emin : Int := 1 - (f.emax : Int)
    let qmin : Int := emin - (f.p - 1 : Nat)
    let q := max qu qmin
    let (s, inex) := roundAt rm neg m e q sticky
    let (su, _) := roundAt rm neg m e qu sticky
    let tiny := decide (lead < emin) && !(lead == emin - 1 && su == 2 ^ f.p)
    let (s, q) := if s = 2 ^ f.p then (2 ^ (f.p - 1), q + 1) else (s, q)
    if q + (f.p - 1 : Nat) > f.emax then
      let toInf := rm == 0 || (rm == 2 && !neg) || (rm == 3 && neg)
      (if toInf then f.infinity neg else f.maxFinite neg, flO + flX)
    else
      let be := if s < 2 ^ (f.p - 1) then 0 else (q + (f.p - 1 : Nat) + f.emax).toNat
      let pat := f.sign neg + be * 2 ^ (f.p - 1) + s % 2 ^ (f.p - 1)
      (pat, (if inex then flX else 0) + (if tiny && (inex || enU) then flU else 0))

/-- The default result of an invalid operation, and of an operation with a NaN operand: invalid only for a signalling one. -/
def Fmt.invalid (f : Fmt) : Nat × Nat := (f.cnan, flV)
def Fmt.ofNan (f : Fmt) (sig : Bool) : Nat × Nat := (f.cnan, if sig then flV else 0)

def Fp.sig : Fp → Bool
  | .nan s => s
  | _ => false

def Fp.isNan : Fp → Bool
  | .nan _ => true
  | _ => false

/-- The exact signed integer of a finite value at a quantum not above its own. -/
def scaled (neg : Bool) (m : Nat) (e q : Int) : Int :=
  let v : Int := (m <<< (e - q).toNat : Nat)
  if neg then -v else v

/-- The exact sum of two finite values, rounded; an exact zero takes the sign of R129's standard. -/
def Fmt.addFin (f : Fmt) (rm : Nat) (enU : Bool) (n1 : Bool) (m1 : Nat) (e1 : Int) (n2 : Bool) (m2 : Nat) (e2 : Int) : Nat × Nat :=
  let q := min e1 e2
  let v := scaled n1 m1 e1 q + scaled n2 m2 e2 q
  if v = 0 then (f.sign (if m1 = 0 ∧ m2 = 0 ∧ n1 = n2 then n1 else rm == 3), 0)
  else f.round rm enU (decide (v < 0)) v.natAbs q false

def Fp.negate : Fp → Fp
  | .nan s => .nan s
  | .inf n => .inf !n
  | .fin n m e => .fin (!n) m e

/-- Sum of two values. -/
def Fmt.addV (f : Fmt) (rm : Nat) (enU : Bool) (a b : Fp) : Nat × Nat :=
  if a.isNan || b.isNan then f.ofNan (a.sig || b.sig)
  else match a, b with
    | .inf n1, .inf n2 => if n1 = n2 then (f.infinity n1, 0) else f.invalid
    | .inf n, _ => (f.infinity n, 0)
    | _, .inf n => (f.infinity n, 0)
    | .fin n1 m1 e1, .fin n2 m2 e2 => f.addFin rm enU n1 m1 e1 n2 m2 e2
    | _, _ => f.invalid

/-- Product of two values. -/
def Fmt.mulV (f : Fmt) (rm : Nat) (enU : Bool) (a b : Fp) : Nat × Nat :=
  if a.isNan || b.isNan then f.ofNan (a.sig || b.sig)
  else match a, b with
    | .inf n1, .inf n2 => (f.infinity (n1 != n2), 0)
    | .inf n1, .fin n2 m2 _ => if m2 = 0 then f.invalid else (f.infinity (n1 != n2), 0)
    | .fin n1 m1 _, .inf n2 => if m1 = 0 then f.invalid else (f.infinity (n1 != n2), 0)
    | .fin n1 m1 e1, .fin n2 m2 e2 => f.round rm enU (n1 != n2) (m1 * m2) (e1 + e2) false
    | _, _ => f.invalid

/-- Quotient of two values. -/
def Fmt.divV (f : Fmt) (rm : Nat) (enU : Bool) (a b : Fp) : Nat × Nat :=
  if a.isNan || b.isNan then f.ofNan (a.sig || b.sig)
  else match a, b with
    | .inf _, .inf _ => f.invalid
    | .inf n1, .fin n2 _ _ => (f.infinity (n1 != n2), 0)
    | .fin n1 _ _, .inf n2 => (f.sign (n1 != n2), 0)
    | .fin n1 m1 e1, .fin n2 m2 e2 =>
      if m2 = 0 then (if m1 = 0 then f.invalid else (f.infinity (n1 != n2), flZ))
      else if m1 = 0 then (f.sign (n1 != n2), 0)
      else
        let k := f.p + 3 + nbits m2 - nbits m1
        let n := m1 <<< k
        f.round rm enU (n1 != n2) (n / m2) (e1 - e2 - k) (n % m2 != 0)
    | _, _ => f.invalid

/-- Integer square root by bits, from bit k - 1 down. -/
def isqrt (n : Nat) : Nat → Nat → Nat
  | 0, r => r
  | k + 1, r => let c := r + 2 ^ k; isqrt n k (if c * c ≤ n then c else r)

/-- Square root of a value. -/
def Fmt.sqrtV (f : Fmt) (rm : Nat) (enU : Bool) (a : Fp) : Nat × Nat :=
  match a with
  | .nan s => f.ofNan s
  | .inf n => if n then f.invalid else (f.infinity false, 0)
  | .fin n m e =>
    if m = 0 then (f.sign n, 0)
    else if n then f.invalid
    else
      let k0 := 2 * f.p + 6 - nbits m
      let k := if (e - k0) % 2 = 0 then k0 else k0 + 1
      let x := m <<< k
      let r := isqrt x (nbits x / 2 + 1) 0
      f.round rm enU false r ((e - k) / 2) (r * r != x)

/-- a × b + c with one rounding (R131). -/
def Fmt.fmaV (f : Fmt) (rm : Nat) (enU : Bool) (a b c : Fp) : Nat × Nat :=
  let bad := match a, b with
    | .inf _, .fin _ 0 _ => true
    | .fin _ 0 _, .inf _ => true
    | _, _ => false
  if bad then f.invalid
  else if a.isNan || b.isNan || c.isNan then f.ofNan (a.sig || b.sig || c.sig)
  else match a, b, c with
    | .fin n1 m1 e1, .fin n2 m2 e2, .fin n3 m3 e3 => f.addFin rm enU (n1 != n2) (m1 * m2) (e1 + e2) n3 m3 e3
    | .fin _ _ _, .fin _ _ _, .inf n => (f.infinity n, 0)
    | x, y, .inf n3 =>
      let np := (match x with | .inf n => n | .fin n _ _ => n | _ => false) != (match y with | .inf n => n | .fin n _ _ => n | _ => false)
      if np = n3 then (f.infinity n3, 0) else f.invalid
    | x, y, _ =>
      let np := (match x with | .inf n => n | .fin n _ _ => n | _ => false) != (match y with | .inf n => n | .fin n _ _ => n | _ => false)
      (f.infinity np, 0)

/-- Quiet compare (R134): cc and exceptions. -/
def cmpV (a b : Fp) : Nat × Nat :=
  if a.isNan || b.isNan then (3, if a.sig || b.sig then flV else 0)
  else match a, b with
    | .inf n1, .inf n2 => (if n1 = n2 then 0 else if n1 then 1 else 2, 0)
    | .inf n, _ => (if n then 1 else 2, 0)
    | _, .inf n => (if n then 2 else 1, 0)
    | .fin n1 m1 e1, .fin n2 m2 e2 =>
      let q := min e1 e2
      let x := scaled n1 m1 e1 q
      let y := scaled n2 m2 e2 q
      (if x = y then 0 else if x < y then 1 else 2, 0)
    | _, _ => (3, 0)

/-- Round to a signed 64-bit integer (R131): pattern and exceptions. -/
def toInt64 (rm : Nat) (a : Fp) : W64 × Nat :=
  match a with
  | .nan _ => (0x8000000000000000, flV)
  | .inf n => (if n then 0x8000000000000000 else 0x7FFFFFFFFFFFFFFF, flV)
  | .fin n m e =>
    let (s, inex) := roundAt rm n m e 0 false
    let v : Int := if n then -(s : Int) else s
    if v < -(2 ^ 63 : Int) then (0x8000000000000000, flV)
    else if (2 ^ 63 : Int) ≤ v then (0x7FFFFFFFFFFFFFFF, flV)
    else (BitVec.ofInt 64 v, if inex then flX else 0)

/-- A signed integer, rounded. -/
def Fmt.ofInt64 (f : Fmt) (rm : Nat) (x : W64) : Nat × Nat := f.round rm false (decide (x.toInt < 0)) x.toInt.natAbs 0 false

/-- Another format, rounded or exact. -/
def Fmt.convert (f : Fmt) (rm : Nat) (enU : Bool) (a : Fp) : Nat × Nat :=
  match a with
  | .nan s => f.ofNan s
  | .inf n => (f.infinity n, 0)
  | .fin n m e => f.round rm enU n m e false

/-- Sign inverted or cleared; a NaN becomes canonical without exception (R130, R131). -/
def Fmt.withSign (f : Fmt) (x : Nat) (flip : Bool) : Nat :=
  match f.dec x with
  | .nan _ => f.cnan
  | _ => let t := x % 2 ^ (f.p - 1 + f.w); t + (if flip && !bit x (f.p - 1 + f.w) then f.sign true else 0)

end Sys2Proof.Machine
end

