-- ==== Sys2Proof/Machine/Float.lean ====
section
/-! DEFINITION. The floating-point instructions (spec/04, Table 4.3). -/

namespace Sys2Proof.Machine

/-- The format that an instruction names. -/
def fmtOf (sp : Bool) : Fmt := if sp then f32 else f64

/-- An operand in a format: binary32 reads bits 31:0 (R75). -/
def Arch.fop (a : Arch) (sp : Bool) (r : Nat) : Fp := (fmtOf sp).dec (if sp then (a.fr r).toNat % 2 ^ 32 else (a.fr r).toNat)

/-- Exceptions raised: a fault when one is enabled, else the sticky flags are set (R133). -/
def fpRaise (th flags : Nat) : X Unit := do
  let r ← X.regs th
  X.need (flags &&& (r.fpsr.toNat >>> 8) &&& 31 == 0) (.exc 0x020C 0 false none)
  X.upd th fun x => { x with fpsr := x.fpsr ||| BitVec.ofNat 64 flags }

def rmOf (a : Arch) : Nat := bits a.fpsr.toNat 17 16
def enUOf (a : Arch) : Bool := bit a.fpsr.toNat 9

/-- The word of a floating instruction; the odd code of a pair is binary32. -/
def fpWord (i : FA) (fn : Nat) (sp : Bool) : Nat := encA 0x02 i.t i.a i.b (fn + b2n sp)

/-- Run a floating instruction. -/
def fpInsn (i : FA) (word : Nat) (body : X Done) (s : State) : Host.Outcome State Fault Refusal :=
  ans i.wf s fun m => m.runInsn i.th (Shape.simple word) body

/-- An operation with a floating result. -/
def fpOp (i : FA) (fn : Nat) (sp : Bool) (ok : Bool) (f : Arch → Nat × Nat) (s : State) : Host.Outcome State Fault Refusal :=
  fpInsn i (fpWord i fn sp) (do
    X.spec (fpWord i fn sp) ok
    let r ← X.regs i.th
    fpRaise i.th (f r).2
    X.upd i.th (·.setF i.t (BitVec.ofNat 64 (f r).1))
    pure Done.plain) s

/-- `fadd`. -/
def execFadd (i : FA) (sp : Bool) (s : State) : Host.Outcome State Fault Refusal :=
  fpOp i 0x010 sp true (fun r => (fmtOf sp).addV (rmOf r) (enUOf r) (r.fop sp i.a) (r.fop sp i.b)) s
/-- `fsub`. -/
def execFsub (i : FA) (sp : Bool) (s : State) : Host.Outcome State Fault Refusal :=
  fpOp i 0x012 sp true (fun r => (fmtOf sp).addV (rmOf r) (enUOf r) (r.fop sp i.a) (r.fop sp i.b).negate) s
/-- `fmul`. -/
def execFmul (i : FA) (sp : Bool) (s : State) : Host.Outcome State Fault Refusal :=
  fpOp i 0x014 sp true (fun r => (fmtOf sp).mulV (rmOf r) (enUOf r) (r.fop sp i.a) (r.fop sp i.b)) s
/-- `fdiv`. -/
def execFdiv (i : FA) (sp : Bool) (s : State) : Host.Outcome State Fault Refusal :=
  fpOp i 0x016 sp true (fun r => (fmtOf sp).divV (rmOf r) (enUOf r) (r.fop sp i.a) (r.fop sp i.b)) s
/-- `fsqrt`: b must be zero. -/
def execFsqrt (i : FA) (sp : Bool) (s : State) : Host.Outcome State Fault Refusal :=
  fpOp i 0x018 sp (i.b == 0) (fun r => (fmtOf sp).sqrtV (rmOf r) (enUOf r) (r.fop sp i.a)) s
/-- `fmadd`. -/
def execFmadd (i : FA) (sp : Bool) (s : State) : Host.Outcome State Fault Refusal :=
  fpOp i 0x01A sp true (fun r => (fmtOf sp).fmaV (rmOf r) (enUOf r) (r.fop sp i.a) (r.fop sp i.b) (r.fop sp i.t)) s
/-- `fmsub`. -/
def execFmsub (i : FA) (sp : Bool) (s : State) : Host.Outcome State Fault Refusal :=
  fpOp i 0x01C sp true (fun r => (fmtOf sp).fmaV (rmOf r) (enUOf r) (r.fop sp i.a) (r.fop sp i.b) (r.fop sp i.t).negate) s

/-- `fcmp` (R134): t must be zero. -/
def execFcmp (i : FA) (sp : Bool) (s : State) : Host.Outcome State Fault Refusal :=
  fpInsn i (fpWord i 0x01E sp) (do
    X.spec (fpWord i 0x01E sp) (i.t == 0)
    let r ← X.regs i.th
    let c := cmpV (r.fop sp i.a) (r.fop sp i.b)
    fpRaise i.th c.2
    X.upd i.th (·.setCc c.1)
    pure Done.plain) s

/-- `fcvt.s.d`. -/
def execFcvtSD (i : FA) (s : State) : Host.Outcome State Fault Refusal :=
  fpOp i 0x030 false (i.b == 0) (fun r => f32.convert (rmOf r) (enUOf r) (r.fop false i.a)) s
/-- `fcvt.d.s`. -/
def execFcvtDS (i : FA) (s : State) : Host.Outcome State Fault Refusal :=
  fpOp i 0x031 false (i.b == 0) (fun r => f64.convert (rmOf r) (enUOf r) (r.fop true i.a)) s
/-- `fcfi`: from g[a]. -/
def execFcfi (i : FA) (sp : Bool) (s : State) : Host.Outcome State Fault Refusal :=
  fpOp i 0x032 sp (i.b == 0) (fun r => (fmtOf sp).ofInt64 (rmOf r) (r.gr i.a)) s

/-- A conversion to a signed integer in g[t]. -/
def fctiInsn (i : FA) (fn : Nat) (sp : Bool) (rm : Arch → Nat) (s : State) : Host.Outcome State Fault Refusal :=
  fpInsn i (fpWord i fn sp) (do
    X.spec (fpWord i fn sp) (i.b == 0)
    let r ← X.regs i.th
    let c := toInt64 (rm r) (r.fop sp i.a)
    fpRaise i.th c.2
    X.upd i.th (·.setG i.t c.1)
    pure Done.plain) s

/-- `fcti`. -/
def execFcti (i : FA) (sp : Bool) (s : State) : Host.Outcome State Fault Refusal := fctiInsn i 0x034 sp rmOf s
/-- `fctiz`. -/
def execFctiz (i : FA) (sp : Bool) (s : State) : Host.Outcome State Fault Refusal := fctiInsn i 0x036 sp (fun _ => 1) s

/-- `fmov`: bits copied, the binary32 form under R75. -/
def execFmov (i : FA) (sp : Bool) (s : State) : Host.Outcome State Fault Refusal :=
  fpOp i 0x040 sp (i.b == 0) (fun r => (if sp then (r.fr i.a).toNat % 2 ^ 32 else (r.fr i.a).toNat, 0)) s
/-- `fneg`. -/
def execFneg (i : FA) (sp : Bool) (s : State) : Host.Outcome State Fault Refusal :=
  fpOp i 0x042 sp (i.b == 0) (fun r => ((fmtOf sp).withSign (if sp then (r.fr i.a).toNat % 2 ^ 32 else (r.fr i.a).toNat) true, 0)) s
/-- `fabs`. -/
def execFabs (i : FA) (sp : Bool) (s : State) : Host.Outcome State Fault Refusal :=
  fpOp i 0x044 sp (i.b == 0) (fun r => ((fmtOf sp).withSign (if sp then (r.fr i.a).toNat % 2 ^ 32 else (r.fr i.a).toNat) false, 0)) s

/-- Writable bits of `fpsr` (Table 4.4). -/
def fpsrMask : Nat := 0x31F1F

/-- `mffs`. -/
def execMffs (i : FA) (s : State) : Host.Outcome State Fault Refusal :=
  fpInsn i (fpWord i 0x050 false) (do
    X.spec (fpWord i 0x050 false) (i.a == 0 && i.b == 0)
    let r ← X.regs i.th
    X.upd i.th (·.setG i.t r.fpsr)
    pure Done.plain) s

/-- `mtfs` (R136). -/
def execMtfs (i : FA) (s : State) : Host.Outcome State Fault Refusal :=
  ans i.wf s fun m => m.runInsn i.th (Shape.alone_ (fpWord i 0x051 false)) do
    X.spec (fpWord i 0x051 false) (i.t == 0 && i.b == 0)
    X.upd i.th fun x => { x with fpsr := x.gr i.a &&& BitVec.ofNat 64 fpsrMask }
    pure Done.plain

/-- `fmgf`. -/
def execFmgf (i : FA) (s : State) : Host.Outcome State Fault Refusal :=
  fpOp i 0x052 false (i.b == 0) (fun r => ((r.gr i.a).toNat, 0)) s

/-- `fmfg`. -/
def execFmfg (i : FA) (s : State) : Host.Outcome State Fault Refusal :=
  fpInsn i (fpWord i 0x053 false) (do
    X.spec (fpWord i 0x053 false) (i.b == 0)
    let r ← X.regs i.th
    X.upd i.th (·.setG i.t (r.fr i.a))
    pure Done.plain) s

end Sys2Proof.Machine
end

