-- ==== Sys2Proof/Machine/Integer.lean ====
section
/-! DEFINITION. The integer instructions: op 0x01 (spec/04, R118 to R125) and the immediate forms (spec/03, R84). -/

namespace Sys2Proof.Machine

/-- g[t] := f g[a] g[b], cc unchanged. -/
def bodyRR (i : FA) (f : W64 → W64 → W64) : X Done := do
  X.upd i.th fun r => r.setG i.t (f (r.gr i.a) (r.gr i.b))
  pure Done.plain

/-- The trap of integer overflow when `psw.iom` is 1 (R120). -/
def ovfTrap (r : Arch) (ovf : Bool) : Option (Nat × Nat) := if ovf && r.pswF 29 29 == 1 then some (0x0207, 0) else none

/-- A signed operation with cc and overflow (R119, R120). -/
def bodySigned (i : FA) (f : W64 → W64 → W64) (exact : Int → Int → Int) : X Done := do
  let r ← X.regs i.th
  let a := r.gr i.a
  let b := r.gr i.b
  let cc := ccSigned (exact (sgn a) (sgn b))
  X.upd i.th fun r => (r.setG i.t (f a b)).setCc cc
  pure ⟨.seq, [], ovfTrap r (cc == 3)⟩

/-- An unsigned operation with cc. -/
def bodyCc (i : FA) (f : W64 → W64 → W64) (cc : W64 → W64 → Nat) : X Done := do
  let r ← X.regs i.th
  X.upd i.th fun x => (x.setG i.t (f (r.gr i.a) (r.gr i.b))).setCc (cc (r.gr i.a) (r.gr i.b))
  pure Done.plain

/-- A compare: field t must be zero. -/
def bodyCmp (i : FA) (word : Nat) (cc : W64 → W64 → Nat) : X Done := do
  X.spec word (i.t == 0)
  X.upd i.th fun r => r.setCc (cc (r.gr i.a) (r.gr i.b))
  pure Done.plain

/-- A divide or remainder: a zero divisor faults with code 0x0208 (R122). -/
def bodyDiv (i : FA) (f : W64 → W64 → W64) (ovf : W64 → W64 → Bool) : X Done := do
  let r ← X.regs i.th
  X.need (r.gr i.b != 0) (.exc 0x0208 0 false none)
  X.upd i.th fun x => x.setG i.t (f (r.gr i.a) (r.gr i.b))
  pure ⟨.seq, [], ovfTrap r (ovf (r.gr i.a) (r.gr i.b))⟩

/-- The frame of an op 0x01 instruction. -/
def intInsn (i : FA) (fn : Nat) (body : Nat → X Done) (s : State) : Host.Outcome State Fault Refusal :=
  ans i.wf s fun m => m.runInsn i.th (Shape.simple (encA 0x01 i.t i.a i.b fn)) (body (encA 0x01 i.t i.a i.b fn))

/-- g[t] := f g[a] imm for an immediate form. -/
def bodyRI (i : FI) (f : W64 → W64) : X Done := do
  X.upd i.th fun r => r.setG i.t (f (r.gr i.a))
  pure Done.plain

/-- A compare with an immediate: field t must be zero. -/
def bodyCmpI (i : FI) (word : Nat) (cc : W64 → Nat) : X Done := do
  X.spec word (i.t == 0)
  X.upd i.th fun r => r.setCc (cc (r.gr i.a))
  pure Done.plain

/-- The frame of a form I instruction. -/
def immInsn (i : FI) (op : Nat) (body : Nat → X Done) (s : State) : Host.Outcome State Fault Refusal :=
  ans i.wf s fun m => m.runInsn i.th (Shape.simple (encI op i.t i.a i.imm)) (body (encI op i.t i.a i.imm))

/-- The 16-bit immediate, sign-extended and zero-extended. -/
def immS (i : FI) : W64 := BitVec.ofInt 64 (sx 16 i.imm)
def immZ (i : FI) : W64 := BitVec.ofNat 64 (i.imm % 65536)

/-- `add` (R119). -/
def execAdd (i : FA) (s : State) : Host.Outcome State Fault Refusal :=
  intInsn i 0x000 (fun _ => bodySigned i (· + ·) (· + ·)) s

/-- `addl` (Table 4.1). -/
def execAddl (i : FA) (s : State) : Host.Outcome State Fault Refusal :=
  intInsn i 0x001 (fun _ => bodyCc i (· + ·) ccAddl) s

/-- `sub` (R119). -/
def execSub (i : FA) (s : State) : Host.Outcome State Fault Refusal :=
  intInsn i 0x002 (fun _ => bodySigned i (· - ·) (· - ·)) s

/-- `subl` (Table 4.1). -/
def execSubl (i : FA) (s : State) : Host.Outcome State Fault Refusal :=
  intInsn i 0x003 (fun _ => bodyCc i (· - ·) ccSubl) s

/-- `and`. -/
def execAndI (i : FA) (s : State) : Host.Outcome State Fault Refusal :=
  intInsn i 0x004 (fun _ => bodyRR i (· &&& ·)) s

/-- `or`. -/
def execOrI (i : FA) (s : State) : Host.Outcome State Fault Refusal :=
  intInsn i 0x005 (fun _ => bodyRR i (· ||| ·)) s

/-- `xor`. -/
def execXorI (i : FA) (s : State) : Host.Outcome State Fault Refusal :=
  intInsn i 0x006 (fun _ => bodyRR i (· ^^^ ·)) s

/-- `andc`: and with the complement. -/
def execAndc (i : FA) (s : State) : Host.Outcome State Fault Refusal :=
  intInsn i 0x007 (fun _ => bodyRR i (fun a b => a &&& ~~~b)) s

/-- `sll` (R121). -/
def execSll (i : FA) (s : State) : Host.Outcome State Fault Refusal :=
  intInsn i 0x010 (fun _ => bodyRR i (fun a b => a <<< shAmt b)) s

/-- `srl` (R121). -/
def execSrl (i : FA) (s : State) : Host.Outcome State Fault Refusal :=
  intInsn i 0x011 (fun _ => bodyRR i (fun a b => a >>> shAmt b)) s

/-- `sra` (R121). -/
def execSra (i : FA) (s : State) : Host.Outcome State Fault Refusal :=
  intInsn i 0x012 (fun _ => bodyRR i (fun a b => a.sshiftRight (shAmt b))) s

/-- `rotl` (R121). -/
def execRotl (i : FA) (s : State) : Host.Outcome State Fault Refusal :=
  intInsn i 0x013 (fun _ => bodyRR i (fun a b => a.rotateLeft (shAmt b))) s

/-- `cmp`: signed compare. -/
def execCmp (i : FA) (s : State) : Host.Outcome State Fault Refusal :=
  intInsn i 0x020 (fun w => bodyCmp i w ccCmpS) s

/-- `cmpl`: unsigned compare. -/
def execCmpl (i : FA) (s : State) : Host.Outcome State Fault Refusal :=
  intInsn i 0x021 (fun w => bodyCmp i w ccCmpU) s

/-- `mul` (R119, R124). -/
def execMul (i : FA) (s : State) : Host.Outcome State Fault Refusal :=
  intInsn i 0x030 (fun _ => bodySigned i (· * ·) (· * ·)) s

/-- `mulh`. -/
def execMulh (i : FA) (s : State) : Host.Outcome State Fault Refusal :=
  intInsn i 0x031 (fun _ => bodyRR i mulhS) s

/-- `mulhu`. -/
def execMulhu (i : FA) (s : State) : Host.Outcome State Fault Refusal :=
  intInsn i 0x032 (fun _ => bodyRR i mulhU) s

/-- `div` (R122). -/
def execDiv (i : FA) (s : State) : Host.Outcome State Fault Refusal :=
  intInsn i 0x038 (fun _ => bodyDiv i divS divOvf) s

/-- `divu`. -/
def execDivu (i : FA) (s : State) : Host.Outcome State Fault Refusal :=
  intInsn i 0x039 (fun _ => bodyDiv i divU (fun _ _ => false)) s

/-- `rem` (R122). -/
def execRem (i : FA) (s : State) : Host.Outcome State Fault Refusal :=
  intInsn i 0x03A (fun _ => bodyDiv i remS (fun _ _ => false)) s

/-- `remu`. -/
def execRemu (i : FA) (s : State) : Host.Outcome State Fault Refusal :=
  intInsn i 0x03B (fun _ => bodyDiv i remU (fun _ _ => false)) s

/-- `addi` (R84). -/
def execAddi (i : FI) (s : State) : Host.Outcome State Fault Refusal :=
  immInsn i 0x04 (fun _ => bodyRI i (· + immS i)) s

/-- `addis` (R84). -/
def execAddis (i : FI) (s : State) : Host.Outcome State Fault Refusal :=
  immInsn i 0x05 (fun _ => bodyRI i (· + (immS i <<< 16))) s

/-- `andi` (R84). -/
def execAndi (i : FI) (s : State) : Host.Outcome State Fault Refusal :=
  immInsn i 0x06 (fun _ => bodyRI i (· &&& immZ i)) s

/-- `ori` (R84). -/
def execOri (i : FI) (s : State) : Host.Outcome State Fault Refusal :=
  immInsn i 0x07 (fun _ => bodyRI i (· ||| immZ i)) s

/-- `xori` (R84). -/
def execXori (i : FI) (s : State) : Host.Outcome State Fault Refusal :=
  immInsn i 0x08 (fun _ => bodyRI i (· ^^^ immZ i)) s

/-- `cmpi` (R84). -/
def execCmpi (i : FI) (s : State) : Host.Outcome State Fault Refusal :=
  immInsn i 0x09 (fun w => bodyCmpI i w (fun a => ccCmpS a (immS i))) s

/-- `cmpli` (R84). -/
def execCmpli (i : FI) (s : State) : Host.Outcome State Fault Refusal :=
  immInsn i 0x0A (fun w => bodyCmpI i w (fun a => ccCmpU a (immZ i))) s

end Sys2Proof.Machine
end

