-- ==== Sys2Proof/Machine/McsBus.lean ====
section
/-! DEFINITION. Writes of the module control space (spec/01, R25 to R45): every field follows its access class, and a register whose write does
more than that does it here. -/

namespace Sys2Proof.Machine

/-- A write of an 8-byte register: its field map and indexes, its field that spans the register, the value, the written bits, and the thread whose
store it is. -/
structure RegW where
  d : RDesc
  ix : List Nat
  f : Fld
  val : Nat
  mask : Nat
  th : Option Nat

/-- The bits of a register whose class is one of those given. -/
def RDesc.bitsOf (d : RDesc) (p : Cls → Bool) : Nat :=
  d.fields.foldl (fun w f => if p f.cls then w ||| setBits 0 f.hi f.lo (2 ^ (f.hi + 1 - f.lo) - 1) else w) 0

/-- Bit k of the register is written with 1. -/
def RegW.one (x : RegW) (k : Nat) : Bool := bit x.val k && bit x.mask k

/-- The plain part of a write: W1S bits are left to what the register does with them. -/
def Mach.plainUnder (m : Mach) (x : RegW) (keep : Nat) : Mach :=
  let mask := x.mask &&& (2 ^ 64 - 1 ^^^ (x.d.bitsOf (· == .w1s) ||| keep))
  m.setWord x.f (x.d.apply m.sealed (m.word x.f) x.val mask)

def Mach.plain (m : Mach) (x : RegW) : Mach := m.plainUnder x 0

/-- The value of the whole register that the write names: written bits, and the standing ones of writable fields that it does not reach. -/
def Mach.merged (m : Mach) (x : RegW) : Nat :=
  (x.val &&& x.mask) ||| (m.word x.f &&& x.d.bitsOf (fun c => c == .rw || c == .rsl || c == .cnt) &&& (2 ^ 64 - 1 ^^^ x.mask))

/-- The index of a register among its like. -/
def RegW.i (x : RegW) (k : Nat) : Nat := x.ix.getD k 0

/-- A double store: a write-only register takes nothing from a word store (R30). -/
def RegW.whole (x : RegW) : Bool := x.mask == 2 ^ 64 - 1

/-- `grotto.cmd` (Table 12.16). -/
def Mach.grottoGo (m : Mach) (x : RegW) : Mach :=
  if !x.one 0 then m.plain x
  else if m.on R.grotto_cmd_go then m.sets [(R.grotto_cmd_done, 1), (R.grotto_cmd_result, 5)]
  else
    let m := m.plain x
    if 1 ≤ m.get R.grotto_cmd_op ∧ m.get R.grotto_cmd_op ≤ 5 then m.set R.grotto_cmd_go 1 else m.grottoEnd 2

/-- `spill.src.ctl`: an action of 7 is taken as 6, one below the minimum as the minimum (R578), and a severe state that may end ends. -/
def Mach.srcCtl (m : Mach) (x : RegW) : Mach :=
  let s := x.i 0
  if !srcExists s then m
  else
    let m := m.plain x
    let fix := fun (v : Nat) => max (m.minAct s) (min v 6)
    (m.sets [(R.spill_src_ctl_ord s, fix (m.get (R.spill_src_ctl_ord s))), (R.spill_src_ctl_sev s, fix (m.get (R.spill_src_ctl_sev s)))]).severeEnd s

/-- A submit store to an instance page: compression units 0 and 1, cryptographic units 2 and 3. -/
def Mach.accSubmit (m : Mach) (u i addr : Nat) : Mach :=
  if u < 2 then m.submit u i addr fun m h => (m, if cmpBad h then some 0x13 else none)
  else m.submit u i addr fun m h => m.cryAccept u i h

/-- Registers of the identity, mode, doorbell, Rill, Cascade and Weir blocks that do more than hold a value; none where the thread has to wait. -/
def Mach.regWriteLow (m : Mach) (x : RegW) : Option Mach :=
  match x.d.base with
  | 0x10008 => some (m.modeReqWrite x.val x.mask)
  | 0x10100 => some (m.patchGo (m.merged x))
  | 0x10200 => let m := m.plain x
    some (if x.one 0 && m.boot.phase == 5 then m.bootSeal else m)
  | 0x10240 => let m := m.plain x
    some (if x.one 52 then m.threadStart (m.get R.mode_tstart_thread) (m.get R.mode_tstart_addr * 4) else m)
  | 0x10258 => some (m.plain x).indShow
  | 0x1f0008 => let m := m.plain x
    some (if x.one 20 then m.tcmd (m.get R.dbell_tcmd_op) (m.get R.dbell_tcmd_src) else m)
  | 0x200000 => match x.th with
    | some t => if x.whole then m.rillPost t x.val else some m
    | none => some m
  | 0x300010 => let m := m.plain x
    some (if x.one 20 then m.vcmd (m.get R.casc_vcmd_op) (m.get R.casc_vcmd_vp) else m)
  | _ => some (m.plain x)

/-- Indexed registers of the doorbell, Rill, Cascade and Spillway blocks. -/
def Mach.regWriteMid (m : Mach) (x : RegW) : Mach :=
  let b := x.d.base
  if b = (R.dbell_grp 0).off then (m.plain x).grpWritten (x.i 0)
  else if b = (R.rill_r_base 0).off then m.rillEnable (x.i 0) (m.merged x)
  else if b = (R.rill_r_ci 0).off then if m.on (R.rill_r_base_en (x.i 0)) then m else m.plain x
  else if b = (R.casc_vp_ctl 0).off then m.plainUnder x (if m.vpSt (x.i 0) = 0 then 0 else 63 * 2 ^ 56)
  else if b = (R.casc_vp_save 0).off then if m.vpSt (x.i 0) = 0 then m.plain x else m
  else if b = (R.casc_vp_tmr 0).off then (m.plain x).vpTimer (x.i 0)
  else if b = R.spill_errn.off then if x.one 1 then (m.plain x).errnClear else m.plain x
  else if b = R.spill_brst.off then let m := m.plain x
    if x.one 8 then m.brstGo (m.get R.spill_brst_block) else m
  else if b = R.spill_inj.off then let v := m.merged x
    if x.one 20 then m.injGo (if bits v 25 24 = 1 then 1 else 0) (bits v 11 0) else m.plain x
  else if b = (R.spill_src_ctl 0).off then m.srcCtl x
  else if b = (R.spill_src_st 0).off then if srcExists (x.i 0) && x.one 40 then m.severeClear (x.i 0) else m
  else if b = (R.spill_src_cnt 0).off then if srcExists (x.i 0) then m.plain x else m
  else if b = R.grotto_ctl.off then let m := m.plain x
    m.set (R.spill_src_ctl_min 2162) (m.minAct 2162)
  else if b = R.grotto_wd.off then if x.one 0 then m.grottoError 0x85 0 else m
  else if b = R.grotto_dbg.off then let m := m.plain x
    if x.one 8 then m.dbgClear else m
  else if b = R.grotto_cmd.off then m.grottoGo x
  else m.plain x

/-- Registers of the accelerator units and the channel subsystem. -/
def Mach.regWriteAcc (m : Mach) (x : RegW) : Mach :=
  let b := x.d.base
  let u := x.i 0
  let i := x.i 1
  if b = (R.u_ictl 0 0).off then
    if x.one 0 then m.instOp u i (bits (m.merged x) 7 4) else m.plain x
  else if b = (R.u_ittr2 0 0).off then m.rootWrite u i false (m.merged x)
  else if b = (R.u_i_ttr1 0 0).off then m.rootWrite u i true (m.merged x)
  else if b = (R.cmpu_i_sub 0 0).off then if x.whole then m.accSubmit u i x.val else m
  else if b = (R.cryu_i_sub 0 0).off then if x.whole then m.accSubmit (2 + u) i x.val else m
  else if b = (R.cmpu_i_ctl 0 0).off then let m := m.plain x
    if x.one 0 then m.abort u i else m
  else if b = (R.cryu_i_ctl 0 0).off then let m := m.plain x
    if x.one 0 then m.abort (2 + u) i else m
  else if b = (R.cryu_wkey 0 0 0).off then if x.whole then m.wkeyWrite u i (x.i 2) x.val else m
  else if b = R.chan_scmd.off then let m := m.plain x
    if x.one 20 then m.scmd (m.get R.chan_scmd_scid) (m.get R.chan_scmd_op) (m.get R.chan_scmd_path) else m
  else if b = (R.chan_pttr2 0).off then if m.acceptsLv (bits (m.merged x) 1 0) then m.plain x else m
  else if b = R.chan_rsv_peer.off then (m.plain x).mirShow
  else if b = R.chan_rsv_cmd.off then let m := m.plain x
    if x.one 20 then m.rsvCmd (m.get R.chan_rsv_cmd_slot) (m.get R.chan_rsv_cmd_op) else m
  else if b = (R.chan_jl_ctl 0).off then
    let m := m.plain x
    let m := if x.one 1 then m.portDown u else m
    if x.one 0 then m.portUp u else m
  else if b = (R.chan_p_sub 0).off then if x.whole then m.chanSubmit u x.val 0 else m
  else m.plain x

/-- Registers of the memory, Aqueduct, PCIe and coupling blocks, and of the cores. -/
def Mach.regWriteHigh (m : Mach) (x : RegW) : Mach :=
  let b := x.d.base
  let p := x.i 0
  if b = (R.mem_grp_ctl 0).off then if x.one 0 then (m.plain x).groupInit p else m.plain x
  else if b = (R.mem_port_ctl 0).off then
    let m := m.plain x
    let m := if x.one 1 then m.memDown p else m
    if x.one 0 then m.memUp p else m
  else if b = R.mem_cis_cmd.off then let m := m.plain x
    if x.one 0 then m.cisGo (m.get R.mem_cis_cmd_op) else m
  else if b = (R.aq_fab_ctl 0).off then m.fabCtl p (m.merged x)
  else if b = (R.pcie_p_ctl 0).off then let m := m.plain x
    if x.one 0 then m.containRelease p else m
  else if b = (R.pcie_p_ttr2 0).off then if m.acceptsLv (bits (m.merged x) 1 0) then m.plain x else m
  else if b = (R.cpl_mir 0).off then let m := m.plain x
    if x.one 61 then m.mirRelease p else m
  else if b = (R.cpl_rq 0).off then
    if m.on (R.cpl_rq_en p) && bit (m.merged x) 63 then m.plainUnder x (2 ^ 52 - 1) else m.plain x
  else if b = (R.cpl_p_ctl 0).off then
    let m := m.plain x
    let m := if x.one 1 then m.portDown (32 + p) else m
    if x.one 0 then m.portUp (32 + p) else m
  else if b = (R.cpl_q_sub 0).off then if x.whole then m.cplSubmit p x.val x.th else m
  else if b = (R.core_swap 0).off then m.plannedSwap p (m.merged x)
  else m.plain x

/-- A register is written. -/
def Mach.regWrite (m : Mach) (x : RegW) : Option Mach :=
  match x.f.blk with
  | .acc => some (m.regWriteAcc x)
  | .chan => some (m.regWriteAcc x)
  | .mem => some (m.regWriteHigh x)
  | .aq => some (m.regWriteHigh x)
  | .pcie => some (m.regWriteHigh x)
  | .cpl => some (m.regWriteHigh x)
  | .core => some (m.regWriteHigh x)
  | _ => if x.ix.isEmpty && !(x.f.blk == .spill || x.f.blk == .grotto) then m.regWriteLow x else some (m.regWriteMid x)

/-- A write of a register (R26, R30, R32, R43). -/
def Mach.regStore (m : Mach) (off part val : Nat) (th : Option Nat) : Option Mach :=
  let o := off / 8 * 8
  match blkOf o with
  | none => some (m.raiseHub 0 o)
  | some b => match regAt b o with
    | none => some (m.raiseHub 0 o)
    | some (d, ix) =>
      let mask := partMask part
      let m := if m.sealed && d.hitsRsl mask then m.raiseHub 1 o else m
      m.regWrite ⟨d, ix, ⟨b, o, 63, 0⟩, val, mask, th⟩

/-- A write that reaches an MCS offset: a doorbell page is rung (R529), a reserved offset is ignored and recorded (R26), an RSL field is locked
after boot seal and its write recorded (R43), and in a checkstop nothing is written. `part` is 0 for a double, 1 and 2 for the word at the lower and
the higher address (R30), whose value stands in its place in the double. -/
def Mach.mcsWrite (m : Mach) (off part val : Nat) (th : Option Nat) : Option Mach :=
  if m.frozen then some m
  else if 0x100000 ≤ off ∧ off < 0x1f0000 then
    some (m.ringPage ((off - 0x100000) / 4096) (off % 4096) (if part = 0 then 8 else 4) (if part = 1 then val / 2 ^ 32 else val))
  else m.regStore off part val th

end Sys2Proof.Machine
end

