-- ==== Sys2Proof/Machine/Debug.lean ====
section
/-! DEFINITION. What the debug and readout objects of the object dictionary do (R609 to R612, Table 23.8): debug commands, registers and memory of
a stopped thread, and the frozen items of a checkstop. -/

namespace Sys2Proof.Machine

/-- The key of an object: index × 256 + subindex. -/
def odKey (index sub : Nat) : Nat := index * 256 + sub

/-- An object's stored value. -/
def Mach.odObj (m : Mach) (index sub dflt : Nat) : Nat := tget m.od.objs (odKey index sub) dflt
def Mach.odSet (m : Mach) (index sub v : Nat) : Mach := { m with od := { m.od with objs := tset m.od.objs (odKey index sub) v } }

/-! ### Debug commands (R609) -/

/-- The thread that 0x2800.1 names. -/
def Mach.dbgThread (m : Mach) : Nat := m.odObj 0x2800 1 0

/-- No virtual processor holds the debug thread, or its number is above 95. -/
def Mach.dbgVacant (m : Mach) : Bool := decide (95 < m.dbgThread) || (m.vpOn m.dbgThread).isNone

/-- Object 0x2800.3. -/
def Mach.dbgState (m : Mach) : Nat :=
  if m.dbgVacant then 3
  else match (m.th m.dbgThread).dbg with
    | 0 => 0
    | 1 => 2
    | _ => 1

def Mach.dbgAnswer (m : Mach) (r : Nat) : Mach := { m with od := { m.od with dbg := r } }

/-- A write of 0x2800.2: the access result of Table 23.9, and what it does. -/
def Mach.debugCmd (m : Mach) (cmd : Nat) : Nat × Mach :=
  let t := m.dbgThread
  if cmd = 0 ∨ 3 < cmd then (7, m)
  else if m.dbgVacant then (1, m.dbgAnswer 2)
  else if cmd = 2 then (1, (m.onTh t fun x => { x with dbg := 0 }).dbgAnswer 1)
  else if m.dbgState = 1 then (1, m.dbgAnswer 6)
  else if cmd = 1 then
    if m.dbgState = 2 then (1, m.dbgAnswer 1) else (1, ((m.onTh t fun x => { x with dbg := 3 }).dbgAnswer 0).tryStop t)
  else if m.dbgState ≠ 2 then (8, m)
  else if !(m.worldDebug t).2 then (1, m.dbgAnswer 5)
  else (1, (m.onTh t fun x => { x with dbg := 2 }).dbgAnswer 0)

/-! ### Registers of a stopped thread (R611, object 0x2801) -/

/-- A register by its subindex. -/
def Arch.dbgGet (a : Arch) (sub : Nat) : Nat :=
  if sub ≤ 32 then (a.gr (sub - 1)).toNat
  else if sub ≤ 64 then (a.fr (sub - 33)).toNat
  else if sub = 65 then a.ia.toNat
  else if sub = 66 then a.psw.toNat
  else if sub = 67 then a.fpsr.toNat
  else if sub ≤ 71 then (tget a.lsa (sub - 68) 0).toNat
  else if sub ≤ 75 then (tget a.lea (sub - 72) 0).toNat
  else (tget a.lct (sub - 76) 0).toNat

/-- A write of a register: `psw.pl`, `psw.enc` and `psw.mck` never change, and reserved bits keep their value. -/
def Arch.dbgPut (a : Arch) (sub v : Nat) : Arch :=
  let w : W64 := BitVec.ofNat 64 v
  let pm : W64 := BitVec.ofNat 64 (pswMask &&& (2 ^ 64 - 1 ^^^ 0x80))
  if sub ≤ 32 then a.setG (sub - 1) w
  else if sub ≤ 64 then a.setF (sub - 33) w
  else if sub = 65 then { a with ia := w &&& ~~~3 }
  else if sub = 66 then { a with psw := (a.psw &&& ~~~pm) ||| (w &&& pm) }
  else if sub = 67 then { a with fpsr := w &&& BitVec.ofNat 64 fpsrMask }
  else if sub ≤ 71 then { a with lsa := tset a.lsa (sub - 68) (w &&& ~~~3) }
  else if sub ≤ 75 then { a with lea := tset a.lea (sub - 72) (w &&& ~~~3) }
  else { a with lct := tset a.lct (sub - 76) w }

/-- Object 0x2801 is open in state 2 only, with the invasive enable of the thread's world. -/
def Mach.dbgRegOpen (m : Mach) : Nat :=
  if m.dbgState ≠ 2 then 8 else if !(m.worldDebug m.dbgThread).2 then 0xB else 1

def Mach.dbgRegPut (m : Mach) (sub v : Nat) : Mach :=
  m.onTh m.dbgThread fun t => { t with cur := t.cur.dbgPut sub v, com := t.com.dbgPut sub v }

/-! ### Debug memory (R611, object 0x2802) -/

/-- The enclave whose range holds an address. -/
def Mach.enclOf (m : Mach) (pa : Nat) : Option Nat :=
  (m.grotto.encl.find? fun x => x.2.st != 0 && decide (x.2.base ≤ pa) && decide (pa < x.2.base + x.2.size)).map (·.1)

/-- The enclave invasive enable covers the enclave of a pool address (R369). -/
def Mach.enclCovered (m : Mach) (pa : Nat) : Bool :=
  m.on R.grotto_dbg_e_ni && m.on R.grotto_dbg_e_inv && (match m.enclOf pa with | some e => m.inScope e | none => m.on R.grotto_dbg_all)

/-- The result that bars debug from a byte, or 1. -/
def Mach.dbgMemOpen (m : Mach) (pa : Nat) : Nat :=
  match m.rgnKind pa with
  | 2 => 9
  | 3 => if m.enclCovered pa then 1 else 0xB
  | 1 => if m.on R.grotto_dbg_f_ni && m.on R.grotto_dbg_f_inv then 1 else 0xB
  | _ => if m.on R.grotto_dbg_n_ni && m.on R.grotto_dbg_n_inv then 1 else 0xB

/-- A table entry as the hub service agent reads it. -/
def Mach.hubEntry (m : Mach) (pa : Nat) : Option Nat := if (m.homeOf pa).isNone then none else some (ofBytes (m.devRead pa 8))

/-- Stage 2 of a guest physical address, permissions ignored and no bit set. -/
def Mach.peek2 (m : Mach) (root gpa : Nat) : Nat → Option Nat
  | 0 => none
  | n + 1 =>
    let idx := bits gpa (11 + 9 * (n + 1)) (12 + 9 * n)
    match m.hubEntry (root + 8 * idx) with
    | none => none
    | some e =>
      if (entryFail m e (n + 1) idx true true).isSome then none
      else if bit e 1 then m.peek2 (bits e 51 12 * 4096) gpa n
      else some (leafOut e (n + 1) gpa)

def Mach.peekGpa (m : Mach) (ttr2 gpa : Nat) : Option Nat :=
  let d := lvDepth (bits ttr2 1 0)
  if d = 0 then some gpa else if gpa ≥ 2 ^ gpaBits d then none else m.peek2 (bits ttr2 51 12 * 4096) gpa d

/-- Stage 1 of an effective address, permissions ignored and no bit set: the guest physical address. -/
def Mach.peek1 (m : Mach) (ttr2 root va : Nat) : Nat → Option Nat
  | 0 => none
  | n + 1 =>
    let idx := bits va (11 + 9 * (n + 1)) (12 + 9 * n)
    match (m.peekGpa ttr2 (root + 8 * idx)).bind m.hubEntry with
    | none => none
    | some e =>
      if (entryFail m e (n + 1) idx false (bits ttr2 1 0 == 0)).isSome then none
      else if bit e 1 then m.peek1 ttr2 (bits e 51 12 * 4096) va n
      else some (leafOut e (n + 1) va)

/-- The regime of a thread translates an effective address, for debug (R611). -/
def Mach.peek (m : Mach) (th va : Nat) : Option Nat :=
  let a := (m.th th).cur
  let low := decide (a.pl ≤ 1)
  let ttr2 := if low then a.ttr2.toNat else 0
  let outside : Option Nat :=
    if a.pswF 4 4 = 0 then (if va ≥ 2 ^ 52 then none else m.peekGpa ttr2 va)
    else
      let root := if low then a.ttr1.toNat else a.ttrh.toNat
      let d := lvDepth (bits root 1 0)
      if d = 0 ∨ !m.acceptsLv (bits root 1 0) ∨ !canonical va (vaBits d) then none
      else (m.peek1 ttr2 (bits root 51 12 * 4096) va d).bind (m.peekGpa ttr2)
  match m.window th with
  | some (base, size, _, vbase) => if vbase ≤ va ∧ va < vbase + size then some (base + (va - vbase)) else outside
  | none => outside

/-- The runs of physical memory that an access of 0x2802.4 reaches, or the result that refuses it. -/
def Mach.dbgRuns (m : Mach) : Except Nat (List (Nat × Nat)) :=
  let addr := m.odObj 0x2802 1 0
  let len := m.odObj 0x2802 3 256
  let cuts := (List.range ((addr % 4096 + len - 1) / 4096 + 1)).map fun i =>
    let lo := max addr ((addr / 4096 + i) * 4096)
    (lo, min (addr + len) ((addr / 4096 + i + 1) * 4096) - lo)
  let eff := m.odObj 0x2802 2 0 == 1
  if eff && m.dbgState != 2 then .error 8
  else if eff && !(m.worldDebug m.dbgThread).2 then .error 0xB
  else
    let runs := cuts.map fun (c : Nat × Nat) => if eff then (m.peek m.dbgThread (c.1 % 2 ^ 64)).map fun p => (p, c.2) else some (c.1, c.2)
    if runs.any (·.isNone) then .error 8
    else
      let l : List (Nat × Nat) := runs.filterMap id
      let lines := l.flatMap fun (r : Nat × Nat) => (List.range ((r.1 + r.2 - 1) / 256 - r.1 / 256 + 1)).map fun i => (r.1 / 256 + i) * 256
      match lines.find? fun p => m.dbgMemOpen p != 1 with
      | some p => .error (m.dbgMemOpen p)
      | none => if l.any fun (r : Nat × Nat) => (m.devRange .hub r.1 r.2).isSome then .error 8 else .ok l

def Mach.dbgMemRead (m : Mach) : Nat × List Nat :=
  match m.dbgRuns with
  | .error r => (r, [])
  | .ok l => (1, l.flatMap fun (r : Nat × Nat) => m.devRead r.1 r.2)

def Mach.dbgMemWrite (m : Mach) (bs : List Nat) : Nat × Mach :=
  match m.dbgRuns with
  | .error r => (r, m)
  | .ok l =>
    if bs.length ≠ m.odObj 0x2802 3 256 then (6, m)
    else (1, (l.foldl (fun (x : Mach × List Nat) (r : Nat × Nat) => (x.1.devWrite r.1 (x.2.take r.2), x.2.drop r.2)) (m, bs)).1)

/-! ### Service readout (R612) -/

def lineBytes (d : Line) : List Nat := (List.range 256).map (lineByte d)
def zeros (n : Nat) : List Nat := List.replicate n 0

/-- A line whose data the readout shows as zero: Grotto pool data that no enclave invasive enable covers. -/
def Mach.hiddenLine (m : Mach) (line : Nat) : Bool := m.rgnKind (256 * line) == 3 && !m.enclCovered (256 * line)

/-- The 16-byte header of an item. -/
def itemHead (line st age flags : Nat) : List Nat := toBytes 8 (256 * line) ++ [st, age, flags] ++ zeros 5

def Mach.lineItem (m : Mach) (line st age flags : Nat) (d : Line) : List Nat :=
  itemHead line st age flags ++ (if m.hiddenLine line then zeros 256 else lineBytes d)

/-- An entry of a table that is empty. -/
def emptyItem : List Nat := zeros 272

/-- A retired store, as in a capsule. -/
def storeBytes (e : StoreE) : List Nat := toBytes 8 e.pa ++ [e.len] ++ zeros 7 ++ toBytes e.len e.val ++ zeros (16 - e.len)

/-- A byte mask of 32 bytes: bit 7 of byte 0 covers line byte 0. -/
def maskBytes (k : Nat) : List Nat := (List.range 32).map fun b => (List.range 8).foldl (fun w j => w * 2 + b2n (bit k (8 * b + j))) 0

def pad (n : Nat) (l : List Nat) : List Nat := l.take n ++ zeros (n - l.length)

/-- A thread section of a capsule (Table 5.7): it reads as zero when its saved `psw.enc` is 1, and so does its core-internal context. -/
def Mach.capThread (m : Mach) (cap : Capsule) (h : Nat) : List Nat :=
  let a := if h = 0 then cap.arch0 else cap.arch1
  let n := (if h = 0 then cap.stores0 else cap.stores1).length
  let who := match m.vpOn (2 * cap.src + h) with
    | some vp => vp + m.vpPart vp * 65536
    | none => 2 ^ 63
  if bit a.psw.toNat 2 || !bit cap.present h then zeros 1024
  else
    let ws := ((a.frame 0 0 none).take 101).set 67 (match a.resv with | some l => BitVec.ofNat 64 (256 * l + 1) | none => 0)
    pad 1024 (wordsBytes ws ++ toBytes 8 who ++ toBytes 8 n)

/-- A capsule frame (Table 5.5). The CRCs of the thread sections cover the context that software does not know: they are free values. -/
def Mach.capsuleBytes (m : Mach) (cap : Capsule) : List Nat :=
  let line := fun (l : Nat) => toBytes 8 (256 * l)
  let head := pad 256 (toBytes 2 1 ++ toBytes 2 0x10 ++ [cap.src, cap.dst, cap.present, cap.cause] ++ toBytes 8 cap.tod ++ toBytes 8 cap.err.toNat
    ++ toBytes 2 cap.misses.length ++ toBytes 2 cap.comb.length)
  let st0 := pad 2048 (cap.stores0.flatMap storeBytes)
  let st1 := pad 2048 (cap.stores1.flatMap storeBytes)
  let comb := pad 4096 (cap.comb.flatMap fun x => if m.hiddenLine x.line then zeros 256 else lineBytes x.data)
    ++ pad 512 (cap.comb.flatMap fun x => maskBytes x.mask) ++ pad 128 (cap.comb.flatMap fun x => line x.line)
  let miss := pad 1024 (cap.misses.flatMap fun x => line x.line ++ [if x.excl then 2 else 1] ++ toBytes 2 x.tag ++ zeros 5)
  let crc := fun (l : List Nat) => toBytes 4 (crc32c l)
  let free := fun (k : Nat) => toBytes 4 (Config.freeWord (m.seed + k)).toNat
  head ++ m.capThread cap 0 ++ m.capThread cap 1 ++ st0 ++ st1 ++ comb ++ miss ++ zeros 3968
    ++ crc head ++ free 0 ++ free 1 ++ crc st0 ++ crc st1 ++ crc comb ++ crc miss ++ zeros 228

/-- An item that the spec does not determine (log entry 33). -/
def Mach.freeItem (m : Mach) (n : Nat) : List Nat := (List.range n).map fun i => (Config.freeWord (m.seed + i)).toNat % 256

/-- A directory entry (Table 9.1); its check bits are free. -/
def Mach.dirWord (m : Mach) (e : DirE) : Nat :=
  let chk := (Config.freeWord m.seed).toNat
  let v := fun (n : Nat) => bits e.vec (64 * n + 55) (64 * n)
  v 3 * 2 ^ 192 + bits chk 8 8 * 2 ^ 184 + v 2 * 2 ^ 128 + bits chk 7 0 * 2 ^ 120 + v 1 * 2 ^ 64 + b2n e.psn * 2 ^ 59
    + (match e.st with | .u => 0 | .s => 1 | .x => 2) * 2 ^ 56 + v 0

/-- An item of space 3. The ways that serve the Cistern hold the entries of the lines of expanded pages (R328). Which entries the other ways hold, no
rule says (R271): the state holds the directory itself, and their items are free. -/
def Mach.dirItem (m : Mach) (u i : Nat) : List Nat :=
  if i % 24 < 20 || !m.on R.mem_cis_stat_cfg then m.freeItem 48
  else match tfind m.home.bsn ((u * 16384 + i / 24) * 32 + 8 + i % 24) with
    | none => zeros 48
    | some x => toBytes 8 (256 * x.line) ++ m.freeItem 2 ++ [b2n (m.dirE x.line).psn] ++ zeros 5 ++ toBytes 32 (m.dirWord (m.dirE x.line))

/-- The item that 0x2900.1 to 0x2900.3 name: the access result and the bytes. -/
def Mach.readout (m : Mach) : Nat × List Nat :=
  let space := m.odObj 0x2900 1 0
  let u := m.odObj 0x2900 2 0
  let i := m.odObj 0x2900 3 0
  let out := fun (ok : Bool) (l : List Nat) => if ok then (1, l) else (7, [])
  let c := m.core u
  match space with
  | 0 => out (decide (i < 0x400000)) (toBytes 8 (m.mcsRead (8 * i)))
  | 1 => out (decide (u < 48 ∧ i < 16384)) (match tfind c.l2 i with
      | some w => m.lineItem w.line w.st.code w.age (b2n w.psn + 2 * b2n (c.holds.contains w.line) + 4 * b2n (m.reservedIn u w.line)) w.data
      | none => emptyItem)
  | 2 => out (decide (u < 4 ∧ i < 524288)) (match tfind m.home.bsn (u * 524288 + i) with
      | some w => m.lineItem w.line (if w.newer then 2 else 1) w.age (b2n w.psn) w.data
      | none => emptyItem)
  | 3 => out (decide (u < 4 ∧ i < 393216)) (m.dirItem u i)
  | 4 => out (decide (u < 48 ∧ i < 32)) (match c.evb[i]? with
      | some e => m.lineItem e.line e.st.code 0 (b2n e.psn) e.data
      | none => emptyItem)
  | 5 => out (decide (u < 96 ∧ i < 64)) (match (m.th u).sbuf[i]? with
      | some e => storeBytes e
      | none => zeros 32)
  | 6 => out (decide (u < 48 ∧ i < 16)) (match c.comb[i]? with
      | some x => itemHead x.line 0 0 0 ++ maskBytes x.mask ++ (if m.hiddenLine x.line then zeros 256 else lineBytes x.data)
      | none => zeros 304)
  | 7 => out (decide (u < 4 ∧ i < 4)) (match m.cores.findSome? fun x => x.2.swap.bind fun w => if w.cap.frame = 4 * u + i then some w.cap else none with
      | some cap => m.capsuleBytes cap
      | none => m.freeItem 16384)
  | 8 => out (m.rangeOf (256 * i) == some m.modNo) (m.lineItem i 0 0 (b2n (m.dirE i).psn) (m.mem.rdLine i))
  | _ => (7, [])

end Sys2Proof.Machine
end

