-- ==== Sys2Proof/Machine/Od.lean ====
section
/-! DEFINITION. The object dictionary (spec/23): its objects (Tables 23.5 to 23.7), one access of either path (R602 to R607), and the in-band
window (R615). -/

namespace Sys2Proof.Machine

/-! ### Objects -/

/-- What an object holds: a constant, text, the register at an MCS offset, or what the functions below give it. -/
inductive ObjKind where
  | const (v : Nat) | text (bs : List Nat) | reg (off : Nat) | own
deriving DecidableEq, Repr

/-- An object: its access (1 ro or const, 2 wo, 3 rw), that of the window (0 for none), the bytes of its type (0 for text and DOMAIN). -/
structure Obj where
  acc : Nat
  win : Nat
  size : Nat
  kind : ObjKind
deriving DecidableEq, Repr

def roReg (f : Fld) : Obj := ⟨1, 1, 8, .reg f.off⟩
def rwReg (f : Fld) : Obj := ⟨3, 3, 8, .reg f.off⟩
/-- Written from the service network only. -/
def netReg (f : Fld) : Obj := ⟨3, 1, 8, .reg f.off⟩
/-- An object that the window reads and nobody writes, or that the network alone writes. -/
def ownRo (n : Nat) : Obj := ⟨1, 1, n, .own⟩
def ownRw (n : Nat) : Obj := ⟨3, 1, n, .own⟩
/-- Objects that only the network reaches. -/
def netRo (n : Nat) : Obj := ⟨1, 0, n, .own⟩
def netRw (n : Nat) : Obj := ⟨3, 0, n, .own⟩
def netWo (n : Nat) : Obj := ⟨2, 0, n, .own⟩

/-- Objects that are single variables. -/
def Mach.objVar (m : Mach) (index : Nat) : Option Obj :=
  match index with
  | 0x1000 => some ⟨1, 1, 4, .const 0⟩
  | 0x1001 => some (ownRo 1)
  | 0x1008 => some ⟨1, 1, 0, .text [0x4E, 0x4B, 0x41, 0x2D, 0x39, 0x36, 0x34, 0x38]⟩
  | 0x1009 => some ⟨1, 1, 0, .text [0x42, 0x31]⟩
  | 0x100A => some ⟨1, 1, 0, .text ((Nat.toDigits 10 (m.get R.mode_patchst_level)).map Char.toNat)⟩
  | 0x1014 => some (ownRw 4)
  | 0x1015 => some (ownRw 2)
  | 0x1017 => some (ownRw 2)
  | 0x2101 => some (netWo 2)
  | 0x2304 => some (rwReg R.weir_cstage)
  | _ => none

/-- The members of a list as subindices 1 on. -/
def members (l : List Obj) : Option (Nat × (Nat → Option Obj)) := some (l.length, fun k => l[k]?)

/-- n like members. -/
def likes (n : Nat) (f : Nat → Obj) : Option (Nat × (Nat → Option Obj)) := some (n, fun k => if k < n then some (f k) else none)

/-- A TPDO's communication parameters: subindices 1, 2, 3 and 5. -/
def tpdoComm : Option (Nat × (Nat → Option Obj)) :=
  some (5, fun k => match k with | 0 => some (ownRw 4) | 1 => some (ownRw 1) | 2 => some (ownRw 2) | 4 => some (ownRw 2) | _ => none)

/-- Bytes of the telemetry values (Table 23.7). -/
def telSize (sub : Nat) : Nat := match sub with
  | 4 => 1 | 10 => 1 | 11 => 1 | 12 => 1 | 13 => 1 | 14 => 4 | 15 => 1 | 16 => 1 | 17 => 4 | _ => 2

/-- A mapping entry: 0x2A00, subindex, length in bits. -/
def mapEntry (sub : Nat) : Obj := ⟨1, 1, 4, .const (0x2A000000 + sub * 256 + 8 * telSize sub)⟩

/-- Records and arrays of communication and debug objects: the highest subindex, and the members counted from 0. -/
def objRecLow (index : Nat) : Option (Nat × (Nat → Option Obj)) :=
  match index with
  | 0x1018 => members [⟨1, 1, 4, .const 0xA3C⟩, ⟨1, 1, 4, .const 0x25B0⟩, ⟨1, 1, 4, .const 0x20001⟩, ⟨1, 1, 4, .const (Config.serial % 2 ^ 32)⟩]
  | 0x1800 => tpdoComm
  | 0x1801 => tpdoComm
  | 0x1A00 => likes 9 fun k => mapEntry (k + 1)
  | 0x1A01 => likes 9 fun k => mapEntry (k + 10)
  | 0x2600 => members [netRo 1, netWo 0, netRo 1, netWo 1, netRo 1]
  | 0x2700 => members [⟨2, 2, 0, .own⟩, rwReg R.grotto_dbgst, roReg R.grotto_nonce, roReg R.grotto_dbg, ⟨2, 2, 1, .own⟩, roReg R.grotto_stat]
  | 0x2800 => members [netRw 1, netWo 1, netRo 1, netRo 8, netRo 1]
  | 0x2801 => likes 79 fun _ => netRw 8
  | 0x2802 => members [netRw 8, netRw 1, netRw 2, netRw 0]
  | 0x2803 => likes 3 fun _ => netRo 8
  | 0x2900 => members [netRw 1, netRw 1, netRw 4, netRo 0]
  | 0x2A00 => likes 18 fun k => ownRo (telSize (k + 1))
  | _ => none

/-- Records and arrays of registers (Table 23.6). -/
def objRecReg (index : Nat) : Option (Nat × (Nat → Option Obj)) :=
  match index with
  | 0x2000 => members ([R.id_part, R.id_cores, R.id_coremask, R.id_healthmask, R.id_place, R.id_ports, R.id_ioports, R.id_mfeat, R.mode_patchst].map roReg)
  | 0x2100 => members [roReg R.mode_cur, rwReg R.mode_req, rwReg R.mode_stat, roReg R.mode_epoch, roReg R.mode_cause, rwReg R.mode_cfg,
      rwReg R.mode_m2mask, rwReg R.mode_rill]
  | 0x2200 => members [rwReg R.weir_limit, roReg R.weir_stat, rwReg R.weir_cfg, rwReg R.weir_cnt, rwReg R.weir_err]
  | 0x2201 => likes 48 fun c => roReg (R.weir_core c)
  | 0x2202 => likes 64 fun s => roReg (R.weir_temp s)
  | 0x2203 => likes 64 fun s => roReg (R.weir_temp (64 + s))
  | 0x2204 => likes 64 fun s => roReg (R.weir_temp (128 + s))
  | 0x2205 => likes 64 fun s => roReg (R.weir_temp (192 + s))
  | 0x2206 => likes 16 fun s => roReg (R.weir_temp (256 + s))
  | 0x2300 => likes 48 fun c => roReg (R.core_state c)
  | 0x2301 => likes 48 fun c => rwReg (R.core_err c)
  | 0x2302 => likes 48 fun c => rwReg (R.core_swap c)
  | 0x2303 => likes 48 fun c => roReg (R.core_last c)
  | 0x2400 => members [netReg R.spill_cfg, netReg R.spill_stat, netReg R.spill_errn, roReg R.spill_rcause, netReg R.spill_brst, netReg R.spill_inj]
  | 0x2401 => likes 150 fun b => netReg (R.spill_blk b)
  | 0x2500 => likes 20 fun p => roReg (R.mem_port_stat p)
  | 0x2501 => likes 20 fun p => netReg (R.mem_port_ctl p)
  | 0x2502 => likes 4 fun g => roReg (R.mem_grp_stat g)
  | 0x2503 => likes 12 fun p => roReg (R.aq_fab_stat p)
  | 0x2504 => likes 12 fun p => netReg (R.aq_fab_ctl p)
  | 0x2505 => likes 32 fun p => roReg (R.chan_jl_stat p)
  | 0x2506 => likes 32 fun p => rwReg (R.chan_jl_ctl p)
  | 0x2507 => likes 18 fun p => roReg (R.cpl_p_stat p)
  | 0x2508 => likes 18 fun p => rwReg (R.cpl_p_ctl p)
  | 0x2509 => likes 32 fun p => roReg (R.pcie_p_stat p)
  | 0x250A => likes 32 fun p => roReg (R.pcie_p_hp p)
  | 0x250B => members [roReg R.aq_dom, netReg R.aq_sl_stat]
  | _ =>
    if 0x3000 ≤ index ∧ index < 0x4000 then
      members [netReg (R.spill_src_ctl (index - 0x3000)), netReg (R.spill_src_st (index - 0x3000)), netReg (R.spill_src_cnt (index - 0x3000))]
    else none

/-- The object at an index and subindex, or the result that says what does not exist. -/
def Mach.obj (m : Mach) (index sub : Nat) : Except Nat Obj :=
  match m.objVar index with
  | some o => if sub = 0 then .ok o else .error 3
  | none =>
    match (objRecLow index).or (objRecReg index) with
    | none => .error 2
    | some (n, f) =>
      if sub = 0 then .ok ⟨1, if (f 0).any (·.win == 0) then 0 else 1, 1, .const n⟩
      else match f (sub - 1) with
        | some o => .ok o
        | none => .error 3

/-! ### Values -/

/-- The default of a stored object; n is the node-ID. -/
def objDefault (n index sub : Nat) : Nat :=
  match index, sub with
  | 0x1014, _ => 0x80 + n
  | 0x1017, _ => 1000
  | 0x1800, 1 => 0x180 + n
  | 0x1800, 2 => 0xFE
  | 0x1800, 5 => 100
  | 0x1801, 1 => 0x280 + n
  | 0x1801, 2 => 0xFE
  | 0x1801, 3 => 100
  | 0x1801, 5 => 1000
  | 0x2802, 3 => 256
  | _, _ => 0

def Mach.node (m : Mach) : Nat := m.get R.id_place_can_node

/-- A stored object. -/
def Mach.stored (m : Mach) (index sub : Nat) : Nat := m.odObj index sub (objDefault m.node index sub)

/-- The hottest sensor, of n from number b on, that has not failed, as I16; 0 when all have. -/
def Mach.hottest (m : Mach) (b n : Nat) : Nat :=
  let l := ((List.range n).filter fun i => !m.on (R.weir_temp_fail (b + i))).map fun i => sx 16 (m.get (R.weir_temp_temp (b + i)))
  match l with
  | [] => 0
  | x :: r => (BitVec.ofInt 16 (r.foldl max x)).toNat

/-- Telemetry (Table 23.7). -/
def Mach.telemetry (m : Mach) (sub : Nat) : Nat :=
  match sub with
  | 1 => m.get R.weir_stat_avg
  | 2 => m.get R.weir_stat_inforce
  | 3 => m.get R.weir_stat_peak
  | 4 => m.get R.weir_stat_throttle
  | 5 => m.hottest 0 64
  | 6 => m.hottest 64 64
  | 7 => m.hottest 128 64
  | 8 => m.hottest 192 64
  | 9 => m.hottest 256 16
  | 10 => m.get R.mode_cur_cur
  | 11 => m.get R.id_cores_assign
  | 12 => m.get R.id_cores_spare
  | 13 => m.get R.id_cores_failed
  | 14 => m.get R.spill_stat_events % 2 ^ 32
  | 15 => m.get R.spill_errn_asserted
  | 16 => m.get R.aq_dom_chk_cause
  | 17 => m.get R.mode_epoch_count % 2 ^ 32
  | _ => (List.range 4).foldl (fun w g => w + m.get (R.mem_grp_stat_state g) % 16 * 16 ^ g) 0

/-- The value of a number that is no constant and no register, with the result of the access. -/
def Mach.ownNum (m : Mach) (index sub : Nat) : Nat × Nat :=
  match index with
  | 0x1001 => (1, m.errReg)
  | 0x2600 =>
    if sub = 1 then (1, m.get R.mode_boot_area)
    else if sub = 3 then (1, m.od.img)
    else (1, if m.get R.mode_boot_area = 3 then m.od.next.getD 0xFF else m.od.next.getD (m.get R.mode_boot_area))
  | 0x2800 =>
    let ni := (m.worldDebug m.dbgThread).1
    match sub with
    | 3 => (1, m.dbgState)
    | 4 => (1, if m.dbgThread < 96 ∧ ni then (m.th m.dbgThread).com.ia.toNat else 0)
    | 5 => (1, m.od.dbg)
    | _ => (1, m.stored index sub)
  | 0x2801 => (m.dbgRegOpen, (m.th m.dbgThread).cur.dbgGet sub)
  | 0x2803 =>
    let c := m.dbgThread / 2
    (1, if m.dbgThread < 96 ∧ (m.worldDebug m.dbgThread).1 then
      m.word (if sub = 1 then R.core_cstat0 c else if sub = 2 then R.core_cstat1 c else R.core_cstat2 c) else 0)
  | 0x2A00 => (1, m.telemetry sub)
  | _ => (1, m.stored index sub)

/-- The value of a DOMAIN object that can be read. -/
def Mach.ownBytes (m : Mach) (index : Nat) : Nat × List Nat :=
  if index = 0x2802 then m.dbgMemRead
  else if index = 0x2900 then (if m.frozen then m.readout else (8, []))
  else (5, [])

/-! ### Firmware images (R613, R614) -/

/-- The inactive area. -/
def Mach.idleArea (m : Mach) : Nat := if m.get R.mode_boot_area = 1 then 0 else 1

/-- A write of 0x2600.2. -/
def Mach.imageWrite (m : Mach) (bs : List Nat) : Nat × Mach :=
  if m.od.img = 1 ∨ m.od.img = 2 then (0xA, m)
  else
    let m := m.flashWr (areaBase m.idleArea) areaSize (bs.take areaSize)
    (1, { m with od := { m.od with img := 1, imgLen := bs.length } })

/-- A write of 0x2600.4. -/
def Mach.activate (m : Mach) (v : Nat) : Nat × Mach :=
  if v ≠ 1 then (7, m)
  else if m.od.img ≠ 3 then (8, m)
  else
    let a := m.idleArea
    let m : Mach := { m with od := { m.od with next := some a } }
    if m.get R.mode_boot_area = 3 then (1, (m.selWrite a).callReset 1 0xFFF)
    else (1, m.modeReqWrite (m.mode_ ||| 4 <<< 4 ||| 1 <<< 8) (2 ^ 64 - 1))

/-- A write of 0x2101. -/
def Mach.resetObject (m : Mach) (v : Nat) : Nat × Mach :=
  if v ≠ 0x5253 then (7, m)
  else if m.frozen && !m.od.hubLost then (1, m.callReset 3 (m.get R.aq_dom_chk_src))
  else (1, m.callReset 1 0xFFF)

/-! ### Writes -/

/-- A write of a number that is no register. -/
def Mach.numWrite (m : Mach) (index sub v : Nat) : Nat × Mach :=
  let put : Nat × Mach := (1, m.odSet index sub v)
  match index with
  | 0x1800 => if sub = 2 ∧ v ≠ 0xFE then (7, m) else put
  | 0x1801 => if sub = 2 ∧ v ≠ 0xFE then (7, m) else put
  | 0x2101 => m.resetObject v
  | 0x2600 => m.activate v
  | 0x2700 => if v = 1 then (1, m.dbgClear) else (7, m)
  | 0x2800 => if sub = 2 then m.debugCmd v else put
  | 0x2801 => if m.dbgRegOpen = 1 then (1, m.dbgRegPut sub v) else (m.dbgRegOpen, m)
  | 0x2802 => if (sub = 2 ∧ 1 < v) ∨ (sub = 3 ∧ (v = 0 ∨ 4096 < v)) then (7, m) else put
  | 0x2900 => if sub = 1 ∧ 8 < v then (7, m) else put
  | _ => put

/-- A write of a DOMAIN object. -/
def Mach.domWrite (m : Mach) (index : Nat) (bs : List Nat) : Nat × Mach :=
  if index = 0x2600 then m.imageWrite bs
  else if index = 0x2700 then (1, m.certificate bs)
  else m.dbgMemWrite bs

/-- After boot seal a register whose every writable field is RSL is sealed (R604, log entry 34). -/
def Mach.sealedReg (m : Mach) (off : Nat) : Bool :=
  m.sealed && (match (blkOf off).bind fun b => regAt b off with
    | some (d, _) => d.fields.any (fun f => f.cls == .rsl) && d.fields.all fun f => f.cls == .rsl || f.cls == .ro
    | none => false)

/-- What the state of the module refuses with 0x8 (R606). -/
def Mach.odBarred (m : Mach) (index sub : Nat) (wr : Bool) : Bool :=
  if m.od.hubLost then
    !(decide (0x1000 ≤ index ∧ index ≤ 0x1018) || (index == 0x2000 && sub == 1) || index == 0x2101 || (index == 0x2400 && (sub == 3 || sub == 4)))
  else m.frozen && wr && !(index == 0x2101 || (index == 0x2400 && sub == 3) || index == 0x2900)

/-- The checks of an access that come before its value: existence, path, state, access. The result is the object, or the code that refuses it. -/
def Mach.objOpen (m : Mach) (net wr : Bool) (index sub : Nat) : Except Nat Obj :=
  match m.obj index sub with
  | .error r => .error r
  | .ok o =>
    if !net && (o.win == 0 || (wr && o.win == 1)) then .error 9
    else if m.odBarred index sub wr then .error 8
    else if wr then
      if o.acc = 1 then .error 4
      else (match o.kind with | .reg off => if m.sealedReg off then .error 4 else .ok o | _ => .ok o)
    else if o.acc = 2 then .error 5 else .ok o

/-- The value of an object as number and size, or as bytes in storage order. -/
def Mach.objRead (m : Mach) (net : Bool) (index sub : Nat) : Nat × List Nat :=
  match m.objOpen net false index sub with
  | .error r => (r, [])
  | .ok o =>
    let num := fun (v : Nat) => let b := toBytes o.size v; if net then b.reverse else b
    match o.kind with
    | .const v => (1, num v)
    | .text bs => (1, bs)
    | .reg off => (1, num (m.mcsRead off))
    | .own =>
      if o.size = 0 then m.ownBytes index
      else
        let (r, v) := m.ownNum index sub
        (r, if r = 1 then num v else [])

/-- A write of an object: bytes as they come on the path. -/
def Mach.objWrite (m : Mach) (net : Bool) (index sub : Nat) (bs : List Nat) : Nat × Mach :=
  match m.objOpen net true index sub with
  | .error r => (r, m)
  | .ok o =>
    if o.size ≠ 0 ∧ bs.length ≠ o.size then (6, m)
    else
      let v := ofBytes (if net then bs.reverse else bs)
      match o.kind with
      | .reg off => (1, (m.regStore off 0 v none).getD m)
      | .own => if o.size = 0 then m.domWrite index bs else m.numWrite index sub v
      | _ => (4, m)

/-! ### The window (R615) -/

/-- A request of the window ends. -/
def Mach.odEnd (m : Mach) (r : Nat) : Mach := m.sets [(R.od_cmd_result, r), (R.od_cmd_done, 1), (R.od_cmd_go, 0)]

/-- The first n bytes of `od.buf`. -/
def Mach.odBuf (m : Mach) (n : Nat) : List Nat := (List.range n).map fun i => byteAt 8 (m.word (R.od_buf (i / 8))) (i % 8)

/-- Bytes written into `od.buf` from its byte 0. -/
def Mach.odFill (m : Mach) (bs : List Nat) : Mach :=
  (List.range (cdiv bs.length 8)).foldl (fun m k =>
    m.set (R.od_buf k) (ofBytes (((bs.drop (8 * k)).take 8) ++ (toBytes 8 (m.word (R.od_buf k))).drop (bs.length - 8 * k)))) m

/-- A part of a DOMAIN write: parts run at ascending contiguous offsets from 0, and the last one performs the write. -/
def Mach.odPart (m : Mach) (index sub off : Nat) (fin : Bool) (bs : List Nat) : Nat × Mach :=
  match m.objOpen false true index sub with
  | .error r => (r, m)
  | .ok _ =>
    let key := odKey index sub
    let had : List Nat := match m.od.dom with
      | some (k, l) => if k = key ∧ off ≠ 0 then l else []
      | none => []
    if off ≠ had.length then (0xC, m)
    else if fin then ({ m with od := { m.od with dom := none } } : Mach).objWrite false index sub (had ++ bs)
    else (1, { m with od := { m.od with dom := some (key, had ++ bs) } })

/-- `go` of `od.cmd`, with its fields and `od.xfer` as written. -/
def Mach.odGo (m : Mach) : Mach :=
  let index := m.get R.od_cmd_index
  let sub := m.get R.od_cmd_sub
  let op := m.get R.od_cmd_op
  let off := m.get R.od_xfer_off
  let len := m.get R.od_xfer_len
  if (op ≠ 1 ∧ op ≠ 2) ∨ len = 0 ∨ 4096 < len then m.odEnd 6
  else
    let dom : Bool := match m.obj index sub with
      | .ok o => o.size == 0 && o.kind == .own
      | .error _ => false
    if op = 1 then
      let (r, bs) := m.objRead false index sub
      if r ≠ 1 then m.odEnd r
      else
        let text : Bool := match m.obj index sub with
          | .ok o => o.size == 0
          | .error _ => false
        let part := if text then (bs.drop off).take len else bs
        if !text && decide (len < bs.length) then m.odEnd 6
        else ((m.odFill part).set R.od_xfer_len part.length).odEnd 1
    else
      let (r, m) := if dom then m.odPart index sub off (m.on R.od_cmd_fin) (m.odBuf len) else m.objWrite false index sub (m.odBuf len)
      m.odEnd r

/-- A write of `od.cmd`: `go` while a request is unfinished is refused as busy. -/
def Mach.odCmdWrite (m : Mach) (off part val : Nat) (th : Option Nat) : Mach :=
  let busy := m.on R.od_cmd_go
  let m := (m.mcsWrite off part val th).getD m
  if bit (val &&& partMask part) 0 then (if busy then m.set R.od_cmd_result 0xA else m.odGo) else m

/-- A store to the module control space, the window included. -/
def mcsStore : McsStore := fun m off part val th =>
  if off / 8 * 8 = R.od_cmd.off then some (if m.frozen then m else m.odCmdWrite off part val (some th))
  else m.mcsWrite off part val (some th)

/-- A window read by the hypervisor. -/
def execOdRead (index sub off len : Nat) (s : State) : Host.Outcome State Fault Refusal :=
  ans (decide (index < 65536) && decide (sub < 256) && decide (off < 2 ^ 32) && decide (len < 8192)) s fun m =>
    if m.frozen then m
    else (m.setWord R.od_xfer (off * 2 ^ 32 + len)).odCmdWrite 0xd00000 0 (index * 2 ^ 48 + sub * 2 ^ 40 + 1 * 2 ^ 34 + 1) none

/-- A window write by the hypervisor: the bytes go into `od.buf` first. -/
def execOdWrite (index sub off : Nat) (bytes : List Nat) (fin : Bool) (s : State) : Host.Outcome State Fault Refusal :=
  ans (decide (index < 65536) && decide (sub < 256) && decide (off < 2 ^ 32)) s fun m =>
    if m.frozen then m
    else ((m.odFill (bytes.take 4096)).setWord R.od_xfer (off * 2 ^ 32 + min bytes.length 8191)).odCmdWrite 0xd00000 0
      (index * 2 ^ 48 + sub * 2 ^ 40 + 2 * 2 ^ 34 + b2n fin * 2 ^ 33 + 1) none

end Sys2Proof.Machine
end

