-- ==== Sys2Proof/Machine/LoadStore.lean ====
section
/-! DEFINITION. Loads and stores of form M and form X (R74, R75, R78 to R80, R84, R86), and the rows of the module control space (R26, R31, R32). -/

namespace Sys2Proof.Machine

/-! ### One load or store by its major opcode (Table 3.3) -/

/-- The bytes of the operand of opcodes 0x0C to 0x1C. -/
def opBytes (op : Nat) : Nat :=
  match op with
  | 0x0C => 4 | 0x0D => 8 | 0x0E => 4 | 0x0F => 8
  | 0x10 => 1 | 0x11 => 2 | 0x12 => 4 | 0x13 => 8 | 0x14 => 16
  | 0x15 => 1 | 0x16 => 2 | 0x17 => 4
  | 0x18 => 1 | 0x19 => 2 | 0x1A => 4 | 0x1B => 8
  | _ => 16

/-- The store opcodes. -/
def opStores (op : Nat) : Bool := op == 0x0E || op == 0x0F || (decide (0x18 ≤ op) && decide (op ≤ 0x1C))

def opQuad (op : Nat) : Bool := op == 0x14 || op == 0x1C

/-- A loaded value goes into its register: a quad into the pair (R74), a floating operand into f[t] (R75), the others zero-extended or sign-extended
(R78). -/
def Arch.putLoad (a : Arch) (op t v : Nat) : Arch :=
  let w : W64 := BitVec.ofNat 64 v
  if op = 0x0C ∨ op = 0x0D then a.setF t w
  else if op = 0x14 then (a.setG t (BitVec.ofNat 64 (v / 2 ^ 64))).setG (t + 1) w
  else if 0x15 ≤ op ∧ op ≤ 0x17 then a.setG t (signExt (8 * opBytes op) v)
  else a.setG t w

/-- The value that a store takes from its register or pair. -/
def Arch.storeVal (a : Arch) (op t : Nat) : Nat :=
  if op = 0x0E then (a.fr t).toNat % 2 ^ 32
  else if op = 0x0F then (a.fr t).toNat
  else if op = 0x1C then (a.gr t).toNat * 2 ^ 64 + (a.gr (t + 1)).toNat
  else (a.gr t).toNat % 2 ^ (8 * opBytes op)

/-- The access itself, at an effective address. -/
def memAccess (th op t : Nat) (va : W64) (nt : Bool) : X Done :=
  if opStores op then do
    let a ← X.regs th
    let st ← storeN mcsStore th va (opBytes op) (a.storeVal op t) nt
    pure { Done.plain with stores := st }
  else do
    let v ← loadN th va (opBytes op) .load false
    X.upd th fun a => a.putLoad op t v
    pure Done.plain

/-- A load or store of n bytes at an address: a quad and a misaligned access take two micro-operations (R150). -/
def memShape (word n : Nat) (ea : W64) : Shape := { Shape.simple word with uops := if n = 16 ∨ ea.toNat % n ≠ 0 then 2 else 1 }

def mWord (op : Nat) (i : FM) : Nat := encI op i.t i.a i.disp

/-- A form M load or store. -/
def memInsn (op : Nat) (i : FM) (s : State) : Host.Outcome State Fault Refusal :=
  ans i.wf s fun m => m.runInsn i.th (memShape (mWord op i) (opBytes op) (eaM (m.th i.th).cur i.a i.disp)) do
    X.spec (mWord op i) (!opQuad op || i.t % 2 == 0)
    let a ← X.regs i.th
    memAccess i.th op i.t (eaM a i.a i.disp) false

def execLb (i : FM) (s : State) : Host.Outcome State Fault Refusal := memInsn 0x10 i s
def execLh (i : FM) (s : State) : Host.Outcome State Fault Refusal := memInsn 0x11 i s
def execLw (i : FM) (s : State) : Host.Outcome State Fault Refusal := memInsn 0x12 i s
def execLd (i : FM) (s : State) : Host.Outcome State Fault Refusal := memInsn 0x13 i s
def execLq (i : FM) (s : State) : Host.Outcome State Fault Refusal := memInsn 0x14 i s
def execLbs (i : FM) (s : State) : Host.Outcome State Fault Refusal := memInsn 0x15 i s
def execLhs (i : FM) (s : State) : Host.Outcome State Fault Refusal := memInsn 0x16 i s
def execLws (i : FM) (s : State) : Host.Outcome State Fault Refusal := memInsn 0x17 i s
def execStb (i : FM) (s : State) : Host.Outcome State Fault Refusal := memInsn 0x18 i s
def execSth (i : FM) (s : State) : Host.Outcome State Fault Refusal := memInsn 0x19 i s
def execStw (i : FM) (s : State) : Host.Outcome State Fault Refusal := memInsn 0x1A i s
def execStd (i : FM) (s : State) : Host.Outcome State Fault Refusal := memInsn 0x1B i s
def execStq (i : FM) (s : State) : Host.Outcome State Fault Refusal := memInsn 0x1C i s
def execLfs (i : FM) (s : State) : Host.Outcome State Fault Refusal := memInsn 0x0C i s
def execLfd (i : FM) (s : State) : Host.Outcome State Fault Refusal := memInsn 0x0D i s
def execStfs (i : FM) (s : State) : Host.Outcome State Fault Refusal := memInsn 0x0E i s
def execStfd (i : FM) (s : State) : Host.Outcome State Fault Refusal := memInsn 0x0F i s

/-- Whether R86 defines an fn of form X. -/
def xFnOk (fn : Nat) : Bool :=
  let op := bits fn 5 0
  decide (0x0C ≤ op) && decide (op ≤ 0x1C) && bits fn 8 7 == 0 && (!bit fn 6 || opStores op)

def xWord (i : FX) (fn : Nat) : Nat := encX 0x1F i.t i.a i.b i.sc fn

/-- A form X load or store with an fn (R86). -/
def xInsn (i : FX) (fn : Nat) (s : State) : Host.Outcome State Fault Refusal :=
  let op := bits fn 5 0
  ans i.wf s fun m => m.runInsn i.th (memShape (xWord i fn) (opBytes op) (eaX (m.th i.th).cur i.a i.b i.sc)) do
    X.spec (xWord i fn) (xFnOk fn && (!opQuad op || i.t % 2 == 0))
    let a ← X.regs i.th
    memAccess i.th op i.t (eaX a i.a i.b i.sc) (bit fn 6)

def execIndexedAccess (i : FX) (s : State) : Host.Outcome State Fault Refusal := xInsn i i.fn s

/-- fn[6] is 1 whatever the operand gives. -/
def execNonTemporalStore (i : FX) (s : State) : Host.Outcome State Fault Refusal := xInsn i (setBits i.fn 6 6 1) s

/-! ### The module control space -/

/-- A write that reaches a register, a doorbell page or the window: `part` is 0 for a double, 1 and 2 for the words of it (R30). -/
def execMcsRegisterWrite (off part val : Nat) (s : State) : Host.Outcome State Fault Refusal :=
  ans (decide (off < 0x2000000) && decide (part < 3) && decide (val < 2 ^ 64)) s fun m =>
    if off / 8 * 8 = R.od_cmd.off then (if m.frozen then m else m.odCmdWrite off part val none)
    else (m.mcsWrite off part val none).getD m

/-- An access to a reserved offset: a read returns zero, a write is ignored, and a write is recorded (R26). Where a register stands at the
offset the command is none of these. -/
def execMcsReservedAccess (off : Nat) (wr : Bool) (s : State) : Host.Outcome State Fault Refusal :=
  ans (decide (off < 0x2000000)) s fun m =>
    let o := off / 8 * 8
    let used := (decide (0x100000 ≤ o) && decide (o < 0x1f0000)) || ((blkOf o).bind fun b => regAt b o).isSome
    if m.frozen || used || !wr then m else m.raiseHub 0 o

/-- An inbound access outside writes of the doorbell block (R31), by a root port's device (0), an accelerator instance (1) or the channel subsystem
(2): unsupported request. The Spillway's record is the port's code 0xC5, or the source of reserved accesses for the agents that have no code of
their own (log entry 36). -/
def execInboundMcsAccess (who port rid tag off : Nat) (wr : Bool) (s : State) : Host.Outcome State Fault Refusal :=
  ans (decide (who < 3) && decide (port < 32) && decide (off < 0x2000000)) s fun m =>
    if m.frozen || (wr && decide (0x100000 ≤ off) && decide (off < 0x200000)) then m
    else if who ≠ 0 then m.raiseHub 0 off
    else if m.isRoot port && m.pcieUp port && !m.blkDown (80 + port) then
      (let m := m.pcieError port 0xC5 (0x000fe00000000000 + off) rid
       if wr then m else m.sendCpl port tag 1 false [])
    else m

end Sys2Proof.Machine
end

