-- ==== Sys2Proof/Machine/OdNet.lean ====
section
/-! DEFINITION. The node on the service network (spec/23, R595 to R601, R608): NMT, heartbeat, EMCY, USDO and TPDOs, and the accesses that have
rows of their own.  A frame sent is an `Out.can`: its CAN-ID, then its bytes; a USDO response is given as CAN-ID, session, index, subindex, the result
of Table 23.9 and the value's bytes (log entry 35). -/

namespace Sys2Proof.Machine

/-- The controller is on the bus: a node-ID other than 0 (R595), and power. -/
def Mach.onBus (m : Mach) : Bool := m.node != 0 && m.boot.vao

/-- A frame is sent. -/
def Mach.canSend (m : Mach) (id : Nat) (bs : List Nat) : Mach := m.emit (.can (id :: bs))

/-- The bytes of a number as CiA 1301 orders them. -/
def leBytes (n v : Nat) : List Nat := (toBytes n v).reverse

def Mach.setNmt (m : Mach) (st : Nat) : Mach := ({ m with od := { m.od with nmt := st } } : Mach).indShow

/-- NMT commands reach a node that has left initialisation. -/
def Mach.nmtHeard (m : Mach) : Bool := m.onBus && decide (1 ≤ m.od.nmt ∧ m.od.nmt ≤ 3)

/-- The node serves USDO (R598). -/
def Mach.usdoServed (m : Mach) : Bool := m.onBus && (m.od.nmt == 1 || m.od.nmt == 2)

def Mach.usdoAnswer (m : Mach) (id index sub r : Nat) (bs : List Nat) : Mach := m.canSend (0x580 + m.node) ([id, index, sub, r] ++ bs)

/-! ### NMT (R598) -/

def execNmtStart (s : State) : Host.Outcome State Fault Refusal := ans true s fun m => if m.nmtHeard then m.setNmt 2 else m

def execNmtStop (s : State) : Host.Outcome State Fault Refusal := ans true s fun m => if m.nmtHeard then m.setNmt 3 else m

def execNmtEnterPreOperational (s : State) : Host.Outcome State Fault Refusal := ans true s fun m => if m.nmtHeard then m.setNmt 1 else m

/-- Sessions are aborted, communication objects take their defaults, and initialisation is entered again. -/
def Mach.nmtReset (m : Mach) : Mach :=
  let m := if m.usdoServed then m.od.sess.foldl (fun m x => m.usdoAnswer x.id x.index x.sub 8 []) m else m
  ({ m with od := { m.od with sess := [], objs := m.od.objs.filter fun x => !(decide (0x100000 ≤ x.1) && decide (x.1 < 0x200000)) } } : Mach).setNmt 0

/-- Debug and readout objects that reset node restores. -/
def Mach.debugDefaults (m : Mach) : Mach :=
  let gone := [odKey 0x2800 1, odKey 0x2802 1, odKey 0x2802 2, odKey 0x2802 3, odKey 0x2900 1, odKey 0x2900 2, odKey 0x2900 3]
  { m with od := { m.od with objs := m.od.objs.filter fun x => !gone.contains x.1 } }

def execNmtResetNode (s : State) : Host.Outcome State Fault Refusal := ans true s fun m => if m.nmtHeard then m.nmtReset.debugDefaults else m

def execNmtResetCommunication (s : State) : Host.Outcome State Fault Refusal := ans true s fun m => if m.nmtHeard then m.nmtReset else m

def execBootUpMessage (s : State) : Host.Outcome State Fault Refusal :=
  ans true s fun m => if m.onBus && m.od.nmt == 0 then (m.canSend (0x700 + m.node) [0]).setNmt 1 else m

/-- The NMT state as a heartbeat reports it, in the codes of CiA 1301. -/
def nmtCode (st : Nat) : Nat := if st = 1 then 0x7F else if st = 2 then 5 else 4

/-- The heartbeat (R599), every 0x1017 ms. -/
def execHeartbeat (s : State) : Host.Outcome State Fault Refusal :=
  ans true s fun m => if m.nmtHeard && m.stored 0x1017 0 != 0 then m.canSend (0x700 + m.node) [nmtCode m.od.nmt] else m

/-! ### EMCY (R600) -/

/-- The oldest EMCY that waits is sent, with the count of those dropped. -/
def execEmcy (s : State) : Host.Outcome State Fault Refusal :=
  ans true s fun m =>
    if !m.usdoServed then m
    else match m.od.emcy with
      | [] => m
      | e :: rest =>
        let bs := leBytes 2 e.code ++ [e.reg] ++ leBytes 2 e.src ++ [e.act, e.flags] ++ leBytes 8 e.tod ++ [m.od.drops]
        { m with od := { m.od with emcy := rest, drops := 0 } }.canSend (m.stored 0x1014 0) bs

def execCanErrorPassive (s : State) : Host.Outcome State Fault Refusal :=
  ans true s fun m => if m.onBus then ({ m with od := { m.od with passive := true } } : Mach).emcy 0x8120 0xFFF 0 0 else m

def execBusOffRecovery (s : State) : Host.Outcome State Fault Refusal :=
  ans true s fun m => if m.onBus then ({ m with od := { m.od with passive := false } } : Mach).emcy 0x8140 0xFFF 0 0 else m

/-! ### USDO (R601) -/

/-- A network read, answered. -/
def Mach.netRead (m : Mach) (id index sub : Nat) : Mach :=
  let (r, bs) := m.objRead true index sub
  m.usdoAnswer id index sub r bs

/-- A network write, answered. -/
def Mach.netWrite (m : Mach) (id index sub : Nat) (bs : List Nat) : Mach :=
  let (r, m) := m.objWrite true index sub bs
  m.usdoAnswer id index sub r []

/-- A segment of a request on session `id`: the first opens it, the last completes it, and the access is then performed. -/
def execUsdoRequest (id : Nat) (wr : Bool) (index sub : Nat) (data : List Nat) (first last : Bool) (s : State) : Host.Outcome State Fault Refusal :=
  ans (decide (id < 2 ^ 16) && decide (index < 65536) && decide (sub < 256)) s fun m =>
    if !m.usdoServed then m
    else
      let live := m.od.sess.find? fun x => x.id == id
      let perform := fun (m : Mach) (w : Bool) (i k : Nat) (bs : List Nat) => if w then m.netWrite id i k bs else m.netRead id i k
      match first, live with
      | true, some _ => m.usdoAnswer id index sub 0xA []
      | true, none =>
        if 8 ≤ m.od.sess.length then m.usdoAnswer id index sub 0xA []
        else if last then perform m wr index sub data
        else { m with od := { m.od with sess := m.od.sess ++ [⟨id, wr, index, sub, data⟩] } }
      | false, none => m.usdoAnswer id index sub 8 []
      | false, some x =>
        if last then
          perform { m with od := { m.od with sess := m.od.sess.filter fun y => y.id != id } } x.wr x.index x.sub (x.data ++ data)
        else { m with od := { m.od with sess := updWhere (fun y => y.id == id) (fun y => { y with data := y.data ++ data }) m.od.sess } }

/-- A request that the network does not complete is aborted, and nothing of it is applied. -/
def execUsdoTimeout (id : Nat) (s : State) : Host.Outcome State Fault Refusal :=
  ans (decide (id < 2 ^ 16)) s fun m =>
    match m.od.sess.find? fun x => x.id == id with
    | none => m
    | some x =>
      let m : Mach := { m with od := { m.od with sess := m.od.sess.filter fun y => y.id != id } }
      if m.usdoServed then m.usdoAnswer id x.index x.sub 0x10 [] else m

/-! ### TPDOs (R608) -/

/-- Telemetry subindices a to b in order, as a TPDO carries them. -/
def Mach.telBytes (m : Mach) (a b : Nat) : List Nat := (List.range (b + 1 - a)).flatMap fun k => leBytes (telSize (a + k)) (m.telemetry (a + k))

/-- A TPDO is sent in operational, unless bit 31 of its CAN-ID disables it. -/
def Mach.tpdoOn (m : Mach) (index : Nat) : Bool := m.onBus && m.od.nmt == 2 && !m.od.hubLost && !bit (m.stored index 1) 31

def execTpdo1 (s : State) : Host.Outcome State Fault Refusal :=
  ans true s fun m => if m.tpdoOn 0x1800 then m.canSend (m.stored 0x1800 1) (m.telBytes 1 9 ++ [0, 0, 0]) else m

/-- The values whose change sends TPDO2. -/
def Mach.tpdo2Watch (m : Mach) : List Nat := [m.telemetry 10, m.telemetry 13, m.telemetry 15, m.telemetry 16]

def execTpdo2 (timer : Bool) (s : State) : Host.Outcome State Fault Refusal :=
  ans true s fun m =>
    if m.tpdoOn 0x1801 && (timer || m.od.tpdo2 != m.tpdo2Watch) then
      ({ m with od := { m.od with tpdo2 := m.tpdo2Watch } } : Mach).canSend (m.stored 0x1801 1) (m.telBytes 10 18)
    else m

/-! ### Accesses that have rows of their own: complete USDO requests of session 0 -/

/-- An access of the network, where the node serves it. -/
def Mach.served (m : Mach) (f : Mach → Mach) : Mach := if m.usdoServed then f m else m

def execImageWrite (bytes : List Nat) (s : State) : Host.Outcome State Fault Refusal := ans true s (·.served (·.netWrite 0 0x2600 2 bytes))

/-- The image in the inactive area has been checked (R613, R625), and is copied under `mode.fwload` where that may be done. -/
def execImageVerified (flashErr : Bool) (s : State) : Host.Outcome State Fault Refusal :=
  ans true s fun m =>
    if m.frozen || m.od.img != 1 then m
    else
      let base := areaBase m.idleArea
      let rd := fun (o n : Nat) => m.flashRd (base + o) n
      let dest := m.get R.mode_fwload_addr * 4096
      let r := if areaSize < m.od.imgLen then 6 else if flashErr then 5 else if (m.imageCheck rd 1).1 = 0 then 3 else 4
      let copy := r == 3 && m.on R.mode_fwload_en && m.inKind1 dest (dest + areaSize - 1) && (m.devRange .hub dest areaSize).isNone
      let m := if copy then m.devWrite dest (rd 0 m.od.imgLen) else m
      { m with od := { m.od with img := r } }

def execActivate (val : Nat) (s : State) : Host.Outcome State Fault Refusal :=
  ans (decide (val < 256)) s (·.served (·.netWrite 0 0x2600 4 [val]))

/-- The response is sent before the reset begins: `MODULE_RESET` carries the reset out. -/
def execModuleResetObject (val : Nat) (s : State) : Host.Outcome State Fault Refusal :=
  ans (decide (val < 65536)) s (·.served (·.netWrite 0 0x2101 0 (leBytes 2 val)))

def execDebugStop (s : State) : Host.Outcome State Fault Refusal := ans true s (·.served (·.netWrite 0 0x2800 2 [1]))
def execDebugResume (s : State) : Host.Outcome State Fault Refusal := ans true s (·.served (·.netWrite 0 0x2800 2 [2]))
def execDebugStep (s : State) : Host.Outcome State Fault Refusal := ans true s (·.served (·.netWrite 0 0x2800 2 [3]))

def execDebugRegisterAccess (wr : Bool) (sub val : Nat) (s : State) : Host.Outcome State Fault Refusal :=
  ans (decide (sub < 256) && decide (val < 2 ^ 64)) s
    (·.served fun m => if wr then m.netWrite 0 0x2801 sub (leBytes 8 val) else m.netRead 0 0x2801 sub)

def execDebugMemoryAccess (wr : Bool) (bytes : List Nat) (s : State) : Host.Outcome State Fault Refusal :=
  ans true s (·.served fun m => if wr then m.netWrite 0 0x2802 4 bytes else m.netRead 0 0x2802 4)

def execReadoutItem (s : State) : Host.Outcome State Fault Refusal := ans true s (·.served (·.netRead 0 0x2900 4))

end Sys2Proof.Machine
end

