-- ==== Sys2Proof/Machine/Strings.lean ====
section
/-! DEFINITION. Packed decimal and byte strings: form W (R89, R137 to R147) and the interruptible forms of op 0x32 (R90, R148). -/

namespace Sys2Proof.Machine

/-! ### Decimal values (R137, R138, R143) -/

/-- The nibbles of a byte string, most significant first. -/
def nibbles (bs : List Nat) : List Nat := bs.flatMap fun b => [b / 16 % 16, b % 16]

def isSign (n : Nat) : Bool := n == 0xC || n == 0xD || n == 0xF
def digitsVal (ds : List Nat) : Nat := ds.foldl (fun a d => a * 10 + d) 0
def signed (neg : Bool) (n : Nat) : Int := if neg then -(n : Int) else n

/-- The value of a packed operand, if it is valid (R137). -/
def unpack (bs : List Nat) : Option Int :=
  let ns := nibbles bs
  let ds := ns.dropLast
  let sg := ns.getLast?.getD 0
  if ds.all (· ≤ 9) && isSign sg then some (signed (sg == 0xD) (digitsVal ds)) else none

/-- The value of a zoned operand, if it is valid (R143). -/
def unzone (bs : List Nat) : Option Int :=
  let ds := bs.map (· % 16)
  let sg := bs.getLast?.getD 0 / 16 % 16
  if ds.all (· ≤ 9) && isSign sg then some (signed (sg == 0xD) (digitsVal ds)) else none

/-- Decimal digit i (0 the least significant) of a number. -/
def digit (n i : Nat) : Nat := n / 10 ^ i % 10

/-- Whether a result has more digits than k positions (R140), and the sign code it is written with (R138). -/
def decOvf (v : Int) (k : Nat) : Bool := decide (10 ^ k ≤ v.natAbs)
def signCode (v : Int) (k : Nat) : Nat :=
  if v < 0 ∧ (v.natAbs % 10 ^ k ≠ 0 ∨ 10 ^ k ≤ v.natAbs) then 0xD else 0xC

/-- A packed result of n bytes as a number: 2n - 1 digits and the sign. -/
def packed (n : Nat) (v : Int) : Nat :=
  let k := 2 * n - 1
  (List.range k).foldl (fun a j => a * 16 + digit v.natAbs (k - 1 - j)) 0 * 16 + signCode v k

/-- A zoned result of n bytes as a number. -/
def zoned (n : Nat) (v : Int) : Nat :=
  (List.range n).foldl (fun a j => a * 256 + (if j = n - 1 then signCode v n else 0xF) * 16 + digit v.natAbs (n - 1 - j)) 0

/-- cc of a decimal result (R141). -/
def ccDec (v : Int) (k : Nat) : Nat := if decOvf v k then 3 else if v = 0 then 0 else if v < 0 then 1 else 2

/-! ### Form W -/

def wWord (i : FW) (fn : Nat) : Nat := encW 0x3E fn i.x i.b1 i.d1 i.b2 i.d2
def wL1 (i : FW) : Nat := i.x / 32
def wL2 (i : FW) : Nat := i.x % 32

/-- Run a form W instruction. -/
def wInsn (i : FW) (fn : Nat) (body : X Done) (s : State) : Host.Outcome State Fault Refusal :=
  ans i.wf s fun m => m.runInsn i.th (Shape.wform (wWord i fn)) body

/-- No string or form W access reaches the MCS (R30). -/
def noMcs (ps : List Piece) (wr : Bool) : X Unit := do
  let m ← X.mach
  match ps.find? fun p => (m.mcsOff p.pa).isSome with
  | some p => X.stop (.exc 0x0206 p.pa wr none)
  | none => pure ()

/-- Operands of a form W operation, checked in order (R109): n1 bytes of operand 1, stored or only read, and n2 bytes of operand 2. -/
def wOperands (i : FW) (n1 n2 : Nat) (stores : Bool) : X (List Piece × List Piece) := do
  let r ← X.regs i.th
  let p1 ← access i.th (eaM r i.b1 i.d1) n1 (if stores then .rmw else .load)
  let p2 ← access i.th (eaM r i.b2 i.d2) n2 .load
  noMcs p1 stores
  noMcs p2 false
  pure (p1, p2)

/-- A valid operand, or the decimal data fault (R141). -/
def needDec (v : Option Int) (addr : W64) : X Int :=
  match v with
  | some x => pure x
  | none => X.exc 0x0209 addr.toNat

/-- Lengths of a decimal operation (R89). -/
def decLens (i : FW) (fn : Nat) (shorter : Bool) : X Unit :=
  X.spec (wWord i fn) (decide (1 ≤ wL1 i) && decide (wL1 i ≤ 16) && decide (1 ≤ wL2 i) && decide (wL2 i ≤ 16)
    && (!shorter || decide (wL2 i < wL1 i)))

/-- Store a decimal result with its cc and trap (R140). -/
def decStore (i : FW) (p1 : List Piece) (n val cc : Nat) : X Done := do
  let r ← X.regs i.th
  let st ← storeAll i.th p1 n val false
  X.upd i.th (·.setCc cc)
  pure ⟨.seq, st, if cc == 3 && r.pswF 30 30 == 1 then some (0x020A, 0) else none⟩

/-- A decimal operation on two packed operands with a packed result. -/
def decArith (i : FW) (fn : Nat) (shorter : Bool) (f : Int → Int → Int) (s : State) : Host.Outcome State Fault Refusal :=
  wInsn i fn (do
    decLens i fn shorter
    let r ← X.regs i.th
    let (p1, p2) ← wOperands i (wL1 i) (wL2 i) true
    let a ← loadAll i.th false p1
    let b ← loadAll i.th false p2
    let x ← needDec (unpack (toBytes (wL1 i) a)) (eaM r i.b1 i.d1)
    let y ← needDec (unpack (toBytes (wL2 i) b)) (eaM r i.b2 i.d2)
    decStore i p1 (wL1 i) (packed (wL1 i) (f x y)) (ccDec (f x y) (2 * wL1 i - 1))) s

/-- `dadd`. -/
def execDadd (i : FW) (s : State) : Host.Outcome State Fault Refusal := decArith i 0x01 false (· + ·) s
/-- `dsub`. -/
def execDsub (i : FW) (s : State) : Host.Outcome State Fault Refusal := decArith i 0x02 false (· - ·) s
/-- `dmul`. -/
def execDmul (i : FW) (s : State) : Host.Outcome State Fault Refusal := decArith i 0x04 true (· * ·) s

/-- `dcmp`. -/
def execDcmp (i : FW) (s : State) : Host.Outcome State Fault Refusal :=
  wInsn i 0x03 (do
    decLens i 0x03 false
    let r ← X.regs i.th
    let (p1, p2) ← wOperands i (wL1 i) (wL2 i) false
    let a ← loadAll i.th false p1
    let b ← loadAll i.th false p2
    let x ← needDec (unpack (toBytes (wL1 i) a)) (eaM r i.b1 i.d1)
    let y ← needDec (unpack (toBytes (wL2 i) b)) (eaM r i.b2 i.d2)
    X.upd i.th (·.setCc (if x = y then 0 else if x < y then 1 else 2))
    pure Done.plain) s

/-- `ddiv` (R142). -/
def execDdiv (i : FW) (s : State) : Host.Outcome State Fault Refusal :=
  wInsn i 0x05 (do
    decLens i 0x05 true
    let r ← X.regs i.th
    let (p1, p2) ← wOperands i (wL1 i) (wL2 i) true
    let a ← loadAll i.th false p1
    let b ← loadAll i.th false p2
    let x ← needDec (unpack (toBytes (wL1 i) a)) (eaM r i.b1 i.d1)
    let y ← needDec (unpack (toBytes (wL2 i) b)) (eaM r i.b2 i.d2)
    let nq := wL1 i - wL2 i
    X.need (y != 0 && !decOvf (x.tdiv y) (2 * nq - 1)) (.exc 0x020B 0 false none)
    let st ← storeAll i.th p1 (wL1 i) (packed nq (x.tdiv y) * 2 ^ (8 * wL2 i) + packed (wL2 i) (x.tmod y)) false
    pure ⟨.seq, st, none⟩) s

/-- An operation that only reads operand 2. -/
def decFrom (i : FW) (fn : Nat) (rd : List Nat → Option Int) (wr : Nat → Int → Nat) (k : Nat) (s : State) : Host.Outcome State Fault Refusal :=
  wInsn i fn (do
    decLens i fn false
    let r ← X.regs i.th
    let (p1, p2) ← wOperands i (wL1 i) (wL2 i) true
    let b ← loadAll i.th false p2
    let y ← needDec (rd (toBytes (wL2 i) b)) (eaM r i.b2 i.d2)
    decStore i p1 (wL1 i) (wr (wL1 i) y) (ccDec y k)) s

/-- `dset`. -/
def execDset (i : FW) (s : State) : Host.Outcome State Fault Refusal := decFrom i 0x06 unpack packed (2 * wL1 i - 1) s
/-- `zdec`. -/
def execZdec (i : FW) (s : State) : Host.Outcome State Fault Refusal := decFrom i 0x08 unzone packed (2 * wL1 i - 1) s
/-- `dzon`. -/
def execDzon (i : FW) (s : State) : Host.Outcome State Fault Refusal := decFrom i 0x09 unpack zoned (wL1 i) s

/-- The frame of a byte-string operation on x bytes: what it reads of operand 2, whether it stores operand 1. -/
def byteStr (i : FW) (fn n2 : Nat) (stores rd1 : Bool) (f : Nat → Nat → Option Nat × Option Nat) (s : State) : Host.Outcome State Fault Refusal :=
  wInsn i fn (do
    X.spec (wWord i fn) (i.x != 0)
    let (p1, p2) ← wOperands i i.x n2 stores
    let a ← if rd1 then loadAll i.th false p1 else pure 0
    let b ← loadAll i.th false p2
    let (v, cc) := f a b
    let st ← match v with
      | some v => storeAll i.th p1 i.x v false
      | none => pure []
    match cc with
    | some c => X.upd i.th (·.setCc c)
    | none => pure ()
    pure ⟨.seq, st, none⟩) s

/-- Bytes mapped through a 256-byte table. -/
def mapBytes (n a table : Nat) : Nat := ofBytes ((toBytes n a).map fun b => byteAt 256 table b)

/-- `bcpy` (R147). -/
def execBcpy (i : FW) (s : State) : Host.Outcome State Fault Refusal :=
  byteStr i 0x10 i.x true false (fun _ b => (some b, none)) s
/-- `bcmp`. -/
def execBcmp (i : FW) (s : State) : Host.Outcome State Fault Refusal :=
  byteStr i 0x11 i.x false true (fun a b => (none, some (if a = b then 0 else if a < b then 1 else 2))) s
/-- `bmap`. -/
def execBmap (i : FW) (s : State) : Host.Outcome State Fault Refusal :=
  byteStr i 0x12 256 true true (fun a b => (some (mapBytes i.x a b), none)) s
/-- `bxor`. -/
def execBxor (i : FW) (s : State) : Host.Outcome State Fault Refusal :=
  byteStr i 0x13 i.x true true (fun a b => (some (a ^^^ b), some (if a ^^^ b = 0 then 0 else 1))) s
/-- `bfil`. -/
def execBfil (i : FW) (s : State) : Host.Outcome State Fault Refusal :=
  byteStr i 0x14 1 true false (fun _ b => (some (ofBytes (List.replicate i.x b)), none)) s

/-! ### Interruptible string forms (R90, R148) -/

def strWord (i : FA) (fn : Nat) : Nat := encA 0x32 i.t i.a i.b fn

/-- Run one unit of an interruptible string form. -/
def strInsn (i : FA) (fn : Nat) (body : X Done) (s : State) : Host.Outcome State Fault Refusal :=
  ans i.wf s fun m => m.runInsn i.th (Shape.string (strWord i fn)) body

/-- The register checks of R90. -/
def strCheck (i : FA) (fn : Nat) (ok : Bool) : X Unit :=
  X.spec (strWord i fn) (i.t != 0 && i.a != 0 && i.b != 0 && i.t != i.a && i.t != i.b && i.a != i.b && ok)

/-- Advance the registers by u bytes (R90). -/
def strAdvance (i : FA) (both : Bool) (u : Nat) (a : Arch) : Arch :=
  let w := BitVec.ofNat 64 u
  let a' := (a.setG i.t (a.gr i.t + w))
  let a' := if both then a'.setG i.a (a.gr i.a + w) else a'
  a'.setG i.b (BitVec.ofNat 64 ((bits (a.gr i.b).toNat 63 32 - u) * 2 ^ 32 + (if both then bits (a.gr i.b).toNat 31 0 - u else 0)))

/-- The pieces of a unit; the MCS takes no string access (R30). -/
def strAccess (th : Nat) (va : W64) (n : Nat) (acc : Acc) : X (List Piece) := do
  let ps ← access th va n acc
  noMcs ps acc.isWr
  pure ps

/-- `lcpy`. -/
def execLcpy (i : FA) (s : State) : Host.Outcome State Fault Refusal :=
  strInsn i 0x001 (do
    strCheck i 0x001 true
    let r ← X.regs i.th
    let l1 := bits (r.gr i.b).toNat 63 32
    let l2 := bits (r.gr i.b).toNat 31 0
    let n := min l1 l2
    let a1 := (r.gr i.t).toNat
    let a2 := (r.gr i.a).toNat
    let cc := if l1 = l2 then 0 else if l1 < l2 then 1 else 2
    if a2 < a1 ∧ a1 < a2 + n then
      X.upd i.th (·.setCc 3)
      pure Done.plain
    else
      let u := min 256 n
      let p1 ← strAccess i.th (r.gr i.t) u .rmw
      let p2 ← strAccess i.th (r.gr i.a) u .load
      let v ← loadAll i.th false p2
      let st ← storeAll i.th p1 u v false
      X.upd i.th (strAdvance i true u)
      if u = n then
        X.upd i.th (·.setCc cc)
        pure ⟨.seq, st, none⟩
      else pure ⟨.stay, st, none⟩) s

/-- The first index at which two byte strings differ, if one does. -/
def firstDiff (x y : List Nat) : Option Nat := (List.range x.length).find? fun j => x.getD j 0 != y.getD j 0

/-- `lcmp`. -/
def execLcmp (i : FA) (s : State) : Host.Outcome State Fault Refusal :=
  strInsn i 0x002 (do
    strCheck i 0x002 true
    let r ← X.regs i.th
    let l1 := bits (r.gr i.b).toNat 63 32
    let l2 := bits (r.gr i.b).toNat 31 0
    let n := min l1 l2
    let u := min 256 n
    let p1 ← strAccess i.th (r.gr i.t) u .load
    let p2 ← strAccess i.th (r.gr i.a) u .load
    let x ← loadAll i.th false p1
    let y ← loadAll i.th false p2
    let xs := toBytes u x
    let ys := toBytes u y
    match firstDiff xs ys with
    | some j =>
      X.upd i.th fun a => (strAdvance i true j a).setCc (if xs.getD j 0 < ys.getD j 0 then 1 else 2)
      pure Done.plain
    | none =>
      X.upd i.th (strAdvance i true u)
      if u = n then
        X.upd i.th (·.setCc (if l1 = l2 then 0 else if l1 < l2 then 1 else 2))
        pure Done.plain
      else pure ⟨.stay, [], none⟩) s

/-- `lmap`. -/
def execLmap (i : FA) (s : State) : Host.Outcome State Fault Refusal :=
  strInsn i 0x003 (do
    let r ← X.regs i.th
    strCheck i 0x003 (bits (r.gr i.b).toNat 31 0 == 0)
    let n := bits (r.gr i.b).toNat 63 32
    let u := min 256 n
    let p1 ← strAccess i.th (r.gr i.t) u .rmw
    let p2 ← if u = 0 then pure [] else strAccess i.th (r.gr i.a) 256 .load
    let x ← loadAll i.th false p1
    let y ← loadAll i.th false p2
    let st ← storeAll i.th p1 u (mapBytes u x y) false
    X.upd i.th (strAdvance i false u)
    if u = n then pure ⟨.seq, st, none⟩ else pure ⟨.stay, st, none⟩) s

end Sys2Proof.Machine
end

