-- ==== Sys2Proof/Machine/Dispatch.lean ====
section
/-! DEFINITION. The one dispatch of commands to their meanings, one arm for each constructor. -/

namespace Sys2Proof.Machine

def exec (i : Instr) (s : State) : Host.Outcome State Fault Refusal :=
  match i with
  | .mcsRegisterWrite off part val => Sys2Proof.Machine.execMcsRegisterWrite off part val s
  | .mcsReservedAccess off wr => Sys2Proof.Machine.execMcsReservedAccess off wr s
  | .inboundMcsAccess who port rid tag off wr => Sys2Proof.Machine.execInboundMcsAccess who port rid tag off wr s
  | .modeRequest val => Sys2Proof.Machine.execModeRequest val s
  | .modeCancel val => Sys2Proof.Machine.execModeCancel val s
  | .epochDrainStep2 => Sys2Proof.Machine.execEpochDrainStep2 s
  | .epochDrainStep3 => Sys2Proof.Machine.execEpochDrainStep3 s
  | .epochDrainStep4 => Sys2Proof.Machine.execEpochDrainStep4 s
  | .epochDrainStep5 => Sys2Proof.Machine.execEpochDrainStep5 s
  | .epochBoundary u => Sys2Proof.Machine.execEpochBoundary u s
  | .drainTimeout => Sys2Proof.Machine.execDrainTimeout s
  | .concurrentRepairButton pressed => Sys2Proof.Machine.execConcurrentRepairButton pressed s
  | .qreq ring num orig vote pay => Sys2Proof.Machine.execQreq ring num orig vote pay s
  | .qdrain ring num orig vote pay => Sys2Proof.Machine.execQdrain ring num orig vote pay s
  | .qpoll ring num orig vote pay => Sys2Proof.Machine.execQpoll ring num orig vote pay s
  | .qcommit ring num orig vote pay => Sys2Proof.Machine.execQcommit ring num orig vote pay s
  | .qabort ring num orig vote pay => Sys2Proof.Machine.execQabort ring num orig vote pay s
  | .quiesceBoundarySlot u => Sys2Proof.Machine.execQuiesceBoundarySlot u s
  | .sluiceSlotOriginate => Sys2Proof.Machine.execSluiceSlotOriginate s
  | .sluiceSlotForward ring w => Sys2Proof.Machine.execSluiceSlotForward ring w s
  | .tod ring num pay => Sys2Proof.Machine.execTod ring num pay s
  | .live ring num vote peers => Sys2Proof.Machine.execLive ring num vote peers s
  | .missedLiveSlots md => Sys2Proof.Machine.execMissedLiveSlots md s
  | .sluiceInputLost ring near => Sys2Proof.Machine.execSluiceInputLost ring near s
  | .chk ring num orig pay => Sys2Proof.Machine.execChk ring num orig pay s
  | .domainCheckstop cause src => Sys2Proof.Machine.execDomainCheckstop cause src s
  | .add o => Sys2Proof.Machine.execAdd o s
  | .addl o => Sys2Proof.Machine.execAddl o s
  | .sub o => Sys2Proof.Machine.execSub o s
  | .subl o => Sys2Proof.Machine.execSubl o s
  | .andI o => Sys2Proof.Machine.execAndI o s
  | .orI o => Sys2Proof.Machine.execOrI o s
  | .xorI o => Sys2Proof.Machine.execXorI o s
  | .andc o => Sys2Proof.Machine.execAndc o s
  | .sll o => Sys2Proof.Machine.execSll o s
  | .srl o => Sys2Proof.Machine.execSrl o s
  | .sra o => Sys2Proof.Machine.execSra o s
  | .rotl o => Sys2Proof.Machine.execRotl o s
  | .cmp o => Sys2Proof.Machine.execCmp o s
  | .cmpl o => Sys2Proof.Machine.execCmpl o s
  | .mul o => Sys2Proof.Machine.execMul o s
  | .mulh o => Sys2Proof.Machine.execMulh o s
  | .mulhu o => Sys2Proof.Machine.execMulhu o s
  | .div o => Sys2Proof.Machine.execDiv o s
  | .divu o => Sys2Proof.Machine.execDivu o s
  | .rem o => Sys2Proof.Machine.execRem o s
  | .remu o => Sys2Proof.Machine.execRemu o s
  | .addi o => Sys2Proof.Machine.execAddi o s
  | .addis o => Sys2Proof.Machine.execAddis o s
  | .andi o => Sys2Proof.Machine.execAndi o s
  | .ori o => Sys2Proof.Machine.execOri o s
  | .xori o => Sys2Proof.Machine.execXori o s
  | .cmpi o => Sys2Proof.Machine.execCmpi o s
  | .cmpli o => Sys2Proof.Machine.execCmpli o s
  | .lb o => Sys2Proof.Machine.execLb o s
  | .lh o => Sys2Proof.Machine.execLh o s
  | .lw o => Sys2Proof.Machine.execLw o s
  | .ld o => Sys2Proof.Machine.execLd o s
  | .lq o => Sys2Proof.Machine.execLq o s
  | .lbs o => Sys2Proof.Machine.execLbs o s
  | .lhs o => Sys2Proof.Machine.execLhs o s
  | .lws o => Sys2Proof.Machine.execLws o s
  | .stb o => Sys2Proof.Machine.execStb o s
  | .sth o => Sys2Proof.Machine.execSth o s
  | .stw o => Sys2Proof.Machine.execStw o s
  | .std o => Sys2Proof.Machine.execStd o s
  | .stq o => Sys2Proof.Machine.execStq o s
  | .lfs o => Sys2Proof.Machine.execLfs o s
  | .lfd o => Sys2Proof.Machine.execLfd o s
  | .stfs o => Sys2Proof.Machine.execStfs o s
  | .stfd o => Sys2Proof.Machine.execStfd o s
  | .indexedAccess o => Sys2Proof.Machine.execIndexedAccess o s
  | .nonTemporalStore o => Sys2Proof.Machine.execNonTemporalStore o s
  | .br th off => Sys2Proof.Machine.execBr th off s
  | .brl th off => Sys2Proof.Machine.execBrl th off s
  | .brc th cond a off => Sys2Proof.Machine.execBrc th cond a off s
  | .bgr o => Sys2Proof.Machine.execBgr o s
  | .loop th n z a off => Sys2Proof.Machine.execLoop th n z a off s
  | .mfsr o => Sys2Proof.Machine.execMfsr o s
  | .mtsr o => Sys2Proof.Machine.execMtsr o s
  | .svc o => Sys2Proof.Machine.execSvc o s
  | .hvc o => Sys2Proof.Machine.execHvc o s
  | .fwc o => Sys2Proof.Machine.execFwc o s
  | .rfi o => Sys2Proof.Machine.execRfi o s
  | .fenceL o => Sys2Proof.Machine.execFenceL o s
  | .fenceS o => Sys2Proof.Machine.execFenceS o s
  | .fenceF o => Sys2Proof.Machine.execFenceF o s
  | .isync o => Sys2Proof.Machine.execIsync o s
  | .wait o => Sys2Proof.Machine.execWait o s
  | .waitWake th => Sys2Proof.Machine.execWaitWake th s
  | .rdtod o => Sys2Proof.Machine.execRdtod o s
  | .brk o => Sys2Proof.Machine.execBrk o s
  | .undefinedInstruction th word => Sys2Proof.Machine.execUndefinedInstruction th word s
  | .lres o => Sys2Proof.Machine.execLres o s
  | .scond o => Sys2Proof.Machine.execScond o s
  | .cas8 o => Sys2Proof.Machine.execCas8 o s
  | .cas16 o => Sys2Proof.Machine.execCas16 o s
  | .lcpy o => Sys2Proof.Machine.execLcpy o s
  | .lcmp o => Sys2Proof.Machine.execLcmp o s
  | .lmap o => Sys2Proof.Machine.execLmap o s
  | .dadd o => Sys2Proof.Machine.execDadd o s
  | .dsub o => Sys2Proof.Machine.execDsub o s
  | .dcmp o => Sys2Proof.Machine.execDcmp o s
  | .dmul o => Sys2Proof.Machine.execDmul o s
  | .ddiv o => Sys2Proof.Machine.execDdiv o s
  | .dset o => Sys2Proof.Machine.execDset o s
  | .zdec o => Sys2Proof.Machine.execZdec o s
  | .dzon o => Sys2Proof.Machine.execDzon o s
  | .bcpy o => Sys2Proof.Machine.execBcpy o s
  | .bcmp o => Sys2Proof.Machine.execBcmp o s
  | .bmap o => Sys2Proof.Machine.execBmap o s
  | .bxor o => Sys2Proof.Machine.execBxor o s
  | .bfil o => Sys2Proof.Machine.execBfil o s
  | .fadd o sp => Sys2Proof.Machine.execFadd o sp s
  | .fsub o sp => Sys2Proof.Machine.execFsub o sp s
  | .fmul o sp => Sys2Proof.Machine.execFmul o sp s
  | .fdiv o sp => Sys2Proof.Machine.execFdiv o sp s
  | .fsqrt o sp => Sys2Proof.Machine.execFsqrt o sp s
  | .fmadd o sp => Sys2Proof.Machine.execFmadd o sp s
  | .fmsub o sp => Sys2Proof.Machine.execFmsub o sp s
  | .fcmp o sp => Sys2Proof.Machine.execFcmp o sp s
  | .fcvtSD o => Sys2Proof.Machine.execFcvtSD o s
  | .fcvtDS o => Sys2Proof.Machine.execFcvtDS o s
  | .fcfi o sp => Sys2Proof.Machine.execFcfi o sp s
  | .fcti o sp => Sys2Proof.Machine.execFcti o sp s
  | .fctiz o sp => Sys2Proof.Machine.execFctiz o sp s
  | .fmov o sp => Sys2Proof.Machine.execFmov o sp s
  | .fneg o sp => Sys2Proof.Machine.execFneg o sp s
  | .fabs o sp => Sys2Proof.Machine.execFabs o sp s
  | .mffs o => Sys2Proof.Machine.execMffs o s
  | .mtfs o => Sys2Proof.Machine.execMtfs o s
  | .fmgf o => Sys2Proof.Machine.execFmgf o s
  | .fmfg o => Sys2Proof.Machine.execFmfg o s
  | .externalInterruption th => Sys2Proof.Machine.execExternalInterruption th s
  | .machineCheck th => Sys2Proof.Machine.execMachineCheck th s
  | .checkpointCommit th => Sys2Proof.Machine.execCheckpointCommit th s
  | .runAheadEnter th => Sys2Proof.Machine.execRunAheadEnter th s
  | .runAheadEnd th => Sys2Proof.Machine.execRunAheadEnd th s
  | .coreCheckError core th code cs => Sys2Proof.Machine.execCoreCheckError core th code cs s
  | .hangTimerExpiry th => Sys2Proof.Machine.execHangTimerExpiry th s
  | .capsuleRead core bad => Sys2Proof.Machine.execCapsuleRead core bad s
  | .swapResumption core delay excl => Sys2Proof.Machine.execSwapResumption core delay excl s
  | .l2FlushComplete core => Sys2Proof.Machine.execL2FlushComplete core s
  | .spareWarmed core => Sys2Proof.Machine.execSpareWarmed core s
  | .plannedSwap core val => Sys2Proof.Machine.execPlannedSwap core val s
  | .patchGo val => Sys2Proof.Machine.execPatchGo val s
  | .patchApplied => Sys2Proof.Machine.execPatchApplied s
  | .ldtt o => Sys2Proof.Machine.execLdtt o s
  | .sttt o => Sys2Proof.Machine.execSttt o s
  | .tlbiva o => Sys2Proof.Machine.execTlbiva o s
  | .tlbiasid o => Sys2Proof.Machine.execTlbiasid o s
  | .tlbip1 o => Sys2Proof.Machine.execTlbip1 o s
  | .tlbigpa o => Sys2Proof.Machine.execTlbigpa o s
  | .tlbipart o => Sys2Proof.Machine.execTlbipart o s
  | .tlbihva o => Sys2Proof.Machine.execTlbihva o s
  | .tlbihall o => Sys2Proof.Machine.execTlbihall o s
  | .tlbsync o => Sys2Proof.Machine.execTlbsync o s
  | .tlbsyncComplete th => Sys2Proof.Machine.execTlbsyncComplete th s
  | .adBitUpdate th => Sys2Proof.Machine.execAdBitUpdate th s
  | .shootdownReceive core id => Sys2Proof.Machine.execShootdownReceive core id s
  | .shootdownAck core id => Sys2Proof.Machine.execShootdownAck core id s
  | .tlbShootdownTimeout th core => Sys2Proof.Machine.execTlbShootdownTimeout th core s
  | .storePerform th => Sys2Proof.Machine.execStorePerform th s
  | .combiningLineTimeout core line => Sys2Proof.Machine.execCombiningLineTimeout core line s
  | .prefetchRequest core k => Sys2Proof.Machine.execPrefetchRequest core k s
  | .l2Eviction core set way code => Sys2Proof.Machine.execL2Eviction core set way code s
  | .rds x bsn dir => Sys2Proof.Machine.execRds x bsn dir s
  | .rdx x bsn dir => Sys2Proof.Machine.execRdx x bsn dir s
  | .upg x => Sys2Proof.Machine.execUpg x s
  | .own x => Sys2Proof.Machine.execOwn x s
  | .wrf x => Sys2Proof.Machine.execWrf x s
  | .wrm x => Sys2Proof.Machine.execWrm x s
  | .evc x => Sys2Proof.Machine.execEvc x s
  | .evd x => Sys2Proof.Machine.execEvd x s
  | .mov x => Sys2Proof.Machine.execMov x s
  | .tlbi x => Sys2Proof.Machine.execTlbi x s
  | .prs x => Sys2Proof.Machine.execPrs x s
  | .prx x => Sys2Proof.Machine.execPrx x s
  | .pri x => Sys2Proof.Machine.execPri x s
  | .prw x => Sys2Proof.Machine.execPrw x s
  | .ack x => Sys2Proof.Machine.execAck x s
  | .cmpGrant x => Sys2Proof.Machine.execCmpGrant x s
  | .done x => Sys2Proof.Machine.execDone x s
  | .pra x => Sys2Proof.Machine.execPra x s
  | .eva x => Sys2Proof.Machine.execEva x s
  | .evp x => Sys2Proof.Machine.execEvp x s
  | .wra x => Sys2Proof.Machine.execWra x s
  | .tlba x => Sys2Proof.Machine.execTlba x s
  | .err x => Sys2Proof.Machine.execErr x s
  | .dataMsg x => Sys2Proof.Machine.execDataMsg x s
  | .dath x => Sys2Proof.Machine.execDath x s
  | .wdat x => Sys2Proof.Machine.execWdat x s
  | .holdExpiry agent line => Sys2Proof.Machine.execHoldExpiry agent line s
  | .probeTimeout line => Sys2Proof.Machine.execProbeTimeout line s
  | .fabricFlit port bytes fixed => Sys2Proof.Machine.execFabricFlit port bytes fixed s
  | .fabricLaneFailure port lane => Sys2Proof.Machine.execFabricLaneFailure port lane s
  | .fabricLanemap port lane => Sys2Proof.Machine.execFabricLanemap port lane s
  | .fabricTrainingStart port => Sys2Proof.Machine.execFabricTrainingStart port s
  | .fabricEqualisationEnd port locked => Sys2Proof.Machine.execFabricEqualisationEnd port locked s
  | .fabricIdent port md far size => Sys2Proof.Machine.execFabricIdent port md far size s
  | .fabricCrdinit port => Sys2Proof.Machine.execFabricCrdinit port s
  | .memRd port addr => Sys2Proof.Machine.execMemRd port addr s
  | .memWr port addr => Sys2Proof.Machine.execMemWr port addr s
  | .memCrd port reg => Sys2Proof.Machine.execMemCrd port reg s
  | .memCwr port reg val => Sys2Proof.Machine.execMemCwr port reg val s
  | .memRdd port tag piece crc psn ver => Sys2Proof.Machine.execMemRdd port tag piece crc psn ver s
  | .memWra port tag => Sys2Proof.Machine.execMemWra port tag s
  | .memCra port tag val => Sys2Proof.Machine.execMemCra port tag val s
  | .memRerr port tag => Sys2Proof.Machine.execMemRerr port tag s
  | .memResponseTimeout port tag => Sys2Proof.Machine.execMemResponseTimeout port tag s
  | .memLaneFailure port lane => Sys2Proof.Machine.execMemLaneFailure port lane s
  | .memLanemap port lane => Sys2Proof.Machine.execMemLanemap port lane s
  | .memIdent port vendor part cap => Sys2Proof.Machine.execMemIdent port vendor part cap s
  | .memCrdinit port => Sys2Proof.Machine.execMemCrdinit port s
  | .memReady port kept => Sys2Proof.Machine.execMemReady port kept s
  | .memTrainingStart port => Sys2Proof.Machine.execMemTrainingStart port s
  | .memEqualisationEnd port locked => Sys2Proof.Machine.execMemEqualisationEnd port locked s
  | .memPortDown port => Sys2Proof.Machine.execMemPortDown port s
  | .memPortUp port => Sys2Proof.Machine.execMemPortUp port s
  | .rebuildLine g => Sys2Proof.Machine.execRebuildLine g s
  | .patrolScrubLine g bad parityBad => Sys2Proof.Machine.execPatrolScrubLine g bad parityBad s
  | .groupInit g => Sys2Proof.Machine.execGroupInit g s
  | .groupInitComplete g => Sys2Proof.Machine.execGroupInitComplete g s
  | .mapScanComplete => Sys2Proof.Machine.execMapScanComplete s
  | .expansionComplete page => Sys2Proof.Machine.execExpansionComplete page s
  | .expansionWaitEnd page => Sys2Proof.Machine.execExpansionWaitEnd page s
  | .pageEvictionComplete page => Sys2Proof.Machine.execPageEvictionComplete page s
  | .cisternDiscard => Sys2Proof.Machine.execCisternDiscard s
  | .cisternEvict => Sys2Proof.Machine.execCisternEvict s
  | .cisternQuery => Sys2Proof.Machine.execCisternQuery s
  | .grottoCreate => Sys2Proof.Machine.execGrottoCreate s
  | .grottoAdd => Sys2Proof.Machine.execGrottoAdd s
  | .grottoSeal => Sys2Proof.Machine.execGrottoSeal s
  | .grottoTeardown => Sys2Proof.Machine.execGrottoTeardown s
  | .grottoQuery => Sys2Proof.Machine.execGrottoQuery s
  | .genter o => Sys2Proof.Machine.execGenter o s
  | .gexit o => Sys2Proof.Machine.execGexit o s
  | .gdetach o => Sys2Proof.Machine.execGdetach o s
  | .gquery o => Sys2Proof.Machine.execGquery o s
  | .watchdogKick monitor => Sys2Proof.Machine.execWatchdogKick monitor s
  | .watchdogExpiry => Sys2Proof.Machine.execWatchdogExpiry s
  | .isolationComplete => Sys2Proof.Machine.execIsolationComplete s
  | .isolationTimeout => Sys2Proof.Machine.execIsolationTimeout s
  | .debugCertificate cert => Sys2Proof.Machine.execDebugCertificate cert s
  | .debugEnablesClear => Sys2Proof.Machine.execDebugEnablesClear s
  | .cmpSubmit u o addr => Sys2Proof.Machine.execCmpSubmit u o addr s
  | .rotationSlot u o sram => Sys2Proof.Machine.execRotationSlot u o sram s
  | .cmpAbort u o => Sys2Proof.Machine.execCmpAbort u o s
  | .crySubmit u o addr => Sys2Proof.Machine.execCrySubmit u o addr s
  | .cryAbort u o => Sys2Proof.Machine.execCryAbort u o s
  | .wrappingKeyLoad u o val => Sys2Proof.Machine.execWrappingKeyLoad u o val s
  | .entropyHealthFailure u => Sys2Proof.Machine.execEntropyHealthFailure u s
  | .entropyRestartEnd u pass => Sys2Proof.Machine.execEntropyRestartEnd u pass s
  | .instanceAssign u o => Sys2Proof.Machine.execInstanceAssign u o s
  | .instanceEnable u o => Sys2Proof.Machine.execInstanceEnable u o s
  | .instanceQuiesce u o => Sys2Proof.Machine.execInstanceQuiesce u o s
  | .instanceQuiesced u o => Sys2Proof.Machine.execInstanceQuiesced u o s
  | .instanceResume u o => Sys2Proof.Machine.execInstanceResume u o s
  | .instanceReset u o => Sys2Proof.Machine.execInstanceReset u o s
  | .instanceRemove u o => Sys2Proof.Machine.execInstanceRemove u o s
  | .instanceSave u o => Sys2Proof.Machine.execInstanceSave u o s
  | .instanceRestore u o => Sys2Proof.Machine.execInstanceRestore u o s
  | .instanceRootWrite u o one val => Sys2Proof.Machine.execInstanceRootWrite u o one val s
  | .mtuRemoval id => Sys2Proof.Machine.execMtuRemoval id s
  | .logCacheWriteback u line => Sys2Proof.Machine.execLogCacheWriteback u line s
  | .subchannelDefine scid => Sys2Proof.Machine.execSubchannelDefine scid s
  | .subchannelEnable scid => Sys2Proof.Machine.execSubchannelEnable scid s
  | .subchannelDisable scid => Sys2Proof.Machine.execSubchannelDisable scid s
  | .subchannelQuery scid => Sys2Proof.Machine.execSubchannelQuery scid s
  | .varyOffline scid path => Sys2Proof.Machine.execVaryOffline scid path s
  | .varyOnline scid path => Sys2Proof.Machine.execVaryOnline scid path s
  | .subchannelUndefine scid => Sys2Proof.Machine.execSubchannelUndefine scid s
  | .channelSubmit part addr pend => Sys2Proof.Machine.execChannelSubmit part addr pend s
  | .recordConfirmed slot parity => Sys2Proof.Machine.execRecordConfirmed slot parity s
  | .holdExpired slot => Sys2Proof.Machine.execHoldExpired slot s
  | .exchangeTimeout slot scid => Sys2Proof.Machine.execExchangeTimeout slot scid s
  | .pathProbeInterval scid k => Sys2Proof.Machine.execPathProbeInterval scid k s
  | .deviceBusyWaitEnd slot => Sys2Proof.Machine.execDeviceBusyWaitEnd slot s
  | .cmd slot => Sys2Proof.Machine.execCmd slot s
  | .wdata slot => Sys2Proof.Machine.execWdata slot s
  | .halt slot => Sys2Proof.Machine.execHalt slot s
  | .clear slot scid => Sys2Proof.Machine.execClear slot scid s
  | .identCmd scid k => Sys2Proof.Machine.execIdentCmd scid k s
  | .close slot ack => Sys2Proof.Machine.execClose slot ack s
  | .rdata port f => Sys2Proof.Machine.execRdata port f s
  | .endCmd port f => Sys2Proof.Machine.execEndCmd port f s
  | .busy port f => Sys2Proof.Machine.execBusy port f s
  | .free port f => Sys2Proof.Machine.execFree port f s
  | .halta port f => Sys2Proof.Machine.execHalta port f s
  | .cleara port f => Sys2Proof.Machine.execCleara port f s
  | .identr port f => Sys2Proof.Machine.execIdentr port f s
  | .rej port f => Sys2Proof.Machine.execRej port f s
  | .keep port f => Sys2Proof.Machine.execKeep port f s
  | .jlCodeword port hdr bytes fixed ok => Sys2Proof.Machine.execJlCodeword port hdr bytes fixed ok s
  | .jlReplayTimeout port => Sys2Proof.Machine.execJlReplayTimeout port s
  | .jlLaneFailure port lane => Sys2Proof.Machine.execJlLaneFailure port lane s
  | .jlLanemap port w first => Sys2Proof.Machine.execJlLanemap port w first s
  | .jlTs port gens => Sys2Proof.Machine.execJlTs port gens s
  | .jlInit port vendor part maxx frames cells => Sys2Proof.Machine.execJlInit port vendor part maxx frames cells s
  | .jlTrainingStart port => Sys2Proof.Machine.execJlTrainingStart port s
  | .jlEqualisationEnd port locked => Sys2Proof.Machine.execJlEqualisationEnd port locked s
  | .jlLinkDown port => Sys2Proof.Machine.execJlLinkDown port s
  | .jlPortDown port => Sys2Proof.Machine.execJlPortDown port s
  | .jlPortUp port => Sys2Proof.Machine.execJlPortUp port s
  | .reservoirAdopt slot => Sys2Proof.Machine.execReservoirAdopt slot s
  | .reservoirRelease slot => Sys2Proof.Machine.execReservoirRelease slot s
  | .reservoirQuery slot => Sys2Proof.Machine.execReservoirQuery slot s
  | .pcieCompletion port tag data ok ep => Sys2Proof.Machine.execPcieCompletion port tag data ok ep s
  | .pcieCompletionTimeout port tag => Sys2Proof.Machine.execPcieCompletionTimeout port tag s
  | .pcieInboundMemoryRead port rid tag addr len => Sys2Proof.Machine.execPcieInboundMemoryRead port rid tag addr len s
  | .pcieInboundMemoryWrite port rid addr bytes ep => Sys2Proof.Machine.execPcieInboundMemoryWrite port rid addr bytes ep s
  | .pcieInboundAtomicop port rid tag addr op n a b => Sys2Proof.Machine.execPcieInboundAtomicop port rid tag addr op n a b s
  | .pcieInboundUnsupported port rid tag addr => Sys2Proof.Machine.execPcieInboundUnsupported port rid tag addr s
  | .pcieErrorMessage port rid kind => Sys2Proof.Machine.execPcieErrorMessage port rid kind s
  | .attentionButtonPressed port pressed => Sys2Proof.Machine.execAttentionButtonPressed port pressed s
  | .presenceDetectChanged port prsnt => Sys2Proof.Machine.execPresenceDetectChanged port prsnt s
  | .mrlSensorChanged port closed => Sys2Proof.Machine.execMrlSensorChanged port closed s
  | .powerFault port present => Sys2Proof.Machine.execPowerFault port present s
  | .slotPowerOn port => Sys2Proof.Machine.execSlotPowerOn port s
  | .slotPowerOff port => Sys2Proof.Machine.execSlotPowerOff port s
  | .indicatorChange port aind pind => Sys2Proof.Machine.execIndicatorChange port aind pind s
  | .perstRelease port => Sys2Proof.Machine.execPerstRelease port s
  | .noLinkTimeout port => Sys2Proof.Machine.execNoLinkTimeout port s
  | .pcieLinkDown port => Sys2Proof.Machine.execPcieLinkDown port s
  | .containmentRelease port => Sys2Proof.Machine.execContainmentRelease port s
  | .couplingSubmit part addr th => Sys2Proof.Machine.execCouplingSubmit part addr th s
  | .sreq port f => Sys2Proof.Machine.execSreq port f s
  | .srsp port f => Sys2Proof.Machine.execSrsp port f s
  | .areq port f => Sys2Proof.Machine.execAreq port f s
  | .arsp port f => Sys2Proof.Machine.execArsp port f s
  | .rbusy port f => Sys2Proof.Machine.execRbusy port f s
  | .rrej port f => Sys2Proof.Machine.execRrej port f s
  | .mupd port f => Sys2Proof.Machine.execMupd port f s
  | .mack port f => Sys2Proof.Machine.execMack port f s
  | .mnak port f => Sys2Proof.Machine.execMnak port f s
  | .cp2Stop port => Sys2Proof.Machine.execCp2Stop port s
  | .cp2Init port sys frames cells => Sys2Proof.Machine.execCp2Init port sys frames cells s
  | .couplingRequestTimeout port xid => Sys2Proof.Machine.execCouplingRequestTimeout port xid s
  | .partnerSilent port => Sys2Proof.Machine.execPartnerSilent port s
  | .mirrorRelease k => Sys2Proof.Machine.execMirrorRelease k s
  | .couplingPortDown port => Sys2Proof.Machine.execCouplingPortDown port s
  | .couplingPortUp port => Sys2Proof.Machine.execCouplingPortUp port s
  | .doorbellRing page off n val => Sys2Proof.Machine.execDoorbellRing page off n val s
  | .groupTimeLimit g => Sys2Proof.Machine.execGroupTimeLimit g s
  | .groupLimitWrite g val => Sys2Proof.Machine.execGroupLimitWrite g val s
  | .targetWrite src => Sys2Proof.Machine.execTargetWrite src s
  | .targetRead src => Sys2Proof.Machine.execTargetRead src s
  | .rillEnable r val => Sys2Proof.Machine.execRillEnable r val s
  | .rillPost th val => Sys2Proof.Machine.execRillPost th val s
  | .rillWriterSlot => Sys2Proof.Machine.execRillWriterSlot s
  | .consumerWordRead r => Sys2Proof.Machine.execConsumerWordRead r s
  | .vpDefine vp => Sys2Proof.Machine.execVpDefine vp s
  | .vpReady vp => Sys2Proof.Machine.execVpReady vp s
  | .vpStop vp => Sys2Proof.Machine.execVpStop vp s
  | .vpUndefine vp => Sys2Proof.Machine.execVpUndefine vp s
  | .cascadeSelection => Sys2Proof.Machine.execCascadeSelection s
  | .sliceEnd th => Sys2Proof.Machine.execSliceEnd th s
  | .vpLeave th => Sys2Proof.Machine.execVpLeave th s
  | .vpTimerWrite vp val => Sys2Proof.Machine.execVpTimerWrite vp val s
  | .vpTimerExpiry vp => Sys2Proof.Machine.execVpTimerExpiry vp s
  | .partitionStall part => Sys2Proof.Machine.execPartitionStall part s
  | .budgetInterval u avg peak low => Sys2Proof.Machine.execBudgetInterval u avg peak low s
  | .powerSample watts noncore perThread perCore => Sys2Proof.Machine.execPowerSample watts noncore perThread perCore s
  | .sensorReading temps stale => Sys2Proof.Machine.execSensorReading temps stale s
  | .thermalPark core => Sys2Proof.Machine.execThermalPark core s
  | .shallowPark core => Sys2Proof.Machine.execShallowPark core s
  | .deepPark core => Sys2Proof.Machine.execDeepPark core s
  | .coreUnpark core => Sys2Proof.Machine.execCoreUnpark core s
  | .spillwayEvent n src ereg th => Sys2Proof.Machine.execSpillwayEvent n src ereg th s
  | .bucketUnitEnd src => Sys2Proof.Machine.execBucketUnitEnd src s
  | .severeClear src => Sys2Proof.Machine.execSevereClear src s
  | .blockResetRequest block => Sys2Proof.Machine.execBlockResetRequest block s
  | .fenceLimit block => Sys2Proof.Machine.execFenceLimit block s
  | .blockResetComplete block => Sys2Proof.Machine.execBlockResetComplete block s
  | .blockResetTimeout block => Sys2Proof.Machine.execBlockResetTimeout block s
  | .consequentialMarkExpiry block => Sys2Proof.Machine.execConsequentialMarkExpiry block s
  | .errnClear => Sys2Proof.Machine.execErrnClear s
  | .faultInjection mode src => Sys2Proof.Machine.execFaultInjection mode src s
  | .hubLost => Sys2Proof.Machine.execHubLost s
  | .nmtStart => Sys2Proof.Machine.execNmtStart s
  | .nmtStop => Sys2Proof.Machine.execNmtStop s
  | .nmtEnterPreOperational => Sys2Proof.Machine.execNmtEnterPreOperational s
  | .nmtResetNode => Sys2Proof.Machine.execNmtResetNode s
  | .nmtResetCommunication => Sys2Proof.Machine.execNmtResetCommunication s
  | .bootUpMessage => Sys2Proof.Machine.execBootUpMessage s
  | .heartbeat => Sys2Proof.Machine.execHeartbeat s
  | .emcy => Sys2Proof.Machine.execEmcy s
  | .usdoRequest id wr index subx data first last => Sys2Proof.Machine.execUsdoRequest id wr index subx data first last s
  | .usdoTimeout id => Sys2Proof.Machine.execUsdoTimeout id s
  | .tpdo1 => Sys2Proof.Machine.execTpdo1 s
  | .tpdo2 timer => Sys2Proof.Machine.execTpdo2 timer s
  | .canErrorPassive => Sys2Proof.Machine.execCanErrorPassive s
  | .busOffRecovery => Sys2Proof.Machine.execBusOffRecovery s
  | .odRead index subx off len => Sys2Proof.Machine.execOdRead index subx off len s
  | .odWrite index subx off bytes fin => Sys2Proof.Machine.execOdWrite index subx off bytes fin s
  | .imageWrite bytes => Sys2Proof.Machine.execImageWrite bytes s
  | .imageVerified flashErr => Sys2Proof.Machine.execImageVerified flashErr s
  | .activate val => Sys2Proof.Machine.execActivate val s
  | .moduleResetObject val => Sys2Proof.Machine.execModuleResetObject val s
  | .debugStop => Sys2Proof.Machine.execDebugStop s
  | .debugResume => Sys2Proof.Machine.execDebugResume s
  | .debugStep => Sys2Proof.Machine.execDebugStep s
  | .debugRegisterAccess wr subx val => Sys2Proof.Machine.execDebugRegisterAccess wr subx val s
  | .debugMemoryAccess wr bytes => Sys2Proof.Machine.execDebugMemoryAccess wr bytes s
  | .readoutItem => Sys2Proof.Machine.execReadoutItem s
  | .powerOnReset => Sys2Proof.Machine.execPowerOnReset s
  | .mainenAssert => Sys2Proof.Machine.execMainenAssert s
  | .pwrgdRise => Sys2Proof.Machine.execPwrgdRise s
  | .pwrgdFall => Sys2Proof.Machine.execPwrgdFall s
  | .resetNChange level => Sys2Proof.Machine.execResetNChange level s
  | .referenceClockLoss => Sys2Proof.Machine.execReferenceClockLoss s
  | .moduleReset => Sys2Proof.Machine.execModuleReset s
  | .resetSequenceStart module dsz node ftestN => Sys2Proof.Machine.execResetSequenceStart module dsz node ftestN s
  | .pllLock => Sys2Proof.Machine.execPllLock s
  | .bootRomStart => Sys2Proof.Machine.execBootRomStart s
  | .bootAreaChecked readErr => Sys2Proof.Machine.execBootAreaChecked readErr s
  | .directorySweep => Sys2Proof.Machine.execDirectorySweep s
  | .directorySweepComplete => Sys2Proof.Machine.execDirectorySweepComplete s
  | .bootSeal => Sys2Proof.Machine.execBootSeal s
  | .threadStart thread addr => Sys2Proof.Machine.execThreadStart thread addr s
  | .supplyExcursion mv => Sys2Proof.Machine.execSupplyExcursion mv s
  | .vAoLoss => Sys2Proof.Machine.execVAoLoss s
  | .fabricPortControlWrite port val => Sys2Proof.Machine.execFabricPortControlWrite port val s
  | .fabricRetrainAtX8Done port => Sys2Proof.Machine.execFabricRetrainAtX8Done port s
  | .jlNarrowingDone port => Sys2Proof.Machine.execJlNarrowingDone port s
  | .memoryLinkFlit port bytes => Sys2Proof.Machine.execMemoryLinkFlit port bytes s
  | .pcieLinkUp port rate width below => Sys2Proof.Machine.execPcieLinkUp port rate width below s
  | .pcieLinkError port fatal => Sys2Proof.Machine.execPcieLinkError port fatal s
  | .sluiceReceiverLock ring delay => Sys2Proof.Machine.execSluiceReceiverLock ring delay s
  | .faultIndicatorTimeout => Sys2Proof.Machine.execFaultIndicatorTimeout s

end Sys2Proof.Machine
end

