-- ==== Sys2Proof/Machine/Idle.lean ====
section
/-! DEFINITION. What passes while no command waits. -/

namespace Sys2Proof.Machine

/-- One nanosecond passes: the time of day counts while V_AO is present, and wraps (R631, R300; log entry 5). Everything else that time brings about is
a command. -/
def Mach.tick (m : Mach) : Mach := if m.boot.vao then { m with tod := (m.tod + 1) % 2 ^ 64 } else m

end Sys2Proof.Machine
end

