-- ==== Sys2Proof/Safety.lean ====
section
/-! DEFINITION. What counts as a safe step and a sound state, in the terms that the statements use. -/

namespace Sys2Proof.Safety

open Sys2Proof.Machine

/-- An outcome that goes on. -/
def goesOn (o : Host.Outcome State Fault Refusal) : Bool :=
  match o with
  | .next _ => true
  | .fault _ => false
  | .refused _ => false

/-- The memory of a state is in its canonical form: addresses rising, no byte 0 listed. -/
def memOk (s : State) : Bool := s.m.mem.wf

/-- Every command that waits is well formed. -/
def queueOk (s : State) : Bool := s.pending.all (·.wf)

/-- The block runs: V_AO is present, and neither a checkstop nor the loss of the hub holds it. -/
def running (s : State) : Bool := s.m.boot.vao && !s.m.frozen

/-- The command `c` answers a next state with the queue as it was, whose machine has the property `P`. -/
def Ends (c : Instr) (s : State) (P : Mach → Prop) : Prop := ∃ t, exec c s = .next t ∧ t.pending = s.pending ∧ P t.m

/-- Where the condition `h` holds, the well-formed command `c` on the machine `m` answers a next state, with whatever queue it found, whose machine
has the property `P`. -/
def Does (m : Mach) (c : Instr) (h : Prop) (P : Mach → Prop) : Prop := c.wf = true → h → ∀ q, ∃ m', exec c ⟨q, m⟩ = .next ⟨q, m'⟩ ∧ P m'

/-- `m'` differs from `m` in its registers at most. -/
abbrev SameButRegs (m m' : Mach) : Prop := { m' with regs := m.regs } = m

/-! ### Instructions -/

/-- The fetch of an instruction's words. -/
def fetchWords (th : Nat) (ia : W64) (len : Nat) : X Unit := do
  fetchCheck th ia.toNat
  if len = 8 then fetchCheck th (ia + 4).toNat

/-- Thread `th` can attempt an instruction of shape `sh` now, and `m1` is the machine after its fetch: the thread executes, no debug command
holds it or steps it, single stepping is off, its window takes the instruction, and the fetch of its words passes. An instruction of R154
finds the window empty, outside an episode, with room in the store buffer. -/
structure Ready (m : Mach) (th : Nat) (sh : Shape) (m1 : Mach) : Prop where
  runs : m.executes th = true
  noDbg : (m.th th).dbg = 0
  noStep : (m.th th).cur.pswF 6 6 = 0
  room : (m.takeIn th sh).isSome = true
  fetch : fetchWords th (m.th th).cur.ia sh.len (m.onTh th fun t => { t with gotIx := 0 }) = .ok () m1
  sync : sh.sync = true → (m.th th).win = [] ∧ (m1.th th).win = [] ∧ (m1.th th).ep = none ∧ (m1.th th).sbuf.length ≤ 64
  room1 : (m1.takeIn th sh).isSome = true
  fresh : (m1.th th).nowSync = false
  keeps : (m1.th th).cur = (m.th th).cur
  noDbg1 : (m1.th th).dbg = 0

/-- The command `i` answers a next state in which thread `th` has the registers `b` and the commit copy `c`; the queue, every other thread and
everything outside the threads are as they were in `m1`. -/
def Leaves (i : Instr) (s : State) (th : Nat) (m1 : Mach) (b c : Arch) : Prop :=
  ∃ t, exec i s = .next t ∧ t.pending = s.pending ∧ (t.m.th th).cur = b ∧ (t.m.th th).com = c ∧ (∀ u, u ≠ th → t.m.th u = m1.th u) ∧ { t.m with thr := m1.thr } = m1

/-- The registers after an instruction at `a.ia` of `len` bytes has left `b` in them and transfers no control: the loop levels step and the
address advances (R96, R97). -/
def after (a b : Arch) (len : Nat) : Arch := b.stepLoops (a.ia + BitVec.ofNat 64 (len - 4)) (a.ia + BitVec.ofNat 64 (len - 4) + 4) 4

/-- What an interruption at target level `L` leaves of the registers `b` (R104): the status and the given address, code and event address in the
save registers of `L`; level `L`, no enclave, interruptions and single steps off, no loop level active, the handler's address, no reservation; the
general and floating registers as they were. -/
structure Entered (b c : Arch) (L code : Nat) (eaddr sia : W64) : Prop where
  spsw : tget c.spsw L 0 = b.psw
  sia : tget c.sia L 0 = sia
  event : bits (tget c.ecode L 0).toNat 15 0 = code
  fromLevel : bits (tget c.ecode L 0).toNat 30 29 = b.pl
  eaddr : tget c.eaddr L 0 = eaddr
  level : c.pl = L
  noEncl : c.pswF 2 2 = 0
  tr : c.pswF 4 4 = bits (tget b.ivb L 0).toNat 0 0
  off : c.pswF 6 5 = 0
  loops : c.pswF 23 20 = 0
  ia : c.ia = BitVec.ofNat 64 (bits (tget b.ivb L 0).toNat 63 12 * 4096 + 0x100 * (code / 256))
  resv : c.resv = none
  kept : c.cc = b.cc ∧ c.pswF 31 29 = b.pswF 31 29
  regs : c.g = b.g ∧ c.f = b.f ∧ c.fpsr = b.fpsr ∧ c.scr0 = b.scr0 ∧ c.scr1 = b.scr1

/-- The command `i` answers a next state in which thread `th` has taken an interruption (`Entered`) with everything before it committed; the
queue, every other thread and everything outside the threads are as they were in `m1`. -/
def Enters (i : Instr) (s : State) (th : Nat) (m1 : Mach) (b : Arch) (L code : Nat) (eaddr sia : W64) : Prop :=
  ∃ t, exec i s = .next t ∧ t.pending = s.pending ∧ Entered b (t.m.th th).cur L code eaddr sia ∧ (t.m.th th).com = (t.m.th th).cur ∧
    (t.m.th th).win = [] ∧ (∀ u, u ≠ th → t.m.th u = m1.th u) ∧ { t.m with thr := m1.thr } = m1

/-- A thread has nothing in its window, is outside an episode and an enclave, and its store buffer has room. -/
def Clear (m : Mach) (th : Nat) : Prop :=
  (m.th th).win = [] ∧ (m.th th).ep = none ∧ (m.th th).encl = none ∧ (m.th th).sbuf.length ≤ 64

/-- After the operand accesses of an instruction whose registers before it are `a`, the machine `m2` still lets it complete: no access waits,
and its thread is as it was but for what the accesses count. -/
structure Served (m2 : Mach) (th : Nat) (sh : Shape) (a : Arch) : Prop where
  noSync : (m2.th th).nowSync = false
  noDbg : (m2.th th).dbg = 0
  room : (m2.takeIn th sh).isSome = true
  keeps : (m2.th th).cur = a

/-- As `Leaves`, for an instruction that stores: `st` follows the thread's earlier stores that are not yet performed. -/
def LeavesStores (i : Instr) (s : State) (th : Nat) (m2 : Mach) (b c : Arch) (st : List StoreE) : Prop :=
  ∃ t, exec i s = .next t ∧ t.pending = s.pending ∧ (t.m.th th).cur = b ∧ (t.m.th th).com = c ∧ (t.m.th th).stores = (m2.th th).stores ++ st ∧
    (∀ u, u ≠ th → t.m.th u = m2.th u) ∧ { t.m with thr := m2.thr } = m2

end Sys2Proof.Safety
end

