-- ==== Sys2Proof/Certificates/Slice0/Obligations.lean ====
section
/-! DEFINITION. The statements of this model for the provers. -/

open Sys2Proof Sys2Proof.Machine Sys2Proof.Safety

/-- A step takes the command at the front of the queue and runs it with the rest of the queue (00_scope.md, 95_what_each_step_holds.md). -/
def Obligations.QueueOrder : Prop :=
  ∀ (c : Instr) (rest : List Instr) (m : Mach), step ⟨c :: rest, m⟩ = exec c ⟨rest, m⟩

/-- A thread can attempt an instruction of one word, and `m1` is the machine after its fetch; the word itself plays no part in it. -/
def Word (m : Mach) (th : Nat) (m1 : Mach) : Prop := Ready m th (Shape.simple 0) m1

/-- Results of the integer instructions of op 0x01: the register and cc they write, and nothing else (03_worzen_execution.md, 04_arithmetic_and_decimal.md, R119, R121, R122, R73, R97). -/
def Obligations.IntegerResults : Prop :=
  ∀ (s : State) (o : FA) (m1 : Mach), o.wf = true → Word s.m o.th m1 →
    let a := (s.m.th o.th).cur
    let x := a.gr o.a
    let y := a.gr o.b
    let quiet := fun (ovf : Prop) => ovf → a.pswF 29 29 = 0
    let leaves := fun (i : Instr) (b : Arch) => Leaves i s o.th m1 (after a b 4) (m1.th o.th).com
    (quiet (ccSigned (x.toInt + y.toInt) = 3) → leaves (.add o) ((a.setG o.t (x + y)).setCc (ccSigned (x.toInt + y.toInt)))) ∧
    leaves (.addl o) ((a.setG o.t (x + y)).setCc (ccAddl x y)) ∧
    (quiet (ccSigned (x.toInt - y.toInt) = 3) → leaves (.sub o) ((a.setG o.t (x - y)).setCc (ccSigned (x.toInt - y.toInt)))) ∧
    leaves (.subl o) ((a.setG o.t (x - y)).setCc (ccSubl x y)) ∧
    leaves (.andI o) (a.setG o.t (x &&& y)) ∧
    leaves (.orI o) (a.setG o.t (x ||| y)) ∧
    leaves (.xorI o) (a.setG o.t (x ^^^ y)) ∧
    leaves (.andc o) (a.setG o.t (x &&& ~~~y)) ∧
    leaves (.sll o) (a.setG o.t (x <<< (y.toNat % 64))) ∧
    leaves (.srl o) (a.setG o.t (x >>> (y.toNat % 64))) ∧
    leaves (.sra o) (a.setG o.t (x.sshiftRight (y.toNat % 64))) ∧
    leaves (.rotl o) (a.setG o.t (x.rotateLeft (y.toNat % 64))) ∧
    (o.t = 0 → leaves (.cmp o) (a.setCc (if x = y then 0 else if x.toInt < y.toInt then 1 else 2))) ∧
    (o.t = 0 → leaves (.cmpl o) (a.setCc (if x = y then 0 else if x.toNat < y.toNat then 1 else 2))) ∧
    (quiet (ccSigned (x.toInt * y.toInt) = 3) → leaves (.mul o) ((a.setG o.t (x * y)).setCc (ccSigned (x.toInt * y.toInt)))) ∧
    leaves (.mulh o) (a.setG o.t (BitVec.ofInt 64 (x.toInt * y.toInt / 2 ^ 64))) ∧
    leaves (.mulhu o) (a.setG o.t (BitVec.ofNat 64 (x.toNat * y.toNat / 2 ^ 64))) ∧
    (y ≠ 0 → quiet (x = 0x8000000000000000 ∧ y = 0xffffffffffffffff) →
      leaves (.div o) (a.setG o.t (BitVec.ofInt 64 (x.toInt.tdiv y.toInt)))) ∧
    (y ≠ 0 → leaves (.divu o) (a.setG o.t (BitVec.ofNat 64 (x.toNat / y.toNat)))) ∧
    (y ≠ 0 → leaves (.rem o) (a.setG o.t (BitVec.ofInt 64 (x.toInt.tmod y.toInt)))) ∧
    (y ≠ 0 → leaves (.remu o) (a.setG o.t (BitVec.ofNat 64 (x.toNat % y.toNat))))

/-- Results of the immediate instructions: the register or cc they write, and nothing else (03_worzen_execution.md, R84, R73, R97). -/
def Obligations.ImmediateResults : Prop :=
  ∀ (s : State) (o : FI) (m1 : Mach), o.wf = true → Word s.m o.th m1 →
    let a := (s.m.th o.th).cur
    let x := a.gr o.a
    let si : W64 := BitVec.ofInt 64 (if o.imm < 32768 then (o.imm : Int) else o.imm - 65536)
    let zi : W64 := BitVec.ofNat 64 o.imm
    let leaves := fun (i : Instr) (b : Arch) => Leaves i s o.th m1 (after a b 4) (m1.th o.th).com
    leaves (.addi o) (a.setG o.t (x + si)) ∧
    leaves (.addis o) (a.setG o.t (x + (si <<< 16))) ∧
    leaves (.andi o) (a.setG o.t (x &&& zi)) ∧
    leaves (.ori o) (a.setG o.t (x ||| zi)) ∧
    leaves (.xori o) (a.setG o.t (x ^^^ zi)) ∧
    (o.t = 0 → leaves (.cmpi o) (a.setCc (if x = si then 0 else if x.toInt < si.toInt then 1 else 2))) ∧
    (o.t = 0 → leaves (.cmpli o) (a.setCc (if x = zi then 0 else if x.toNat < zi.toNat then 1 else 2)))

/-- As `Word`, for an instruction that forms a checkpoint alone. -/
def WordAlone (m : Mach) (th : Nat) (m1 : Mach) : Prop := Ready m th (Shape.alone_ 0) m1

/-- Branches and the loop instruction: the target, the link register and the loop registers they write (03_worzen_execution.md, R84, R85, R87, R96). -/
def Obligations.BranchTargets : Prop :=
  ∀ (s : State) (th : Nat) (m1 : Mach), th < 96 → Word s.m th m1 →
    let a := (s.m.th th).cur
    let c := (m1.th th).com
    let leaves := fun (i : Instr) (b : Arch) => Leaves i s th m1 b c
    (∀ off, off < 2 ^ 26 → leaves (.br th off) { a with ia := a.ia + BitVec.ofInt 64 (4 * sx 26 off) }) ∧
    (∀ off, off < 2 ^ 26 → leaves (.brl th off) { a.setG 31 (a.ia + 4) with ia := a.ia + BitVec.ofInt 64 (4 * sx 26 off) }) ∧
    (∀ cond off, cond < 12 → off < 65536 →
      leaves (.brc th cond 0 off) (if ccPred cond a.cc then { a with ia := a.ia + BitVec.ofInt 64 (4 * sx 16 off) } else after a a 4)) ∧
    (∀ cond r off, cond < 6 → r < 32 → off < 65536 →
      leaves (.brc th (16 + cond) r off)
        (if regTest cond (a.gr r) then { a with ia := a.ia + BitVec.ofInt 64 (4 * sx 16 off) } else after a a 4)) ∧
    (∀ t r imm, t < 32 → r < 32 → imm < 65536 → (a.gr r + BitVec.ofInt 64 (sx 16 imm)).toNat % 4 = 0 →
      leaves (.bgr ⟨th, t, r, imm⟩) { a.setG t (a.ia + 4) with ia := a.gr r + BitVec.ofInt 64 (sx 16 imm) }) ∧
    (∀ n r off, n < 4 → r < 32 → 0 < off → off < 65536 →
      let lea := a.ia + BitVec.ofNat 64 (4 * off)
      let set := fun (bit : Nat) =>
        ({ a with lsa := tset a.lsa n (a.ia + 4), lea := tset a.lea n lea, lct := tset a.lct n (a.gr r) } : Arch).setPsw (20 + n) (20 + n) bit
      leaves (.loop th n 0 r off) (if a.gr r = 0 then (set 0).stepLoops lea (lea + 4) n else { set 1 with ia := a.ia + 4 }))

/-- Every piece of an access lies in cacheable memory: not in the module control space, not in PCIe memory space, not in the boot scratch. -/
def Plain (m : Mach) (th : Nat) (ps : List Piece) : Prop :=
  ∀ p ∈ ps, m.mcsOff p.pa = none ∧ m.pcieWin p.pa = none ∧ m.inScratch th p.pa = false

/-- Loads of form M: the register they write from the bytes that the access reads, and nothing else (03_worzen_execution.md, R74, R75, R78, R80). -/
def Obligations.LoadResults : Prop :=
  ∀ (s : State) (o : FM) (m1 m2 : Mach) (v : Nat), o.wf = true →
    let a := (s.m.th o.th).cur
    let ea := a.gr o.a + BitVec.ofInt 64 (sx 16 o.disp)
    let reads := fun (n : Nat) => Ready s.m o.th (memShape 0 n ea) m1 ∧ loadN o.th ea n .load false m1 = .ok v m2 ∧ Served m2 o.th (memShape 0 n ea) a
    let leaves := fun (i : Instr) (b : Arch) => Leaves i s o.th m2 (after a b 4) (m2.th o.th).com
    (reads 1 → leaves (.lb o) (a.setG o.t (BitVec.ofNat 64 v))) ∧
    (reads 2 → leaves (.lh o) (a.setG o.t (BitVec.ofNat 64 v))) ∧
    (reads 4 → leaves (.lw o) (a.setG o.t (BitVec.ofNat 64 v))) ∧
    (reads 8 → leaves (.ld o) (a.setG o.t (BitVec.ofNat 64 v))) ∧
    (o.t % 2 = 0 → reads 16 →
      leaves (.lq o) ((a.setG o.t (BitVec.ofNat 64 (v / 2 ^ 64))).setG (o.t + 1) (BitVec.ofNat 64 v))) ∧
    (reads 1 → leaves (.lbs o) (a.setG o.t (BitVec.ofInt 64 (sx 8 v)))) ∧
    (reads 2 → leaves (.lhs o) (a.setG o.t (BitVec.ofInt 64 (sx 16 v)))) ∧
    (reads 4 → leaves (.lws o) (a.setG o.t (BitVec.ofInt 64 (sx 32 v)))) ∧
    (reads 4 → leaves (.lfs o) (a.setF o.t (BitVec.ofNat 64 v))) ∧
    (reads 8 → leaves (.lfd o) (a.setF o.t (BitVec.ofNat 64 v)))

/-- Stores of form M: the bytes that join the stores of the thread, at the translated address, and nothing else (03_worzen_execution.md, R74, R75, R78, R79, R80, R84, R149). -/
def Obligations.StoreResults : Prop :=
  ∀ (s : State) (o : FM) (m1 m2 : Mach) (ps : List Piece), o.wf = true →
    let a := (s.m.th o.th).cur
    let ea := a.gr o.a + BitVec.ofInt 64 (sx 16 o.disp)
    let reaches := fun (n : Nat) => Ready s.m o.th (memShape 0 n ea) m1 ∧ access o.th ea n .store m1 = .ok ps m2 ∧ Plain m2 o.th ps ∧ Served m2 o.th (memShape 0 n ea) a
    let stores := fun (i : Instr) (n v : Nat) => LeavesStores i s o.th m2 (after a a 4) (m2.th o.th).com (mkStores ps n v false)
    (reaches 1 → stores (.stb o) 1 ((a.gr o.t).toNat % 2 ^ 8)) ∧
    (reaches 2 → stores (.sth o) 2 ((a.gr o.t).toNat % 2 ^ 16)) ∧
    (reaches 4 → stores (.stw o) 4 ((a.gr o.t).toNat % 2 ^ 32)) ∧
    (reaches 8 → stores (.std o) 8 ((a.gr o.t).toNat % 2 ^ 64)) ∧
    (o.t % 2 = 0 → reaches 16 →
      stores (.stq o) 16 ((a.gr o.t).toNat * 2 ^ 64 + (a.gr (o.t + 1)).toNat)) ∧
    (reaches 4 → stores (.stfs o) 4 ((a.fr o.t).toNat % 2 ^ 32)) ∧
    (reaches 8 → stores (.stfd o) 8 (a.fr o.t).toNat)

/-- Loads and stores of form X: base plus shifted index, and the non-temporal bit of a store (03_worzen_execution.md, R80, R86, R246). -/
def Obligations.IndexedAndNonTemporal : Prop :=
  ∀ (s : State) (o : FX) (m1 m2 : Mach), o.wf = true →
    let a := (s.m.th o.th).cur
    let op := o.fn % 64
    let ea := a.gr o.a + (a.gr o.b <<< o.sc)
    let ok := 0x0C ≤ op ∧ op ≤ 0x1C ∧ o.fn / 128 = 0 ∧ (opQuad op = true → o.t % 2 = 0)
    (∀ v, ok → opStores op = false → o.fn = op → Ready s.m o.th (memShape 0 (opBytes op) ea) m1 → loadN o.th ea (opBytes op) .load false m1 = .ok v m2 →
      Served m2 o.th (memShape 0 (opBytes op) ea) a →
      Leaves (.indexedAccess o) s o.th m2 (after a (a.putLoad op o.t v) 4) (m2.th o.th).com) ∧
    (∀ ps, ok → opStores op = true → Ready s.m o.th (memShape 0 (opBytes op) ea) m1 → access o.th ea (opBytes op) .store m1 = .ok ps m2 → Plain m2 o.th ps →
      Served m2 o.th (memShape 0 (opBytes op) ea) a →
      LeavesStores (.indexedAccess o) s o.th m2 (after a a 4) (m2.th o.th).com (mkStores ps (opBytes op) (a.storeVal op o.t) (o.fn / 64 % 2 == 1)) ∧
      LeavesStores (.nonTemporalStore o) s o.th m2 (after a a 4) (m2.th o.th).com (mkStores ps (opBytes op) (a.storeVal op o.t) true))

/-- mfsr and mtsr: what they read and write of the special registers, at the level the register needs (03_worzen_execution.md, R91, R92, R94, R95, R99). -/
def Obligations.SpecialRegisterMoves : Prop :=
  ∀ (s : State) (o : FS) (m1 : Mach) (l : Nat), o.wf = true → srLevel o.sr = some l →
    let a := (s.m.th o.th).cur
    let v := a.gr o.a
    l ≤ a.pl →
    let leaves := fun (i : Instr) (b : Arch) => Leaves i s o.th m1 (after a b 4) (m1.th o.th).com
    let L := o.sr / 16 - 3
    (Word s.m o.th m1 → o.a = 0 → leaves (.mfsr o) (a.setG o.t (m1.srRead a o.sr))) ∧
    (WordAlone s.m o.th m1 → o.t = 0 →
      (o.sr = 0 → pswDenied a.pl a.psw v = false → leaves (.mtsr o) { a with psw := (a.psw &&& ~~~0xE0F300F0#64) ||| (v &&& 0xE0F300F0#64) }) ∧
      (8 ≤ o.sr → o.sr < 0x10 → leaves (.mtsr o) a) ∧
      (0x10 ≤ o.sr → o.sr < 0x14 → leaves (.mtsr o) { a with lsa := tset a.lsa (o.sr - 0x10) (v &&& ~~~3#64) }) ∧
      (0x14 ≤ o.sr → o.sr < 0x18 → leaves (.mtsr o) { a with lea := tset a.lea (o.sr - 0x14) (v &&& ~~~3#64) }) ∧
      (0x18 ≤ o.sr → o.sr < 0x1C → leaves (.mtsr o)
        (({ a with lct := tset a.lct (o.sr - 0x18) v } : Arch).setPsw (20 + (o.sr - 0x18)) (20 + (o.sr - 0x18)) (if v = 0 then 0 else 1))) ∧
      (0x40 ≤ o.sr → o.sr % 16 = 0 → leaves (.mtsr o) { a with spsw := tset a.spsw L v }) ∧
      (0x40 ≤ o.sr → o.sr % 16 = 1 → leaves (.mtsr o) { a with sia := tset a.sia L v }) ∧
      (0x40 ≤ o.sr → o.sr % 16 = 2 → leaves (.mtsr o) { a with ecode := tset a.ecode L (v &&& 0x7FFFFFFF#64) }) ∧
      (0x40 ≤ o.sr → o.sr % 16 = 3 → leaves (.mtsr o) { a with eaddr := tset a.eaddr L v }) ∧
      (0x40 ≤ o.sr → o.sr % 16 = 4 → leaves (.mtsr o) { a with ivb := tset a.ivb L (v &&& 0xFFFFFFFFFFFFF001#64) }) ∧
      (0x40 ≤ o.sr → o.sr % 16 = 5 → leaves (.mtsr o) { a with scr0 := tset a.scr0 L v }) ∧
      (0x40 ≤ o.sr → o.sr % 16 = 6 → leaves (.mtsr o) { a with scr1 := tset a.scr1 L v }))

/-- svc, hvc, fwc, brk and an undefined word take their interruption: what R104 saves and where it goes (03_worzen_execution.md, R102, R104, R105, R114, R115). -/
def Obligations.CallsTakeTheirTrap : Prop :=
  ∀ (s : State) (o : FS) (m1 : Mach), o.wf = true → o.t = 0 → o.a = 0 → WordAlone s.m o.th m1 → Clear m1 o.th →
    let a := (s.m.th o.th).cur
    let b := after a a 4
    (Enters (.svc o) s o.th m1 b (max 1 b.pl) 0x0501 (BitVec.ofNat 64 o.sr) b.ia) ∧
    (1 ≤ a.pl → Enters (.hvc o) s o.th m1 b (max 2 b.pl) 0x0601 (BitVec.ofNat 64 o.sr) b.ia) ∧
    (2 ≤ a.pl → Enters (.fwc o) s o.th m1 b (max 3 b.pl) 0x0701 (BitVec.ofNat 64 o.sr) b.ia) ∧
    (Enters (.brk o) s o.th m1 b (max 1 b.pl) 0x0801 (BitVec.ofNat 64 o.sr) b.ia) ∧
    (∀ word, word < 2 ^ 32 → Word s.m o.th m1 → Enters (.undefinedInstruction o.th word) s o.th m1 a (max 1 a.pl) 0x0201 (BitVec.ofNat 64 word) a.ia)

/-- rfi, isync, rdtod, wait and the fences: what they restore, read and wait for (03_worzen_execution.md, 08_caches_and_ordering.md, R93, R113, R116, R254, R255). -/
def Obligations.ReturnAndFences : Prop :=
  ∀ (s : State) (o : FS) (m1 : Mach), o.wf = true → o.a = 0 → o.sr = 0 →
    let a := (s.m.th o.th).cur
    let leaves := fun (i : Instr) (b : Arch) => Leaves i s o.th m1 b (m1.th o.th).com
    let sp := (tget a.spsw a.pl 0).toNat
    (o.t = 0 → WordAlone s.m o.th m1 → 1 ≤ a.pl → sp % 4 ≤ a.pl → sp / 4 % 2 = 0 → (sp / 128 % 2 = 1 → a.pl = 3) → (tget a.sia a.pl 0).toNat % 4 = 0 →
      leaves (.rfi o) { a with psw := BitVec.ofNat 64 (sp &&& 0xE0F300F7), ia := tget a.sia a.pl 0 }) ∧
    (o.t = 0 → WordAlone s.m o.th m1 → leaves (.isync o) (after a a 4)) ∧
    (o.t = 0 → Word s.m o.th m1 → leaves (.fenceL o) (after a a 4)) ∧
    (Word s.m o.th m1 → leaves (.rdtod o) (after a (a.setG o.t (BitVec.ofNat 64 m1.tod)) 4)) ∧
    (o.t = 0 → s.m.modeM5 = true → m1.modeM5 = true → Word s.m o.th m1 → leaves (.fenceS o) (after a a 4) ∧ leaves (.fenceF o) (after a a 4)) ∧
    (o.t = 0 → s.m.modeM5 = false → m1.modeM5 = false → Ready s.m o.th (Shape.sync_ 0) m1 → (m1.core (o.th / 2)).comb = [] →
      m1.storesDone o.th = true → (m1.core (o.th / 2)).wpend = [] →
      Leaves (.fenceS o) s o.th m1 (after a a 4) (after a a 4) ∧ Leaves (.fenceF o) s o.th m1 (after a a 4) (after a a 4)) ∧
    (o.t = 0 → WordAlone s.m o.th m1 → 1 ≤ a.pl →
      (a.pswF 5 5 = 0 → leaves (.wait o) (after a (a.setCc 3) 4)) ∧
      (a.pswF 5 5 = 1 → m1.deliverable o.th = true → leaves (.wait o) (after a a 4)) ∧
      (a.pswF 5 5 = 1 → m1.deliverable o.th = false → ∃ t, exec (.wait o) s = .next t ∧ t.pending = s.pending ∧
        (t.m.th o.th).wait = .waitInsn ∧ (t.m.th o.th).cur = a))

/-- Floating-point instructions: result, sticky flags and cc, in both formats, with no enabled exception (04_arithmetic_and_decimal.md, R75, R129, R130, R131, R133, R134, R136). -/
def Obligations.FloatResults : Prop :=
  ∀ (s : State) (o : FA) (sp : Bool) (m1 : Mach), o.wf = true → Word s.m o.th m1 →
    let a := (s.m.th o.th).cur
    let f := fmtOf sp
    let rm := bits a.fpsr.toNat 17 16
    let enU := bit a.fpsr.toNat 9
    let raw := if sp then (a.fr o.a).toNat % 2 ^ 32 else (a.fr o.a).toNat
    let quiet := fun (flags : Nat) => flags &&& (a.fpsr.toNat >>> 8) &&& 31 = 0
    let mark := fun (flags : Nat) => ({ a with fpsr := a.fpsr ||| BitVec.ofNat 64 flags } : Arch)
    let leaves := fun (i : Instr) (b : Arch) => Leaves i s o.th m1 (after a b 4) (m1.th o.th).com
    let gives := fun (i : Instr) (r : Nat × Nat) => quiet r.2 → leaves i ((mark r.2).setF o.t (BitVec.ofNat 64 r.1))
    gives (.fadd o sp) (f.addV rm enU (a.fop sp o.a) (a.fop sp o.b)) ∧
    gives (.fsub o sp) (f.addV rm enU (a.fop sp o.a) (a.fop sp o.b).negate) ∧
    gives (.fmul o sp) (f.mulV rm enU (a.fop sp o.a) (a.fop sp o.b)) ∧
    gives (.fdiv o sp) (f.divV rm enU (a.fop sp o.a) (a.fop sp o.b)) ∧
    (o.b = 0 → gives (.fsqrt o sp) (f.sqrtV rm enU (a.fop sp o.a))) ∧
    gives (.fmadd o sp) (f.fmaV rm enU (a.fop sp o.a) (a.fop sp o.b) (a.fop sp o.t)) ∧
    gives (.fmsub o sp) (f.fmaV rm enU (a.fop sp o.a) (a.fop sp o.b) (a.fop sp o.t).negate) ∧
    (o.t = 0 → quiet (cmpV (a.fop sp o.a) (a.fop sp o.b)).2 →
      leaves (.fcmp o sp) ((mark (cmpV (a.fop sp o.a) (a.fop sp o.b)).2).setCc (cmpV (a.fop sp o.a) (a.fop sp o.b)).1)) ∧
    (o.b = 0 → gives (.fcvtSD o) (f32.convert rm enU (a.fop false o.a)) ∧ gives (.fcvtDS o) (f64.convert rm enU (a.fop true o.a)) ∧
      gives (.fcfi o sp) (f.ofInt64 rm (a.gr o.a)) ∧
      (quiet (toInt64 rm (a.fop sp o.a)).2 →
        leaves (.fcti o sp) ((mark (toInt64 rm (a.fop sp o.a)).2).setG o.t (toInt64 rm (a.fop sp o.a)).1)) ∧
      (quiet (toInt64 1 (a.fop sp o.a)).2 →
        leaves (.fctiz o sp) ((mark (toInt64 1 (a.fop sp o.a)).2).setG o.t (toInt64 1 (a.fop sp o.a)).1)) ∧
      leaves (.fmov o sp) (a.setF o.t (BitVec.ofNat 64 raw)) ∧
      leaves (.fneg o sp) (a.setF o.t (BitVec.ofNat 64 (f.withSign raw true))) ∧
      leaves (.fabs o sp) (a.setF o.t (BitVec.ofNat 64 (f.withSign raw false))) ∧
      leaves (.fmgf o) (a.setF o.t (a.gr o.a)) ∧ leaves (.fmfg o) (a.setG o.t (a.fr o.a))) ∧
    (o.a = 0 → o.b = 0 → leaves (.mffs o) (a.setG o.t a.fpsr)) ∧
    (o.t = 0 → o.b = 0 → WordAlone s.m o.th m1 → leaves (.mtfs o) { a with fpsr := a.gr o.a &&& 0x31F1F#64 })

/-- lres, scond, cas8 and cas16: reservation, condition, value returned and line written (08_caches_and_ordering.md, R79, R88, R257, R258, R259, R261). -/
def Obligations.AtomicResults : Prop :=
  ∀ (s : State) (o : FA) (m1 m2 m3 : Mach) (p : Piece) (w : L2Way), o.wf = true →
    let a := (s.m.th o.th).cur
    let va := (a.gr o.a).toNat
    let line := p.pa / 256
    let old := fun (n : Nat) => lineGet w.data (p.pa % 256) n
    let done := fun (i : Instr) (m : Mach) (b : Arch) => Leaves i s o.th m (after a b 4) (after a b 4)
    let reach := fun (n uops : Nat) (acc : Acc) (u : LineUse) => Ready s.m o.th (Shape.atomic 0 uops) m1 ∧ va % n = 0 ∧ access o.th (a.gr o.a) n acc m1 = .ok [p] m2 ∧
      (p.xl.nc || m2.uncached p.pa) = false ∧ useBy u o.th line true .demand m2 = .ok w m3 ∧ Served m3 o.th (Shape.atomic 0 uops) a ∧
      (m3.th o.th).win = [] ∧ (m3.th o.th).ep = none ∧ (m3.th o.th).sbuf.length ≤ 64
    (o.b = 0 → reach 8 1 .load (.load va p.pa) → ((m3.th o.th).stores.any fun e => overlaps e p.pa 8) = false →
      done (.lres o) m3 { a.setG o.t (BitVec.ofNat 64 (old 8)) with resv := some line }) ∧
    (reach 8 1 .rmw (.l2 (256 * line)) → m2.storesDone o.th = true →
      (a.resv = some line → done (.scond o) (m3.l2Store o.th line fun d => linePut d (p.pa % 256) 8 (a.gr o.b).toNat) { a.setG o.t 0 with resv := none }) ∧
      (a.resv ≠ some line → ∃ t, exec (.scond o) s = .next t ∧ t.pending = s.pending ∧
        (t.m.th o.th).cur = after a { a.setG o.t 1 with resv := none } 4 ∧ (t.m.th o.th).com = (t.m.th o.th).cur ∧
        t.m.mem = m3.mem ∧ t.m.cores = m3.cores ∧ t.m.home = m3.home)) ∧
    (reach 8 1 .rmw (.l2 (256 * line)) → m2.storesDone o.th = true →
      (old 8 = (a.gr o.t).toNat → done (.cas8 o) (m3.l2Store o.th line fun d => linePut d (p.pa % 256) 8 (a.gr o.b).toNat)
        ((a.setG o.t (BitVec.ofNat 64 (old 8))).setCc 0)) ∧
      (old 8 ≠ (a.gr o.t).toNat → done (.cas8 o) m3 ((a.setG o.t (BitVec.ofNat 64 (old 8))).setCc 1))) ∧
    (o.t % 2 = 0 → o.b % 2 = 0 → reach 16 2 .rmw (.l2 (256 * line)) → m2.storesDone o.th = true →
      let pair := fun (r : Nat) => (a.gr r).toNat * 2 ^ 64 + (a.gr (r + 1)).toNat
      let put := (a.setG o.t (BitVec.ofNat 64 (old 16 / 2 ^ 64))).setG (o.t + 1) (BitVec.ofNat 64 (old 16))
      (old 16 = pair o.t → done (.cas16 o) (m3.l2Store o.th line fun d => linePut d (p.pa % 256) 16 (pair o.b)) (put.setCc 0)) ∧
      (old 16 ≠ pair o.t → done (.cas16 o) m3 (put.setCc 1)))

/-- Packed and zoned decimal instructions: the result stored, its digits, sign and cc (04_arithmetic_and_decimal.md, R89, R137, R138, R139, R140, R141, R142, R143). -/
def Obligations.DecimalResults : Prop :=
  ∀ (s : State) (o : FW) (m1 m2 m3 m4 : Mach) (p1 p2 : List Piece) (x y : Nat) (X Y : Int), o.wf = true →
    let a := (s.m.th o.th).cur
    let L1 := o.x / 32
    let L2 := o.x % 32
    let lens := 1 ≤ L1 ∧ L1 ≤ 16 ∧ 1 ≤ L2 ∧ L2 ≤ 16
    let opens := fun (wr : Bool) => Ready s.m o.th (Shape.wform 0) m1 ∧ wOperands o L1 L2 wr m1 = .ok (p1, p2) m2 ∧ Plain m4 o.th p1 ∧
      Served m4 o.th (Shape.wform 0) a
    let both := fun (wr : Bool) => opens wr ∧ loadAll o.th false p1 m2 = .ok x m3 ∧ loadAll o.th false p2 m3 = .ok y m4 ∧
      unpack (toBytes L1 x) = some X ∧ unpack (toBytes L2 y) = some Y
    let one := fun (rd : List Nat → Option Int) => opens true ∧ loadAll o.th false p2 m2 = .ok y m4 ∧ rd (toBytes L2 y) = some Y
    let trapOff := fun (v : Int) (k : Nat) => decOvf v k = true → a.pswF 30 30 = 0
    let stores := fun (i : Instr) (b : Arch) (n : Nat) => LeavesStores i s o.th m4 (after a b 8) (m4.th o.th).com (mkStores p1 L1 n false)
    (lens → both true → trapOff (X + Y) (2 * L1 - 1) → stores (.dadd o) (a.setCc (ccDec (X + Y) (2 * L1 - 1))) (packed L1 (X + Y))) ∧
    (lens → both true → trapOff (X - Y) (2 * L1 - 1) → stores (.dsub o) (a.setCc (ccDec (X - Y) (2 * L1 - 1))) (packed L1 (X - Y))) ∧
    (lens → L2 < L1 → both true → trapOff (X * Y) (2 * L1 - 1) → stores (.dmul o) (a.setCc (ccDec (X * Y) (2 * L1 - 1))) (packed L1 (X * Y))) ∧
    (lens → both false → LeavesStores (.dcmp o) s o.th m4 (after a (a.setCc (if X = Y then 0 else if X < Y then 1 else 2)) 8) (m4.th o.th).com []) ∧
    (lens → L2 < L1 → both true → Y ≠ 0 → decOvf (X.tdiv Y) (2 * (L1 - L2) - 1) = false →
      stores (.ddiv o) a (packed (L1 - L2) (X.tdiv Y) * 2 ^ (8 * L2) + packed L2 (X.tmod Y))) ∧
    (lens → one unpack → trapOff Y (2 * L1 - 1) → stores (.dset o) (a.setCc (ccDec Y (2 * L1 - 1))) (packed L1 Y)) ∧
    (lens → one unzone → trapOff Y (2 * L1 - 1) → stores (.zdec o) (a.setCc (ccDec Y (2 * L1 - 1))) (packed L1 Y)) ∧
    (lens → one unpack → trapOff Y L1 → stores (.dzon o) (a.setCc (ccDec Y L1)) (zoned L1 Y))

/-- Byte-string instructions of form W and the interruptible ones: bytes stored, cc and register updates (04_arithmetic_and_decimal.md, R89, R90, R147, R148). -/
def Obligations.ByteStringResults : Prop :=
  ∀ (s : State) (o : FW) (q : FA) (m1 m2 m3 m4 : Mach) (p1 p2 : List Piece) (A B : Nat), o.wf = true → q.wf = true →
    (let a := (s.m.th o.th).cur
     let n := o.x
     let opens := fun (n2 : Nat) (wr : Bool) => n ≠ 0 ∧ Ready s.m o.th (Shape.wform 0) m1 ∧ wOperands o n n2 wr m1 = .ok (p1, p2) m2 ∧ Plain m4 o.th p1 ∧
       Served m4 o.th (Shape.wform 0) a
     let two := fun (n2 : Nat) (wr : Bool) => opens n2 wr ∧ loadAll o.th false p1 m2 = .ok A m3 ∧ loadAll o.th false p2 m3 = .ok B m4
     let one := fun (n2 : Nat) => opens n2 true ∧ loadAll o.th false p2 m2 = .ok B m4
     let leaves := fun (i : Instr) (b : Arch) (st : List StoreE) => LeavesStores i s o.th m4 (after a b 8) (m4.th o.th).com st
     (one n → leaves (.bcpy o) a (mkStores p1 n B false)) ∧
     (two n false → leaves (.bcmp o) (a.setCc (if A = B then 0 else if A < B then 1 else 2)) []) ∧
     (two 256 true → leaves (.bmap o) a (mkStores p1 n (ofBytes ((toBytes n A).map fun b => byteAt 256 B b)) false)) ∧
     (two n true → leaves (.bxor o) (a.setCc (if A ^^^ B = 0 then 0 else 1)) (mkStores p1 n (A ^^^ B) false)) ∧
     (one 1 → leaves (.bfil o) a (mkStores p1 n (ofBytes (List.replicate n B)) false))) ∧
    (let a := (s.m.th q.th).cur
     let l1 := bits (a.gr q.b).toNat 63 32
     let l2 := bits (a.gr q.b).toNat 31 0
     let sh : Shape := Shape.string 0
     let regsOk := q.t ≠ 0 ∧ q.a ≠ 0 ∧ q.b ≠ 0 ∧ q.t ≠ q.a ∧ q.t ≠ q.b ∧ q.a ≠ q.b
     let opens := fun (acc : Acc) (u n2 : Nat) => regsOk ∧ Ready s.m q.th sh m1 ∧ strAccess q.th (a.gr q.t) u acc m1 = .ok p1 m2 ∧
       strAccess q.th (a.gr q.a) n2 .load m2 = .ok p2 m3
     let leaves := fun (i : Instr) (b : Arch) (st : List StoreE) => LeavesStores i s q.th m4 (after a b 4) (m4.th q.th).com st
     (opens .rmw (min l1 l2) (min l1 l2) → min l1 l2 ≤ 256 → ¬ ((a.gr q.a).toNat < (a.gr q.t).toNat ∧ (a.gr q.t).toNat < (a.gr q.a).toNat + min l1 l2) →
       loadAll q.th false p2 m3 = .ok B m4 → Plain m4 q.th p1 → Served m4 q.th sh a →
       leaves (.lcpy q) ((strAdvance q true (min l1 l2) a).setCc (if l1 = l2 then 0 else if l1 < l2 then 1 else 2)) (mkStores p1 (min l1 l2) B false)) ∧
     (opens .load (min l1 l2) (min l1 l2) → min l1 l2 ≤ 256 → (∃ mx, loadAll q.th false p1 m3 = .ok A mx ∧ loadAll q.th false p2 mx = .ok B m4) →
       Served m4 q.th sh a →
       (firstDiff (toBytes (min l1 l2) A) (toBytes (min l1 l2) B) = none →
         leaves (.lcmp q) ((strAdvance q true (min l1 l2) a).setCc (if l1 = l2 then 0 else if l1 < l2 then 1 else 2)) []) ∧
       (∀ j, firstDiff (toBytes (min l1 l2) A) (toBytes (min l1 l2) B) = some j →
         leaves (.lcmp q) ((strAdvance q true j a).setCc
           (if (toBytes (min l1 l2) A).getD j 0 < (toBytes (min l1 l2) B).getD j 0 then 1 else 2)) [])) ∧
     (l2 = 0 → 0 < l1 → l1 ≤ 256 → opens .rmw l1 256 → (∃ mx, loadAll q.th false p1 m3 = .ok A mx ∧ loadAll q.th false p2 mx = .ok B m4) →
       Plain m4 q.th p1 → Served m4 q.th sh a →
       leaves (.lmap q) (strAdvance q false l1 a) (mkStores p1 l1 (ofBytes ((toBytes l1 A).map fun b => byteAt 256 B b)) false)))

/-- Writes of plain registers, reserved offsets and inbound accesses of the module control space (01_module_map.md, R26, R30, R31, R32, R41, R43). -/
def Obligations.ControlSpaceAccess : Prop :=
  ∀ (m : Mach), 
    (∀ (off part val : Nat) (b : Blk) (d : RDesc) (ix : List Nat), Does m (.mcsRegisterWrite off part val) (m.frozen = false ∧ off % 8 = 0 ∧ ((b = .id ∧ off < 0x10000) ∨ (b = .weir ∧ 0x310000 ≤ off ∧ off < 0x400000)) ∧ regAt b off = some (d, ix) ∧ (m.sealed && d.hitsRsl (partMask part)) = false) fun m' =>
      m' = m.setWord ⟨b, off, 63, 0⟩ (d.apply m.sealed (m.word ⟨b, off, 63, 0⟩) val (partMask part &&& (2 ^ 64 - 1 ^^^ d.bitsOf (· == Cls.w1s))))) ∧
    (∀ off, Does m (.mcsReservedAccess off true) (m.frozen = false ∧ ¬ (0x100000 ≤ off / 8 * 8 ∧ off / 8 * 8 < 0x1f0000) ∧ ((blkOf (off / 8 * 8)).bind fun b => regAt b (off / 8 * 8)) = none) fun m' =>
      m' = m.raise 3632 (off / 8 * 8)) ∧
    (∀ off, Does m (.mcsReservedAccess off false) (True) fun m' =>
      m' = m) ∧
    (∀ (who port rid tag off : Nat) (wr : Bool), Does m (.inboundMcsAccess who port rid tag off wr) (m.frozen = false ∧ who ≠ 0 ∧ ¬ (wr = true ∧ 0x100000 ≤ off ∧ off < 0x200000)) fun m' =>
      m' = m.raise 3632 off) ∧
    (∀ (port rid tag off : Nat) (wr : Bool), Does m (.inboundMcsAccess 0 port rid tag off wr) (m.frozen = false ∧ m.isRoot port = true ∧ m.pcieUp port = true ∧ m.blkDown (80 + port) = false ∧ ¬ (wr = true ∧ 0x100000 ≤ off ∧ off < 0x200000)) fun m' =>
      m' = (if wr then m.pcieError port 0xC5 (0x000fe00000000000 + off) rid else (m.pcieError port 0xC5 (0x000fe00000000000 + off) rid).sendCpl port tag 1 false []))

/-- Mode requests, cancels, the drain steps, the boundary, an abandoned drain and the repair button (02_modes_and_epochs.md, R55, R56, R60, R63, R64, R66, R67, R68, R69, R646). -/
def Obligations.ModeChanges : Prop :=
  ∀ (m : Mach), 
    (∀ val, Does m (.modeRequest val) (m.frozen = false ∧ bit val 8 = true ∧ bit val 9 = false ∧ ((m.set R.mode_req_cause (bits val 6 4)).set R.mode_req_target (bits val 2 0)).reqCheck (bits val 2 0) (bits val 6 4) ≠ 0) fun m' =>
      m' = ((m.set R.mode_req_cause (bits val 6 4)).set R.mode_req_target (bits val 2 0)).sets [(R.mode_stat_result, ((m.set R.mode_req_cause (bits val 6 4)).set R.mode_req_target (bits val 2 0)).reqCheck (bits val 2 0) (bits val 6 4)), (R.mode_stat_done, 1)]) ∧
    (∀ val, Does m (.modeRequest val) (m.frozen = false ∧ bit val 8 = true ∧ bit val 9 = false ∧ ((m.set R.mode_req_cause (bits val 6 4)).set R.mode_req_target (bits val 2 0)).reqCheck (bits val 2 0) (bits val 6 4) = 0 ∧ ((m.set R.mode_req_cause (bits val 6 4)).set R.mode_req_target (bits val 2 0)).isDomain (bits val 2 0) (bits val 6 4) = false) fun m' =>
      m' = ((m.set R.mode_req_cause (bits val 6 4)).set R.mode_req_target (bits val 2 0)).beginDrain (bits val 2 0) (bits val 6 4) false) ∧
    (∀ val, Does m (.modeCancel val) (m.frozen = false ∧ bit val 8 = false ∧ m.sl.quiesce = none ∧ m.mode.stage = 1) fun m' =>
      m' = ((m.set R.mode_req_cause (bits val 6 4)).set R.mode_req_target (bits val 2 0)).endDrain.modeDone 7) ∧
    (∀ val, Does m (.modeCancel val) (m.frozen = false ∧ bit val 8 = false ∧ m.sl.quiesce = none ∧ m.mode.stage ≠ 1) fun m' =>
      m' = ((m.set R.mode_req_cause (bits val 6 4)).set R.mode_req_target (bits val 2 0))) ∧
    (Does m (.epochDrainStep2) (m.frozen = false ∧ m.mode.stage = 1 ∧ m.step1Over = true) fun m' =>
      m' = ({ m with mode := { m.mode with stage := 2 } } : Mach).set R.mode_cur_step 2) ∧
    (Does m (.epochDrainStep3) (m.frozen = false ∧ m.mode.stage = 2 ∧ m.step2Over = true) fun m' =>
      m' = ({ m with mode := { m.mode with stage := 3 } } : Mach).set R.mode_cur_step 3) ∧
    (Does m (.epochDrainStep4) (m.frozen = false ∧ m.mode.stage = 3 ∧ m.step3Over = true) fun m' =>
      m' = (({ m with mode := { m.mode with stage := 4 } } : Mach).set R.mode_cur_step 4).fireAll) ∧
    (Does m (.epochDrainStep5) (m.frozen = false ∧ m.mode.stage = 4) fun m' =>
      m' = ({ m with mode := { m.mode with stage := 5 } } : Mach).set R.mode_cur_step 5) ∧
    (∀ u, Does m (.epochBoundary u) (m.frozen = false ∧ m.mode.dom = false ∧ m.drainOver = true ∧ m.mode.cause = 1) fun m' =>
      m' = (m.boundary m.mode.target (m.nextBase m.mode.target) 1 u).modeDone 1) ∧
    (∀ u, Does m (.epochBoundary u) (m.frozen = false ∧ m.mode.dom = false ∧ m.drainOver = true ∧ m.mode.cause ≠ 1) fun m' =>
      m' = (m.boundary m.mode_ (m.get R.mode_cur_base) m.mode.cause u).modeDone 1) ∧
    (Does m (.drainTimeout) (m.frozen = false ∧ m.mode.stage ≠ 0 ∧ m.sl.quiesce = none) fun m' =>
      m' = (((m.endDrain.sets [(R.mode_stat_step, m.mode.stage)]).modeDone 6).raiseHub 2 m.mode.stage).countDeferred.chanResume) ∧
    (Does m (.concurrentRepairButton true) (m.frozen = false ∧ ((m.set R.mode_ind_crb 1).modeRequest (if m.mode_ = 6 then m.get R.mode_cur_base else 6) 1).2 = 0) fun m' =>
      m' = ((m.set R.mode_ind_crb 1).modeRequest (if m.mode_ = 6 then m.get R.mode_cur_base else 6) 1).1) ∧
    (Does m (.concurrentRepairButton true) (m.frozen = true) fun m' =>
      m' = ({ m.set R.mode_ind_crb 1 with mode := { m.mode with press := true } } : Mach).indShow) ∧
    (Does m (.concurrentRepairButton false) (True) fun m' =>
      m' = m.set R.mode_ind_crb 0) ∧
    (Does m (.faultIndicatorTimeout) (True) fun m' =>
      m' = ({ m with mode := { m.mode with press := false } } : Mach).indShow)

/-- The slots of the Sluice ring: quiesce tokens, time of day, liveness, CHK, loss, lock and origination (09_aqueduct_coherence.md, R294, R295, R296, R297, R298, R300, R630, R631). -/
def Obligations.SluiceRing : Prop :=
  ∀ (m : Mach), 
    (∀ ring num orig vote pay, Does m (.qreq ring num orig vote pay) (m.frozen = false ∧ m.sluiceUsed = true ∧ orig ≠ m.modNo ∧ m.sl.quiesce = none) fun m' =>
      m' = ({ m with sl := { m.sl with quiesce := some ⟨orig, 1, pay % 8, pay / 16 % 8, none⟩ } } : Mach).passOn ring num 2 orig (vote ||| (if m.reqCheck (pay % 8) (pay / 16 % 8) = 0 then 2 ^ m.modNo else 0)) pay) ∧
    (∀ (ring num orig vote pay : Nat) (q : Quiesce), Does m (.qdrain ring num orig vote pay) (m.frozen = false ∧ m.sluiceUsed = true ∧ orig ≠ m.modNo ∧ m.sl.quiesce = some q ∧ q.orig = orig ∧ q.phase = 1 ∧ m.mode.stage = 0) fun m' =>
      m' = (({ m with sl := { m.sl with quiesce := some { q with phase := 2 } } } : Mach).beginDrain q.target q.cause true).passOn ring num 3 orig vote pay) ∧
    (∀ ring num orig vote pay, Does m (.qpoll ring num orig vote pay) (m.frozen = false ∧ m.sluiceUsed = true ∧ orig ≠ m.modNo) fun m' =>
      m' = m.passOn ring num 4 orig (vote ||| (if m.mode.dom && m.drainOver then 2 ^ m.modNo else 0)) pay) ∧
    (∀ (ring num orig vote pay : Nat) (q : Quiesce), Does m (.qcommit ring num orig vote pay) (m.frozen = false ∧ m.sluiceUsed = true ∧ orig ≠ m.modNo ∧ m.sl.quiesce = some q ∧ q.orig = orig) fun m' =>
      m' = ({ m with sl := { m.sl with quiesce := some { q with phase := 4, slot := some (pay % 256) } } } : Mach).passOn ring num 5 orig vote pay) ∧
    (∀ (ring num orig vote pay : Nat) (q : Quiesce), Does m (.qabort ring num orig vote pay) (m.frozen = false ∧ m.sluiceUsed = true ∧ orig ≠ m.modNo ∧ m.sl.quiesce = some q ∧ q.orig = orig ∧ m.mode.dom = true) fun m' =>
      m' = ({ m.abandon with sl := { m.abandon.sl with quiesce := none } } : Mach).passOn ring num 6 orig vote pay) ∧
    (∀ (u : Nat) (q : Quiesce), Does m (.quiesceBoundarySlot u) (m.frozen = false ∧ m.sl.quiesce = some q ∧ q.slot.isSome = true ∧ m.mode.stage = 5) fun m' =>
      m' = m.takeBoundary u) ∧
    (Does m (.sluiceSlotOriginate) (m.frozen = false ∧ m.sluiceUsed = true ∧ m.modNo = 0 ∧ 3 ≤ m.boot.phase ∧ m.tod / 8 % 32 = 0) fun m' =>
      m' = (m.slotOut 0 (m.tod / 8) 1 0 0 (m.tod % 2 ^ 48)).slotOut 1 (m.tod / 8) 1 0 0 (m.tod % 2 ^ 48)) ∧
    (∀ ring w, Does m (.sluiceSlotForward ring w) (m.frozen = false ∧ m.sluiceUsed = true ∧ bits w 79 76 ≠ 10) fun m' =>
      m' = m) ∧
    (∀ ring w, Does m (.sluiceSlotForward ring w) (m.frozen = false ∧ m.sluiceUsed = true ∧ bits w 79 76 = 10 ∧ crc8 68 (bits w 75 8) = w % 256 ∧ bits w 67 64 = 1) fun m' =>
      m' = m.todSlot ring (bits w 75 68) (bits w 55 8)) ∧
    (∀ ring num pay, Does m (.tod ring num pay) (m.frozen = false ∧ m.sluiceUsed = true ∧ m.modNo ≠ 0 ∧ (if ring = 0 then m.sl.lockA else m.sl.lockB) = true ∧ m.tod = pay + (if ring = 0 then m.sl.delayA else m.sl.delayB)) fun m' =>
      m' = (m.set R.aq_sl_stat_tod_step 0).passOn ring num 1 0 0 pay) ∧
    (∀ (ring num vote : Nat) (peers : List Nat), Does m (.live ring num vote peers) (m.frozen = false ∧ m.sluiceUsed = true ∧ m.modNo ≠ 0 ∧ m.allVotes (vote ||| m.voteBit (m.get R.mode_seal_state == 2)) = false) fun m' =>
      m' = m.passOn ring num 7 0 (vote ||| m.voteBit (m.get R.mode_seal_state == 2)) 0) ∧
    (∀ (ring num vote : Nat) (peers : List Nat), Does m (.live ring num vote peers) (m.frozen = false ∧ m.sluiceUsed = true ∧ m.modNo ≠ 0 ∧ m.allVotes (vote ||| m.voteBit (m.get R.mode_seal_state == 2)) = true) fun m' =>
      m' = (m.form peers).passOn ring num 7 0 (vote ||| m.voteBit (m.get R.mode_seal_state == 2)) 0) ∧
    (∀ md, Does m (.missedLiveSlots md) (m.frozen = false ∧ m.sluiceUsed = true ∧ m.get R.aq_dom_joined ≠ 0 ∧ max 2 (m.get R.aq_sl_ctl_miss_lim) ≤ tget m.sl.misses md 0) fun m' =>
      m' = m.aqError 0x52 32 0) ∧
    (∀ ring, Does m (.sluiceInputLost ring false) (m.frozen = false ∧ m.sluiceUsed = true ∧ m.sl.turn = none) fun m' =>
      m' = ({ m with sl := { m.sl with turn := some ring } } : Mach).set R.aq_dom_fold 1) ∧
    (∀ ring num orig pay, Does m (.chk ring num orig pay) (m.frozen = false ∧ m.sluiceUsed = true) fun m' =>
      m' = (m.slotOut ring num 0xF orig 0 pay).freeze (pay % 256) (pay / 256 % 4) (pay / 1024 % 4096)) ∧
    (∀ cause src, Does m (.domainCheckstop cause src) (True) fun m' =>
      m' = m.checkstop cause src) ∧
    (∀ ring delay, Does m (.sluiceReceiverLock ring delay) (m.frozen = false ∧ m.sluiceUsed = true ∧ 3 ≤ m.boot.phase) fun m' =>
      m' = (if ring = 0 then ({ m with sl := { m.sl with lockA := true, delayA := delay } } : Mach) else { m with sl := { m.sl with lockB := true, delayB := delay } }).sets [(if ring = 0 then R.aq_sl_stat_lost_a else R.aq_sl_stat_lost_b, 0), (R.aq_dom_sl_up, 1)])

/-- Commit, run-ahead, checker errors, retry, the hang timer and the steps of a core swap (05_checkpoint_window_and_retry.md, R152, R158, R163, R165, R166, R168, R170, R174, R176, R179). -/
def Obligations.RetryAndSparing : Prop :=
  ∀ (m : Mach), 
    (∀ (th : Nat) (k : Ckpt) (w : List Ckpt) (m1 : Mach), Does m (.checkpointCommit th) (m.frozen = false ∧ (m.core (th / 2)).swap = none ∧ (m.verdict (32 * (th / 2)) 8 0) = (m, 0) ∧ (m.th th).win = k :: w ∧ m.commitOldest th = some m1 ∧ (m1.th th).dbg = 0) fun m' =>
      m' = m1) ∧
    (∀ th, Does m (.runAheadEnter th) (m.executes th = true ∧ m.shareFull th = true ∧ m.waitsLine th = true) fun m' =>
      m' = m.onTh th fun t => { t with runAhead := true }) ∧
    (∀ th, Does m (.runAheadEnd th) (m.frozen = false ∧ m.waitsLine th = false) fun m' =>
      m' = m.onTh th fun t => { t with runAhead := false }) ∧
    (∀ (core th code : Nat) (cs : CsErr), Does m (.coreCheckError core th code cs) (m.frozen = false ∧ m.leadOf core = core ∧ (m.core core).swap = none ∧ th < 2 ∧ code ∈ [1, 2, 3, 4, 5, 6, 9] ∧ (m.th (2 * core + th)).present = true ∧ (m.th (2 * core + th)).ep = none) fun m' =>
      m' = ((m.badEntry core code cs).raiseCore core code (m.word (R.core_err core)) (some (2 * core + th))).retryStep (2 * core + th) code false (some core)) ∧
    (∀ (core th : Nat) (cs : CsErr), Does m (.coreCheckError core th 0x10 cs) (m.frozen = false ∧ (m.core (m.leadOf core)).swap = none) fun m' =>
      m' = ((m.count (R.core_rty_corr core)).coreErr core 0x10 (th % 2) 0 0 1 false).raiseCore core 10 (((m.count (R.core_rty_corr core)).coreErr core 0x10 (th % 2) 0 0 1 false).word (R.core_err core))) ∧
    (∀ (th : Nat), Does m (.hangTimerExpiry th) ((m.th th).win ≠ [] ∧ m.executes th = true ∧ m.waitsLine th = false) fun m' =>
      m' = m.checkError (th / 2) (th % 2) 0x09 ⟨0, 0, 0, 0⟩) ∧
    (∀ (core : Nat) (w : Swap), Does m (.capsuleRead core 0) (m.frozen = false ∧ (m.core core).swap = some w) fun m' =>
      m' = m.onCore core fun k => { k with swap := some { w with read := true } }) ∧
    (∀ (core delay excl : Nat) (w : Swap), Does m (.swapResumption core delay excl) (m.frozen = false ∧ (m.core core).swap = some w ∧ w.read = true ∧ w.cause = 2 ∧ w.repl ≠ core ∧ m.probesOut core = false) fun m' =>
      (m'.core core).swap = none ∧ m'.get (R.core_state_replaced_by core) = w.repl % 64 ∧ m'.get (R.core_state_role w.repl) = 0 ∧ m'.get (R.core_swap_result core) = 1 ∧ m'.get (R.core_swap_done core) = 1 ∧ m'.get (R.core_last_delay core) = delay % 2 ^ 24 ∧ m'.get (R.core_last_cause core) = 2) ∧
    (∀ (core : Nat), Does m (.l2FlushComplete core) (m.frozen = false ∧ (m.core core).flushing = true ∧ (m.core core).swap = none ∧ (m.core core).holds = [] ∧ (m.core core).probes = [] ∧ (m.core core).comb = []) fun m' =>
      (m'.core core).park = Park.gated ∧ (m'.core core).l2 = [] ∧ (m'.core core).flushing = false ∧ m'.get (R.weir_core_park core) = 2 ∧ m'.role core = (if m.get (R.core_last_cause core) == 2 && m.get (R.core_state_replaced_by core) != 0x3F then 1 else 2)) ∧
    (∀ (core : Nat), Does m (.spareWarmed core) (m.frozen = false ∧ m.healthySpare core = true ∧ ((List.range 48).all fun d => !((m.healthySpare d && decide (d < core)) || m.on (R.core_state_warm d))) = true) fun m' =>
      m' = (m.onCore core fun k => { k with park := .shallow, l1i := [], l1d := [], l2 := [] }).sets [(R.core_state_warm core, 1), (R.weir_core_park core, 1)]) ∧
    (∀ (core val : Nat), Does m (.plannedSwap core val) (m.frozen = false ∧ bit val 0 = false ∧ bit val 20 = false) fun m' =>
      m' = m.set (R.core_swap_target core) (bits val 13 8)) ∧
    (∀ (core val d : Nat), Does m (.plannedSwap core val) (m.frozen = false ∧ bit val 0 = true ∧ bit val 20 = false ∧ bits val 13 8 = 0x3F ∧ (m.core core).swap = none ∧ m.get (R.core_state_swap core) = 0 ∧ m.get (R.core_state_episode core) = 0 ∧ m.mode_ ≠ 0 ∧ m.mode_ ≠ 7 ∧ m.role core = 0 ∧ (m.set (R.core_swap_target core) 0x3F).replacement core = some d) fun m' =>
      m' = ((m.set (R.core_swap_target core) 0x3F).set (R.core_swap_go core) 1).beginSwap core d 2) ∧
    (∀ (core val : Nat), Does m (.plannedSwap core val) (m.frozen = false ∧ bit val 0 = true ∧ bit val 20 = false ∧ (m.core core).swap = none ∧ m.get (R.core_state_swap core) = 0 ∧ m.get (R.core_state_episode core) = 0 ∧ (m.mode_ = 0 ∨ m.mode_ = 7)) fun m' =>
      m' = (m.set (R.core_swap_target core) (bits val 13 8)).sets [(R.core_swap_result core, 4), (R.core_swap_done core, 1)])

/-- A write of mode.patch and the application of a patch image (06_control_store.md, R199, R200, R201). -/
def Obligations.ControlStorePatches : Prop :=
  ∀ (m : Mach), 
    (∀ (val : Nat), Does m (.patchGo val) (m.frozen = false ∧ m.sealed = false ∧ m.patchIn = none ∧ bit val 0 = false) fun m' =>
      m' = m.set R.mode_patch_addr (bits val 51 3)) ∧
    (∀ (val : Nat), Does m (.patchGo val) (m.frozen = false ∧ m.sealed = false ∧ m.patchIn = none ∧ bit val 0 = true) fun m' =>
      m' = Sum.elim (fun r => (m.set R.mode_patch_addr (bits val 51 3)).sets [(R.mode_patchst_result, r), (R.mode_patchst_done, 1)])
        (fun p => ({ m.set R.mode_patch_addr (bits val 51 3) with patchIn := some p } : Mach).set R.mode_patch_go 1)
        ((m.set R.mode_patch_addr (bits val 51 3)).checkPatch ((m.set R.mode_patch_addr (bits val 51 3)).get R.mode_patch_addr * 8))) ∧
    (∀ (val : Nat), Does m (.patchGo val) (m.frozen = false ∧ m.patchIn ≠ none ∧ bit val 0 = true) fun m' =>
      m' = m.sets [(R.mode_patchst_result, 2), (R.mode_patchst_done, 1)]) ∧
    (∀ (val : Nat), Does m (.patchGo val) (m.frozen = false ∧ m.patchIn = none ∧ m.sealed = true ∧ bit val 0 = true) fun m' =>
      m' = m.sets [(R.mode_patchst_result, 3), (R.mode_patchst_done, 1)]) ∧
    (∀ (p : PatchIn), Does m (.patchApplied) (m.frozen = false ∧ m.patchIn = some p) fun m' =>
      m' = ({ m with patch := some p.patch, patchIn := none } : Mach).sets [(R.mode_patch_go, 0), (R.mode_patchst_level, p.level), (R.mode_patchst_applied, 1), (R.mode_patchst_done, 1), (R.mode_patchst_result, 1)])

/-- As `Leaves`, for an instruction after which the thread's unacknowledged removals are those of `m2`. -/
def LeavesRemoving (i : Instr) (s : State) (th : Nat) (m2 : Mach) (b : Arch) : Prop :=
  ∃ t, exec i s = .next t ∧ t.pending = s.pending ∧ (t.m.th th).cur = b ∧ (t.m.th th).com = b ∧ (t.m.th th).removals = (m2.th th).removals ∧
    (∀ u, u ≠ th → t.m.th u = m2.th u) ∧ { t.m with thr := m2.thr } = m2

/-- ldtt, sttt, the TLB removals of both scopes, and tlbsync with its wait and its completion (07_translation.md, R205, R207, R222, R223, R224, R225). -/
def Obligations.TranslationRegistersAndTlb : Prop :=
  ∀ (s : State) (o : FS) (m1 : Mach), o.wf = true → Ready s.m o.th (Shape.micro_ 0) m1 →
    let a := (s.m.th o.th).cur
    let leaves := fun (i : Instr) (b : Arch) => Leaves i s o.th m1 (after a b 4) (after a b 4)
    let other := 2 * (o.th / 2) + 1 - o.th % 2
    let removes := fun (i : Instr) (r : Removal) =>
      (o.sr = 0 → LeavesRemoving i s o.th (m1.applyRemoval (o.th / 2) r [other]) (after a a 4)) ∧
      (o.sr = 1 → (m1.th o.th).removals.length < 8 → LeavesRemoving i s o.th ((m1.applyRemoval (o.th / 2) r [other]).sendRemoval o.th r) (after a a 4))
    let va := (a.gr o.a).toNat
    let part := if a.ttr2.toNat % 4 = 0 then 64 else a.ttr2.toNat / 2 ^ 52 % 64
    (o.t = 0 → m1.acceptsLv (va % 4) = true →
      (o.sr = 0 → 1 ≤ a.pl → leaves (.ldtt o) { a with ttr1 := a.gr o.a &&& 0xFFFFFFFFFFFFF003#64 }) ∧
      (o.sr = 1 → 2 ≤ a.pl → leaves (.ldtt o) { a with ttr2 := a.gr o.a &&& 0x03FFFFFFFFFFF003#64 }) ∧
      (o.sr = 2 → 2 ≤ a.pl → leaves (.ldtt o) { a with ttrh := a.gr o.a &&& 0x000FFFFFFFFFF003#64 })) ∧
    (o.a = 0 →
      (o.sr = 0 → 1 ≤ a.pl → leaves (.sttt o) (a.setG o.t a.ttr1)) ∧
      (o.sr = 1 → 2 ≤ a.pl → leaves (.sttt o) (a.setG o.t a.ttr2)) ∧
      (o.sr = 2 → 2 ≤ a.pl → leaves (.sttt o) (a.setG o.t a.ttrh))) ∧
    (1 ≤ a.pl → removes (.tlbiva o) ⟨0, 0x12, va, bits (a.gr o.t).toNat 11 0, part, []⟩) ∧
    (1 ≤ a.pl → o.t = 0 → removes (.tlbiasid o) ⟨0, 0x13, 0, bits va 11 0, part, []⟩) ∧
    (1 ≤ a.pl → o.t = 0 → o.a = 0 → removes (.tlbip1 o) ⟨0, 0x14, 0, 0, part, []⟩) ∧
    (2 ≤ a.pl → removes (.tlbigpa o) ⟨0, 0x15, va, 0, bits (a.gr o.t).toNat 5 0, []⟩) ∧
    (2 ≤ a.pl → o.t = 0 → removes (.tlbipart o) ⟨0, 0x16, 0, 0, bits va 5 0, []⟩) ∧
    (2 ≤ a.pl → o.t = 0 → removes (.tlbihva o) ⟨0, 0x17, va, 0, 0, []⟩) ∧
    (2 ≤ a.pl → o.t = 0 → o.a = 0 → removes (.tlbihall o) ⟨0, 0x18, 0, 0, 0, []⟩) ∧
    (1 ≤ a.pl → o.t = 0 → o.a = 0 → o.sr = 0 → (m1.th o.th).removals = [] → leaves (.tlbsync o) a) ∧
    (1 ≤ a.pl → o.t = 0 → o.a = 0 → o.sr = 0 → (m1.th o.th).removals ≠ [] → ∃ t, exec (.tlbsync o) s = .next t ∧ t.pending = s.pending ∧
      (t.m.th o.th).wait = .tlbsync ∧ (t.m.th o.th).cur = a ∧ (∀ u, u ≠ o.th → t.m.th u = m1.th u) ∧ { t.m with thr := m1.thr } = m1) ∧
    (∀ s0 : State, s = { s0 with m := s0.m.onTh o.th fun t => { t with wait := .none } } → s0.m.frozen = false → (s0.m.th o.th).wait = .tlbsync →
      (s0.m.th o.th).removals = [] → 1 ≤ a.pl → (m1.th o.th).removals = [] → Leaves (.tlbsyncComplete o.th) s0 o.th m1 (after a a 4) (after a a 4))

/-- Pending external interruptions and machine checks as a thread takes them, and the end of a wait (03_worzen_execution.md, R102, R104, R105, R112, R116, R156). -/
def Obligations.InterruptionsTaken : Prop :=
  ∀ (s : State) (th : Nat), th < 96 →
    let t := s.m.th th
    (s.m.interruptible th = true → Clear s.m th → t.dbg = 0 →
      (∀ code phys, s.m.pendingExt th = some (code, phys) →
        Enters (.externalInterruption th) s th (s.m.clearExt th code phys) t.cur (max (if phys then 2 else 1) t.cur.pl) code 0 t.cur.ia) ∧
      (∀ src prec, t.pendMck = some (src, prec) → src < 2 ^ 64 → t.cur.psw.toNat / 128 % 2 = 0 →
        Enters (.machineCheck th) s th s.m t.cur 3 0x0001 (BitVec.ofNat 64 src) t.cur.ia) ∧
      (∀ src prec, t.pendMck = some (src, prec) → t.cur.psw.toNat / 128 % 2 = 1 → ∃ u, exec (.machineCheck th) s = .next u ∧ u.pending = s.pending ∧
        (u.m.th th).run = .stopped ∧ (u.m.th th).pendMck = none ∧ { u.m with thr := s.m.thr } = s.m.raiseCore (th / 2) 27 0 (some th))) ∧
    (∀ m1, let m0 := (s.m.onTh th fun t => { t with wait := .none }).vpState th 3
      s.m.frozen = false → t.wait = .waitInsn → t.dbg = 0 → s.m.deliverable th = true → 1 ≤ t.cur.pl → t.cur.psw.toNat / 32 % 2 = 1 →
      Ready m0 th (Shape.alone_ 0) m1 → m1.deliverable th = true → Leaves (.waitWake th) s th m1 (after t.cur t.cur 4) (m1.th th).com)

/-- A removal at its receivers, its acknowledgement and its time-out, and the update of accessed and dirty bits (07_translation.md, R216, R217, R224, R225, R226). -/
def Obligations.ShootdownAndUpdates : Prop :=
  ∀ (m : Mach), 
    (∀ (core id : Nat) (r : Removal) (rest : List Removal), Does m (.shootdownReceive core id) (m.frozen = false ∧ (m.core core).shoot = r :: rest ∧ r.id = id) fun m' =>
      (m'.core core).shoot = rest ∧ (m'.core core).tlb = (m.core core).tlb.filter (fun e => !r.hits e) ∧ (m'.core core).walk1 = (m.core core).walk1.filter (fun (e : WalkE) => e.tag != r.tag) ∧ (m'.core core).walk2 = (m.core core).walk2.filter (fun (e : WalkE) => e.tag != r.tag) ∧ (m'.th (2 * core)).cur = (m.th (2 * core)).com ∧ (m'.th (2 * core)).win = [] ∧ (m'.th (2 * core + 1)).cur = (m.th (2 * core + 1)).com ∧ (m'.th (2 * core + 1)).win = [] ∧ (tget m'.shoot.done core []) = tget m.shoot.done core [] ++ [(⟨id, core, (m.th (2 * core)).sbuf.length, (m.th (2 * core + 1)).sbuf.length, (m.core core).comb.map CombLine.line⟩ : ShootDone)]) ∧
    (∀ (core id : Nat) (d : ShootDone) (rest : List ShootDone), Does m (.shootdownAck core id) (m.frozen = false ∧ (m.core core).swap = none ∧ tget m.shoot.done core [] = d :: rest ∧ d.id = id ∧ d.who = core ∧ d.n0 = 0 ∧ d.n1 = 0 ∧ ((m.core core).comb.any fun x => d.comb.contains x.line) = false) fun m' =>
      m' = ({ m with shoot := { m.shoot with done := tset m.shoot.done core rest } } : Mach).ackRemoval id core) ∧
    (∀ (th core : Nat), Does m (.tlbShootdownTimeout th core) (m.frozen = false ∧ ((m.th th).removals.any fun r => r.waits.contains core) = true) fun m' =>
      m' = m.raise (32 * core + 29) 0 (some th)) ∧
    (∀ (th pa old new key : Nat) (w : L2Way), Does m (.adBitUpdate th) (m.executes th = true ∧ m.isDemand th = true ∧ (m.th th).adWait = some (pa, old, new) ∧ m.patchIn = none ∧ (m.core (th / 2)).comb = [] ∧ (m.core (th / 2)).wpend = [] ∧ (m.homeOf (256 * (pa / 256))).isSome = true ∧ (m.core (th / 2)).find (pa / 256) = some (key, w) ∧ w.st ≠ .s ∧ w.psn = false ∧ lineGet w.data (pa % 256) 8 = old) fun m' =>
      (m'.th th).adWait = none ∧ tfind (m'.core (th / 2)).l2 key = some { w with st := .m, data := linePut w.data (pa % 256) 8 (old ||| (new ^^^ old)), age := 0, pf := false } ∧ m'.mem = m.mem)

/-- The home slice of the message's line, in this module, is free for the request: no checkstop, the line's home is this module, no directory
sweep, no transaction, no waiting request or early data, and the line is in no aperture. -/
abbrev Quiet (m : Mach) (x : Msg) : Prop :=
  m.frozen = false ∧ m.toHome x = true ∧ m.homeOf (256 * x.line) = some m.modNo ∧ m.home.sweeping = false ∧ tfind m.home.txn x.line = none ∧
    m.home.waitq = [] ∧ m.home.early = [] ∧ m.apLine x.line = false

/-- No injection has armed a checker that the home's look-up of the message's line consults. -/
abbrev Unarmed (m : Mach) (x : Msg) : Prop :=
  m.verdict (1536 + 16 * homeSlice (256 * x.line)) 5 0 = (m, 0) ∧ m.verdict 1599 4 0 = (m, 0)

/-- What the home does with a request of each kind to a line that is not busy (Table 9.5) (09_aqueduct_coherence.md, R270, R271, R275, R276, R280). -/
def Obligations.HomeRequests : Prop :=
  ∀ (m : Mach), 
    (∀ (x : Msg), Does m (.rds x 0 0) (Quiet m x ∧ Unarmed m x ∧ (m.dirE x.line).st ≠ .x) fun m' =>
      m' = (((m.homeSupply x.line (m.supplyAge x)).1.homeSend 0x31 x.src { noMsg with line := x.line, tag := x.tag, st := 1, psn := (m.homeSupply x.line (m.supplyAge x)).2.2, data := (m.homeSupply x.line (m.supplyAge x)).2.1 }).setDir x.line { ((m.dirE x.line).add x.src) with st := .s }).setTxn x.line (newTxn 0x01 x [])) ∧
    (∀ (x : Msg) (o : Nat), Does m (.rds x 0 0) (Quiet m x ∧ Unarmed m x ∧ (m.dirE x.line).st = .x ∧ (m.dirE x.line).agents.head? = some o ∧ o ≠ x.src) fun m' =>
      m' = ((m.homeSend 0x11 o { noMsg with line := x.line, tag := x.tag, req := x.src }).setDir x.line { ((m.dirE x.line).add x.src) with st := .s }).setTxn x.line (newTxn 0x01 x [o])) ∧
    (∀ (x : Msg), Does m (.rdx x 0 0) (Quiet m x ∧ Unarmed m x ∧ (m.dirE x.line).st ≠ .x) fun m' =>
      m' = ((((m.probeAll 0x13 x ((m.dirE x.line).agents.filter (· != x.src))).homeSupply x.line 1).1.homeSend 0x31 x.src { noMsg with line := x.line, tag := x.tag, acks := ((m.dirE x.line).agents.filter (· != x.src)).length, st := 2, psn := ((m.probeAll 0x13 x ((m.dirE x.line).agents.filter (· != x.src))).homeSupply x.line 1).2.2, data := ((m.probeAll 0x13 x ((m.dirE x.line).agents.filter (· != x.src))).homeSupply x.line 1).2.1 }).setDir x.line { m.dirE x.line with st := .x, vec := 2 ^ x.src }).setTxn x.line (newTxn 0x02 x [])) ∧
    (∀ (x : Msg) (o : Nat), Does m (.rdx x 0 0) (Quiet m x ∧ Unarmed m x ∧ (m.dirE x.line).st = .x ∧ (m.dirE x.line).agents.head? = some o ∧ o ≠ x.src) fun m' =>
      m' = ((m.homeSend 0x12 o { noMsg with line := x.line, tag := x.tag, req := x.src }).setDir x.line { m.dirE x.line with st := .x, vec := 2 ^ x.src }).setTxn x.line (newTxn 0x02 x [o])) ∧
    (∀ (x : Msg), Does m (.upg x) (Quiet m x ∧ (m.dirE x.line).st = .s ∧ (m.dirE x.line).has x.src = true) fun m' =>
      m' = (((m.probeAll 0x13 x ((m.dirE x.line).agents.filter (· != x.src))).homeSend 0x22 x.src { noMsg with line := x.line, tag := x.tag, acks := ((m.dirE x.line).agents.filter (· != x.src)).length, st := 2 }).setDir x.line { m.dirE x.line with st := .x, vec := 2 ^ x.src }).setTxn x.line (newTxn 0x03 x [])) ∧
    (∀ (x : Msg), Does m (.own x) (Quiet m x) fun m' =>
      m' = (((m.probeAll 0x13 x ((m.dirE x.line).agents.filter (· != x.src))).homeSend 0x22 x.src { noMsg with line := x.line, tag := x.tag, acks := ((m.dirE x.line).agents.filter (· != x.src)).length, st := 3 }).setDir x.line { m.dirE x.line with st := .x, vec := 2 ^ x.src, psn := false }).setTxn x.line (newTxn 0x04 x [])) ∧
    (∀ (x : Msg), Does m (.wrf x) (Quiet m x) fun m' =>
      m' = (m.probeAll 0x14 x (m.dirE x.line).agents).setTxn x.line (newTxn 0x05 x (m.dirE x.line).agents)) ∧
    (∀ (x : Msg), Does m (.wrm x) (Quiet m x) fun m' =>
      m' = (m.probeAll 0x14 x (m.dirE x.line).agents).setTxn x.line (newTxn 0x06 x (m.dirE x.line).agents)) ∧
    (∀ (x : Msg), Does m (.evc x) (Quiet m x ∧ (m.dirE x.line).has x.src = false) fun m' =>
      m' = m.homeSend 0x25 x.src { noMsg with line := x.line, tag := x.tag }) ∧
    (∀ (x : Msg), Does m (.evc x) (Quiet m x ∧ (m.dirE x.line).has x.src = true ∧ (m.bsnFind x.line).isSome = true) fun m' =>
      m' = (m.homeSend 0x25 x.src { noMsg with line := x.line, tag := x.tag }).setDir x.line ((m.dirE x.line).del x.src).norm) ∧
    (∀ (x : Msg), Does m (.evd x) (Quiet m x) fun m' =>
      m' = m.setTxn x.line { newTxn 0x08 x [] with dath := 1 }) ∧
    (∀ (x : Msg) (t : HomeTxn), Does m (.mov x) (m.frozen = false ∧ m.toHome x = true ∧ tfind m.home.txn x.line = some t ∧ t.agent = x.req ∧ t.req.tag = x.tag ∧ m.home.waitq = []) fun m' =>
      m' = m.setTxn x.line { t with agent := x.aux % 256 })

/-- Answers and data at the home, at the requester, and the messages of a TLB shootdown (09_aqueduct_coherence.md, R276, R278, R279, R281, R285). -/
def Obligations.HomeAnswers : Prop :=
  ∀ (m : Mach), 
    (∀ (x : Msg) (t : HomeTxn), Does m (.done x) (m.frozen = false ∧ m.toHome x = true ∧ tfind m.home.txn x.line = some t ∧ t.agent = x.src ∧ 1 ≤ t.op ∧ t.op ≤ 4) fun m' =>
      m' = (m.setTxn x.line { t with done := true }).homeServe x.line (2 * m.home.waitq.length + 4)) ∧
    (∀ (x : Msg) (t : HomeTxn), Does m (.pra x) (m.frozen = false ∧ m.toHome x = true ∧ tfind m.home.txn x.line = some t ∧ t.awaits.contains x.src = true ∧ x.acks = 0) fun m' =>
      m' = (m.setTxn x.line { t with awaits := t.awaits.filter (· != x.src) }).homeServe x.line (2 * m.home.waitq.length + 4)) ∧
    (∀ (x : Msg), Does m (.pra x) (m.frozen = false ∧ m.toHome x = true ∧ tfind m.home.txn x.line = none) fun m' =>
      m' = m.aqError 0x35 (16 + homeSlice (256 * x.line)) x.line) ∧
    (∀ (x : Msg), Does m (.dath x) (m.frozen = false ∧ m.toHome x = true ∧ tfind m.home.txn x.line = none) fun m' =>
      m' = { m with home := { m.home with early := m.home.early ++ [(0x32, x)] } }) ∧
    (∀ (x : Msg) (t : HomeTxn), Does m (.dath x) (m.frozen = false ∧ m.toHome x = true ∧ tfind m.home.txn x.line = some t ∧ t.op ≠ 7 ∧ t.op ≠ 8) fun m' =>
      m' = (m.bsnFill x.line x.data x.psn true (if (m.bsnFind x.line).isSome then 0 else 1)).onTxn x.line fun t => { t with dgot := t.dgot + 1 }) ∧
    (∀ (x : Msg) (t : HomeTxn), Does m (.wdat x) (m.frozen = false ∧ m.toHome x = true ∧ tfind m.home.txn x.line = some t ∧ (t.op = 5 ∨ t.op = 6) ∧ t.req.src = x.src ∧ t.wdata = none) fun m' =>
      m' = (m.setTxn x.line { t with wdata := some (x.data, x.mask, x.psn) }).homeServe x.line (2 * m.home.waitq.length + 4)) ∧
    (∀ (x : Msg), Does m (.prs x) (m.frozen = false ∧ m.toCache x = true ∧ x.dst % 64 < 48 ∧ (m.core (x.dst % 64)).holds.contains x.line = false) fun m' =>
      m' = m.answerProbe (x.dst % 64) 0x11 x) ∧
    (∀ (x : Msg), Does m (.prx x) (m.frozen = false ∧ m.toCache x = true ∧ x.dst % 64 < 48 ∧ (m.core (x.dst % 64)).holds.contains x.line = false) fun m' =>
      m' = m.answerProbe (x.dst % 64) 0x12 x) ∧
    (∀ (x : Msg), Does m (.pri x) (m.frozen = false ∧ m.toCache x = true ∧ x.dst % 64 < 48 ∧ (m.core (x.dst % 64)).holds.contains x.line = false) fun m' =>
      m' = m.answerProbe (x.dst % 64) 0x13 x) ∧
    (∀ (x : Msg), Does m (.prw x) (m.frozen = false ∧ m.toCache x = true ∧ x.dst % 64 < 48 ∧ (m.core (x.dst % 64)).holds.contains x.line = true) fun m' =>
      m' = m.onCore (x.dst % 64) fun k => { k with probes := k.probes ++ [(0x14, x)] }) ∧
    (∀ (x : Msg), Does m (.prw x) (m.frozen = false ∧ m.toCache x = true ∧ x.dst % 64 < 48 ∧ (m.core (x.dst % 64)).holds.contains x.line = false ∧ (m.core (x.dst % 64)).probed x.line = none) fun m' =>
      m' = m.send 0x24 { noMsg with src := x.dst, line := x.line, tag := x.tag, dst := m.homeAgent x.line, acks := 2 }) ∧
    (∀ (agent line : Nat) (op : Nat) (x : Msg), Does m (.holdExpiry agent line) (m.frozen = false ∧ (m.core agent).holds.contains line = true ∧ (m.core agent).probes = [(op, x)] ∧ x.line = line) fun m' =>
      m' = (m.setCore agent { m.core agent with holds := (m.core agent).holds.filter (· != line), probes := [] }).answerProbe agent op x) ∧
    (∀ (x : Msg) (y : Miss), Does m (.ack x) (m.frozen = false ∧ m.toCore x = true ∧ ((m.core (x.dst % 64)).miss.find? fun y => y.line == x.line && y.tag == x.tag) = some y ∧ y.grant = none) fun m' =>
      m' = m.onCore (x.dst % 64) fun k => { k with miss := updWhere (fun z => z.tag == y.tag) (fun y => { y with got := y.got + 1 }) k.miss }) ∧
    (∀ (x : Msg) (y : Miss), Does m (.cmpGrant x) (m.frozen = false ∧ m.toCore x = true ∧ ((m.core (x.dst % 64)).miss.find? fun y => y.line == x.line && y.tag == x.tag) = some y ∧ y.got < x.acks) fun m' =>
      m' = m.onCore (x.dst % 64) fun k => { k with miss := updWhere (fun z => z.tag == y.tag) (fun y => { y with acks := some x.acks, grant := some (stOf x.st, none) }) k.miss }) ∧
    (∀ (x : Msg) (y : Miss) (m1 : Mach), Does m (.dataMsg x) (m.frozen = false ∧ m.toCore x = true ∧ (m.core (x.dst % 64)).miss = [y] ∧ y.line = x.line ∧ y.tag = x.tag ∧ y.excl = false ∧ y.why = .demand ∧ x.acks ≤ y.got ∧ (m.onCore (x.dst % 64) fun k => { k with miss := [{ y with acks := some x.acks, grant := some (stOf x.st, some (x.data, x.psn)) }] }).fill (x.dst % 64) x.line (stOf x.st) x.data x.psn 0 false = some m1) fun m' =>
      m' = (m1.onCore (x.dst % 64) fun k => { k with miss := k.miss.filter fun z => z.tag != y.tag }).send 0x23 { noMsg with src := m1.agentOf (x.dst % 64), dst := m1.homeAgent x.line, tag := x.tag, line := x.line }) ∧
    (∀ (x : Msg), Does m (.eva x) (m.frozen = false ∧ m.toCore x = true ∧ (m.core (x.dst % 64)).miss = []) fun m' =>
      m' = m.onCore (x.dst % 64) fun k => { k with evb := k.evb.filter fun e => !(e.line == x.line && e.sent) }) ∧
    (∀ (x : Msg) (e : EvEntry), Does m (.evp x) (m.frozen = false ∧ m.toCore x = true ∧ ((m.core (x.dst % 64)).evb.find? fun e => e.line == x.line && e.sent) = some e) fun m' =>
      m' = m.send 0x32 { noMsg with src := x.dst, dst := m.homeAgent x.line, line := x.line, tag := x.tag, psn := e.psn, data := e.data }) ∧
    (∀ (x : Msg) (y : Nat × Nat × Bool) (rest : List (Nat × Nat × Bool)), Does m (.wra x) (m.frozen = false ∧ m.toCore x = true ∧ takeFirst (fun y => y.1 == x.line) (m.core (x.dst % 64)).wpend = some (y, rest)) fun m' =>
      m' = (m.onCore (x.dst % 64) fun k => { k with wpend := rest }).combNext (x.dst % 64) x.line) ∧
    (∀ (x : Msg) (y : Miss), Does m (.err x) (m.frozen = false ∧ m.toCore x = true ∧ (m.core (x.dst % 64)).miss = [y] ∧ y.line = x.line ∧ y.tag = x.tag ∧ y.why ≠ MissFor.prefetch) fun m' =>
      m' = ((m.onCore (x.dst % 64) fun k => { k with miss := [] }).combNext (x.dst % 64) x.line).onTh y.th fun t => { t with pendMck := some (1606, y.why == MissFor.demand) }) ∧
    (∀ (x : Msg) (c : Nat), Does m (.tlbi x) (m.frozen = false ∧ m.toHub x = true ∧ c < 48) fun m' =>
      (m'.core c).shoot = (m.core c).shoot ++ [(⟨(1048576 + x.src / 64) * 4096 + x.tag, x.aux % 256, x.line * 256, x.aux / 256 % 4096, x.req, List.range 49⟩ : Removal)] ∧ m'.shoot.inbound = m.shoot.inbound ++ [(⟨(1048576 + x.src / 64) * 4096 + x.tag, x.aux % 256, x.line * 256, x.aux / 256 % 4096, x.req, List.range 49⟩ : Removal)] ∧ m'.shoot.mtu = m.shoot.mtu ++ [(⟨(1048576 + x.src / 64) * 4096 + x.tag, x.aux % 256, x.line * 256, x.aux / 256 % 4096, x.req, List.range 49⟩ : Removal)]) ∧
    (∀ (x : Msg) (r : Removal), Does m (.tlba x) (m.frozen = false ∧ m.toHub x = true ∧ ((List.range 96).findSome? fun t => (m.th t).removals.find? fun r => r.id % 4096 == x.tag && r.waits.contains (64 + x.src / 64)) = some r) fun m' =>
      m' = m.ackRemoval r.id (64 + x.src / 64)) ∧
    (∀ (line : Nat) (t : HomeTxn), Does m (.probeTimeout line) (m.frozen = false ∧ tfind m.home.txn line = some t ∧ t.awaits ≠ []) fun m' =>
      m' = m.aqError 0x34 (16 + homeSlice (256 * line)) line)

/-- The store buffer, the combining buffer, prefetch streams and evictions of a core (08_caches_and_ordering.md, R233, R237, R241, R242, R248, R250, R267). -/
def Obligations.StoresAndPrefetches : Prop :=
  ∀ (m : Mach), 
    (∀ (th : Nat) (e : StoreE) (key : Nat) (w : L2Way), Does m (.storePerform th) (m.frozen = false ∧ (m.core (th / 2)).swap = none ∧ (m.core (th / 2)).wpend = [] ∧ (m.core (th / 2)).comb = [] ∧ (m.th th).sbuf = [e] ∧ (m.homeOf (256 * (e.pa / 256))).isSome = true ∧ runMask [e] ≠ 2 ^ 256 - 1 ∧ (m.core (th / 2)).find (e.pa / 256) = some (key, w) ∧ w.st ≠ .s) fun m' =>
      tfind (m'.core (th / 2)).l2 key = some { w with st := .m, data := linePut w.data (e.pa % 256) e.len e.val, age := 0, pf := false } ∧ (m'.th th).sbuf = [] ∧ m'.mem = m.mem ∧ m'.regs = m.regs) ∧
    (∀ (th : Nat) (e : StoreE), Does m (.storePerform th) (m.frozen = false ∧ (m.core (th / 2)).swap = none ∧ (m.core (th / 2)).wpend = [] ∧ (m.core (th / 2)).comb = [] ∧ runMask [e] ≠ 2 ^ 256 - 1 ∧ (m.th th).sbuf = [e] ∧ (m.homeOf (256 * (e.pa / 256))).isSome = true ∧ (m.core (th / 2)).stOf (e.pa / 256) = none) fun m' =>
      m' = m.request (th / 2) (e.pa / 256) 0x02 .store th) ∧
    (∀ (th : Nat) (e : StoreE), Does m (.storePerform th) (m.frozen = false ∧ (m.core (th / 2)).swap = none ∧ (m.core (th / 2)).wpend = [] ∧ (m.core (th / 2)).comb = [] ∧ m.on (R.core_l2cfg_st_en (th / 2)) = false ∧ runMask [e] = 2 ^ 256 - 1 ∧ (m.th th).sbuf = [e] ∧ (m.homeOf (256 * (e.pa / 256))).isSome = true ∧ (m.core (th / 2)).stOf (e.pa / 256) = none) fun m' =>
      m' = m.request (th / 2) (e.pa / 256) 0x04 .store th) ∧
    (∀ (th : Nat) (e : StoreE), Does m (.storePerform th) (m.frozen = false ∧ (m.core (th / 2)).swap = none ∧ (m.core (th / 2)).wpend = [] ∧ (m.th th).sbuf = [e] ∧ m.homeOf (256 * (e.pa / 256)) = none) fun m' =>
      m' = ((m.popStores th 1).aqError 0x36 (16 + homeSlice (256 * (e.pa / 256))) (e.pa / 256)).onTh th fun t => { t with pendMck := some (1606, false) }) ∧
    (∀ (core line : Nat) (x : CombLine), Does m (.combiningLineTimeout core line) (m.frozen = false ∧ ((m.core core).comb.find? fun x => x.line == line) = some x) fun m' =>
      m' = m.combOut core x) ∧
    (∀ (core k : Nat) (x : PfStream) (n : Nat), Does m (.prefetchRequest core k) (m.frozen = false ∧ m.on (R.core_l2cfg_pf_en core) = true ∧ (m.core core).pf[k]? = some x ∧ x.seen = 3 ∧ x.stride ≠ 0 ∧ (x.last : Int) + x.stride * (m.get (R.core_l2cfg_pf_dist core) : Int) = (n : Int) ∧ n / 16 = x.last / 16 ∧ x.asked.length < 64 ∧ (m.core core).stOf n = none ∧ (m.homeOf (256 * n)).isSome = true ∧ m.uncached (256 * n) = false) fun m' =>
      m' = (m.onCore core fun c => { c with pf := c.pf.set k { x with asked := x.asked ++ [n] } }).request core n 0x01 .prefetch x.th) ∧
    (∀ (core k : Nat) (x : PfStream) (n : Nat), Does m (.prefetchRequest core k) (m.frozen = false ∧ m.on (R.core_l2cfg_pf_en core) = true ∧ (m.core core).pf[k]? = some x ∧ x.seen = 3 ∧ x.stride ≠ 0 ∧ (x.last : Int) + x.stride * (m.get (R.core_l2cfg_pf_dist core) : Int) = (n : Int) ∧ n / 16 = x.last / 16 ∧ 64 ≤ x.asked.length) fun m' =>
      m' = m.onCore core fun c => { c with pf := c.pf.eraseIdx k }) ∧
    (∀ (core set way : Nat) (e : EvEntry), Does m (.l2Eviction core set way 0) (m.frozen = false ∧ (m.core core).swap = none ∧ m.verdict (32 * core + 15) 6 0 = (m, 0) ∧ (m.core core).miss = [] ∧ (m.core core).evb = [e] ∧ e.line % 1024 = set ∧ e.sent = false) fun m' =>
      m' = m.offer core e)

/-- The header of a flit, and the slots that it marks valid (R289). -/
abbrev flitHead (bytes : List Nat) : Nat := ofBytes (bytes.take 12)
abbrev flitSlots (bytes : List Nat) : List Nat :=
  (List.range 7).filterMap fun i => if bit (flitHead bytes) (33 + i) then some (ofBytes ((bytes.drop (12 + 16 * i)).take 16)) else none

/-- A flit of 128 bytes whose CRC-32C agrees. -/
abbrev flitGood (bytes : List Nat) : Prop := bytes.length = 128 ∧ crc32c (bytes.take 124) = ofBytes (bytes.drop 124)

/-- A fabric port: flits, lanes, the steps of its training, and a write of its control register (09_aqueduct_coherence.md, R288, R289, R290, R291, R292, R293, R21). -/
def Obligations.FabricPorts : Prop :=
  ∀ (m : Mach), 
    (∀ (port : Nat) (bytes : List Nat), Does m (.fabricFlit port bytes false) (m.frozen = false ∧ (m.get (R.aq_fab_stat_state port)) = 6 ∧ bytes.length = 128 ∧ crc32c (bytes.take 124) ≠ ofBytes (bytes.drop 124)) fun m' =>
      m' = m.fabAck port true []) ∧
    (∀ (port : Nat) (bytes : List Nat), Does m (.fabricFlit port bytes false) (m.frozen = false ∧ (m.get (R.aq_fab_stat_state port)) = 6 ∧ flitGood bytes ∧ (bits (flitHead bytes) 95 94 = 1 ∨ bits (flitHead bytes) 95 94 = 2)) fun m' =>
      m' = m.fabHeader port (flitHead bytes)) ∧
    (∀ (port : Nat) (bytes : List Nat), Does m (.fabricFlit port bytes false) (m.frozen = false ∧ (m.get (R.aq_fab_stat_state port)) = 6 ∧ flitGood bytes ∧ bits (flitHead bytes) 95 94 = 0 ∧ bits (flitHead bytes) 93 84 = (m.fabP port).rxSeq) fun m' =>
      m' = (((m.setFabP port { m.fabP port with rxSeq := ((m.fabP port).rxSeq + 1) % 1024, rx := (m.fabP port).rx ++ flitSlots bytes }).fabHeader port (flitHead bytes)).fabAck port false
        ((m.slotVcs (((m.fabP port).rx ++ flitSlots bytes).length + 1) ((m.fabP port).rx ++ flitSlots bytes)).zipWith (· - ·) (m.slotVcs ((m.fabP port).rx.length + 1) (m.fabP port).rx))).assemble port ((m.fabP port).rx ++ flitSlots bytes).length) ∧
    (∀ (port lane : Nat), Does m (.fabricLaneFailure port lane) (m.frozen = false ∧ (m.get (R.aq_fab_stat_state port)) = 6 ∧ m.get (R.aq_fab_stat_width port) = 2 ∧ m.get (R.aq_fab_stat_failed port) = 0 ∧ m.on (R.aq_fab_stat_spare_used port) = false ∧ m.on (R.aq_fab_ctl_spare_en port) = true ∧ lane < 16) fun m' =>
      m' = (((m.set (R.aq_fab_stat_failed port) (2 ^ lane)).sets [(R.aq_fab_stat_spare_used port, 1), (R.aq_fab_stat_spare_for port, lane)]).aqError 0x41 port 0).emit (.frame 3 port [lane])) ∧
    (∀ (port lane : Nat), Does m (.fabricLaneFailure port lane) (m.frozen = false ∧ (m.get (R.aq_fab_stat_state port)) = 6 ∧ lane < 16 ∧ bit (m.get (R.aq_fab_stat_failed port)) lane = false ∧ m.on (R.aq_fab_stat_spare_used port) = true ∧ m.get (R.aq_fab_stat_width port) = 1 ∧ lane / 8 = m.get (R.aq_fab_stat_spare_for port) / 8) fun m' =>
      m' = (m.set (R.aq_fab_stat_failed port) (m.get (R.aq_fab_stat_failed port) ||| 2 ^ lane)).fabDown port 9 0x43) ∧
    (∀ (port lane : Nat), Does m (.fabricLanemap port lane) (m.frozen = false ∧ (m.get (R.aq_fab_stat_state port)) = 6) fun m' =>
      m' = m.sets [(R.aq_fab_stat_failed port, m.get (R.aq_fab_stat_failed port) ||| 2 ^ lane), (R.aq_fab_stat_spare_used port, 1), (R.aq_fab_stat_spare_for port, lane)]) ∧
    (∀ (port : Nat), Does m (.fabricRetrainAtX8Done port) (m.frozen = false ∧ (m.get (R.aq_fab_stat_state port)) = 3 ∧ m.get (R.aq_fab_stat_width port) = 1 ∧ bit (m.get R.id_ports_fab) port = true ∧ (m.fabP port).replay = [] ∧ (m.fabP port).waiting = []) fun m' =>
      m' = m.set (R.aq_fab_stat_state port) 6) ∧
    (∀ (port : Nat), Does m (.fabricTrainingStart port) (m.frozen = false ∧ m.on (R.aq_fab_ctl_en port) = true ∧ (m.get (R.aq_fab_stat_state port)) ≠ 6) fun m' =>
      m' = m.fabTrain port) ∧
    (∀ (port locked : Nat), Does m (.fabricEqualisationEnd port locked) (m.frozen = false ∧ ((m.get (R.aq_fab_stat_state port)) = 1 ∨ (m.get (R.aq_fab_stat_state port)) = 2) ∧ locked % 2 ^ 17 = 2 ^ 17 - 1) fun m' =>
      m' = (m.set (R.aq_fab_stat_failed port) 0).sets [(R.aq_fab_stat_width port, 2), (R.aq_fab_stat_state port, 3)]) ∧
    (∀ (port md far size : Nat), Does m (.fabricIdent port md far size) (m.frozen = false ∧ (m.get (R.aq_fab_stat_state port)) = 3 ∧ bit (m.get R.id_ports_fab) port = false ∧ md = (m.modNo + port % 3 + 1) % 4 ∧ far = 3 * (port / 3) + (2 - port % 3) ∧ size = m.dsize) fun m' =>
      m' = m.sets [(R.aq_fab_stat_state port, 4), (R.aq_fab_stat_peer_mod port, md), (R.aq_fab_stat_peer_port port, far)]) ∧
    (∀ (port md far size : Nat), Does m (.fabricIdent port md far size) (m.frozen = false ∧ (m.get (R.aq_fab_stat_state port)) = 3 ∧ bit (m.get R.id_ports_fab) port = false ∧ md ≠ (m.modNo + port % 3 + 1) % 4) fun m' =>
      m' = (m.set (R.aq_fab_stat_state port) 8).aqError 0x45 port 0) ∧
    (∀ (port : Nat), Does m (.fabricCrdinit port) (m.frozen = false ∧ (m.get (R.aq_fab_stat_state port)) = 4 ∧ (m.fabP port).replay = [] ∧ (m.fabP port).waiting = []) fun m' =>
      m' = (m.setFabP port ⟨0, 0, [], [], [256, 256, 512, 2176], false, []⟩).sets [(R.aq_fab_stat_state port, 6), (R.id_ports_fab, m.get R.id_ports_fab ||| 2 ^ port), (R.aq_fab_ctl_retrain port, 0)]) ∧
    (∀ (port val : Nat), Does m (.fabricPortControlWrite port val) (m.frozen = false ∧ m.on (R.aq_fab_ctl_en port) = false ∧ bit val 0 = true) fun m' =>
      m' = ((m.sets [(R.aq_fab_ctl_lthr port, bits val 23 8), (R.aq_fab_ctl_spare_en port, bits val 1 1)]).set (R.aq_fab_ctl_en port) 1).fabTrain port) ∧
    (∀ (port val : Nat), Does m (.fabricPortControlWrite port val) (m.frozen = false ∧ m.on (R.aq_fab_ctl_en port) = true ∧ bit val 0 = false ∧ m.mode_ ≠ 6) fun m' =>
      m' = m.sets [(R.aq_fab_ctl_lthr port, bits val 23 8), (R.aq_fab_ctl_spare_en port, bits val 1 1)])

/-- A memory port: its commands, responses, lanes, training steps, and the requests up and down (10_memory_ports.md, R305, R306, R308, R309, R312, R317, R318, R319, R320, R325). -/
def Obligations.MemoryPorts : Prop :=
  ∀ (m : Mach), 
    (∀ (port addr : Nat), Does m (.memRd port addr) (m.frozen = false) fun m' =>
      m' = m.memIssue port 1 addr fun t => [memHead 1 t addr 0 0 0]) ∧
    (∀ (port addr : Nat), Does m (.memWr port addr) (m.frozen = false ∧ (List.range 96).any m.frozenThread = false) fun m' =>
      m' = (m.memIssue port 2 addr fun t => memHead 2 t addr (pieceCrc port addr (piece (m.mem.rdLine (m.lineAt port addr)) (pieceOn port addr))) (b2n (m.dirE (m.lineAt port addr)).psn) 1 ::
        (List.range 4).map fun i => (piece (m.mem.rdLine (m.lineAt port addr)) (pieceOn port addr) >>> (128 * (3 - i))) % 2 ^ 128).count (R.mem_port_perf_wr port)) ∧
    (∀ (port reg : Nat), Does m (.memCrd port reg) (m.frozen = false) fun m' =>
      m' = m.memIssue port 3 reg fun t => [memHead 3 t reg 0 0 0]) ∧
    (∀ (port reg val : Nat), Does m (.memCwr port reg val) (m.frozen = false) fun m' =>
      m' = m.memIssue port 4 reg fun t => [memHead 4 t reg val 0 0]) ∧
    (∀ (port tag pc crc ver : Nat) (psn : Bool) (c : MemCmd) (rest : List MemCmd), Does m (.memRdd port tag pc crc psn ver) (m.frozen = false ∧ takeFirst (fun (c : MemCmd) => c.tag == tag && [1].contains c.op) (m.memP port).out = some (c, rest) ∧ crc = pieceCrc port c.addr pc ∧ ver = 1) fun m' =>
      m' = ((m.onMemP port fun y => { y with out := rest }).pieceIn port c.addr (some (pc, psn))).countMem (R.mem_port_perf_rd port)) ∧
    (∀ (port tag pc crc ver : Nat) (psn : Bool) (c : MemCmd) (rest : List MemCmd), Does m (.memRdd port tag pc crc psn ver) (m.frozen = false ∧ takeFirst (fun (c : MemCmd) => c.tag == tag && [1].contains c.op) (m.memP port).out = some (c, rest) ∧ crc ≠ pieceCrc port c.addr pc) fun m' =>
      m' = ((m.onMemP port fun y => { y with out := rest }).pieceIn port c.addr none).countMem (R.mem_port_perf_rd port)) ∧
    (∀ (port tag : Nat) (c : MemCmd) (rest : List MemCmd), Does m (.memRerr port tag) (m.frozen = false ∧ takeFirst (fun (c : MemCmd) => c.tag == tag && [1].contains c.op) (m.memP port).out = some (c, rest)) fun m' =>
      m' = (m.onMemP port fun y => { y with out := rest }).pieceIn port c.addr none) ∧
    (∀ (port tag : Nat) (c : MemCmd) (rest : List MemCmd), Does m (.memWra port tag) (m.frozen = false ∧ takeFirst (fun (c : MemCmd) => c.tag == tag && [2, 4].contains c.op) (m.memP port).out = some (c, rest)) fun m' =>
      m' = m.onMemP port fun y => { y with out := rest }) ∧
    (∀ (port tag val : Nat) (c : MemCmd) (rest : List MemCmd), Does m (.memCra port tag val) (m.frozen = false ∧ takeFirst (fun (c : MemCmd) => c.tag == tag && [3].contains c.op) (m.memP port).out = some (c, rest)) fun m' =>
      m' = (m.onMemP port fun y => { y with out := rest }).onMemP port fun x => { x with cra := some (c.addr, val) }) ∧
    (∀ (port tag : Nat), Does m (.memResponseTimeout port tag) (m.frozen = false ∧ ((m.memP port).out.any fun c => c.tag == tag) = true) fun m' =>
      m' = m.losePort port 7 0x66) ∧
    (∀ (port : Nat) (bytes : List Nat), Does m (.memoryLinkFlit port bytes) (m.frozen = false ∧ m.get (R.mem_port_stat_state port) = 6 ∧ bytes.length = 128 ∧ crc32c (bytes.take 124) ≠ ofBytes (bytes.drop 124)) fun m' =>
      m' = m.emit (.frame 5 port [((m.memP port).link.rxSeq + 1023) % 1024, 1])) ∧
    (∀ (port : Nat) (bytes : List Nat), Does m (.memoryLinkFlit port bytes) (m.frozen = false ∧ m.get (R.mem_port_stat_state port) = 6 ∧ flitGood bytes ∧ bits (flitHead bytes) 95 94 = 0 ∧ bits (flitHead bytes) 93 84 = (m.memP port).link.rxSeq ∧ bit (flitHead bytes) 73 = false ∧ bit (flitHead bytes) 72 = false ∧ (m.memP port).link.waiting = []) fun m' =>
      m' = ((m.onMemP port fun x => { x with link := { x.link with rxSeq := (x.link.rxSeq + 1) % 1024, rx := x.link.rx ++ flitSlots bytes, credits := [x.link.credits.getD 0 0 + bits (flitHead bytes) 71 64, x.link.credits.getD 1 0 + bits (flitHead bytes) 47 40] } }).emit
        (.frame 5 port [(m.memP port).link.rxSeq, 0])).memDeliver port ((m.memP port).link.rx.length + (flitSlots bytes).length)) ∧
    (∀ (port lane : Nat), Does m (.memLaneFailure port lane) (m.frozen = false ∧ m.get (R.mem_port_stat_state port) = 6 ∧ m.get (R.mem_port_stat_failed port) = 0 ∧ lane < 8) fun m' =>
      m' = (((m.set (R.mem_port_stat_failed port) (2 ^ lane)).sets [(R.mem_port_stat_spare_used port, 1), (R.mem_port_stat_spare_for port, lane)]).memError 0x63 port 0).emit (.frame 6 port [lane])) ∧
    (∀ (port lane : Nat), Does m (.memLaneFailure port lane) (m.frozen = false ∧ m.get (R.mem_port_stat_state port) = 6 ∧ m.get (R.mem_port_stat_failed port) ≠ 0 ∧ bit (m.get (R.mem_port_stat_failed port)) lane = false) fun m' =>
      m' = (m.set (R.mem_port_stat_failed port) (m.get (R.mem_port_stat_failed port) ||| 2 ^ lane)).losePort port 7 0) ∧
    (∀ (port lane : Nat), Does m (.memLanemap port lane) (m.frozen = false ∧ m.get (R.mem_port_stat_state port) = 6) fun m' =>
      m' = m.sets [(R.mem_port_stat_failed port, m.get (R.mem_port_stat_failed port) ||| 2 ^ lane), (R.mem_port_stat_spare_used port, 1), (R.mem_port_stat_spare_for port, lane)]) ∧
    (∀ (port : Nat), Does m (.memTrainingStart port) (m.frozen = false ∧ m.get (R.mem_port_stat_state port) = 0) fun m' =>
      m' = m.memTrain port) ∧
    (∀ (port locked : Nat), Does m (.memEqualisationEnd port locked) (m.frozen = false ∧ (m.get (R.mem_port_stat_state port) = 1 ∨ m.get (R.mem_port_stat_state port) = 2) ∧ locked % 512 = 511) fun m' =>
      m' = (m.set (R.mem_port_stat_failed port) 0).set (R.mem_port_stat_state port) 3) ∧
    (∀ (port vendor part cap : Nat), Does m (.memIdent port vendor part cap) (m.frozen = false ∧ m.get (R.mem_port_stat_state port) = 3 ∧ cap = 6 + m.get R.mem_cfg_cap) fun m' =>
      m' = (m.set (R.mem_port_stat_cap port) (cap - 6)).set (R.mem_port_stat_state port) 4) ∧
    (∀ (port : Nat), Does m (.memCrdinit port) (m.frozen = false ∧ m.get (R.mem_port_stat_state port) = 4) fun m' =>
      m' = (m.onMemP port fun x => { x with link := ⟨0, 0, [], [], [128, 512], false, []⟩ }).set (R.mem_port_stat_state port) 5) ∧
    (∀ (port : Nat) (kept : Bool), Does m (.memReady port kept) (m.frozen = false ∧ m.get (R.mem_port_stat_state port) = 5 ∧ m.memp.upReq = [] ∧ m.get (R.mem_grp_stat_state (port / 5)) ≠ 3) fun m' =>
      m' = (((m.onMemP port fun x => { x with kept := kept }).set (R.mem_port_stat_state port) 6).memBit port true).settle (port / 5)) ∧
    (∀ (port : Nat), Does m (.memPortDown port) (m.frozen = false ∧ m.memp.upReq.contains port = false ∧ m.blkDown (48 + port) = false ∧ m.mode_ ≠ 6) fun m' =>
      m' = m.set (R.mem_port_stat_res port) 2) ∧
    (∀ (port : Nat), Does m (.memPortDown port) (m.frozen = false ∧ m.memp.upReq.contains port = false ∧ m.blkDown (48 + port) = false ∧ m.mode_ = 6 ∧ m.get (R.mem_grp_stat_state (port / 5)) ≠ 3 ∧ m.get (R.mem_grp_stat_state (port / 5)) ≠ 4 ∧ (m.memP port).out = []) fun m' =>
      m' = (m.losePort port 10 0).set (R.mem_port_stat_res port) 1) ∧
    (∀ (port : Nat), Does m (.memPortUp port) (m.frozen = false ∧ m.memp.upReq.contains port = false ∧ m.blkDown (48 + port) = false ∧ m.mode_ = 6 ∧ 7 ≤ m.get (R.mem_port_stat_state port) ∧ m.get (R.mem_port_stat_state port) ≤ 10) fun m' =>
      m' = (({ m with memp := { m.memp with upReq := m.memp.upReq ++ [port] } } : Mach).memTrain port).set (R.mem_port_ctl_up port) 1)

/-- Rebuild, patrol scrub and initialisation of a redundancy group (10_memory_ports.md, R306, R313, R314, R315, R622). -/
def Obligations.RedundancyGroups : Prop :=
  ∀ (m : Mach), 
    (∀ (g : Nat), Does m (.rebuildLine g) (m.frozen = false ∧ m.get (R.mem_grp_stat_state g) = 4 ∧ m.lineBusy (m.lineOf g (m.get (R.mem_grp_rb_ptr g))) = false ∧ m.memFree (5 * g + m.get (R.mem_grp_stat_lost g)) (m.get (R.mem_grp_rb_ptr g)) = true ∧ m.get (R.mem_grp_rb_ptr g) + 1 ≠ (m.memWr (5 * g + m.get (R.mem_grp_stat_lost g)) (m.get (R.mem_grp_rb_ptr g))).groupLines) fun m' =>
      m' = (m.memWr (5 * g + m.get (R.mem_grp_stat_lost g)) (m.get (R.mem_grp_rb_ptr g))).set (R.mem_grp_rb_ptr g) (m.get (R.mem_grp_rb_ptr g) + 1)) ∧
    (∀ (g k : Nat), Does m (.patrolScrubLine g [k] false) (m.frozen = false ∧ m.get (R.mem_grp_stat_state g) = 2 ∧ m.get R.mem_cfg_scrub_h ≠ 0 ∧ m.lineBusy (m.lineOf g (tget m.memp.scrub g 0)) = false ∧ ((List.range 5).all fun k => !m.pieceLost (portOf g (tget m.memp.scrub g 0) k) (tget m.memp.scrub g 0)) = true ∧ k < 5) fun m' =>
      (tget m'.memp.scrub g 0) = (tget m.memp.scrub g 0 + 1) % m.groupLines ∧ m'.mem = m.mem ∧ m'.get R.mem_err_code = 0x60 ∧ m'.get R.mem_err_port = portOf g (tget m.memp.scrub g 0) k) ∧
    (∀ (g : Nat), Does m (.groupInit g) (m.frozen = false ∧ m.mode_ = 0 ∧ m.sealed = false ∧ (m.get (R.mem_grp_stat_state g) = 0 ∨ m.get (R.mem_grp_stat_state g) = 2)) fun m' =>
      m' = m.sets [(R.mem_grp_ctl_init g, 1), (R.mem_grp_stat_state g, 1)]) ∧
    (∀ (g : Nat), Does m (.groupInitComplete g) (m.frozen = false ∧ m.on (R.mem_grp_ctl_init g) = true ∧ ((List.range 5).all fun p => m.get (R.mem_port_stat_state (5 * g + p)) == 6) = true) fun m' =>
      m'.mem = m.mem.filter (fun (c : Host.Cell) => !(decide (m.myBase ≤ c.1) && decide (c.1 < m.myBase + m.mySize) && homeSlice c.1 == g)) ∧ m'.get (R.mem_grp_stat_state g) = 2 ∧ m'.get (R.mem_grp_stat_lost g) = 7 ∧ m'.get (R.mem_grp_ctl_init g) = 0)

/-- The Grotto's monitor runs and holds a command of `op`, whose block of 128 bytes at `a` in firmware memory is `b`. -/
abbrev Monitor (m : Mach) (op a : Nat) (b : List Nat) : Prop :=
  m.frozen = false ∧ m.get R.grotto_cmd_go = 1 ∧ m.get R.grotto_cmd_op = op ∧ m.get R.grotto_stat_state = 2 ∧ a = m.get R.grotto_cmd_addr * 128 ∧
    m.inKind1 a (a + 127) = true ∧ m.devRange .hub a 128 = none ∧ b = m.devRead a 128

/-- As `Leaves`, for an instruction after which the thread's enclave and resume link are those of `m2`. -/
def LeavesGrotto (i : Instr) (s : State) (th : Nat) (m2 : Mach) (b : Arch) : Prop :=
  ∃ t, exec i s = .next t ∧ t.pending = s.pending ∧ (t.m.th th).cur = b ∧ (t.m.th th).com = b ∧ (t.m.th th).encl = (m2.th th).encl ∧
    (t.m.th th).link = (m2.th th).link ∧ (∀ u, u ≠ th → t.m.th u = m2.th u) ∧ { t.m with thr := m2.thr } = m2

/-- The Cistern: discard, evict, query, the map scan, and the ends of expansions, waits and evictions (11_cistern.md, R331, R344, R345, R346, R349, R352). -/
def Obligations.CisternCommands : Prop :=
  ∀ (m : Mach), 
    (Does m (.cisternDiscard) (m.frozen = false ∧ m.cis.cmd ≠ none) fun m' =>
      m' = m.sets [(R.mem_cis_cmd_done, 1), (R.mem_cis_cmd_result, 3)]) ∧
    (Does m (.cisternDiscard) (m.frozen = false ∧ m.cis.cmd = none ∧ m.cisOn = true ∧ m.on R.mem_cis_stat_ready = true ∧ m.myPage (m.get R.mem_cis_cmda_addr) = true ∧ m.pageBusy (m.get R.mem_cis_cmda_addr) = false ∧ tfind m.cis.exp (m.get R.mem_cis_cmda_addr) = none) fun m' =>
      m' = ((({ m.set R.mem_cis_cmd_op 1 with cis := { m.cis with cmd := some 1 } } : Mach).set R.mem_cis_cmd_go 1).discardPage (m.get R.mem_cis_cmda_addr)).cisEnd 1) ∧
    (Does m (.cisternEvict) (m.frozen = false ∧ m.cis.cmd = none ∧ m.cisOn = true ∧ m.on R.mem_cis_stat_ready = true ∧ m.myPage (m.get R.mem_cis_cmda_addr) = true ∧ m.pageBusy (m.get R.mem_cis_cmda_addr) = false ∧ tfind m.cis.exp (m.get R.mem_cis_cmda_addr) = none) fun m' =>
      m' = (({ m.set R.mem_cis_cmd_op 2 with cis := { m.cis with cmd := some 2 } } : Mach).set R.mem_cis_cmd_go 1).cisEnd 1) ∧
    (Does m (.cisternEvict) (m.frozen = false ∧ m.cis.cmd = none ∧ m.cisOn = false) fun m' =>
      m' = (m.set R.mem_cis_cmd_op 2).cisEnd 4) ∧
    (Does m (.cisternQuery) (m.frozen = false ∧ m.cis.cmd = none ∧ m.cisOn = true ∧ m.on R.mem_cis_stat_ready = true ∧ m.myPage (m.get R.mem_cis_cmda_addr) = true ∧ m.pageBusy (m.get R.mem_cis_cmda_addr) = false ∧ tfind m.cis.exp (m.get R.mem_cis_cmda_addr) = none) fun m' =>
      m' = ((({ m.set R.mem_cis_cmd_op 3 with cis := { m.cis with cmd := some 3 } } : Mach).set R.mem_cis_cmd_go 1).sets [(R.mem_cis_cmd_qclass, (m.rdDesc (m.get R.mem_cis_cmda_addr)).cls), (R.mem_cis_cmd_qexp, 0), (R.mem_cis_cmd_qdirty, b2n (m.rdDesc (m.get R.mem_cis_cmda_addr)).dirty),
        (R.mem_cis_cmd_qpsn, b2n ((m.rdDesc (m.get R.mem_cis_cmda_addr)).psn != 0))]).cisEnd 1) ∧
    (Does m (.cisternQuery) (m.frozen = false ∧ m.cis.cmd = none ∧ m.cisOn = true ∧ m.on R.mem_cis_stat_ready = true ∧ m.myPage (m.get R.mem_cis_cmda_addr) = false) fun m' =>
      m' = (m.set R.mem_cis_cmd_op 3).cisEnd 2) ∧
    (Does m (.mapScanComplete) (m.frozen = false ∧ m.cisOn = true ∧ m.on R.mem_cis_stat_ready = false ∧ m.mapPages = [] ∧ m.home.waitq = []) fun m' =>
      m' = (m.set R.mem_cis_stat_ready 1).cisShow) ∧
    (∀ (page : Nat) (x : ExpPage), Does m (.expansionComplete page) (m.frozen = false ∧ tfind m.cis.exp page = some x ∧ x.busy = 1) fun m' =>
      m' = ((m.installPage page x).servePage page).cisRun) ∧
    (∀ (page age : Nat) (m1 : Mach), Does m (.expansionWaitEnd page) (m.frozen = false ∧ m.cis.waits = [(page, age)] ∧ ({ m with cis := { m.cis with waits := [] } } : Mach).chooseWay page age = some m1) fun m' =>
      m' = m1) ∧
    (∀ (page : Nat) (x : ExpPage), Does m (.pageEvictionComplete page) (m.frozen = false ∧ tfind m.cis.exp page = some x ∧ x.busy = 2 ∧ (m.home.txn.any fun y => y.1 / 16 == page) = false ∧ x.why = 1) fun m' =>
      m' = (((m.endEvict page x).1.cisEnd (if (m.endEvict page x).2 then 1 else 5)).servePage page).cisRun) ∧
    (∀ (page q age : Nat) (x : ExpPage), Does m (.pageEvictionComplete page) (m.frozen = false ∧ tfind m.cis.exp page = some x ∧ x.busy = 2 ∧ (m.home.txn.any fun y => y.1 / 16 == page) = false ∧ x.why = 0 ∧ x.next = some (q, age) ∧ (m.endEvict page x).2 = true) fun m' =>
      m' = (({ (m.endEvict page x).1 with cis := { (m.endEvict page x).1.cis with exp := tset (m.endEvict page x).1.cis.exp q ⟨x.way, age, 1, 0, none⟩ } } : Mach).servePage page).cisRun)

/-- The monitor's commands, the secure watchdog, isolation, and debug certificates (12_grotto_enclaves.md, R358, R359, R360, R361, R370, R371, R372, R373, R374). -/
def Obligations.GrottoMonitor : Prop :=
  ∀ (m : Mach), 
    (Does m (.grottoCreate) (m.frozen = false ∧ m.get R.grotto_cmd_go = 1 ∧ m.get R.grotto_cmd_op = 1 ∧ m.get R.grotto_stat_state ≠ 2) fun m' =>
      m' = m.sets [(R.grotto_cmd_done, 1), (R.grotto_cmd_result, 7), (R.grotto_cmd_go, 0)]) ∧
    (∀ (a e : Nat) (b : List Nat), Does m (.grottoCreate) (Monitor m 1 a b ∧ blkF b 0 2 = e ∧ e < 4096 ∧ blkF b 2 1 ≠ 0 ∧ blkF b 2 1 ≤ 16 ∧ (m.enclave e).st = 0 ∧ m.createOk (blkF b 8 8) (blkF b 0x10 4 * 65536) (blkF b 0x14 4 * 65536) (blkF b 0x18 8) (blkF b 0x20 8) = true ∧ m.rng = .ready) fun m' =>
      m' = ((({ m.draw.2.dropRange (blkF b 8 8) (blkF b 0x10 4 * 65536) with
          mem := (m.draw.2.dropRange (blkF b 8 8) (blkF b 0x10 4 * 65536)).mem.zero (blkF b 8 8) (blkF b 0x10 4 * 65536) } : Mach).setEnclave e
        ⟨1, blkF b 8 8, blkF b 0x10 4 * 65536, blkF b 0x14 4 * 65536, blkF b 0x18 8, blkF b 0x20 8, blkF b 2 1, [], ofBytes (sha384 ([0, 0] ++ (b.drop 2).take 62)), m.draw.1⟩).devWrite a (toBytes 2 e)).grottoEnd 1) ∧
    (∀ (a e : Nat) (b : List Nat), Does m (.grottoAdd) (Monitor m 2 a b ∧ blkF b 0 2 = e ∧ e < 4096 ∧ (m.enclave e).st ≠ 1) fun m' =>
      m' = m.grottoEnd 4) ∧
    (∀ (a e src doff n : Nat) (b : List Nat), Does m (.grottoAdd) (Monitor m 2 a b ∧ blkF b 0 2 = e ∧ e < 4096 ∧ (m.enclave e).st = 1 ∧ blkF b 0x28 8 = src ∧ blkF b 0x30 4 = doff ∧ blkF b 0x34 4 = n ∧ src % 4096 = 0 ∧ (doff + n) * 4096 ≤ (m.enclave e).size ∧ m.meetsRegion src (4096 * n) = false ∧ m.devRange .hub src (4096 * n) = none) fun m' =>
      m' = (((List.range (16 * n)).foldl (fun (x : Mach) i => x.copyLine (src + 256 * i) ((m.enclave e).base + 4096 * doff + 256 * i)) m).setEnclave e { m.enclave e with meas := ofBytes (sha384 (toBytes 48 (m.enclave e).meas ++ toBytes 8 doff ++ m.devRead src (4096 * n))) }).grottoEnd 1) ∧
    (∀ (a e : Nat) (b : List Nat), Does m (.grottoSeal) (Monitor m 3 a b ∧ blkF b 0 2 = e ∧ e < 4096 ∧ (m.enclave e).st = 1) fun m' =>
      m' = ((m.devWrite (a + 0x40) (toBytes 48 (m.enclave e).meas)).setEnclave e { m.enclave e with st := 2, ctxs := [] }).grottoEnd 1) ∧
    (∀ (a e : Nat) (b : List Nat), Does m (.grottoTeardown) (Monitor m 4 a b ∧ blkF b 0 2 = e ∧ e < 4096 ∧ ((m.enclave e).st = 1 ∨ (m.enclave e).st = 2) ∧ ((m.enclave e).ctxs.any fun c => c.2.1 == .running) = false ∧ m.rng = .ready) fun m' =>
      m' = (((m.draw.2.dropRange (m.enclave e).base (m.enclave e).size).scramble (m.enclave e).base (m.enclave e).size).setEnclave e { Enclave.init with key := m.draw.1 }).grottoEnd 1) ∧
    (∀ (a e : Nat) (b : List Nat), Does m (.grottoQuery) (Monitor m 5 a b ∧ blkF b 0 2 = e ∧ e < 4096 ∧ (m.enclave e).st < 2) fun m' =>
      m' = (m.devWrite (a + 2) [(m.enclave e).nctx, (m.enclave e).st]).grottoEnd 1) ∧
    (∀ (a e : Nat) (b : List Nat), Does m (.grottoQuery) (Monitor m 5 a b ∧ blkF b 0 2 = e ∧ e < 4096 ∧ 2 ≤ (m.enclave e).st) fun m' =>
      m' = ((m.devWrite (a + 2) [(m.enclave e).nctx, (m.enclave e).st]).devWrite (a + 0x40) (toBytes 48 (m.enclave e).meas)).grottoEnd 1) ∧
    (Does m (.watchdogKick true) (m.frozen = false ∧ m.get R.grotto_stat_state = 2) fun m' =>
      m' = m.set R.grotto_wd_left 0x7D0) ∧
    (Does m (.watchdogKick false) (m.frozen = false) fun m' =>
      m' = m.grottoError 0x85 0) ∧
    (Does m (.watchdogExpiry) (m.frozen = false ∧ m.get R.grotto_stat_state = 2 ∧ m.get R.grotto_cmd_go = 0) fun m' =>
      m' = (m.thr.map Prod.fst).foldl (fun (x : Mach) th => x.isolationExit th) ((m.grottoError 0x80 0).sets [(R.grotto_stat_state, 3), (R.grotto_stat_cause, 6), (R.grotto_wd_left, 0)])) ∧
    (Does m (.isolationComplete) (m.frozen = false ∧ (m.get R.grotto_stat_state = 3 ∨ m.get R.grotto_stat_state = 5)) fun m' =>
      m' = (({ m.dropRange m.pool.1 m.pool.2 with grotto := { m.grotto with monKey := 0, encl := m.grotto.encl.map fun (x : Nat × Enclave) => (x.1, { x.2 with key := 0 }) } } : Mach).set R.grotto_stat_state 4).grottoError 0x81 0) ∧
    (Does m (.isolationTimeout) (m.frozen = false ∧ m.get R.grotto_stat_state = 3 ∧ m.on R.grotto_ctl_noesc = true) fun m' =>
      m' = (m.grottoError 0x82 0).sets [(R.grotto_stat_state, 5), (R.grotto_stat_cause, 7)]) ∧
    (Does m (.isolationTimeout) (m.frozen = false ∧ m.get R.grotto_stat_state = 3 ∧ m.on R.grotto_ctl_noesc = false) fun m' =>
      m' = (m.grottoError 0x82 0).set R.grotto_stat_cause 7) ∧
    (∀ (cert : List Nat), Does m (.debugCertificate cert) (m.frozen = false ∧ m.certResult cert ≠ 1) fun m' =>
      m' = (m.sets [(R.grotto_dbgst_done, 1), (R.grotto_dbgst_result, m.certResult cert)]).grottoError 0x83 0) ∧
    (Does m (.debugEnablesClear) (m.frozen = false) fun m' =>
      m' = m.sets [(R.grotto_dbg_f_inv, 0), (R.grotto_dbg_f_ni, 0), (R.grotto_dbg_e_inv, 0), (R.grotto_dbg_e_ni, 0), (R.grotto_dbg_scope, 0), (R.grotto_dbg_all, 0)])

/-- genter, gexit, gdetach and gquery: entry at the entry address or where a context left, exit, refusal (12_grotto_enclaves.md, R362, R363, R364, R366, R368). -/
def Obligations.GrottoInstructions : Prop :=
  ∀ (s : State) (o : FS) (m1 : Mach), o.wf = true → o.sr = 0 → Ready s.m o.th (Shape.micro_ 0) m1 →
    let a := (s.m.th o.th).cur
    let t := m1.th o.th
    let num := (a.gr o.a).toNat
    (o.t = 0 → o.a = 0 → a.pswF 2 2 = 0 → LeavesGrotto (.gdetach o) s o.th (m1.onTh o.th fun t => { t with link := none }) { a with ia := a.ia + 4 }) ∧
    LeavesGrotto (.gquery o) s o.th m1 { a.setG o.t (BitVec.ofNat 64 (m1.gquery o.th num)) with ia := a.ia + 4 } ∧
    (∀ e : EnclCtx, o.t = 0 → o.a = 0 → a.pswF 2 2 = 1 → t.encl = some e →
      LeavesGrotto (.gexit o) s o.th ((m1.onCtx e.encl e.ctx fun y => (.idle, y.2)).onTh o.th fun t => { t with encl := none }).updFrz
        { ({ a with psw := e.psw } : Arch).setCc 0 with ia := e.gaddr + 4 }) ∧
    (a.pswF 2 2 = 0 → m1.get R.grotto_stat_state ≠ 2 →
      LeavesGrotto (.genter o) s o.th (m1.onTh o.th fun t => { t with link := none }) { (a.setCc 3).setG o.t 1 with ia := a.ia + 4 }) ∧
    (∀ (e c : Nat) (f : SaveFrame) (st : CtxSt), a.pswF 2 2 = 0 → m1.get R.grotto_stat_state = 2 → t.link = none → e = bits num 11 0 → c = bits num 19 16 →
      (m1.enclave e).st = 2 → c < (m1.enclave e).nctx → (m1.enclave e).ctx c = (st, f) → a.pl < 3 → a.pswF 4 4 = 1 →
      (let d := lvDepth (bits (if a.pl ≤ 1 then a.ttr1 else a.ttrh).toNat 1 0)
       canonical (m1.enclave e).vbase (vaBits d) = true ∧ canonical ((m1.enclave e).vbase + (m1.enclave e).size - 1) (vaBits d) = true) →
      let m2 := ((m1.onCtx e c fun y => (.running, y.2)).onTh o.th fun t => { t with encl := some ⟨e, c, a.ia, o.t,
        a.psw, m1.on R.grotto_dbg_e_ni && m1.inScope e, m1.on R.grotto_dbg_e_inv && m1.inScope e⟩ }).updFrz
      (st = .idle → LeavesGrotto (.genter o) s o.th m2 { (a.setPsw 2 2 1).setPsw 23 20 0 with ia := BitVec.ofNat 64 ((m1.enclave e).vbase + (m1.enclave e).entry) }) ∧
      (st = .suspended → LeavesGrotto (.genter o) s o.th m2
        { (({ a with g := f.g, f := f.f, lsa := f.lsa, lea := f.lea, lct := f.lct, psw := f.psw, fpsr := f.fpsr } : Arch).setPsw 2 2 1).setPsw 23 20 (bits f.psw.toNat 23 20) with ia := f.ia }))

/-- A command of an accelerator instance has been taken: its op is shown with `go`. -/
abbrev instTaken (m : Mach) (u i op : Nat) : Mach := m.sets [(R.u_ictl_op u i, op), (R.u_ictl_go u i, 1)]

/-- Assign, enable, quiesce, resume, reset, remove, save and restore of an accelerator instance (15_shared_instances.md, R426, R427, R428, R435). -/
def Obligations.InstanceCommands : Prop :=
  ∀ (m : Mach), 
    (∀ (u i : Nat), Does m (.instanceAssign u i) (m.frozen = false ∧ m.get (R.u_ictl_go u i) = 1) fun m' =>
      m' = m.sets [(R.u_ictl_result u i, 5), (R.u_ictl_done u i, 1)]) ∧
    (∀ (u i : Nat), Does m (.instanceAssign u i) (m.frozen = false ∧ m.get (R.u_ictl_go u i) = 0 ∧ (instTaken m u i 1).iAsg u i = false ∧ ((List.range 64).any fun j => j != i && (instTaken m u i 1).iAsg u j && (instTaken m u i 1).get (R.u_ittr2_part u j) == (instTaken m u i 1).get (R.u_ittr2_part u i)) = false) fun m' =>
      m' = ((instTaken m u i 1).set (R.u_ictl_asg u i) 1).cmdDone u i 1) ∧
    (∀ (u i : Nat), Does m (.instanceEnable u i) (m.frozen = false ∧ m.get (R.u_ictl_go u i) = 0 ∧ u < 2 ∧ (instTaken m u i 2).iAsg u i = true ∧ (instTaken m u i 2).iState u i = 0 ∧ m.mode.stage < 3) fun m' =>
      m' = (((instTaken m u i 2).set (R.u_ictl_state u i) 1).onInst u i fun x => { x with stream := x.held, held := none }).cmdDone u i 1) ∧
    (∀ (u i : Nat), Does m (.instanceEnable u i) (m.frozen = false ∧ m.get (R.u_ictl_go u i) = 0 ∧ 2 ≤ u ∧ (instTaken m u i 2).iAsg u i = true ∧ (instTaken m u i 2).iState u i = 0 ∧ m.mode.stage < 3 ∧ (((instTaken m u i 2).set (R.u_ictl_state u i) 1).drawBytes 32).2.on (R.cryu_kpol_wkset (u - 2) i) = true ∧ ((instTaken m u i 2).set (R.u_ictl_state u i) 1).on (R.cryu_kpol_wkset (u - 2) i) = true) fun m' =>
      m' = (((instTaken m u i 2).set (R.u_ictl_state u i) 1).onInst u i fun x => { x with drbg := true }).cmdDone u i 1) ∧
    (∀ (u i : Nat), Does m (.instanceQuiesce u i) (m.frozen = false ∧ m.get (R.u_ictl_go u i) = 0 ∧ (instTaken m u i 3).iState u i = 1) fun m' =>
      m' = (instTaken m u i 3).set (R.u_ictl_state u i) 2) ∧
    (∀ (u i : Nat), Does m (.instanceQuiesce u i) (m.frozen = false ∧ m.get (R.u_ictl_go u i) = 0 ∧ (instTaken m u i 3).iState u i ≠ 1) fun m' =>
      m' = (instTaken m u i 3).cmdDone u i 2) ∧
    (∀ (u i : Nat), Does m (.instanceQuiesced u i) (m.frozen = false ∧ m.iState u i = 2 ∧ (m.inst u i).q = [] ∧ m.recWaits u i = false) fun m' =>
      m' = (m.set (R.u_ictl_state u i) 3).cmdDone u i 1) ∧
    (∀ (u i : Nat), Does m (.instanceResume u i) (m.frozen = false ∧ m.get (R.u_ictl_go u i) = 0 ∧ (instTaken m u i 4).iState u i = 3) fun m' =>
      m' = ((instTaken m u i 4).set (R.u_ictl_state u i) 1).cmdDone u i 1) ∧
    (∀ (u i : Nat), Does m (.instanceReset u i) (m.frozen = false ∧ m.get (R.u_ictl_go u i) = 0 ∧ u < 2 ∧ (instTaken m u i 5).iState u i = 3) fun m' =>
      (m'.inst u i) = AccInst.init ∧ m'.iState u i = 0 ∧ m'.get (R.u_ictl_result u i) = 1 ∧ m'.get (R.u_ictl_done u i) = 1 ∧ m'.get (R.u_ictl_go u i) = 0 ∧ m'.acc.tlb = m.acc.tlb.filter (fun (x : Nat × TlbE) => x.1 != 64 * u + i) ∧ m'.acc.walk1 = m.acc.walk1.filter (fun (x : Nat × WalkE) => x.1 != 64 * u + i) ∧ m'.acc.walk2 = m.acc.walk2.filter (fun (x : Nat × WalkE) => x.1 != 64 * u + i)) ∧
    (∀ (u i : Nat), Does m (.instanceRemove u i) (m.frozen = false ∧ m.get (R.u_ictl_go u i) = 0 ∧ u < 2 ∧ (instTaken m u i 6).iState u i = 0 ∧ (instTaken m u i 6).iAsg u i = true) fun m' =>
      m' = (((instTaken m u i 6).sets [(R.u_ictl_asg u i, 0), (R.u_ittr2 u i, 0), (R.u_idlog u i, 0), (R.u_idlim u i, 0), (R.u_i_ttr1 u i, 0), (R.cmpu_irill u i, 0)]).onInst u i fun x => { x with held := none, wkey := none, wpart := [] }).cmdDone u i 1) ∧
    (∀ (u i : Nat) (x : Stream), Does m (.instanceSave u i) (m.frozen = false ∧ m.get (R.u_ictl_go u i) = 0 ∧ u < 2 ∧ (instTaken m u i 7).iState u i = 3 ∧ ((instTaken m u i 7).inst u i).stream = some x ∧ (instTaken m u i 7).devRange .acc ((instTaken m u i 7).get (R.u_isave_addr u i) * 256) 40960 = none) fun m' =>
      m' = (((instTaken m u i 7).streamRecord x).1.devWrite ((instTaken m u i 7).get (R.u_isave_addr u i) * 256) ((instTaken m u i 7).streamRecord x).2).cmdDone u i 1) ∧
    (∀ (u i : Nat), Does m (.instanceSave u i) (m.frozen = false ∧ m.get (R.u_ictl_go u i) = 0 ∧ u < 2 ∧ (instTaken m u i 7).iState u i = 3 ∧ ((instTaken m u i 7).inst u i).stream = none) fun m' =>
      m' = (instTaken m u i 7).cmdDone u i 9) ∧
    (∀ (u i : Nat), Does m (.instanceRestore u i) (m.frozen = false ∧ m.get (R.u_ictl_go u i) = 0 ∧ u < 2 ∧ (instTaken m u i 8).iState u i = 0 ∧ (instTaken m u i 8).iAsg u i = true ∧ (instTaken m u i 8).devRange .acc ((instTaken m u i 8).get (R.u_isave_addr u i) * 256) 40960 = none ∧ (instTaken m u i 8).devPoison ((instTaken m u i 8).get (R.u_isave_addr u i) * 256) 40960 = false) fun m' =>
      m' = ((instTaken m u i 8).readRecord ((instTaken m u i 8).devRead ((instTaken m u i 8).get (R.u_isave_addr u i) * 256) 40960)).elim ((instTaken m u i 8).cmdDone u i 7) fun x => ((instTaken m u i 8).onInst u i fun y => { y with held := some x }).cmdDone u i 1) ∧
    (∀ (u i : Nat), Does m (.instanceRestore u i) (m.frozen = false ∧ m.get (R.u_ictl_go u i) = 0 ∧ 2 ≤ u) fun m' =>
      m' = (instTaken m u i 8).cmdDone u i 6) ∧
    (∀ (u i val : Nat), Does m (.instanceRootWrite u i true val) (m.frozen = false ∧ m.get (R.cmpu_i_stat_queued u i) = 0 ∧ m.acceptsLv (bits val 1 0) = true) fun m' =>
      m' = m.sets [(R.u_i_ttr1_asid u i, bits val 63 52), (R.u_i_ttr1_base u i, bits val 51 12), (R.u_i_ttr1_usr u i, bits val 2 2), (R.u_i_ttr1_lv u i, bits val 1 0)]) ∧
    (∀ (u i val : Nat), Does m (.instanceRootWrite u i true val) (m.frozen = false ∧ m.get (R.cmpu_i_stat_queued u i) ≠ 0) fun m' =>
      m' = m.set (R.u_i_flt_wrej u i) 1) ∧
    (∀ (u i val : Nat), Does m (.instanceRootWrite u i false val) (m.frozen = false ∧ m.get (R.u_ictl_state u i) = 0 ∧ m.acceptsLv (bits val 1 0) = true) fun m' =>
      m' = m.sets [(R.u_ittr2_part u i, bits val 57 52), (R.u_ittr2_base u i, bits val 51 12), (R.u_ittr2_lv u i, bits val 1 0)])

/-- Submissions, the rotation, aborts, wrapping keys, entropy tests, and the translation unit's events (13_compression_unit.md, 14_cryptographic_unit.md, 15_shared_instances.md, R379, R385, R387, R409, R415, R421, R436, R438). -/
def Obligations.AcceleratorRequests : Prop :=
  ∀ (m : Mach), 
    (∀ (u i addr : Nat) (m1 : Mach) (hdr : List Nat), Does m (.cmpSubmit u i addr) (m.frozen = false ∧ (m.accRead u i (addr / 128 * 128) 64).1 = m1 ∧ (m.accRead u i (addr / 128 * 128) 64).2.1 = hdr ∧ (m.accRead u i (addr / 128 * 128) 64).2.2.isNone = true ∧ m1.submitRefusal u i = none ∧ cmpBad hdr = false) fun m' =>
      m' = m1.onInst u i fun x => { x with q := x.q ++ [(⟨addr / 128 * 128, hdr, none⟩ : AccReq)] }) ∧
    (∀ (u i addr st : Nat) (m1 : Mach) (hdr : List Nat), Does m (.cmpSubmit u i addr) (m.frozen = false ∧ (m.accRead u i (addr / 128 * 128) 64).1 = m1 ∧ (m.accRead u i (addr / 128 * 128) 64).2.1 = hdr ∧ (m.accRead u i (addr / 128 * 128) 64).2.2.isNone = true ∧ m1.submitRefusal u i = some st) fun m' =>
      m' = m1.refuse u i (addr / 128 * 128) hdr st) ∧
    (∀ (u i addr : Nat) (m1 : Mach) (hdr : List Nat), Does m (.cmpSubmit u i addr) (m.frozen = false ∧ (m.accRead u i (addr / 128 * 128) 64).1 = m1 ∧ (m.accRead u i (addr / 128 * 128) 64).2.1 = hdr ∧ (m.accRead u i (addr / 128 * 128) 64).2.2.isNone = true ∧ m1.submitRefusal u i = none ∧ cmpBad hdr = true) fun m' =>
      m' = m1.refuse u i (addr / 128 * 128) hdr 0x13) ∧
    (∀ (u i addr : Nat) (m1 m2 : Mach) (hdr : List Nat), Does m (.crySubmit u i addr) (m.frozen = false ∧ (m.accRead (2 + u) i (addr / 128 * 128) 64).1 = m1 ∧ (m.accRead (2 + u) i (addr / 128 * 128) 64).2.1 = hdr ∧ (m.accRead (2 + u) i (addr / 128 * 128) 64).2.2.isNone = true ∧ m1.submitRefusal (2 + u) i = none ∧ m1.cryAccept (2 + u) i hdr = (m2, none)) fun m' =>
      m' = m2.onInst (2 + u) i fun x => { x with q := x.q ++ [(⟨addr / 128 * 128, hdr, none⟩ : AccReq)] }) ∧
    (∀ (u i addr st : Nat) (m1 m2 : Mach) (hdr : List Nat), Does m (.crySubmit u i addr) (m.frozen = false ∧ (m.accRead (2 + u) i (addr / 128 * 128) 64).1 = m1 ∧ (m.accRead (2 + u) i (addr / 128 * 128) 64).2.1 = hdr ∧ (m.accRead (2 + u) i (addr / 128 * 128) 64).2.2.isNone = true ∧ m1.submitRefusal (2 + u) i = none ∧ m1.cryAccept (2 + u) i hdr = (m2, some st)) fun m' =>
      m' = m2.refuse (2 + u) i (addr / 128 * 128) hdr st) ∧
    (∀ (u i k : Nat) (r : AccReq) (rest : List AccReq), Does m (.rotationSlot u i 0) (m.frozen = false ∧ u < 2 ∧ m.verdict (2175 + 16 * u) 2 0 = (m, 0) ∧ (m.inst u i).q = r :: rest ∧ r.left = some k ∧ 24576 < k) fun m' =>
      m' = m.onInst u i fun x => { x with q := { r with left := some (k - 24576) } :: rest }) ∧
    (∀ (u i k : Nat) (r : AccReq) (rest : List AccReq), Does m (.rotationSlot u i 0) (m.frozen = false ∧ u < 2 ∧ m.verdict (2175 + 16 * u) 2 0 = (m, 0) ∧ (m.inst u i).q = r :: rest ∧ r.left = some k ∧ k ≤ 24576) fun m' =>
      m' = Mach.slotRun u i 16 (m.cmpFinish u i r) (24576 - k) (some false)) ∧
    (∀ (u i : Nat), Does m (.rotationSlot u i 2) (m.frozen = false ∧ 2 ≤ u ∧ m.verdict (2175 + 16 * u + 4) 2 2 = (m, 2)) fun m' =>
      m' = (Mach.endAll 0x3F u i 16 (m.unitError u 0x95 i)).onInst u i fun x => { x with stream := none }) ∧
    (∀ (u i : Nat), Does m (.cmpAbort u i) (m.frozen = false) fun m' =>
      m' = (Mach.endAll 0x16 u i 16 m).onInst u i fun x => { x with stream := if x.q = [] then none else x.stream }) ∧
    (∀ (u i : Nat), Does m (.cryAbort u i) (m.frozen = false) fun m' =>
      m' = (Mach.endAll 0x16 (2 + u) i 16 m).onInst (2 + u) i fun x => { x with stream := if x.q = [] then none else x.stream }) ∧
    (∀ (u i val : Nat), Does m (.wrappingKeyLoad u i val) (m.frozen = false ∧ m.get (R.u_ictl_state (2 + u) i) = 0 ) fun m' =>
      (m'.inst (2 + u) i).wkey = some ((List.range 4).flatMap fun j => toBytes 8 (tget (tset (m.inst (2 + u) i).wpart 3 val) j 0)) ∧ m'.get (R.cryu_kpol_wkset u i) = 1) ∧
    (∀ (u i val : Nat), Does m (.wrappingKeyLoad u i val) (m.frozen = false ∧ m.get (R.u_ictl_state (2 + u) i) ≠ 0 ) fun m' =>
      m' = m.set (R.cryu_kpol_wkerr u i) 1) ∧
    (∀ (u : Nat), Does m (.entropyHealthFailure u) (m.frozen = false ∧ m.get (R.cryu_rbg_state u) ≠ 3) fun m' =>
      m' = ((m.count (R.cryu_rbg_fails u)).set (R.cryu_rbg_state u) 2).unitError (2 + u) 0x97 0) ∧
    (∀ (u : Nat), Does m (.entropyRestartEnd u true) (m.frozen = false ∧ (m.get (R.cryu_rbg_state u) = 0 ∨ m.get (R.cryu_rbg_state u) = 2)) fun m' =>
      m' = ({ m with acc := { m.acc with rbgFails := tset m.acc.rbgFails u 0 } } : Mach).set (R.cryu_rbg_state u) 1) ∧
    (∀ (u : Nat), Does m (.entropyRestartEnd u false) (m.frozen = false ∧ (m.get (R.cryu_rbg_state u) = 0 ∨ m.get (R.cryu_rbg_state u) = 2) ∧ 2 ≤ tget m.acc.rbgFails u 0) fun m' =>
      m' = (({ m with acc := { m.acc with rbgFails := tset m.acc.rbgFails u (tget m.acc.rbgFails u 0 + 1) } } : Mach).set (R.cryu_rbg_state u) 3).unitError (2 + u) 0x98 0) ∧
    (∀ (id : Nat) (r : Removal) (rest : List Removal), Does m (.mtuRemoval id) (m.frozen = false ∧ m.shoot.mtu = r :: rest ∧ r.id = id) fun m' =>
      m' = ({ m with shoot := { m.shoot with mtu := rest }, acc := { m.acc with tlb := m.acc.tlb.filter (fun (x : Nat × TlbE) => !r.hits x.2), walk1 := m.acc.walk1.filter (fun (x : Nat × WalkE) => x.2.tag != r.tag), walk2 := m.acc.walk2.filter (fun (x : Nat × WalkE) => x.2.tag != r.tag) } } : Mach).ackRemoval id 48) ∧
    (∀ (u line : Nat) (y : LogLine), Does m (.logCacheWriteback u line) (m.frozen = false ∧ ((tget m.acc.log u []).find? fun y => y.line == line) = some y) fun m' =>
      m' = m.logOut u y)

/-- A command of `chan.scmd`, and one of `chan.rsv.cmd`, has been taken: its fields are shown with `go`. -/
abbrev subTaken (m : Mach) (scid op path : Nat) : Mach :=
  m.sets [(R.chan_scmd_scid, scid), (R.chan_scmd_op, op), (R.chan_scmd_path, path), (R.chan_scmd_go, 1)]
abbrev rsvTaken (m : Mach) (slot op : Nat) : Mach := m.sets [(R.chan_rsv_cmd_slot, slot), (R.chan_rsv_cmd_op, op), (R.chan_rsv_cmd_go, 1)]

/-- The function block of a start page, as partition `p` has it at `blk`, and the machine after the read. -/
abbrev blockRead (m : Mach) (p addr pend : Nat) : Mach × List Nat × Option AccErr :=
  (m.set (R.chan_p_stat_pending p) pend).whoRead ((m.set (R.chan_p_stat_pending p) pend).partWho p) (addr / 128 * 128) 64

/-- Functions and commands of subchannels, confirmations, holds, exchange timeouts and path probes (16_channel_subsystem.md, R443, R444, R447, R448, R449, R464, R465, R467, R484, R491). -/
def Obligations.ChannelFunctions : Prop :=
  ∀ (m : Mach), 
    (∀ (p addr pend st d : Nat), Does m (.channelSubmit p addr pend) (m.frozen = false ∧ (blockRead m p addr pend).2.2.isNone = true ∧ (blockRead m p addr pend).1.fnRefusal p pend (blockRead m p addr pend).2.1 = some (st, d) ∧ st ≠ 0x12 ∧ st ≠ 0x16) fun m' =>
      m' = (blockRead m p addr pend).1.refuseFn p (addr / 128 * 128) (blockRead m p addr pend).2.1 st d) ∧
    (∀ (p addr pend : Nat), Does m (.channelSubmit p addr pend) (m.frozen = false ∧ (blockRead m p addr pend).2.2.isNone = true ∧ (blockRead m p addr pend).1.fnRefusal p pend (blockRead m p addr pend).2.1 = none ∧ hdrF (blockRead m p addr pend).2.1 0 1 = 1) fun m' =>
      m' = (blockRead m p addr pend).1.startFn p (addr / 128 * 128) (blockRead m p addr pend).2.1) ∧
    (∀ (scid : Nat), Does m (.subchannelDefine scid) (m.frozen = false ∧ m.chan.tableOk = false) fun m' =>
      m' = (subTaken m scid 1 0).scmdDone 7) ∧
    (∀ (scid a : Nat), Does m (.subchannelDefine scid) (m.frozen = false ∧ m.chan.tableOk = true ∧ a = (subTaken m scid 1 0).get R.chan_scmda_addr * 128 ∧ ((subTaken m scid 1 0).desc scid).elim false (fun d => d.valid && d.enabled) = false ∧ (subTaken m scid 1 0).devRange .acc a 64 = none ∧ (subTaken m scid 1 0).devPoison a 64 = false ∧ descBad ((subTaken m scid 1 0).devRead a 64) = false) fun m' =>
      m' = ({ (subTaken m scid 1 0).devWrite ((subTaken m scid 1 0).sctAt scid) ([((subTaken m scid 1 0).devRead a 64).headD 0 % 2] ++ ((subTaken m scid 1 0).devRead a 64).drop 1 ++ List.replicate 64 0) with
        chan := { m.chan with subs := tdel m.chan.subs scid } } : Mach).scmdDone 1) ∧
    (∀ (scid : Nat) (d : ChDesc), Does m (.subchannelEnable scid) (m.frozen = false ∧ m.chan.tableOk = true ∧ (subTaken m scid 2 0).sctBad scid = false ∧ (subTaken m scid 2 0).desc scid = some d ∧ d.valid = true ∧ d.enabled = false) fun m' =>
      m' = (((subTaken m scid 2 0).sctByte0 scid 2 0).setSub scid { ((subTaken m scid 2 0).sctByte0 scid 2 0).sub scid with paths := List.replicate 8 ⟨2, 0, true⟩ }).scmdDone 1) ∧
    (∀ (scid : Nat) (d : ChDesc), Does m (.subchannelDisable scid) (m.frozen = false ∧ m.chan.tableOk = true ∧ (subTaken m scid 3 0).sctBad scid = false ∧ (subTaken m scid 3 0).desc scid = some d ∧ d.valid = true ∧ d.enabled = true ∧ (subTaken m scid 3 0).subIdle scid = true) fun m' =>
      m' = ((subTaken m scid 3 0).sctByte0 scid 0 2).scmdDone 1) ∧
    (∀ (scid : Nat) (d : ChDesc), Does m (.subchannelDisable scid) (m.frozen = false ∧ m.chan.tableOk = true ∧ (subTaken m scid 3 0).sctBad scid = false ∧ (subTaken m scid 3 0).desc scid = some d ∧ d.valid = true ∧ d.enabled = true ∧ (subTaken m scid 3 0).subIdle scid = false) fun m' =>
      m' = (subTaken m scid 3 0).scmdDone 3) ∧
    (∀ (scid a : Nat), Does m (.subchannelQuery scid) (m.frozen = false ∧ m.chan.tableOk = true ∧ (subTaken m scid 4 0).sctBad scid = false ∧ a = (subTaken m scid 4 0).get R.chan_scmda_addr * 128 ∧ (subTaken m scid 4 0).devRange .acc a 128 = none) fun m' =>
      m' = ((subTaken m scid 4 0).devWrite a ((subTaken m scid 4 0).queryBlock scid)).scmdDone 1) ∧
    (∀ (scid path : Nat) (d : ChDesc), Does m (.varyOffline scid path) (m.frozen = false ∧ m.chan.tableOk = true ∧ (subTaken m scid 5 path).sctBad scid = false ∧ (subTaken m scid 5 path).desc scid = some d ∧ d.valid = true ∧ path < d.n ∧ (subTaken m scid 5 path).leavesNone scid path = false) fun m' =>
      m' = ((subTaken m scid 5 path).setPath scid path ⟨3, 5, false⟩).scmdDone 1) ∧
    (∀ (scid path : Nat) (d : ChDesc), Does m (.varyOffline scid path) (m.frozen = false ∧ m.chan.tableOk = true ∧ (subTaken m scid 5 path).sctBad scid = false ∧ (subTaken m scid 5 path).desc scid = some d ∧ d.valid = true ∧ d.n ≤ path) fun m' =>
      m' = (subTaken m scid 5 path).scmdDone 4) ∧
    (∀ (scid path : Nat) (d : ChDesc), Does m (.varyOnline scid path) (m.frozen = false ∧ m.chan.tableOk = true ∧ (subTaken m scid 6 path).sctBad scid = false ∧ (subTaken m scid 6 path).desc scid = some d ∧ d.valid = true ∧ path < d.n ∧ ((subTaken m scid 6 path).pathSt scid path).st = 3) fun m' =>
      m' = ((subTaken m scid 6 path).setPath scid path ⟨2, 0, true⟩).scmdDone 1) ∧
    (∀ (scid : Nat) (d : ChDesc), Does m (.subchannelUndefine scid) (m.frozen = false ∧ m.chan.tableOk = true ∧ (subTaken m scid 7 0).sctBad scid = false ∧ (subTaken m scid 7 0).desc scid = some d ∧ d.valid = true ∧ d.enabled = false) fun m' =>
      m' = ((subTaken m scid 7 0).sctByte0 scid 0 1).scmdDone 1) ∧
    (∀ (slot : Nat) (x : ChOp), Does m (.recordConfirmed slot 0) (m.frozen = false ∧ m.opOf slot = some x ∧ x.unconf = true ∧ x.mack = false ∧ x.slot = slot ∧ x.due = .halt) fun m' =>
      m'.opOf slot = some { x with unconf := false, run := .halt, due := .nothing } ∧ m'.get R.chan_rsv_cnt_upd = (m.get R.chan_rsv_cnt_upd + 1) % 2 ^ 64) ∧
    (∀ (slot : Nat) (x : ChOp), Does m (.holdExpired slot) (m.frozen = false ∧ m.opOf slot = some x ∧ x.st = 2 ∧ (m.cpOf x.scid).isSome = true) fun m' =>
      m' = (m.chanError 0xA6 x.scid 0 x.cp 0).finish { x with path := 255 } 4) ∧
    (∀ (slot scid : Nat) (x : ChOp), Does m (.exchangeTimeout slot scid) (m.frozen = false ∧ slot ≠ 0 ∧ m.opOf slot = some x ∧ x.path < 8 ∧ x.st = 1 ∧ x.run = .busy) fun m' =>
      m' = m.failPath x.scid x.path 2) ∧
    (∀ (scid k port : Nat), Does m (.pathProbeInterval scid k) (m.frozen = false ∧ (m.pathSt scid k).st = 2 ∧ port = (m.desc scid).elim 255 (fun d => pathPort d.paths k) ∧ m.jlChan port = true ∧ m.jlUp port = true) fun m' =>
      m' = m.setPath scid k { m.pathSt scid k with due := true }) ∧
    (∀ (slot k : Nat) (x : ChOp), Does m (.deviceBusyWaitEnd slot) (m.frozen = false ∧ m.opOf slot = some x ∧ x.run = .wait ∧ x.busy.head? = some k ∧ m.usable x k = true) fun m' =>
      m' = m.setOp { x with path := k, busy := [], run := .cmd })

/-- Frames to and from a device, and the commands of the Reservoir (16_channel_subsystem.md, 17_jalper_link_and_reservoir.md, R455, R456, R464, R469, R484, R485, R491, R493). -/
def Obligations.ChannelFrames : Prop :=
  ∀ (m : Mach), 
    (∀ (slot : Nat) (x : ChOp) (w : ChWord), Does m (.cmd slot) (m.frozen = false ∧ m.opOf slot = some x ∧ x.word = some w ∧ w.mark = false ∧ x.st = 1 ∧ x.run = .cmd ∧ x.path < 8 ∧ m.jlUp (pathPort x.paths x.path) = true) fun m' =>
      m' = ((m.opFrame x x.path 1 { XFrame.zero with pos := x.ended, a := w.total, b := w.kind, dcmd := w.dcmd, flags := b2n x.redrive }).setSub x.scid
        { (m.opFrame x x.path 1 { XFrame.zero with pos := x.ended, a := w.total, b := w.kind, dcmd := w.dcmd, flags := b2n x.redrive }).sub x.scid with last := x.path }).setOp { x with run := .busy, moved := 0 }) ∧
    (∀ (slot : Nat) (x : ChOp) (w : ChWord) (m1 : Mach) (b : List Nat), Does m (.wdata slot) (m.frozen = false ∧ m.opOf slot = some x ∧ x.word = some w ∧ w.kind = 2 ∧ x.moved < w.total ∧ x.st = 1 ∧ x.run = .busy ∧ m.jlUp (pathPort x.paths x.path) = true ∧ (m.readPieces x.part (extPieces w.exts x.moved (min 4096 (w.total - x.moved)))).2.2.isNone = true ∧ (m.readPieces x.part (extPieces w.exts x.moved (min 4096 (w.total - x.moved)))).1 = m1 ∧ (m.readPieces x.part (extPieces w.exts x.moved (min 4096 (w.total - x.moved)))).2.1 = b) fun m' =>
      m' = (m1.opFrame x x.path 2 { XFrame.zero with pos := x.ended, a := x.moved, flags := if w.total ≤ x.moved + min 4096 (w.total - x.moved) then 4 else 0, data := b }).setOp { x with moved := x.moved + min 4096 (w.total - x.moved) }) ∧
    (∀ (slot : Nat) (x : ChOp), Does m (.halt slot) (m.frozen = false ∧ m.opOf slot = some x ∧ x.run = .halt ∧ x.unconf = false ∧ x.st = 1 ∧ x.path < 8 ∧ m.jlUp (pathPort x.paths x.path) = true) fun m' =>
      m' = (m.opFrame x x.path 3 { XFrame.zero with pos := x.ended }).setOp { x with run := .halta }) ∧
    (∀ (scid k : Nat) (d : ChDesc), Does m (.clear 0 scid) (m.frozen = false ∧ (m.sub scid).clrPath = some (k, 0, false) ∧ m.desc scid = some d ∧ (m.pathSt scid k).st = 1 ∧ m.jlUp (pathPort d.paths k) = true) fun m' =>
      m' = (m.jlSend (pathPort d.paths k) 4 { XFrame.zero with addr := pathAddr d.paths k }).setSub scid { m.sub scid with clrPath := some (k, 0, true) }) ∧
    (∀ (scid k : Nat) (d : ChDesc), Does m (.identCmd scid k) (m.frozen = false ∧ m.desc scid = some d ∧ d.valid = true ∧ d.enabled = true ∧ (m.pathSt scid k).st = 2 ∧ (m.pathSt scid k).due = true ∧ m.jlChan (pathPort d.paths k) = true ∧ m.jlUp (pathPort d.paths k) = true) fun m' =>
      m' = (m.jlSend (pathPort d.paths k) 5 { XFrame.zero with addr := pathAddr d.paths k }).setPath scid k { m.pathSt scid k with due := false }) ∧
    (∀ (slot k : Nat) (x : ChOp), Does m (.close slot false) (m.frozen = false ∧ m.opOf slot = some x ∧ x.st = 4 ∧ x.run = .close ∧ x.owedClear = false ∧ x.owedHalt = false ∧ x.unconf = false ∧ m.closePath x = some k ∧ m.jlUp (pathPort x.paths k) = true) fun m' =>
      m' = (m.opFrame x k 6 { XFrame.zero with pos := x.ended }).setOp { x with run := .closed, path := k }) ∧
    (∀ (port : Nat) (f : XFrame) (x : ChOp) (w : ChWord), Does m (.rdata port f) (m.frozen = false ∧ m.jlUp port = true ∧ m.xchg port f = some x ∧ x.word = some w ∧ w.kind = 3 ∧ x.onDevice = true ∧ f.pos = x.ended ∧ f.a = x.moved ∧ f.data ≠ [] ∧ (m.writePieces x.part (extPieces w.exts x.moved (min f.data.length (w.total - x.moved))) f.data).2.isNone = true) fun m' =>
      m' = (m.writePieces x.part (extPieces w.exts x.moved (min f.data.length (w.total - x.moved))) f.data).1.setOp { x with moved := x.moved + f.data.length }) ∧
    (∀ (port : Nat) (f : XFrame) (x : ChOp) (w : ChWord), Does m (.endCmd port f) (m.frozen = false ∧ m.jlUp port = true ∧ m.xchg port f = some x ∧ x.word = some w ∧ w.kind = 1 ∧ x.onDevice = true ∧ f.pos = x.ended ∧ x.run = .busy ∧ bit x.flags 1 = false ∧ bit f.dstat 6 = true) fun m' =>
      m' = m.finish { x with dev := f.dstat, sense := f.sense.take 16, resid := 0, ended := x.ended + 1, pos := x.ended + 1, next := w.at_ + 16, word := none, redrive := false, detail := 0 } 1) ∧
    (∀ (port : Nat) (f : XFrame) (x : ChOp), Does m (.busy port f) (m.frozen = false ∧ m.jlUp port = true ∧ m.xchg port f = some x ∧ x.st = 1 ∧ x.run = .busy ∧ f.pos = x.ended ∧ m.pickPath x (x.busy ++ [x.path]) = none) fun m' =>
      m' = m.setOp { x with busy := x.busy ++ [x.path], run := .wait }) ∧
    (∀ (port : Nat) (f : XFrame) (x : ChOp), Does m (.free port f) (m.frozen = false ∧ m.jlUp port = true ∧ m.chan.ops = [(x.slot, x)] ∧ x.run = .wait ∧ (m.pathSt x.scid 0).st ≠ 0 ∧ pathPort x.paths 0 = port ∧ pathAddr x.paths 0 = f.addr) fun m' =>
      m' = m.retryBusy x) ∧
    (∀ (port : Nat) (f : XFrame) (x : ChOp), Does m (.halta port f) (m.frozen = false ∧ m.jlUp port = true ∧ m.xchg port f = some x ∧ x.run = .halta ∧ x.st = 1 ∧ x.word = none ∧ x.stop = 0) fun m' =>
      m' = m.finish { x with detail := 0 } 2) ∧
    (∀ (port : Nat) (f : XFrame) (c : ChSub) (k : Nat) (d : ChDesc), Does m (.cleara port f) (m.frozen = false ∧ m.jlUp port = true ∧ m.chan.subs = [(0, c)] ∧ c.clear.isSome = true ∧ c.clrPath = some (k, f.xid, true) ∧ m.desc 0 = some d ∧ pathPort d.paths k = port ∧ pathAddr d.paths k = f.addr) fun m' =>
      m' = m.clearDone 0) ∧
    (∀ (port : Nat) (f : XFrame) (sc k : Nat), Does m (.identr port f) (m.frozen = false ∧ m.jlUp port = true ∧ m.pathsAt port f.addr = [(sc, k)]) fun m' =>
      m' = m.pathUp sc k) ∧
    (∀ (port : Nat) (f : XFrame) (x : ChOp), Does m (.rej port f) (m.frozen = false ∧ m.jlUp port = true ∧ m.xchg port f = some x ∧ (m.pathSt x.scid x.path).st = 1) fun m' =>
      m' = m.failPath x.scid x.path 3) ∧
    (∀ (port : Nat) (f : XFrame), Does m (.keep port f) (True) fun m' =>
      m' = m) ∧
    (∀ (slot : Nat), Does m (.reservoirAdopt slot) (m.frozen = false ∧ m.rsvOk = false ∧ tfind m.chan.slots slot = none) fun m' =>
      m' = (rsvTaken m slot 1).rcmdDone 2) ∧
    (∀ (slot : Nat), Does m (.reservoirAdopt slot) (m.frozen = false ∧ (rsvTaken m slot 1).rsvOk = true ∧ slot < (rsvTaken m slot 1).rsvSlots ∧ tfind m.chan.slots slot = some 5) fun m' =>
      m' = (rsvTaken m slot 1).rsvAdopt slot) ∧
    (∀ (slot : Nat), Does m (.reservoirRelease slot) (m.frozen = false ∧ (rsvTaken m slot 2).rsvOk = true ∧ slot < (rsvTaken m slot 2).rsvSlots ∧ (tfind m.chan.slots slot = some 5 ∨ tfind m.chan.slots slot = some 6)) fun m' =>
      m' = ((rsvTaken m slot 2).freeRec (recOp slot 0 ((rsvTaken m slot 2).slotBytes slot))).rcmdDone 1) ∧
    (∀ (slot a : Nat), Does m (.reservoirQuery slot) (m.frozen = false ∧ (rsvTaken m slot 3).rsvOk = true ∧ slot < (rsvTaken m slot 3).rsvSlots ∧ a = (rsvTaken m slot 3).get R.chan_rsv_cmda_addr * 256 ∧ (rsvTaken m slot 3).devCheck .chan a = none) fun m' =>
      m' = ((rsvTaken m slot 3).devWrite a ((rsvTaken m slot 3).slotBytes slot)).rcmdDone 1)

/-- Training of Jalper and coupling links: the pattern, equalisation, TS cells, INIT, and the port requests down and up (17_jalper_link_and_reservoir.md, R473, R480, R486, R487, R488). -/
def Obligations.JalperTraining : Prop :=
  ∀ (m : Mach), 
    (∀ (port : Nat), Does m (.jlTrainingStart port) (m.jlMayTrain port = true) fun m' =>
      m'.jlState port = 1 ∧ m'.get (jlFailedF port) = 0 ∧ m'.jlP port = { m.jlP port with cap := m.jlTop port, far := 0, target := 0, gap := false }) ∧
    (∀ (port : Nat), Does m (.jlTrainingStart port) (m.jlMayTrain port = false) fun m' =>
      m' = m) ∧
    (∀ (port locked w first : Nat), Does m (.jlEqualisationEnd port locked) (m.jlMayTrain port = true ∧ m.jlState port = 1 ∧ widthOf ((2 ^ m.jlFull port - 1) ^^^ (locked % 2 ^ m.jlFull port)) (m.jlFull port) (m.jlFull port) = some (w, first)) fun m' =>
      m' = ((m.set (jlFailedF port) ((2 ^ m.jlFull port - 1) ^^^ (locked % 2 ^ m.jlFull port))).jlSetWidth port w first).set (jlStateF port) 2) ∧
    (∀ (port locked w first : Nat), Does m (.jlEqualisationEnd port locked) (m.jlMayTrain port = true ∧ m.jlState port = 4 ∧ widthOf ((2 ^ m.jlFull port - 1) ^^^ (locked % 2 ^ m.jlFull port)) (m.jlFull port) (m.jlFull port) = some (w, first)) fun m' =>
      m' = ((m.set (jlFailedF port) ((2 ^ m.jlFull port - 1) ^^^ (locked % 2 ^ m.jlFull port))).jlSetWidth port w first).set (jlStateF port) 5) ∧
    (∀ (port : Nat), Does m (.jlEqualisationEnd port 0) (m.jlMayTrain port = true ∧ m.jlState port = 1) fun m' =>
      m' = (m.set (jlFailedF port) (2 ^ m.jlFull port - 1)).jlNoLink port 9) ∧
    (∀ (port : Nat), Does m (.jlEqualisationEnd port 0) (m.jlMayTrain port = true ∧ port < 32 ∧ m.jlState port = 4 ∧ 1 < (m.jlP port).target) fun m' =>
      m'.jlState port = 1 ∧ (m'.jlP port).cap = (m.jlP port).target - 1) ∧
    (∀ (port gens : Nat), Does m (.jlTs port gens) (m.jlMayTrain port = true ∧ port < 32 ∧ m.jlState port = 2) fun m' =>
      (m'.jlP port).far = (if bit gens 2 then 3 else if bit gens 1 then 2 else 1) ∧ (m'.jlP port).target = min (m.jlP port).cap (if bit gens 2 then 3 else if bit gens 1 then 2 else 1) ∧ m'.jlState port = (if (m'.jlP port).target = 1 then 5 else 3)) ∧
    (∀ (port gens : Nat), Does m (.jlTs port gens) (m.jlMayTrain port = true ∧ m.jlState port = 3) fun m' =>
      m' = m.set (jlStateF port) 4) ∧
    (∀ (port vendor part maxx frames cells : Nat), Does m (.jlInit port vendor part maxx frames cells) (m.jlMayTrain port = true ∧ m.jlState port = 5 ∧ 32 ≤ frames ∧ 1024 ≤ cells ∧ m.chan.subs = [] ∧ (m.jlP port).far ≤ (m.jlP port).target) fun m' =>
      m'.jlState port = 6 ∧ (m'.jlP port).link = (⟨0, 0, [], [], [frames, cells], false, []⟩ : LinkSt TFrame) ∧ (m'.jlP port).grant = (frames, cells) ∧ (m'.jlP port).upReq = false) ∧
    (∀ (port vendor part maxx frames cells : Nat), Does m (.jlInit port vendor part maxx frames cells) (m.jlMayTrain port = true ∧ m.jlState port = 5 ∧ (frames < 32 ∨ cells < 1024) ∧ (m.jlP port).upReq = false) fun m' =>
      m'.jlState port = 8 ∧ m'.jlWidth port = 0) ∧
    (∀ (port : Nat), Does m (.jlNarrowingDone port) (m.frozen = false ∧ m.jlState port = 7 ∧ (m.jlP port).link.waiting = []) fun m' =>
      m'.jlState port = 6 ∧ (m'.jlP port).link = (m.jlP port).link ∧ (m.jlP port).link.replay.length + m.sent.length = m'.sent.length) ∧
    (∀ (port : Nat), Does m (.jlPortDown port) (m.frozen = false ∧ m.jlChan port = true ∧ m.mode_ = 6 ∧ (m.jlP port).upReq = false ∧ m.blkDown (80 + port) = false) fun m' =>
      m' = m.portOff port) ∧
    (∀ (port : Nat), Does m (.jlPortDown port) (m.frozen = false ∧ m.jlChan port = true ∧ m.mode_ ≠ 6) fun m' =>
      m' = m.sets [(R.chan_jl_ctl_down port, 0), (R.chan_jl_stat_res port, 2)]) ∧
    (∀ (port : Nat), Does m (.jlPortUp port) (m.frozen = false ∧ m.jlChan port = true ∧ m.mode_ = 6 ∧ (m.jlP port).upReq = false ∧ m.blkDown (80 + port) = false ∧ (m.jlP port).fenced = true) fun m' =>
      m'.jlState port = 1 ∧ (m'.jlP port).fenced = false ∧ (m'.jlP port).upReq = true ∧ m'.get (R.chan_jl_ctl_up port) = 1) ∧
    (∀ (port : Nat), Does m (.jlPortUp port) (m.frozen = false ∧ m.jlChan port = true ∧ m.mode_ = 6 ∧ (m.jlP port).upReq = false ∧ m.blkDown (80 + port) = false ∧ (m.jlP port).fenced = false) fun m' =>
      m' = m.sets [(R.chan_jl_ctl_up port, 0), (R.chan_jl_stat_res port, 3)]) ∧
    (∀ (port : Nat), Does m (.couplingPortDown port) (m.frozen = false ∧ m.mode_ = 6 ∧ (m.jlP (32 + port)).upReq = false ∧ m.blkDown (80 + (32 + port)) = false) fun m' =>
      m' = m.portOff (32 + port)) ∧
    (∀ (port : Nat), Does m (.couplingPortUp port) (m.frozen = false ∧ m.mode_ = 6 ∧ (m.jlP (32 + port)).upReq = false ∧ m.blkDown (80 + (32 + port)) = false ∧ (m.jlP (32 + port)).fenced = true) fun m' =>
      m'.jlState (32 + port) = 1 ∧ (m'.jlP (32 + port)).fenced = false ∧ (m'.jlP (32 + port)).cap = 3 ∧ m'.get (R.cpl_p_ctl_up port) = 1)

/-- Codewords, replay, lane failures and loss of a Jalper or coupling link (17_jalper_link_and_reservoir.md, R475, R476, R478, R479, R481, R486). -/
def Obligations.JalperLinks : Prop :=
  ∀ (m : Mach), 
    (∀ (port hdr : Nat) (bytes : List Nat) (fixed : Bool), Does m (.jlCodeword port hdr bytes fixed false) (m.frozen = false ∧ m.jlUp port = true) fun m' =>
      m' = m.onJlP port fun x => { x with gap := true, link := { x.link with rx := [] } }) ∧
    (∀ (port hdr : Nat) (bytes : List Nat), Does m (.jlCodeword port hdr bytes true true) (m.frozen = false ∧ m.jlUp port = true ∧ (m.jlP port).gap = false) fun m' =>
      m' = (m.count (jlFeccF port)).jlCells port 10 (descramble bytes)) ∧
    (∀ (port hdr : Nat) (bytes : List Nat), Does m (.jlCodeword port hdr bytes true true) (m.frozen = false ∧ m.jlUp port = true ∧ ((m.count (jlFeccF port)).jlP port).gap = true ∧ 9 < bits hdr 7 4) fun m' =>
      m' = m.count (jlFeccF port)) ∧
    (∀ (port : Nat), Does m (.jlReplayTimeout port) (m.frozen = false ∧ m.jlState port = 6 ∧ (m.jlP port).link.replay ≠ [] ∧ ((m.jlP port).link.replay.all fun (y : Nat × Nat × TFrame) => decide (y.2.1 < 7)) = true) fun m' =>
      (m'.jlP port).link = { (m.jlP port).link with replay := (m.jlP port).link.replay.map fun (y : Nat × Nat × TFrame) => (y.1, y.2.1 + 1, y.2.2) } ∧ m'.jlState port = 6) ∧
    (∀ (port : Nat), Does m (.jlReplayTimeout port) (m.frozen = false ∧ m.jlState port = 6 ∧ ((m.jlP port).link.replay.any fun (y : Nat × Nat × TFrame) => decide (8 ≤ y.2.1 + 1)) = true) fun m' =>
      m'.jlState port = 7) ∧
    (∀ (port : Nat), Does m (.jlReplayTimeout port) (m.jlState port = 6 ∧ (m.jlP port).link.replay = []) fun m' =>
      m' = m) ∧
    (∀ (port lane w first : Nat), Does m (.jlLaneFailure port lane) (m.frozen = false ∧ m.jlUp port = true ∧ lane < m.jlFull port ∧ bit (m.get (jlFailedF port)) lane = false ∧ widthOf (m.get (jlFailedF port) ||| 2 ^ lane) (m.jlFull port) ((m.set (jlFailedF port) (m.get (jlFailedF port) ||| 2 ^ lane)).jlWidth port) = some (w, first) ∧ w < (m.set (jlFailedF port) (m.get (jlFailedF port) ||| 2 ^ lane)).jlWidth port) fun m' =>
      m' = ((((m.set (jlFailedF port) (m.get (jlFailedF port) ||| 2 ^ lane)).jlSetWidth port w first).set (jlStateF port) 7).jlControl port 0x03 [w, first]).jlError port 0xB0) ∧
    (∀ (port lane : Nat), Does m (.jlLaneFailure port lane) (m.frozen = false ∧ m.jlUp port = true ∧ lane < m.jlFull port ∧ bit (m.get (jlFailedF port)) lane = false ∧ widthOf (m.get (jlFailedF port) ||| 2 ^ lane) (m.jlFull port) ((m.set (jlFailedF port) (m.get (jlFailedF port) ||| 2 ^ lane)).jlWidth port) = none) fun m' =>
      m' = (m.set (jlFailedF port) (m.get (jlFailedF port) ||| 2 ^ lane)).linkDown port 0) ∧
    (∀ (port w first : Nat), Does m (.jlLanemap port w first) (m.frozen = false ∧ m.jlUp port = true ∧ (w = 1 ∨ w = 2 ∨ w = 4 ∨ w = 8) ∧ first % w = 0 ∧ first + w ≤ m.jlFull port ∧ w ≤ m.jlWidth port) fun m' =>
      m' = ((m.jlSetWidth port w first).set (jlStateF port) 7).jlError port 0xB0) ∧
    (∀ (port : Nat), Does m (.jlLinkDown port) (m.frozen = false ∧ m.jlUp port = true) fun m' =>
      m' = m.linkDown port 0)

/-- Completions, timeouts, and the requests and messages that a PCIe root port receives (18_pcie_ports_and_hotplug.md, R499, R503, R504, R505, R506, R507, R515). -/
def Obligations.PcieTransactions : Prop :=
  ∀ (m : Mach), 
    (∀ (port tag data : Nat) (l : PcieLoad), Does m (.pcieCompletion port tag data true false) (m.frozen = false ∧ m.sealed = true ∧ m.isRoot port = true ∧ m.pcieUp port = true ∧ ((m.pport port).loads.find? fun (x : PcieLoad) => x.tag == tag) = some l) fun m' =>
      m' = m.pcieAnswer port tag (data % 2 ^ (8 * l.len)) ∧ ((m'.pport port).loads.find? fun (x : PcieLoad) => x.tag == tag) = none) ∧
    (∀ (port tag data : Nat) (l : PcieLoad), Does m (.pcieCompletion port tag data true true) (m.frozen = false ∧ m.sealed = true ∧ m.isRoot port = true ∧ m.pcieUp port = true ∧ ((m.pport port).loads.find? fun (x : PcieLoad) => x.tag == tag) = some l) fun m' =>
      m' = (m.pcieError port 0xC7 l.addr).pcieAnswer port tag poisonMark) ∧
    (∀ (port tag data : Nat) (l : PcieLoad), Does m (.pcieCompletion port tag data false false) (m.frozen = false ∧ m.sealed = true ∧ m.isRoot port = true ∧ m.pcieUp port = true ∧ ((m.pport port).loads.find? fun (x : PcieLoad) => x.tag == tag) = some l) fun m' =>
      m' = (m.pcieAnswer port tag (2 ^ (8 * l.len) - 1)).pcieError port 0xC4 l.addr) ∧
    (∀ (port tag : Nat) (l : PcieLoad), Does m (.pcieCompletionTimeout port tag) (m.frozen = false ∧ m.sealed = true ∧ m.isRoot port = true ∧ ((m.pport port).loads.find? fun (x : PcieLoad) => x.tag == tag) = some l) fun m' =>
      m' = (m.pcieAnswer port tag (2 ^ (8 * l.len) - 1)).pcieError port 0xC4 l.addr) ∧
    (∀ (port rid tag addr len pa : Nat) (m1 : Mach), Does m (.pcieInboundMemoryRead port rid tag addr len) (m.frozen = false ∧ m.sealed = true ∧ m.isRoot port = true ∧ m.pcieUp port = true ∧ m.blkDown (80 + port) = false ∧ 0 < len ∧ addr % 4096 + len ≤ 4096 ∧ (m.decodeIn port addr false false) = (m1, .at_ pa) ∧ m1.devPoison pa len = false) fun m' =>
      m' = m1.sendCpl port tag 0 false (m1.devRead pa len)) ∧
    (∀ (port rid tag addr len c : Nat) (m1 : Mach), Does m (.pcieInboundMemoryRead port rid tag addr len) (m.frozen = false ∧ m.sealed = true ∧ m.isRoot port = true ∧ m.pcieUp port = true ∧ m.blkDown (80 + port) = false ∧ 0 < len ∧ addr % 4096 + len ≤ 4096 ∧ (m.decodeIn port addr false false) = (m1, .ur c)) fun m' =>
      m' = (m1.pcieError port c addr rid).sendCpl port tag 1 false []) ∧
    (∀ (port rid tag addr len : Nat), Does m (.pcieInboundMemoryRead port rid tag addr len) (m.frozen = false ∧ m.sealed = true ∧ m.isRoot port = true ∧ m.pcieUp port = true ∧ m.blkDown (80 + port) = false ∧ 4096 < addr % 4096 + len ∧ m.on (R.pcie_p_stat_pwr port) = true) fun m' =>
      m' = m.contain port 0xC9) ∧
    (∀ (port rid addr pa : Nat) (bytes : List Nat) (m1 : Mach), Does m (.pcieInboundMemoryWrite port rid addr bytes false) (m.frozen = false ∧ m.sealed = true ∧ m.isRoot port = true ∧ m.pcieUp port = true ∧ m.blkDown (80 + port) = false ∧ bytes ≠ [] ∧ bytes.length ≤ 512 ∧ addr % 4096 + bytes.length ≤ 4096 ∧ (m.decodeIn port addr true true) = (m1, .at_ pa)) fun m' =>
      m' = m1.devWrite pa bytes) ∧
    (∀ (port rid addr : Nat) (bytes : List Nat), Does m (.pcieInboundMemoryWrite port rid addr bytes false) (m.frozen = false ∧ m.sealed = true ∧ m.isRoot port = true ∧ m.pcieUp port = true ∧ m.blkDown (80 + port) = false ∧ bytes ≠ [] ∧ bytes.length ≤ 512 ∧ addr % 4096 + bytes.length ≤ 4096 ∧ 0x000fe00000100000 ≤ addr ∧ addr < 0x000fe000001f0000) fun m' =>
      m' = m.ringPage ((addr - 0x000fe00000100000) / 4096) (addr % 4096) bytes.length (ofBytes bytes)) ∧
    (∀ (port rid addr : Nat) (bytes : List Nat), Does m (.pcieInboundMemoryWrite port rid addr bytes false) (m.frozen = false ∧ m.sealed = true ∧ m.isRoot port = true ∧ m.pcieUp port = true ∧ m.blkDown (80 + port) = false ∧ bytes ≠ [] ∧ bytes.length ≤ 512 ∧ addr % 4096 + bytes.length ≤ 4096 ∧ 0x000fe000001f0000 ≤ addr ∧ addr < 0x000fe00000200000) fun m' =>
      m' = m.dbellError 0xE5 0xFF 0) ∧
    (∀ (port rid tag addr op n a b pa : Nat) (m1 : Mach), Does m (.pcieInboundAtomicop port rid tag addr op n a b) (m.frozen = false ∧ m.sealed = true ∧ m.isRoot port = true ∧ m.pcieUp port = true ∧ m.blkDown (80 + port) = false ∧ (n = 4 ∨ n = 8 ∨ (n = 16 ∧ op = 2)) ∧ addr % n = 0 ∧ (m.decodeIn port addr true false) = (m1, .at_ pa) ∧ m1.devPoison pa n = false) fun m' =>
      m' = (m1.devWrite pa (toBytes n (atomicResult op n (ofBytes (m1.devRead pa n)) (a % 2 ^ (8 * n)) (b % 2 ^ (8 * n))))).sendCpl port tag 0 false (m1.devRead pa n)) ∧
    (∀ (port rid tag addr : Nat), Does m (.pcieInboundUnsupported port rid tag addr) (m.frozen = false ∧ m.sealed = true ∧ m.isRoot port = true ∧ m.pcieUp port = true ∧ m.blkDown (80 + port) = false) fun m' =>
      m' = (m.pcieError port 0xC5 addr rid).sendCpl port tag 1 false []) ∧
    (∀ (port rid : Nat), Does m (.pcieErrorMessage port rid 0) (m.frozen = false ∧ m.sealed = true ∧ m.isRoot port = true ∧ m.pcieUp port = true ∧ m.blkDown (80 + port) = false) fun m' =>
      m' = (m.count (R.pcie_p_cnt_corr port)).pcieError port 0xC0 0 rid) ∧
    (∀ (port rid : Nat), Does m (.pcieErrorMessage port rid 1) (m.frozen = false ∧ m.sealed = true ∧ m.isRoot port = true ∧ m.pcieUp port = true ∧ m.blkDown (80 + port) = false) fun m' =>
      m' = m.pcieError port 0xCA 0 rid) ∧
    (∀ (port rid : Nat), Does m (.pcieErrorMessage port rid 2) (m.frozen = false ∧ m.sealed = true ∧ m.isRoot port = true ∧ m.pcieUp port = true ∧ m.blkDown (80 + port) = false) fun m' =>
      m' = m.contain port 0xC9)

/-- Slot events, slot power, link changes and containment of a PCIe root port (18_pcie_ports_and_hotplug.md, R504, R508, R509, R510, R511, R512, R513). -/
def Obligations.PcieSlots : Prop :=
  ∀ (m : Mach), 
    (∀ (port : Nat), Does m (.attentionButtonPressed port true) (m.frozen = false ∧ m.sealed = true ∧ m.isRoot port = true) fun m' =>
      m' = ((m.set (R.pcie_p_hp_abtn port) 1).slotEvent port 0).pcieError port 0xCC 0) ∧
    (∀ (port : Nat), Does m (.attentionButtonPressed port false) (m.frozen = false ∧ m.sealed = true ∧ m.isRoot port = true) fun m' =>
      m' = m.set (R.pcie_p_hp_abtn port) 0) ∧
    (∀ (port : Nat), Does m (.presenceDetectChanged port true) (m.frozen = false ∧ m.sealed = true ∧ m.isRoot port = true ∧ m.on (R.pcie_p_stat_prs port) = false) fun m' =>
      m' = (((m.set (R.pcie_p_hp_prsnt port) 1).set (R.pcie_p_stat_prs port) 1).slotEvent port 3).pcieError port 0xCC 0) ∧
    (∀ (port : Nat), Does m (.presenceDetectChanged port false) (m.frozen = false ∧ m.sealed = true ∧ m.isRoot port = true ∧ m.on (R.pcie_p_stat_prs port) = true ∧ m.on (R.pcie_p_stat_dlla port) = false ∧ m.on (R.pcie_p_stat_pwr port) = true) fun m' =>
      m'.on (R.pcie_p_stat_prs port) = false ∧ m'.on (R.pcie_p_stat_cont port) = true ∧ m'.get (R.pcie_p_stat_cause port) = 0xCB ∧ m'.on (R.pcie_p_stat_pwr port) = false ∧ m'.on (R.pcie_p_hp_pwren port) = false) ∧
    (∀ (port : Nat), Does m (.mrlSensorChanged port true) (m.frozen = false ∧ m.sealed = true ∧ m.isRoot port = true ∧ m.on (R.pcie_p_hp_mrl port) = false) fun m' =>
      m' = ((m.set (R.pcie_p_hp_mrl port) 1).slotEvent port 2).pcieError port 0xCC 0) ∧
    (∀ (port : Nat) (closed : Bool), Does m (.mrlSensorChanged port closed) (m.frozen = false ∧ m.sealed = true ∧ m.isRoot port = true ∧ m.on (R.pcie_p_hp_mrl port) = closed) fun m' =>
      m' = m) ∧
    (∀ (port : Nat), Does m (.powerFault port true) (m.frozen = false ∧ m.sealed = true ∧ m.isRoot port = true ∧ m.on (R.pcie_p_stat_pwr port) = true) fun m' =>
      m' = ((((m.set (R.pcie_p_hp_pflt port) 1).slotEvent port 1).contain port 0xCB).powerOff port)) ∧
    (∀ (port : Nat), Does m (.powerFault port false) (m.frozen = false ∧ m.sealed = true ∧ m.isRoot port = true) fun m' =>
      m' = m.set (R.pcie_p_hp_pflt port) 0) ∧
    (∀ (port : Nat), Does m (.slotPowerOn port) (m.frozen = false ∧ m.sealed = true ∧ m.isRoot port = true ∧ m.on (R.pcie_p_stat_pwr port) = false ∧ m.on (R.pcie_p_stat_cont port) = false ∧ bits (m.pport port).slotCtl 7 6 ≠ 0 ∧ bits (m.pport port).slotCtl 9 8 ≠ 0) fun m' =>
      m'.on (R.pcie_p_stat_pwr port) = true ∧ m'.on (R.pcie_p_hp_pwren port) = true ∧ m'.on (R.pcie_p_hp_perst port) = true ∧ m'.get (R.pcie_p_stat_state port) = 0 ∧ bit (m'.pport port).slotCtl 10 = false ∧ bit (m'.pport port).slotSts 4 = true) ∧
    (∀ (port : Nat), Does m (.slotPowerOff port) (m.frozen = false ∧ m.sealed = true ∧ m.isRoot port = true ∧ m.on (R.pcie_p_stat_pwr port) = true ∧ m.on (R.pcie_p_stat_cont port) = false ∧ bits (m.pport port).slotCtl 7 6 ≠ 0 ∧ bits (m.pport port).slotCtl 9 8 ≠ 0) fun m' =>
      m'.on (R.pcie_p_stat_pwr port) = false ∧ m'.on (R.pcie_p_hp_pwren port) = false ∧ m'.on (R.pcie_p_hp_perst port) = true ∧ m'.get (R.pcie_p_stat_state port) = 4 ∧ bit (m'.pport port).slotCtl 10 = true ∧ bit (m'.pport port).slotSts 4 = true) ∧
    (∀ (port aind pind : Nat), Does m (.indicatorChange port aind pind) (m.frozen = false ∧ m.sealed = true ∧ m.isRoot port = true ∧ aind = 2 ∧ pind = 1) fun m' =>
      m'.get (R.pcie_p_hp_aind port) = 2 ∧ m'.get (R.pcie_p_hp_pind port) = 1 ∧ bit (m'.pport port).slotSts 4 = true) ∧
    (∀ (port : Nat), Does m (.perstRelease port) (m.frozen = false ∧ m.sealed = true ∧ m.isRoot port = true ∧ m.on (R.pcie_p_hp_pwren port) = true ∧ m.on (R.pcie_p_hp_perst port) = true ∧ m.get (R.pcie_p_stat_state port) = 0) fun m' =>
      m' = ((m.set (R.pcie_p_hp_perst port) 0).slotPin port 1 true).set (R.pcie_p_stat_state port) 1) ∧
    (∀ (port : Nat), Does m (.noLinkTimeout port) (m.frozen = false ∧ m.sealed = true ∧ m.isRoot port = true ∧ m.on (R.pcie_p_stat_pwr port) = true ∧ m.on (R.pcie_p_hp_perst port) = false ∧ m.get (R.pcie_p_stat_state port) ≠ 2) fun m' =>
      m' = m.pcieError port 0xCD 0) ∧
    (∀ (port rate width : Nat) (below : Bool), Does m (.pcieLinkUp port rate width below) (m.frozen = false ∧ m.sealed = true ∧ m.isRoot port = true ∧ m.get (R.pcie_p_stat_state port) = 1 ∧ m.get R.pcie_ecam_res = 1 ∧ width < 32 ∧ rate < 4) fun m' =>
      m'.get (R.pcie_p_stat_state port) = 2 ∧ m'.get (R.pcie_p_stat_rate port) = min rate (m.get (R.pcie_p_ctl_gmax port)) ∧ m'.get (R.pcie_p_stat_width port) = width ∧ m'.on (R.pcie_p_stat_dlla port) = true ∧ m'.get (R.pcie_p_err_code port) = (if below then 0xC3 else 0xC2)) ∧
    (∀ (port : Nat), Does m (.pcieLinkDown port) (m.frozen = false ∧ m.sealed = true ∧ m.isRoot port = true ∧ m.get (R.pcie_p_stat_state port) = 2 ∧ m.on (R.pcie_p_stat_pwr port) = true) fun m' =>
      m' = m.contain port 0xC1) ∧
    (∀ (port : Nat), Does m (.pcieLinkError port false) (m.frozen = false ∧ m.sealed = true ∧ m.isRoot port = true) fun m' =>
      m' = (m.count (R.pcie_p_cnt_corr port)).pcieError port 0xC0 0) ∧
    (∀ (port : Nat), Does m (.pcieLinkError port true) (m.frozen = false ∧ m.sealed = true ∧ m.isRoot port = true ∧ m.on (R.pcie_p_stat_pwr port) = true) fun m' =>
      m' = m.contain port 0xC9) ∧
    (∀ (port : Nat), Does m (.containmentRelease port) (m.frozen = false ∧ m.sealed = true ∧ m.isRoot port = true ∧ m.on (R.pcie_p_stat_cont port) = true) fun m' =>
      m' = m.sets [(R.pcie_p_ctl_release port, 0), (R.pcie_p_stat_cont port, 0), (R.pcie_p_stat_cause port, 0), (R.pcie_p_stat_state port, if m.on (R.pcie_p_stat_pwr port) then 1 else 4)])

/-- A partition's read of its block at a submit store. -/
abbrev subRead (m : Mach) (part addr : Nat) : Mach × List Nat × Option AccErr := m.whoRead (m.cplWho part) (addr / 128 * 128) 64

/-- What an inbound request leaves in its queue slot at `a`: 32 bytes of its description, and the machine after they and its data have been stored. -/
abbrev cplHead (m : Mach) (port kind : Nat) (f : XFrame) : List Nat :=
  [kind, port] ++ toBytes 2 f.data.length ++ toBytes 4 f.a ++ toBytes 8 f.xid ++ toBytes 8 (m.get (R.cpl_p_peer_sys port)) ++ toBytes 8 m.tod
abbrev cplPut (m : Mach) (ch a : Nat) (bs : List Nat) : Mach × Nat × Option AccErr := m.whoWrite (m.cplWho (m.get (R.cpl_rq_part ch))) a bs
abbrev cplStore (m : Mach) (port kind a : Nat) (f : XFrame) : Mach × Nat × Option AccErr :=
  (cplPut m f.addr a (cplHead m port kind f)).1.whoWrite (m.cplWho (m.get (R.cpl_rq_part f.addr))) (a + 256) f.data

/-- Coupling requests: submission, inbound requests, responses, refusals by the far side, and timeouts (19_coupling_ports.md, R516, R518, R519, R520, R521, R522). -/
def Obligations.CouplingRequests : Prop :=
  ∀ (m : Mach), 
    (∀ (part addr th st : Nat), Does m (.couplingSubmit part addr th) (m.frozen = false ∧ (subRead m part addr).2.2.isNone = true ∧ (subRead m part addr).1.cplRefusal part (subRead m part addr).2.1 = some st) fun m' =>
      m' = ((subRead m part addr).1.count (R.cpl_q_stat_refused part)).cplWrite part (addr / 128 * 128) (subRead m part addr).2.1 st 0 0) ∧
    (∀ (part addr th : Nat), Does m (.couplingSubmit part addr th) (m.frozen = false ∧ (subRead m part addr).2.2.isSome = true) fun m' =>
      m' = (subRead m part addr).1.cplFail part 0) ∧
    (∀ (part addr th n : Nat), Does m (.couplingSubmit part addr th) (m.frozen = false ∧ (subRead m part addr).2.2.isNone = true ∧ (subRead m part addr).1.cplRefusal part (subRead m part addr).2.1 = none ∧ hdrF (subRead m part addr).2.1 0 1 = 1 ∧ 96 ≤ th ∧ n = tget (subRead m part addr).1.cpl.cnt (hdrF (subRead m part addr).2.1 2 1) 0) fun m' =>
      m' = ({ (subRead m part addr).1 with cpl := { (subRead m part addr).1.cpl with cnt := tset (subRead m part addr).1.cpl.cnt (hdrF (subRead m part addr).2.1 2 1) ((n + 1) % 2 ^ 41), reqs := (subRead m part addr).1.cpl.reqs ++ [(⟨hdrF (subRead m part addr).2.1 2 1, (subRead m part addr).1.modNo * 2 ^ 46 + hdrF (subRead m part addr).2.1 2 1 * 2 ^ 41 + n, part, addr / 128 * 128, (subRead m part addr).2.1, none⟩ : CplReq)] } } : Mach).cplStart (⟨hdrF (subRead m part addr).2.1 2 1, (subRead m part addr).1.modNo * 2 ^ 46 + hdrF (subRead m part addr).2.1 2 1 * 2 ^ 41 + n, part, addr / 128 * 128, (subRead m part addr).2.1, none⟩ : CplReq)) ∧
    (∀ (port a : Nat) (f : XFrame), Does m (.sreq port f) (m.frozen = false ∧ m.jlUp (32 + port) = true ∧ f.addr < 64 ∧ m.on (R.cpl_rq_en f.addr) = true ∧ (m.get (R.cpl_rqi_prod f.addr) + 65536 - m.get (R.cpl_rqi_cons f.addr)) % 65536 < 2 ^ m.get (R.cpl_rq_lsize f.addr) ∧ a = m.get (R.cpl_rq_base f.addr) * 8192 + 8192 * (m.get (R.cpl_rqi_prod f.addr) % 2 ^ m.get (R.cpl_rq_lsize f.addr)) ∧ (cplPut m f.addr a (cplHead m port 1 f)).2.2.isNone = true ∧ (cplStore m port 1 a f).2.2.isNone = true) fun m' =>
      m' = ({ ((cplStore m port 1 a f).1).set (R.cpl_rqi_prod f.addr) ((m.get (R.cpl_rqi_prod f.addr) + 1) % 65536) with
        cpl := { ((cplStore m port 1 a f).1).cpl with
          inb := ((cplStore m port 1 a f).1).cpl.inb ++ [(port, f.xid, 1)] } } : Mach).ring ((((cplStore m port 1 a f).1).set (R.cpl_rqi_prod f.addr) ((m.get (R.cpl_rqi_prod f.addr) + 1) % 65536)).get (R.cpl_rqi_src f.addr))) ∧
    (∀ (port a : Nat) (f : XFrame), Does m (.areq port f) (m.frozen = false ∧ m.jlUp (32 + port) = true ∧ f.addr < 64 ∧ m.on (R.cpl_rq_en f.addr) = true ∧ (m.get (R.cpl_rqi_prod f.addr) + 65536 - m.get (R.cpl_rqi_cons f.addr)) % 65536 < 2 ^ m.get (R.cpl_rq_lsize f.addr) ∧ a = m.get (R.cpl_rq_base f.addr) * 8192 + 8192 * (m.get (R.cpl_rqi_prod f.addr) % 2 ^ m.get (R.cpl_rq_lsize f.addr)) ∧ (cplPut m f.addr a (cplHead m port 2 f)).2.2.isNone = true ∧ (cplStore m port 2 a f).2.2.isNone = true) fun m' =>
      m' = ({ ((cplStore m port 2 a f).1).set (R.cpl_rqi_prod f.addr) ((m.get (R.cpl_rqi_prod f.addr) + 1) % 65536) with
        cpl := { ((cplStore m port 2 a f).1).cpl with
          inb := ((cplStore m port 2 a f).1).cpl.inb ++ [(port, f.xid, 2)] } } : Mach).ring ((((cplStore m port 2 a f).1).set (R.cpl_rqi_prod f.addr) ((m.get (R.cpl_rqi_prod f.addr) + 1) % 65536)).get (R.cpl_rqi_src f.addr))) ∧
    (∀ (port : Nat) (f : XFrame), Does m (.sreq port f) (m.frozen = false ∧ m.jlUp (32 + port) = true ∧ (64 ≤ f.addr ∨ m.on (R.cpl_rq_en f.addr) = false)) fun m' =>
      m' = m.cplTurnAway port 0x46 f) ∧
    (∀ (port : Nat) (f : XFrame), Does m (.areq port f) (m.frozen = false ∧ m.jlUp (32 + port) = true ∧ f.addr < 64 ∧ m.on (R.cpl_rq_en f.addr) = true ∧ (m.get (R.cpl_rqi_prod f.addr) + 65536 - m.get (R.cpl_rqi_cons f.addr)) % 65536 = 2 ^ m.get (R.cpl_rq_lsize f.addr)) fun m' =>
      m' = m.cplTurnAway port 0x45 f) ∧
    (∀ (port : Nat) (f : XFrame) (r : CplReq), Does m (.srsp port f) (m.frozen = false ∧ m.jlUp (32 + port) = true ∧ m.cplReq port f.xid 1 = some r ∧ ((m.whoWrite (m.cplWho r.part) (hdrF r.hdr 24 8) (f.data.take (hdrF r.hdr 20 4)))).2.2.isNone = true) fun m' =>
      m' = ((m.whoWrite (m.cplWho r.part) (hdrF r.hdr 24 8) (f.data.take (hdrF r.hdr 20 4)))).1.cplEnd r (if hdrF r.hdr 20 4 < f.data.length then 1 else 0) f.data.length) ∧
    (∀ (port : Nat) (f : XFrame) (r : CplReq), Does m (.arsp port f) (m.frozen = false ∧ m.jlUp (32 + port) = true ∧ m.cplReq port f.xid 2 = some r ∧ ((m.whoWrite (m.cplWho r.part) (hdrF r.hdr 24 8) (f.data.take (hdrF r.hdr 20 4)))).2.2.isNone = true) fun m' =>
      m' = ((m.whoWrite (m.cplWho r.part) (hdrF r.hdr 24 8) (f.data.take (hdrF r.hdr 20 4)))).1.cplEnd r (if hdrF r.hdr 20 4 < f.data.length then 1 else 0) f.data.length) ∧
    (∀ (port : Nat) (f : XFrame), Does m (.srsp port f) (m.frozen = false ∧ m.jlUp (32 + port) = true ∧ m.cplReq port f.xid 1 = none) fun m' =>
      m' = m) ∧
    (∀ (port : Nat) (f : XFrame) (r : CplReq), Does m (.rbusy port f) (m.frozen = false ∧ m.jlUp (32 + port) = true ∧ (m.cpl.reqs.find? fun (x : CplReq) => x.port == port && x.xid == f.xid && hdrF x.hdr 0 1 != 3) = some r) fun m' =>
      m' = m.cplEnd r 0x20 0) ∧
    (∀ (port : Nat) (f : XFrame) (r : CplReq), Does m (.rrej port f) (m.frozen = false ∧ m.jlUp (32 + port) = true ∧ (m.cpl.reqs.find? fun (x : CplReq) => x.port == port && x.xid == f.xid && hdrF x.hdr 0 1 != 3) = some r) fun m' =>
      m' = m.cplEnd r 0x21 0) ∧
    (∀ (port xid : Nat) (r : CplReq), Does m (.couplingRequestTimeout port xid) (m.frozen = false ∧ (m.cpl.reqs.find? fun (x : CplReq) => x.port == port && x.xid == xid && hdrF x.hdr 0 1 != 3) = some r) fun m' =>
      m' = (m.cplError 0xD7 port (hdrF r.hdr 3 1)).cplEnd r 0x22 0)

/-- Coupling INIT, mirror updates and their acknowledgements, STOP, and the loss of a partner (19_coupling_ports.md, R516, R524, R525, R526, R527, R528). -/
def Obligations.CouplingPartners : Prop :=
  ∀ (m : Mach), 
    (∀ (port sys frames cells : Nat), Does m (.cp2Init port sys frames cells) (m.jlMayTrain (32 + port) = true ∧ m.jlState (32 + port) = 5 ∧ m.get R.cpl_sysid_id ≠ 0 ∧ sys ≠ 0 ∧ 64 ≤ frames ∧ 4096 ≤ cells) fun m' =>
      (m'.jlP (32 + port)).grant = (frames, cells) ∧ (m'.jlP (32 + port)).upReq = false ∧ (m'.jlP (32 + port)).mnak = false ∧ m'.get (R.cpl_p_peer_sys port) = sys) ∧
    (∀ (port sys frames cells : Nat), Does m (.cp2Init port sys frames cells) (m.jlMayTrain (32 + port) = true ∧ m.jlState (32 + port) = 5 ∧ (m.get R.cpl_sysid_id = 0 ∨ sys = 0 ∨ frames < 64 ∨ cells < 4096) ∧ (m.jlP (32 + port)).upReq = false) fun m' =>
      m'.jlState (32 + port) = 8 ∧ m'.jlWidth (32 + port) = 0) ∧
    (∀ (port : Nat) (f : XFrame), Does m (.mupd port f) (m.frozen = false ∧ m.jlUp (32 + port) = true ∧ (List.range 4).find? (fun k => m.on (R.cpl_mir_en k) && m.get (R.cpl_mirid_sys k) == m.get (R.cpl_p_peer_sys port)) = none) fun m' =>
      m' = m.jlSend (32 + port) 0x49 { XFrame.zero with a := f.a, b := 3, xid := f.xid }) ∧
    (∀ (port k : Nat) (f : XFrame), Does m (.mupd port f) (m.frozen = false ∧ m.jlUp (32 + port) = true ∧ (List.range 4).find? (fun k => m.on (R.cpl_mir_en k) && m.get (R.cpl_mirid_sys k) == m.get (R.cpl_p_peer_sys port)) = some k ∧ m.on (R.cpl_mir_frozen k) = true) fun m' =>
      m' = m.jlSend (32 + port) 0x49 { XFrame.zero with a := f.a, b := 1, xid := f.xid }) ∧
    (∀ (port k : Nat) (f : XFrame), Does m (.mupd port f) (m.frozen = false ∧ m.jlUp (32 + port) = true ∧ (List.range 4).find? (fun k => m.on (R.cpl_mir_en k) && m.get (R.cpl_mirid_sys k) == m.get (R.cpl_p_peer_sys port)) = some k ∧ m.on (R.cpl_mir_frozen k) = false ∧ m.get (R.cpl_mir_size k) * 4096 ≤ f.a) fun m' =>
      m' = m.jlSend (32 + port) 0x49 { XFrame.zero with a := f.a, b := 2, xid := f.xid }) ∧
    (∀ (port k a : Nat) (f : XFrame), Does m (.mupd port f) (m.frozen = false ∧ m.jlUp (32 + port) = true ∧ (List.range 4).find? (fun k => m.on (R.cpl_mir_en k) && m.get (R.cpl_mirid_sys k) == m.get (R.cpl_p_peer_sys port)) = some k ∧ m.on (R.cpl_mir_frozen k) = false ∧ f.a < m.get (R.cpl_mir_size k) * 4096 ∧ a = m.get (R.cpl_mir_base k) * 2 ^ 20 + 256 * f.a ∧ m.devCheck .cpl a = none ∧ (m.devPoison a 256 || !recValid (m.devRead a 256) || decide (hdrF (m.devRead a 256) 8 8 < f.xid)) = true) fun m' =>
      m' = (m.devWrite a ((padTo 256 f.data).take 256)).jlSend (32 + port) 0x48 { XFrame.zero with a := f.a, xid := f.xid }) ∧
    (∀ (port : Nat) (f : XFrame), Does m (.mack port f) (m.frozen = false ∧ m.jlUp (32 + port) = true ∧ (m.cpl.mupd.any fun (u : Nat × Nat × Nat × List Nat) => u.1 == port && u.2.1 == f.a && u.2.2.1 == f.xid) = true ∧ m.opOf f.a = none) fun m' =>
      m' = ({ m with cpl := { m.cpl with mupd := m.cpl.mupd.filter fun (u : Nat × Nat × Nat × List Nat) => !(u.1 == port && u.2.1 == f.a && u.2.2.1 == f.xid) } } : Mach).count R.chan_rsv_cnt_pack) ∧
    (∀ (port : Nat) (f : XFrame), Does m (.mnak port f) (m.frozen = false ∧ m.jlUp (32 + port) = true) fun m' =>
      m' = m.cplMnak port) ∧
    (∀ (port : Nat), Does m (.cp2Stop port) (m.frozen = false ∧ m.jlUp (32 + port) = true) fun m' =>
      m' = (((m.set (R.cpl_p_stat_partner port) 2).cplError 0xD4 port 0).freezeAreas (m.get (R.cpl_p_peer_sys port))).mirChanged) ∧
    (∀ (port : Nat), Does m (.partnerSilent port) (m.frozen = false ∧ m.get (R.cpl_p_peer_sys port) ≠ 0 ∧ ((List.range 18).filter fun p => m.get (R.cpl_p_peer_sys p) == m.get (R.cpl_p_peer_sys port)) = [port] ∧ m.jlUp (32 + port) = false ∧ m.get (R.cpl_p_stat_partner port) = 1) fun m' =>
      m' = ((m.set (R.cpl_p_stat_partner port) 3).cplError 0xD5 port 0).freezeAreas (m.get (R.cpl_p_peer_sys port))) ∧
    (∀ (port : Nat), Does m (.partnerSilent port) (m.jlUp (32 + port) = true) fun m' =>
      m' = m) ∧
    (∀ (k : Nat), Does m (.mirrorRelease k) (m.frozen = false) fun m' =>
      m' = m.sets [(R.cpl_mir_frozen k, 0), (R.cpl_mir_release k, 0)])

/-- A ring of source `src` through page `page` to a target entry `e` that counts it. -/
abbrev rung (m : Mach) (page src e : Nat) : Mach :=
  ((m.count R.dbell_cnt_rings).setSummary page src e).addRing src (bit e 62, bits e 9 0)
abbrev pageOk (m : Mach) (page off n val : Nat) : Prop :=
  (n = 4 ∨ n = 8) ∧ off % n = 0 ∧ val < 2 ^ 20 ∧ m.on (R.dbell_pg_en page) = true ∧ m.get (R.dbell_pg_first page) ≤ val ∧ val ≤ m.get (R.dbell_pg_last page)
abbrev tgtTaken (m : Mach) (op src : Nat) : Mach := m.sets [(R.dbell_tcmd_op, op), (R.dbell_tcmd_src, src)]

/-- Doorbell rings, coalescing limits, and target entries (20_interrupts_and_rills.md, R529, R530, R531, R532, R533, R534, R535, R536, R537, R538). -/
def Obligations.Doorbells : Prop :=
  ∀ (m : Mach), 
    (∀ (page off n val : Nat), Does m (.doorbellRing page off n val) (m.frozen = false ∧ ((n ≠ 4 ∧ n ≠ 8) ∨ off % n ≠ 0 ∨ 2 ^ 20 ≤ val)) fun m' =>
      m' = m.dbellError 0xE0 page (val % 2 ^ 20)) ∧
    (∀ (page off n val : Nat), Does m (.doorbellRing page off n val) (m.frozen = false ∧ (n = 4 ∨ n = 8) ∧ off % n = 0 ∧ val < 2 ^ 20 ∧ (m.on (R.dbell_pg_en page) = false ∨ val < m.get (R.dbell_pg_first page) ∨ m.get (R.dbell_pg_last page) < val)) fun m' =>
      m' = m.dbellError 0xE1 page val) ∧
    (∀ (page off n val : Nat), Does m (.doorbellRing page off n val) (m.frozen = false ∧ pageOk m page off n val ∧ (m.count R.dbell_cnt_rings).get R.dbell_ttab_res ≠ 1) fun m' =>
      m' = (m.count R.dbell_cnt_rings).dbellError 0xE2 page val) ∧
    (∀ (page off n val e : Nat), Does m (.doorbellRing page off n val) (m.frozen = false ∧ pageOk m page off n val ∧ (m.count R.dbell_cnt_rings).get R.dbell_ttab_res = 1 ∧ (m.count R.dbell_cnt_rings).targetEntry val = some e ∧ (m.count R.dbell_cnt_rings).targetOk e = false) fun m' =>
      m' = (m.count R.dbell_cnt_rings).dbellError 0xE2 page val) ∧
    (∀ (page off n val e : Nat), Does m (.doorbellRing page off n val) (m.frozen = false ∧ pageOk m page off n val ∧ (m.count R.dbell_cnt_rings).get R.dbell_ttab_res = 1 ∧ (m.count R.dbell_cnt_rings).targetEntry val = some e ∧ (m.count R.dbell_cnt_rings).targetOk e = true ∧ ((m.count R.dbell_cnt_rings).setSummary page val e).db.holding = false ∧ (rung m page val e).grpFull (val / 256) = false) fun m' =>
      m' = rung m page val e ∧ (m'.grp (val / 256)).isOpen = true ∧ (m'.grp (val / 256)).count = (((m.count R.dbell_cnt_rings).setSummary page val e).grp (val / 256)).count + 1) ∧
    (∀ (page off n val e : Nat), Does m (.doorbellRing page off n val) (m.frozen = false ∧ pageOk m page off n val ∧ (m.count R.dbell_cnt_rings).get R.dbell_ttab_res = 1 ∧ (m.count R.dbell_cnt_rings).targetEntry val = some e ∧ (m.count R.dbell_cnt_rings).targetOk e = true ∧ ((m.count R.dbell_cnt_rings).setSummary page val e).db.holding = false ∧ (rung m page val e).grpFull (val / 256) = true) fun m' =>
      m' = (rung m page val e).fireGroup (val / 256)) ∧
    (∀ (g t : Nat), Does m (.groupTimeLimit g) (m.frozen = false ∧ (m.grp g).isOpen = true ∧ (m.grp g).targets = [(true, t)]) fun m' =>
      m' = ((m.setGrp g GrpSt.init).count R.dbell_cnt_fires).onTh t fun x => { x with pendPhys := true }) ∧
    (∀ (g : Nat), Does m (.groupTimeLimit g) (m.frozen = false ∧ (m.grp g).isOpen = false) fun m' =>
      m' = m) ∧
    (∀ (g val : Nat), Does m (.groupLimitWrite g val) (m.frozen = false ∧ (m.grp g).isOpen = false) fun m' =>
      m' = m.sets [(R.dbell_grp_tlim g, max 1 (min 2000 (bits val 26 16))), (R.dbell_grp_climit g, max 1 (bits val 7 0))]) ∧
    (∀ (g val : Nat), Does m (.groupLimitWrite g val) (m.frozen = false ∧ (m.grp g).isOpen = true ∧ (m.sets [(R.dbell_grp_tlim g, max 1 (min 2000 (bits val 26 16))), (R.dbell_grp_climit g, max 1 (bits val 7 0))]).grpFull g = true) fun m' =>
      m' = (m.sets [(R.dbell_grp_tlim g, max 1 (min 2000 (bits val 26 16))), (R.dbell_grp_climit g, max 1 (bits val 7 0))]).fireGroup g) ∧
    (∀ (src : Nat), Does m (.targetWrite src) (m.frozen = false ∧ (tgtTaken m 1 src).get R.dbell_ttab_res = 1 ∧ badTarget ((tgtTaken m 1 src).get R.dbell_tdata_value) = false ∧ ((tgtTaken m 1 src).grp (src / 256)).isOpen = false ∧ (tgtTaken m 1 src).devCheck .hub ((tgtTaken m 1 src).targetAddr src) = none) fun m' =>
      m' = ((tgtTaken m 1 src).devWrite ((tgtTaken m 1 src).targetAddr src) (toBytes 8 ((tgtTaken m 1 src).get R.dbell_tdata_value))).tcmdEnd 1) ∧
    (∀ (src : Nat), Does m (.targetWrite src) (m.frozen = false ∧ (tgtTaken m 1 src).get R.dbell_ttab_res = 1 ∧ badTarget ((tgtTaken m 1 src).get R.dbell_tdata_value) = true) fun m' =>
      m' = (tgtTaken m 1 src).tcmdEnd 2) ∧
    (∀ (src e : Nat), Does m (.targetRead src) (m.frozen = false ∧ (tgtTaken m 2 src).get R.dbell_ttab_res = 1 ∧ (tgtTaken m 2 src).targetEntry src = some e) fun m' =>
      m' = ((tgtTaken m 2 src).set R.dbell_tdata_value e).tcmdEnd 1) ∧
    (∀ (src : Nat), Does m (.targetRead src) (m.frozen = false ∧ (tgtTaken m 2 src).get R.dbell_ttab_res ≠ 1) fun m' =>
      m' = (tgtTaken m 2 src).tcmdEnd 4)

/-- Enabling a Rill, posts, the writer's slots, and the consumer word (20_interrupts_and_rills.md, R539, R540, R541, R542, R543, R544, R545, R546, R653). -/
def Obligations.Rills : Prop :=
  ∀ (m : Mach), 
    (∀ (r val : Nat), Does m (.rillEnable r val) (m.frozen = false ∧ m.on (R.rill_r_base_en r) = false ∧ bit val 63 = true) fun m' =>
      m' = ((m.sets [(R.rill_r_base_base r, bits val 51 12), (R.rill_r_base_lsize r, max 6 (min 16 (bits val 4 0))), (R.rill_r_base_en r, 1)]).rillFresh r).set (R.rill_r_ring_prod r) 0 ∧ m'.get (R.rill_r_ring_prod r) = 0) ∧
    (∀ (r val : Nat), Does m (.rillEnable r val) (m.frozen = false ∧ m.on (R.rill_r_base_en r) = false ∧ bit val 63 = false) fun m' =>
      m' = m.sets [(R.rill_r_base_base r, bits val 51 12), (R.rill_r_base_lsize r, max 6 (min 16 (bits val 4 0))), (R.rill_r_base_en r, 0)]) ∧
    (∀ (r val : Nat), Does m (.rillEnable r val) (m.frozen = false ∧ m.on (R.rill_r_base_en r) = true ∧ bit val 63 = true) fun m' =>
      m' = m) ∧
    (∀ (r val : Nat), Does m (.rillEnable r val) (m.frozen = false ∧ m.on (R.rill_r_base_en r) = true ∧ bit val 63 = false) fun m' =>
      (m'.rill.q.all fun (x : Nat × List RillRec) => x.2.all fun y => y.rill != r) = true ∧ m'.get (R.rill_r_base_en r) = 0 ∧ m'.get (R.rill_r_stat_full r) = 0) ∧
    (∀ (th val : Nat), Does m (.rillPost th val) (m.frozen = false ∧ (tget m.rill.q (th / 24) []).length < 64) fun m' =>
      m' = m.stage (th / 24) ⟨bits val 11 0, 0x08, m.tod, [(0x10, 1, th), (0x14, 4, bits val 63 32)], 1000 + th, true, false⟩) ∧
    (∀ (th val : Nat), Does m (.rillPost th val) (m.frozen = false ∧ 64 ≤ (tget m.rill.q (th / 24) []).length) fun m' =>
      m' = m) ∧
    (∀ (q : Nat) (x : RillRec) (rest : List RillRec), Does m (.rillWriterSlot) (m.frozen = false ∧ 64 ≤ (tget m.rill.q 4 []).length ∧ (m.rill.q.flatMap fun (y : Nat × List RillRec) => y.2.map (·.rill)).eraseDups = [x.rill] ∧ (((List.range 5).map fun i => (m.rill.nextQ + i) % 5).findSome? fun k => (takeFirst (m.lookCons x.rill).mayWrite (tget (m.lookCons x.rill).rill.q k [])).map fun y => (k, y)) = some (q, x, rest) ∧ (m.lookCons x.rill).rill.nextQ = m.rill.nextQ) fun m' =>
      m' = ({ m.lookCons x.rill with rill := { (m.lookCons x.rill).rill with q := tset (m.lookCons x.rill).rill.q q rest, nextQ := (q + 1) % 5 } } : Mach).writeRecord x) ∧
    (Does m (.rillWriterSlot) (m.frozen = false ∧ m.rill.q = [] ∧ m.rill.kept = []) fun m' =>
      m' = m) ∧
    (∀ (r a : Nat), Does m (.consumerWordRead r) (m.frozen = false ∧ m.on (R.rill_r_base_en r) = true ∧ a = m.get (R.rill_r_ci_addr r) * 8 ∧ m.devCheck .hub a = none ∧ m.devPoison a 8 = false) fun m' =>
      m' = m.rillLevel r (ofBytes (m.devRead a 8) % 2 ^ 32)) ∧
    (∀ (r a : Nat), Does m (.consumerWordRead r) (m.frozen = false ∧ m.on (R.rill_r_base_en r) = true ∧ a = m.get (R.rill_r_ci_addr r) * 8 ∧ (m.devCheck .hub a).isSome = true) fun m' =>
      m'.get (R.rill_r_stat_full r) = 1 ∧ m'.get R.rill_err_code = 0xEC ∧ m'.get R.rill_err_rill = r % 4096)

/-- A virtual processor command has been taken: its fields are shown. -/
abbrev vcTaken (m : Mach) (op vp : Nat) : Mach := m.sets [(R.casc_vcmd_op, op), (R.casc_vcmd_vp, vp)]

/-- Virtual processor commands, selection, slices, timers and stalls (21_cascade_and_weir.md, R551, R552, R553, R554, R555, R557, R559, R560). -/
def Obligations.CascadeCommands : Prop :=
  ∀ (m : Mach), 
    (∀ (vp : Nat), Does m (.vpDefine vp) (m.frozen = false ∧ (vcTaken m 1 vp).on R.casc_vcmd_go = false ∧ (vcTaken m 1 vp).vpSt vp = 0 ∧ (vcTaken m 1 vp).rgnKind ((vcTaken m 1 vp).frameAddr vp) = 0) fun m' =>
      m' = ((vcTaken m 1 vp).setVp vp 1 0).vcmdDone 1 ∧ m'.vpSt vp = 1 ∧ m'.get R.casc_vcmd_result = 1) ∧
    (∀ (vp : Nat), Does m (.vpDefine vp) (m.frozen = false ∧ (vcTaken m 1 vp).on R.casc_vcmd_go = true) fun m' =>
      m' = (vcTaken m 1 vp).sets [(R.casc_vcmd_result, 3), (R.casc_vcmd_done, 1)]) ∧
    (∀ (vp : Nat), Does m (.vpReady vp) (m.frozen = false ∧ (vcTaken m 2 vp).on R.casc_vcmd_go = false ∧ ((vcTaken m 2 vp).vpSt vp = 1 ∨ (vcTaken m 2 vp).vpSt vp = 5)) fun m' =>
      m' = ((vcTaken m 2 vp).becomeReady vp).vcmdDone 1 ∧ m'.vpSt vp = 2) ∧
    (∀ (vp : Nat), Does m (.vpReady vp) (m.frozen = false ∧ (vcTaken m 2 vp).on R.casc_vcmd_go = false ∧ (vcTaken m 2 vp).vpSt vp = 0) fun m' =>
      m' = (vcTaken m 2 vp).vcmdDone 2) ∧
    (∀ (vp : Nat), Does m (.vpStop vp) (m.frozen = false ∧ (vcTaken m 3 vp).on R.casc_vcmd_go = false ∧ (vcTaken m 3 vp).vpSt vp = 2) fun m' =>
      m' = ((vcTaken m 3 vp).setVp vp 1 0).vcmdDone 1) ∧
    (∀ (vp : Nat), Does m (.vpStop vp) (m.frozen = false ∧ (vcTaken m 3 vp).on R.casc_vcmd_go = false ∧ (vcTaken m 3 vp).vpSt vp = 3 ∧ ((vcTaken m 3 vp).vpThread vp).isSome = true) fun m' =>
      m' = ((vcTaken m 3 vp).beginLeave vp 1 0).set R.casc_vcmd_go 1) ∧
    (∀ (vp : Nat), Does m (.vpUndefine vp) (m.frozen = false ∧ (vcTaken m 4 vp).on R.casc_vcmd_go = false ∧ ((vcTaken m 4 vp).vpSt vp = 1 ∨ (vcTaken m 4 vp).vpSt vp = 5)) fun m' =>
      m' = ((((vcTaken m 4 vp).onVpX vp fun _ => VpX.init).sets [(R.casc_vp_st_pend vp, 0), (R.casc_vp_tmr_tod vp, 0)]).setVp vp 0 0).vcmdDone 1 ∧ m'.vpSt vp = 0) ∧
    (Does m (.cascadeSelection) (m.frozen = false ∧ m.candidate = none) fun m' =>
      m' = m) ∧
    (∀ (v th : Nat), Does m (.cascadeSelection) (m.frozen = false ∧ m.candidate = some v ∧ pick m.betterTh ((List.range 96).filter m.mayPlace) = some th) fun m' =>
      m' = (m.unpark (th / 2)).place v th) ∧
    (∀ (th vp : Nat), Does m (.sliceEnd th) (m.frozen = false ∧ m.vpOn th = some vp ∧ m.vpSt vp = 3 ∧ m.vpStopped vp = false ∧ ((List.range 1024).any fun w => m.vpSt w == 2 && m.barred w == 0 && m.get (R.casc_vp_ctl_prio w) == m.get (R.casc_vp_ctl_prio vp) && decide (m.vtNow w < m.vtNow vp)) = true) fun m' =>
      m' = m.beginLeave vp 2 4 ∧ m'.vpSt vp = 6 ∧ (m'.vpX vp).after = 2) ∧
    (∀ (th : Nat), Does m (.sliceEnd th) (m.frozen = false ∧ m.vpOn th = none) fun m' =>
      m' = m) ∧
    (∀ (th vp : Nat), Does m (.vpLeave th) (m.frozen = false ∧ m.vpOn th = some vp ∧ m.vpSt vp = 6 ∧ (m.th th).dbg = 0 ∧ (m.th th).ep.isNone = true ∧ (m.th th).wait = .none ∧ (m.th th).got = [] ∧ (m.core (th / 2)).swap.isNone = true ∧ (m.toBoundary th).isSome = true) fun m' =>
      m' = ((m.toBoundary th).getD m).vacate th) ∧
    (∀ (vp val : Nat), Does m (.vpTimerWrite vp val) (m.frozen = false ∧ m.tod < val ∧ val < 2 ^ 64) fun m' =>
      m' = m.set (R.casc_vp_tmr_tod vp) val) ∧
    (∀ (vp val : Nat), Does m (.vpTimerWrite vp val) (m.frozen = false ∧ val ≠ 0 ∧ val ≤ m.tod ∧ val < 2 ^ 64) fun m' =>
      m' = ((m.set (R.casc_vp_tmr_tod vp) val).set (R.casc_vp_tmr_tod vp) 0).fireVp vp false) ∧
    (∀ (vp : Nat), Does m (.vpTimerExpiry vp) (m.frozen = false ∧ m.get (R.casc_vp_tmr_tod vp) ≠ 0 ∧ m.get (R.casc_vp_tmr_tod vp) ≤ m.tod) fun m' =>
      m' = (m.set (R.casc_vp_tmr_tod vp) 0).fireVp vp false) ∧
    (∀ (part : Nat), Does m (.partitionStall part) (m.frozen = false ∧ m.get (R.casc_part_ctl_stall part) ≠ 0 ∧ m.isStalled part = true ∧ ((m.set (R.casc_part_st_stalled part) 1).cascError 0xF0 part 0 (m.get (R.casc_part_ctl_stall part))).on (R.casc_part_ctl_wake part) = false) fun m' =>
      m' = (m.set (R.casc_part_st_stalled part) 1).cascError 0xF0 part 0 (m.get (R.casc_part_ctl_stall part))) ∧
    (∀ (part : Nat), Does m (.partitionStall part) (m.frozen = false ∧ m.isStalled part = false) fun m' =>
      m' = m)

/-- Budget intervals, power samples, sensor readings, and parking of cores (21_cascade_and_weir.md, R561, R562, R564, R565, R566, R567, R568, R569, R49). -/
def Obligations.WeirPower : Prop :=
  ∀ (m : Mach), 
    (∀ (u avg peak : Nat) (low : Bool), Does m (.budgetInterval u avg peak low) (m.frozen = false ∧ u < 4096 ∧ avg < 4096 ∧ peak < 4096 ∧ avg * 100 ≤ m.get R.weir_stat_inforce * 101) fun m' =>
      m'.get R.weir_stat_avg = avg ∧ m'.get R.weir_stat_noncore = u ∧ m'.get R.weir_stat_peak = peak ∧ m'.get R.weir_stat_inforce = m.limit ∧ m'.weir.off = (if low then m.weir.off - 1 else m.weir.off)) ∧
    (∀ (u avg peak : Nat) (low : Bool), Does m (.budgetInterval u avg peak low) (m.frozen = false ∧ u < 4096 ∧ avg < 4096 ∧ peak < 4096 ∧ m.get R.weir_stat_inforce * 101 < avg * 100) fun m' =>
      m'.get R.weir_err_code = 0xF3 ∧ m'.get R.weir_err_core = 0x3F ∧ m'.get R.weir_stat_avg = avg) ∧
    (∀ (watts noncore : Nat), Does m (.powerSample watts noncore [] []) (m.frozen = false ∧ watts < 4096 ∧ noncore < 4096 ∧ m.modeM5 = true ∧ m.get R.weir_stat_inforce < watts) fun m' =>
      m'.weir = { m.weir with lastU := noncore, off := m.weir.off + 1 } ∧ m'.get R.weir_stat_throttle = 1) ∧
    (∀ (watts noncore : Nat), Does m (.powerSample watts noncore [] []) (m.frozen = false ∧ watts < 4096 ∧ noncore < 4096 ∧ m.modeM5 = true ∧ watts ≤ m.get R.weir_stat_inforce ∧ m.weir.off = 0) fun m' =>
      m' = ({ m with weir := { m.weir with lastU := noncore } } : Mach).set R.weir_stat_throttle 0) ∧
    (Does m (.sensorReading [] []) (m.frozen = false ∧ ((List.range 48).all fun c => m.headroom c == 20 && m.get (R.weir_core_park c) == 0 && (m.core c).park == .running && decide (m.get (R.weir_core_freq c) ≤ m.get (R.weir_core_ceil c))) = true) fun m' =>
      ((List.range 48).all fun c => m'.get (R.weir_core_head c) == 20 && m'.get (R.weir_core_ceil c) == m.get (R.weir_core_ceil c) && m'.get (R.weir_core_freq c) == m.get (R.weir_core_freq c)) = true) ∧
    (∀ (t : Nat), Does m (.sensorReading [t] [0]) (m.frozen = false ∧ t < 65536 ∧ m.on (R.weir_temp_fail 0) = false) fun m' =>
      m'.on (R.weir_temp_fail 0) = true ∧ m'.get (R.weir_temp_temp 0) = t ∧ m'.get R.weir_err_code = 0xF6 ∧ m'.get R.weir_err_sensor = 0) ∧
    (∀ (core : Nat), Does m (.thermalPark core) (m.frozen = false ∧ m.get (R.weir_core_head core) = 0 ∧ m.get (R.weir_core_park core) ≠ 3 ∧ m.busy core = false ∧ (m.combFlush core).drained core = true) fun m' =>
      (m'.core core).park = Park.deep ∧ m'.get (R.weir_core_park core) = 3 ∧ (m'.core core).l1i = [] ∧ (m'.core core).l1d = [] ∧ (m'.core core).l2 = [] ∧ (m'.core core).tlb = [] ∧ (m'.core core).walk1 = [] ∧ (m'.core core).walk2 = [] ∧ m'.get R.weir_err_code = 0xF2) ∧
    (∀ (core : Nat), Does m (.shallowPark core) (m.frozen = false ∧ m.idle core = true ∧ m.baseMode ≠ 4 ∧ (m.core core).park = Park.running ∧ (m.combFlush core).drained core = true) fun m' =>
      m' = ((m.combFlush core).onCore core fun k => { k with park := .shallow }).set (R.weir_core_park core) 1) ∧
    (∀ (core : Nat), Does m (.shallowPark core) (m.frozen = false ∧ m.baseMode = 4) fun m' =>
      m' = m) ∧
    (∀ (core : Nat), Does m (.deepPark core) (m.frozen = false ∧ m.idle core = true ∧ (m.core core).park = Park.shallow ∧ m.on (R.core_state_warm core) = false ∧ (m.combFlush core).drained core = true) fun m' =>
      m' = (m.combFlush core).deepPark core 2) ∧
    (∀ (core : Nat), Does m (.coreUnpark core) (m.frozen = false ∧ ((m.core core).park = Park.shallow ∨ (m.core core).park = Park.deep) ∧ m.role core = 0 ∧ m.get (R.weir_core_park core) ≠ 3) fun m' =>
      m' = (m.onCore core fun k => { k with park := .running }).sets [(R.weir_core_park core, 0), (R.core_state_warm core, 0)])

/-- A request of `spill.brst` has been taken. -/
abbrev brstTaken (m : Mach) (b : Nat) : Mach := m.sets [(R.spill_brst_block, b), (R.spill_brst_go, 1)]

/-- The judgement and the reactions of the Spillway, its buckets, ERR_N, and injection (22_spillway_faults.md, R573, R575, R576, R578, R579, R580, R581, R582, R583, R586). -/
def Obligations.SpillwayEvents : Prop :=
  ∀ (m : Mach), 
    (∀ (n src ereg th : Nat), Does m (.spillwayEvent n src ereg th) (m.frozen = false ∧ srcExists src = true ∧ m.spill.inbox = [] ∧ (m.spill.blks = []) ∧ (Mach.judge m.spill.blks m (⟨src, BitVec.ofNat 64 ereg, if th < 96 then some th else none, false, []⟩ : SpEvent)).2.act = 0 ∧ (Mach.judge m.spill.blks m (⟨src, BitVec.ofNat 64 ereg, if th < 96 then some th else none, false, []⟩ : SpEvent)).2.errn = false ∧ src ≠ 3638) fun m' =>
      m'.get (R.spill_src_st_bucket src) = ((m.count R.spill_stat_events).countSrc src).get (R.spill_src_st_bucket src) ∧ m'.get (R.spill_src_cnt_count src) = ((m.count R.spill_stat_events).countSrc src).get (R.spill_src_cnt_count src) ∧ m'.sent = m.sent) ∧
    (∀ (n src ereg th : Nat), Does m (.spillwayEvent n src ereg th) (m.frozen = false ∧ srcExists src = true ∧ m.spill.inbox = [] ∧ (1 ≤ (Mach.judge m.spill.blks m (⟨src, BitVec.ofNat 64 ereg, if th < 96 then some th else none, false, []⟩ : SpEvent)).2.act ∧ (Mach.judge m.spill.blks m (⟨src, BitVec.ofNat 64 ereg, if th < 96 then some th else none, false, []⟩ : SpEvent)).2.act ≤ 2) ∧ (Mach.judge m.spill.blks m (⟨src, BitVec.ofNat 64 ereg, if th < 96 then some th else none, false, []⟩ : SpEvent)).2.errn = false) fun m' =>
      m' = (Mach.judge m.spill.blks m (⟨src, BitVec.ofNat 64 ereg, if th < 96 then some th else none, false, []⟩ : SpEvent)).1.spillRecord (Mach.judge m.spill.blks m (⟨src, BitVec.ofNat 64 ereg, if th < 96 then some th else none, false, []⟩ : SpEvent)).2 (Mach.judge m.spill.blks m (⟨src, BitVec.ofNat 64 ereg, if th < 96 then some th else none, false, []⟩ : SpEvent)).2.act 0xFF) ∧
    (∀ (n src ereg th t : Nat), Does m (.spillwayEvent n src ereg th) (m.frozen = false ∧ srcExists src = true ∧ m.spill.inbox = [] ∧ (Mach.judge m.spill.blks m (⟨src, BitVec.ofNat 64 ereg, if th < 96 then some th else none, false, []⟩ : SpEvent)).2.act = 3 ∧ (Mach.judge m.spill.blks m (⟨src, BitVec.ofNat 64 ereg, if th < 96 then some th else none, false, []⟩ : SpEvent)).2.errn = false ∧ minAction src ≠ 3 ∧ ((Mach.judge m.spill.blks m (⟨src, BitVec.ofNat 64 ereg, if th < 96 then some th else none, false, []⟩ : SpEvent)).1.emcy 0xFF01 src 3 (Mach.judge m.spill.blks m (⟨src, BitVec.ofNat 64 ereg, if th < 96 then some th else none, false, []⟩ : SpEvent)).2.flags).mckThread (⟨src, BitVec.ofNat 64 ereg, if th < 96 then some th else none, false, []⟩ : SpEvent) = some t) fun m' =>
      m' = (((Mach.judge m.spill.blks m (⟨src, BitVec.ofNat 64 ereg, if th < 96 then some th else none, false, []⟩ : SpEvent)).1.emcy 0xFF01 src 3 (Mach.judge m.spill.blks m (⟨src, BitVec.ofNat 64 ereg, if th < 96 then some th else none, false, []⟩ : SpEvent)).2.flags).pendMachineCheck t src).spillRecord (Mach.judge m.spill.blks m (⟨src, BitVec.ofNat 64 ereg, if th < 96 then some th else none, false, []⟩ : SpEvent)).2 3 0xFF) ∧
    (∀ (n src ereg th : Nat), Does m (.spillwayEvent n src ereg th) (m.frozen = false ∧ srcExists src = true ∧ m.spill.inbox = [] ∧ (Mach.judge m.spill.blks m (⟨src, BitVec.ofNat 64 ereg, if th < 96 then some th else none, false, []⟩ : SpEvent)).2.act = 5 ∧ (Mach.judge m.spill.blks m (⟨src, BitVec.ofNat 64 ereg, if th < 96 then some th else none, false, []⟩ : SpEvent)).2.errn = false) fun m' =>
      m' = ((Mach.judge m.spill.blks m (⟨src, BitVec.ofNat 64 ereg, if th < 96 then some th else none, false, []⟩ : SpEvent)).1.emcy 0xFF01 src 5 (Mach.judge m.spill.blks m (⟨src, BitVec.ofNat 64 ereg, if th < 96 then some th else none, false, []⟩ : SpEvent)).2.flags).callReset 2 src) ∧
    (∀ (n src ereg th : Nat), Does m (.spillwayEvent n src ereg th) (m.frozen = false ∧ srcExists src = true ∧ m.spill.inbox = [] ∧ (Mach.judge m.spill.blks m (⟨src, BitVec.ofNat 64 ereg, if th < 96 then some th else none, false, []⟩ : SpEvent)).2.act = 6 ∧ (Mach.judge m.spill.blks m (⟨src, BitVec.ofNat 64 ereg, if th < 96 then some th else none, false, []⟩ : SpEvent)).2.errn = false) fun m' =>
      m' = (Mach.judge m.spill.blks m (⟨src, BitVec.ofNat 64 ereg, if th < 96 then some th else none, false, []⟩ : SpEvent)).1.checkstop (if codeOf src = 0 then 0xFE else codeOf src) src) ∧
    (∀ (n src ereg th : Nat), Does m (.spillwayEvent n src ereg th) (m.frozen = false ∧ srcExists src = true ∧ m.spill.inbox = [] ∧ m.markers m.spill.blks (⟨src, BitVec.ofNat 64 ereg, if th < 96 then some th else none, false, []⟩ : SpEvent) ≠ [] ∧ m.minAct src = 0 ∧ (Mach.judge m.spill.blks m (⟨src, BitVec.ofNat 64 ereg, if th < 96 then some th else none, false, []⟩ : SpEvent)).2.act = 0 ∧ (Mach.judge m.spill.blks m (⟨src, BitVec.ofNat 64 ereg, if th < 96 then some th else none, false, []⟩ : SpEvent)).2.errn = false) fun m' =>
      m' = (m.count R.spill_stat_events).count (R.spill_src_cnt_cons src)) ∧
    (∀ (src : Nat), Does m (.bucketUnitEnd src) (m.frozen = false ∧ m.get (R.spill_src_st_bucket src) ≠ 0) fun m' =>
      m' = (m.set (R.spill_src_st_bucket src) (m.get (R.spill_src_st_bucket src) - 1)).severeEnd src) ∧
    (∀ (src : Nat), Does m (.bucketUnitEnd src) (m.frozen = false ∧ m.get (R.spill_src_st_bucket src) = 0) fun m' =>
      m' = m) ∧
    (∀ (src : Nat), Does m (.severeClear src) (m.frozen = false) fun m' =>
      m' = m.sets [(R.spill_src_st_severe src, 0), (R.spill_src_st_bucket src, 0)]) ∧
    (Does m (.errnClear) (m.frozen = false ∧ m.on R.spill_errn_asserted = true) fun m' =>
      m'.on R.spill_errn_asserted = false ∧ m' = (((m.set R.spill_errn_asserted 0).emit (.pin pinErrN true)).indShow).emcy 0 0xFFF 0 0) ∧
    (Does m (.errnClear) (m.on R.spill_errn_asserted = false) fun m' =>
      m' = m) ∧
    (∀ (mode src : Nat), Does m (.faultInjection mode src) (m.frozen = false ∧ m.mode_ ≠ 7) fun m' =>
      m' = m.sets [(R.spill_inj_res, 2), (R.spill_inj_go, 0)]) ∧
    (∀ (mode src : Nat), Does m (.faultInjection mode src) (m.frozen = false ∧ m.mode_ = 7 ∧ m.spill.inj = none ∧ mode = 1 ∧ hasChecker src = true) fun m' =>
      m' = ({ m.sets [(R.spill_inj_mode, mode), (R.spill_inj_src, src)] with spill := { m.spill with inj := some src } } : Mach).set R.spill_inj_go 1) ∧
    (∀ (mode src : Nat), Does m (.faultInjection mode src) (m.frozen = false ∧ m.mode_ = 7 ∧ m.spill.inj = none ∧ mode ≠ 1 ∧ srcExists src = true) fun m' =>
      m'.spill.inbox = m.spill.inbox ++ [(⟨src, 0, none, true, []⟩ : SpEvent)] ∧ m'.get R.spill_inj_res = 1 ∧ m'.get R.spill_inj_go = 0) ∧
    (∀ (mode src : Nat), Does m (.faultInjection mode src) (m.frozen = false ∧ m.mode_ = 7 ∧ m.spill.inj.isSome = true) fun m' =>
      m' = m.set R.spill_inj_res 3)

/-- Block resets: requests, fences, completion, timeouts and the expiry of marks; loss of the hub (22_spillway_faults.md, R312, R580, R584, R585, R586, R589). -/
def Obligations.BlockResets : Prop :=
  ∀ (m : Mach), 
    (∀ (block : Nat), Does m (.blockResetRequest block) (m.frozen = false ∧ m.on R.spill_brst_go = false ∧ 150 ≤ block) fun m' =>
      m' = (brstTaken m block).brstDone 2) ∧
    (∀ (block : Nat), Does m (.blockResetRequest block) (m.frozen = false ∧ m.on R.spill_brst_go = false ∧ block < 150 ∧ (brstTaken m block).blkFailed block = true) fun m' =>
      m' = (brstTaken m block).brstDone 4) ∧
    (∀ (block : Nat), Does m (.blockResetRequest block) (m.frozen = false ∧ m.on R.spill_brst_go = false ∧ block < 150 ∧ (brstTaken m block).blkFailed block = false ∧ (brstTaken m block).mayReset block = false) fun m' =>
      m' = (brstTaken m block).brstDone 3) ∧
    (∀ (block : Nat), Does m (.blockResetRequest block) (m.frozen = false ∧ m.on R.spill_brst_go = false ∧ 48 ≤ block ∧ block < 134 ∧ (brstTaken m block).blkFailed block = false ∧ (brstTaken m block).mayReset block = true) fun m' =>
      m'.get (R.spill_blk_state block) = 1 ∧ m'.get (R.spill_blk_src block) = 0xFFF ∧ m'.spill.brst = some block ∧ tfind m'.spill.blks block = some (⟨false, (brstTaken m block).blkMarks block, false⟩ : BlkReset)) ∧
    (∀ (block : Nat), Does m (.blockResetRequest block) (m.frozen = false ∧ m.on R.spill_brst_go = true) fun m' =>
      m' = m) ∧
    (∀ (block : Nat), Does m (.fenceLimit block) (m.frozen = false ∧ m.get (R.spill_blk_state block) = 1 ∧ ((tfind m.spill.blks block).map (·.repair)).getD false = false) fun m' =>
      m' = (m.set (R.spill_blk_state block) 2).forceBlk block) ∧
    (∀ (block : Nat), Does m (.fenceLimit block) (m.frozen = false ∧ m.get (R.spill_blk_state block) ≠ 1) fun m' =>
      m' = m) ∧
    (∀ (block : Nat), Does m (.blockResetComplete block) (m.frozen = false ∧ block < 134 ∧ m.get (R.spill_blk_state block) = 2 ∧ m.resetOver block = true) fun m' =>
      m' = (m.set (R.spill_blk_state block) 3).blkEnded block 1 ∧ m'.get (R.spill_blk_state block) = 3) ∧
    (∀ (block : Nat), Does m (.blockResetTimeout block) (m.frozen = false ∧ 130 ≤ block ∧ block < 134 ∧ m.get (R.spill_blk_state block) = 2) fun m' =>
      m'.get (R.spill_blk_state block) = 4 ∧ tfind m'.spill.blks block = none ∧ (m'.spill.inbox.any fun (e : SpEvent) => e.src == 3641) = true) ∧
    (∀ (block : Nat), Does m (.blockResetTimeout block) (m.frozen = false ∧ m.get (R.spill_blk_state block) = 3) fun m' =>
      m' = m) ∧
    (∀ (block : Nat), Does m (.consequentialMarkExpiry block) (m.frozen = false ∧ m.get (R.spill_blk_state block) = 3) fun m' =>
      m' = (m.set (R.spill_blk_state block) 0).dropMarks block ∧ tfind m'.spill.blks block = none) ∧
    (Does m (.hubLost) (True) fun m' =>
      m'.frozen = true ∧ m'.od.hubLost = true ∧ m'.boot.pendReset.isSome = true ∧ m'.on R.spill_errn_asserted = true)

/-- NMT commands, heartbeat, emergency messages, USDO sessions and TPDOs of the service node (23_object_dictionary.md, R595, R598, R599, R600, R601, R608). -/
def Obligations.ServiceNode : Prop :=
  ∀ (m : Mach), 
    (Does m (.nmtStart) (m.nmtHeard = true) fun m' =>
      m' = m.setNmt 2 ∧ m'.od.nmt = 2) ∧
    (Does m (.nmtStart) (m.nmtHeard = false) fun m' =>
      m' = m) ∧
    (Does m (.nmtStop) (m.nmtHeard = true) fun m' =>
      m' = m.setNmt 3 ∧ m'.od.nmt = 3) ∧
    (Does m (.nmtEnterPreOperational) (m.nmtHeard = true) fun m' =>
      m' = m.setNmt 1 ∧ m'.od.nmt = 1) ∧
    (Does m (.nmtResetNode) (m.nmtHeard = true) fun m' =>
      m'.od.nmt = 0 ∧ m'.od.sess = [] ∧ (m'.od.objs.all fun (x : Nat × Nat) => decide (x.1 < 0x100000) || decide (0x200000 ≤ x.1)) = true ∧ m'.odObj 0x2800 1 0 = 0 ∧ m'.odObj 0x2802 3 256 = 256) ∧
    (Does m (.nmtResetCommunication) (m.nmtHeard = true) fun m' =>
      m'.od.nmt = 0 ∧ m'.od.sess = [] ∧ m'.stored 0x1017 0 = 1000 ∧ m'.odObj 0x2800 1 0 = m.odObj 0x2800 1 0) ∧
    (Does m (.bootUpMessage) (m.onBus = true ∧ m.od.nmt = 0) fun m' =>
      m' = (m.canSend (0x700 + m.node) [0]).setNmt 1) ∧
    (Does m (.heartbeat) (m.nmtHeard = true ∧ m.stored 0x1017 0 ≠ 0) fun m' =>
      m' = m.canSend (0x700 + m.node) [nmtCode m.od.nmt]) ∧
    (Does m (.heartbeat) (m.stored 0x1017 0 = 0) fun m' =>
      m' = m) ∧
    (∀ (e : Emcy) (rest : List Emcy), Does m (.emcy) (m.usdoServed = true ∧ m.od.emcy = e :: rest) fun m' =>
      m' = ({ m with od := { m.od with emcy := rest, drops := 0 } } : Mach).canSend (m.stored 0x1014 0) (leBytes 2 e.code ++ [e.reg] ++ leBytes 2 e.src ++ [e.act, e.flags] ++ leBytes 8 e.tod ++ [m.od.drops])) ∧
    (∀ (id index sub : Nat) (wr : Bool) (data : List Nat), Does m (.usdoRequest id wr index sub data true true) (m.usdoServed = true ∧ id < 2 ^ 16 ∧ index < 65536 ∧ sub < 256 ∧ (m.od.sess.find? fun (x : Usdo) => x.id == id) = none ∧ m.od.sess.length < 8) fun m' =>
      m' = if wr then m.netWrite id index sub data else m.netRead id index sub) ∧
    (∀ (id index sub : Nat) (wr : Bool) (data : List Nat), Does m (.usdoRequest id wr index sub data true false) (m.usdoServed = true ∧ id < 2 ^ 16 ∧ index < 65536 ∧ sub < 256 ∧ (m.od.sess.find? fun (x : Usdo) => x.id == id) = none ∧ m.od.sess.length < 8) fun m' =>
      m' = ({ m with od := { m.od with sess := m.od.sess ++ [(⟨id, wr, index, sub, data⟩ : Usdo)] } } : Mach)) ∧
    (∀ (id index sub : Nat) (wr last : Bool) (data : List Nat), Does m (.usdoRequest id wr index sub data true last) (m.usdoServed = true ∧ id < 2 ^ 16 ∧ index < 65536 ∧ sub < 256 ∧ ((m.od.sess.find? fun (x : Usdo) => x.id == id).isSome = true ∨ 8 ≤ m.od.sess.length)) fun m' =>
      m' = m.usdoAnswer id index sub 0xA []) ∧
    (∀ (id index sub : Nat) (wr last : Bool) (data : List Nat), Does m (.usdoRequest id wr index sub data false last) (m.usdoServed = true ∧ id < 2 ^ 16 ∧ index < 65536 ∧ sub < 256 ∧ (m.od.sess.find? fun (x : Usdo) => x.id == id) = none) fun m' =>
      m' = m.usdoAnswer id index sub 8 []) ∧
    (∀ (id : Nat) (x : Usdo), Does m (.usdoTimeout id) (id < 2 ^ 16 ∧ (m.od.sess.find? fun (x : Usdo) => x.id == id) = some x ∧ m.usdoServed = true) fun m' =>
      m' = ({ m with od := { m.od with sess := m.od.sess.filter fun (y : Usdo) => y.id != id } } : Mach).usdoAnswer id x.index x.sub 0x10 []) ∧
    (Does m (.tpdo1) (m.tpdoOn 0x1800 = true) fun m' =>
      m' = m.canSend (m.stored 0x1800 1) (m.telBytes 1 9 ++ [0, 0, 0])) ∧
    (Does m (.tpdo1) (m.tpdoOn 0x1800 = false) fun m' =>
      m' = m) ∧
    (∀ (timer : Bool), Does m (.tpdo2 timer) (m.tpdoOn 0x1801 = true ∧ (timer = true ∨ m.od.tpdo2 ≠ m.tpdo2Watch)) fun m' =>
      m' = ({ m with od := { m.od with tpdo2 := m.tpdo2Watch } } : Mach).canSend (m.stored 0x1801 1) (m.telBytes 10 18)) ∧
    (Does m (.tpdo2 false) (m.od.tpdo2 = m.tpdo2Watch) fun m' =>
      m' = m) ∧
    (Does m (.canErrorPassive) (m.onBus = true) fun m' =>
      m' = ({ m with od := { m.od with passive := true } } : Mach).emcy 0x8120 0xFFF 0 0) ∧
    (Does m (.busOffRecovery) (m.onBus = true) fun m' =>
      m' = ({ m with od := { m.od with passive := false } } : Mach).emcy 0x8140 0xFFF 0 0)

/-- Objects read and written over the network and the window: images, module reset, debug commands, registers and memory, and the readout (23_object_dictionary.md, R602, R603, R606, R609, R610, R611, R612, R613, R614, R615, R625). -/
def Obligations.ObjectAccess : Prop :=
  ∀ (m : Mach), 
    (∀ (bytes : List Nat), Does m (.imageWrite bytes) (m.usdoServed = true ∧ (m.objOpen true true 0x2600 2).toOption = some (netWo 0) ∧ m.od.img ≠ 1 ∧ m.od.img ≠ 2) fun m' =>
      m'.od.img = 1 ∧ m'.od.imgLen = bytes.length) ∧
    (∀ (bytes : List Nat), Does m (.imageWrite bytes) (m.usdoServed = true ∧ (m.objOpen true true 0x2600 2).toOption = some (netWo 0) ∧ m.od.img = 1) fun m' =>
      m' = m.usdoAnswer 0 0x2600 2 0xA []) ∧
    (Does m (.imageVerified true) (m.frozen = false ∧ m.od.img = 1 ∧ m.od.imgLen ≤ areaSize) fun m' =>
      m' = ({ m with od := { m.od with img := 5 } } : Mach)) ∧
    (∀ (flashErr : Bool), Does m (.imageVerified flashErr) (m.frozen = false ∧ m.od.img = 1 ∧ areaSize < m.od.imgLen) fun m' =>
      m' = ({ m with od := { m.od with img := 6 } } : Mach)) ∧
    (Does m (.imageVerified false) (m.frozen = false ∧ m.od.img = 1 ∧ m.od.imgLen ≤ areaSize ∧ (m.imageCheck (fun o n => m.flashRd (areaBase m.idleArea + o) n) 1).1 ≠ 0) fun m' =>
      m' = ({ m with od := { m.od with img := 4 } } : Mach)) ∧
    (∀ (val : Nat), Does m (.activate val) (m.usdoServed = true ∧ (m.objOpen true true 0x2600 4).toOption = some (netWo 1) ∧ 1 < val ∧ val < 256) fun m' =>
      m' = m.usdoAnswer 0 0x2600 4 7 []) ∧
    (Does m (.activate 1) (m.usdoServed = true ∧ (m.objOpen true true 0x2600 4).toOption = some (netWo 1) ∧ m.od.img = 3 ∧ m.get R.mode_boot_area = 3) fun m' =>
      m'.od.next = some m.idleArea ∧ m'.boot.pendReset.isSome = true) ∧
    (Does m (.moduleResetObject 0x5253) (m.usdoServed = true ∧ (m.objOpen true true 0x2101 0).toOption = some (netWo 2) ∧ m.frozen = false) fun m' =>
      m' = (m.callReset 1 0xFFF).usdoAnswer 0 0x2101 0 1 []) ∧
    (Does m (.moduleResetObject 0x5253) (m.usdoServed = true ∧ (m.objOpen true true 0x2101 0).toOption = some (netWo 2) ∧ m.frozen = true ∧ m.od.hubLost = false) fun m' =>
      m' = (m.callReset 3 (m.get R.aq_dom_chk_src)).usdoAnswer 0 0x2101 0 1 []) ∧
    (∀ (val : Nat), Does m (.moduleResetObject val) (m.usdoServed = true ∧ (m.objOpen true true 0x2101 0).toOption = some (netWo 2) ∧ val < 65536 ∧ val ≠ 0x5253) fun m' =>
      m' = m.usdoAnswer 0 0x2101 0 7 []) ∧
    (Does m (.debugStop) (m.usdoServed = true ∧ (m.objOpen true true 0x2800 2).toOption = some (netWo 1) ∧ m.dbgVacant = true) fun m' =>
      m' = (m.dbgAnswer 2).usdoAnswer 0 0x2800 2 1 []) ∧
    (Does m (.debugStop) (m.usdoServed = true ∧ (m.objOpen true true 0x2800 2).toOption = some (netWo 1) ∧ m.dbgVacant = false ∧ m.dbgState = 0) fun m' =>
      m' = (((m.onTh m.dbgThread fun x => { x with dbg := 3 }).dbgAnswer 0).tryStop m.dbgThread).usdoAnswer 0 0x2800 2 1 []) ∧
    (Does m (.debugResume) (m.usdoServed = true ∧ (m.objOpen true true 0x2800 2).toOption = some (netWo 1) ∧ m.dbgVacant = false) fun m' =>
      m' = ((m.onTh m.dbgThread fun x => { x with dbg := 0 }).dbgAnswer 1).usdoAnswer 0 0x2800 2 1 []) ∧
    (Does m (.debugStep) (m.usdoServed = true ∧ (m.objOpen true true 0x2800 2).toOption = some (netWo 1) ∧ m.dbgVacant = false ∧ m.dbgState = 2 ∧ (m.worldDebug m.dbgThread).2 = true) fun m' =>
      m' = ((m.onTh m.dbgThread fun x => { x with dbg := 2 }).dbgAnswer 0).usdoAnswer 0 0x2800 2 1 []) ∧
    (Does m (.debugStep) (m.usdoServed = true ∧ (m.objOpen true true 0x2800 2).toOption = some (netWo 1) ∧ m.dbgVacant = false ∧ m.dbgState = 0) fun m' =>
      m' = m.usdoAnswer 0 0x2800 2 8 []) ∧
    (∀ (sub val : Nat), Does m (.debugRegisterAccess true sub val) (m.usdoServed = true ∧ sub < 256 ∧ val < 2 ^ 64 ∧ (m.objOpen true true 0x2801 sub).toOption = some (netRw 8) ∧ m.dbgRegOpen = 1) fun m' =>
      m' = (m.dbgRegPut sub val).usdoAnswer 0 0x2801 sub 1 []) ∧
    (∀ (sub val : Nat), Does m (.debugRegisterAccess false sub val) (m.usdoServed = true ∧ sub < 256 ∧ val < 2 ^ 64 ∧ (m.objOpen true false 0x2801 sub).toOption = some (netRw 8) ∧ m.dbgRegOpen = 1) fun m' =>
      m' = m.usdoAnswer 0 0x2801 sub 1 (leBytes 8 ((m.th m.dbgThread).cur.dbgGet sub))) ∧
    (∀ (sub val : Nat), Does m (.debugRegisterAccess false sub val) (m.usdoServed = true ∧ sub < 256 ∧ val < 2 ^ 64 ∧ (m.objOpen true false 0x2801 sub).toOption = some (netRw 8) ∧ m.dbgState ≠ 2) fun m' =>
      m' = m.usdoAnswer 0 0x2801 sub 8 []) ∧
    (∀ (bs : List Nat), Does m (.debugMemoryAccess false []) (m.usdoServed = true ∧ (m.objOpen true false 0x2802 4).toOption = some (netRw 0) ∧ m.dbgMemRead = (1, bs)) fun m' =>
      m' = m.usdoAnswer 0 0x2802 4 1 bs) ∧
    (∀ (bytes : List Nat), Does m (.debugMemoryAccess true bytes) (m.usdoServed = true ∧ (m.objOpen true true 0x2802 4).toOption = some (netRw 0)) fun m' =>
      m' = (m.dbgMemWrite bytes).2.usdoAnswer 0 0x2802 4 (m.dbgMemWrite bytes).1 []) ∧
    (Does m (.readoutItem) (m.usdoServed = true ∧ (m.objOpen true false 0x2900 4).toOption = some (netRo 0) ∧ m.frozen = false) fun m' =>
      m' = m.usdoAnswer 0 0x2900 4 8 []) ∧
    (Does m (.readoutItem) (m.usdoServed = true ∧ (m.objOpen true false 0x2900 4).toOption = some (netRo 0) ∧ m.frozen = true) fun m' =>
      m' = m.usdoAnswer 0 0x2900 4 m.readout.1 m.readout.2) ∧
    (∀ (index sub off len : Nat), Does m (.odRead index sub off len) (m.frozen = false ∧ index < 65536 ∧ sub < 256 ∧ off < 2 ^ 32 ∧ len < 8192 ∧ m.on R.od_cmd_go = false ∧ (len = 0 ∨ 4096 < len)) fun m' =>
      m'.get R.od_cmd_result = 6 ∧ m'.get R.od_cmd_done = 1 ∧ m'.get R.od_cmd_go = 0) ∧
    (∀ (index : Nat), Does m (.odRead index 0 0 4) (m.frozen = false ∧ index = 0x1000 ∧ m.on R.od_cmd_go = false ∧ m.od.hubLost = false) fun m' =>
      m'.get R.od_cmd_result = 1 ∧ m'.get R.od_cmd_done = 1 ∧ m'.get R.od_xfer_len = 4) ∧
    (∀ (index sub off : Nat) (bytes : List Nat) (fin : Bool), Does m (.odWrite index sub off bytes fin) (m.frozen = false ∧ index < 65536 ∧ sub < 256 ∧ off < 2 ^ 32 ∧ index = 0x1000 ∧ sub = 0 ∧ m.on R.od_cmd_go = false ∧ 0 < bytes.length ∧ bytes.length ≤ 4096 ∧ m.od.hubLost = false) fun m' =>
      m'.get R.od_cmd_result = 9 ∧ m'.get R.od_cmd_done = 1)

/-- Supplies, the frame's signals, and module resets (24_boot_and_reset.md, 25_electrical_and_package.md, R511, R587, R617, R618, R619, R620, R636, R638). -/
def Obligations.PowerAndReset : Prop :=
  ∀ (m : Mach), 
    (Does m (.powerOnReset) (True) fun m' =>
      m' = ({ Mach.reset with seed := m.seed, sent := m.sent, boot := { Mach.reset.boot with pwrgd := m.boot.pwrgd, resetN := m.boot.resetN, flash := m.boot.flash } } : Mach)) ∧
    (Does m (.vAoLoss) (True) fun m' =>
      m'.frozen = true ∧ m'.boot.vao = false ∧ m'.boot.mainen = false ∧ m'.boot.phase = 0) ∧
    (Does m (.mainenAssert) (m.boot.vao = true ∧ m.boot.mainen = false) fun m' =>
      m' = ({ m with boot := { m.boot with mainen := true } } : Mach).emit (.pin pinMainEn true)) ∧
    (Does m (.mainenAssert) (m.boot.mainen = true) fun m' =>
      m' = m) ∧
    (Does m (.pwrgdRise) (True) fun m' =>
      m' = ({ m with boot := { m.boot with pwrgd := true } } : Mach)) ∧
    (Does m (.pwrgdFall) (2 ≤ m.boot.phase ∧ m.frozen = false) fun m' =>
      m' = ({ m with boot := { m.boot with pwrgd := false } } : Mach).callReset 1 0xFFF) ∧
    (Does m (.pwrgdFall) (2 ≤ m.boot.phase ∧ m.frozen = true ∧ m.od.hubLost = false) fun m' =>
      m' = ({ m with boot := { m.boot with pwrgd := false } } : Mach).callReset 3 (m.get R.aq_dom_chk_src)) ∧
    (Does m (.resetNChange false) (2 ≤ m.boot.phase ∧ m.frozen = false) fun m' =>
      m' = ({ m with boot := { m.boot with resetN := false } } : Mach).callReset 1 0xFFF) ∧
    (Does m (.resetNChange true) (True) fun m' =>
      m' = ({ m with boot := { m.boot with resetN := true } } : Mach)) ∧
    (Does m (.referenceClockLoss) (m.boot.pwrgd = true) fun m' =>
      m' = m.pwrgdFall) ∧
    (Does m (.referenceClockLoss) (m.boot.pwrgd = false) fun m' =>
      m' = m) ∧
    (∀ (cause src : Nat), Does m (.moduleReset) (m.boot.pendReset = some (cause, src)) fun m' =>
      m'.mem = m.mem ∧ m'.tod = m.tod ∧ m'.boot.flash = m.boot.flash ∧ m'.thr = [] ∧ m'.cores = [] ∧ m'.frozen = false ∧ m'.boot.pendReset = none ∧ m'.boot.phase = Mach.reset.boot.phase ∧ m'.od = Mach.reset.od) ∧
    (Does m (.moduleReset) (m.boot.pendReset = none) fun m' =>
      m' = m) ∧
    (∀ (mv : Nat) (x : Excursion), Does m (.supplyExcursion [mv]) (m.frozen = false ∧ m.boot.vao = true ∧ tget m.boot.rails 0 ⟨0, 0, 0, false, false⟩ = x ∧ x.now = false ∧ x.outRun = 9 ∧ mv < 11400 ∧ 10800 ≤ mv) fun m' =>
      (tget m'.boot.rails 0 ⟨0, 0, 0, false, false⟩).now = true ∧ m'.get R.weir_supply_kind = 1 ∧ m'.get R.weir_supply_rail = 0 ∧ m'.get R.weir_supply_mv = mv ∧ m'.get R.weir_supply_new = 1) ∧
    (∀ (mv : Nat), Does m (.supplyExcursion [mv]) (m.frozen = false ∧ m.boot.vao = true ∧ 11400 ≤ mv ∧ mv ≤ 12600 ∧ (tget m.boot.rails 0 ⟨0, 0, 0, false, false⟩).now = false) fun m' =>
      m' = ({ m with boot := { m.boot with rails := tset m.boot.rails 0 { tget m.boot.rails 0 ⟨0, 0, 0, false, false⟩ with outRun := 0, absRun := 0, inRun := min ((tget m.boot.rails 0 ⟨0, 0, 0, false, false⟩).inRun + 1) 100 } } } : Mach))

/-- The reset sequence, the boot image, the directory sweep, boot seal, and starting a held thread (24_boot_and_reset.md, R617, R620, R621, R622, R624, R625, R627, R628, R629). -/
def Obligations.BootSequence : Prop :=
  ∀ (m : Mach), 
    (∀ (module dsz node : Nat) (ftestN : Bool), Does m (.resetSequenceStart module dsz node ftestN) (m.boot.phase = 1 ∧ m.boot.pwrgd = true ∧ m.boot.resetN = true ∧ module < 4 ∧ dsz < 4 ∧ node < 128) fun m' =>
      m' = ({ m with boot := { m.boot with ftestN := ftestN, phase := 2 } } : Mach).sets [(R.id_place_module, module), (R.id_place_dsize, dsz + 1), (R.id_place_can_node, node)]) ∧
    (∀ (module dsz node : Nat) (ftestN : Bool), Does m (.resetSequenceStart module dsz node ftestN) (m.boot.phase ≠ 1) fun m' =>
      m' = m) ∧
    (Does m (.pllLock) (m.boot.phase = 2 ∧ m.dsize = 1) fun m' =>
      m' = (List.range 20).foldl (fun (x : Mach) p => x.memTrain p) (({ m with boot := { m.boot with phase := 3 } } : Mach).applyCarry)) ∧
    (Does m (.bootRomStart) (m.boot.phase = 3) fun m' =>
      m' = ({ m with boot := { m.boot with phase := 4 }, od := { m.od with nmt := 0 } } : Mach)) ∧
    (Does m (.bootAreaChecked true) (m.boot.phase = 4 ∧ m.on (if m.selArea = 0 then R.mode_boot_resa else R.mode_boot_resb) = false) fun m' =>
      m' = m.sets [(if m.selArea = 0 then R.mode_boot_resa else R.mode_boot_resb, 7), (R.mode_boot_fb, 1)]) ∧
    (Does m (.bootAreaChecked true) (m.boot.phase = 4 ∧ m.on (if m.selArea = 0 then R.mode_boot_resa else R.mode_boot_resb) = true) fun m' =>
      m'.boot.phase = 5 ∧ m'.get R.mode_boot_area = 3) ∧
    (Does m (.directorySweep) (m.frozen = false ∧ 3 ≤ m.boot.phase ∧ m.sealed = false ∧ m.on R.mode_boot_sweep = false ∧ m.home.sweeping = false ∧ m.groupsReady = true) fun m' =>
      m'.home = { m.home with sweeping := true } ∧ ((List.range 4).all fun g => m'.get (R.mem_grp_stat_state g) == 1) = true) ∧
    (Does m (.directorySweepComplete) (m.frozen = false ∧ m.home.sweeping = true ∧ m.home.waitq = [] ) fun m' =>
      m'.home.sweeping = false ∧ m'.on R.mode_boot_sweep = true ∧ ((List.range 4).all fun g => m'.get (R.mem_grp_stat_state g) == (if m.get (R.mem_grp_stat_lost g) = 7 then 2 else 3)) = true) ∧
    (Does m (.bootSeal) (m.frozen = false ∧ m.boot.phase = 5 ∧ m.sealed = true) fun m' =>
      m' = m.sets [(R.mode_seal_result, 7), (R.mode_seal_done, 1), (R.mode_seal_go, 0)]) ∧
    (Does m (.bootSeal) (m.frozen = false ∧ m.boot.phase = 5 ∧ m.sealed = false ∧ m.rgnCheck.1 ≠ 1) fun m' =>
      m' = (m.sets [(R.mem_rgnst_result, m.rgnCheck.1), (R.mem_rgnst_bad, m.rgnCheck.2)]).sets [(R.mode_seal_result, 2), (R.mode_seal_done, 1), (R.mode_seal_go, 0)]) ∧
    (∀ (thread addr : Nat), Does m (.threadStart thread addr) (m.frozen = false ∧ thread < 128 ∧ addr < 2 ^ 52 ∧ addr % 4 = 0 ∧ m.get R.mode_seal_state ≠ 2) fun m' =>
      m' = m.sets [(R.mode_tstart_thread, thread), (R.mode_tstart_addr, addr / 4), (R.mode_tstart_result, 3), (R.mode_tstart_done, 1), (R.mode_tstart_go, 0)]) ∧
    (∀ (thread addr : Nat), Does m (.threadStart thread addr) (m.frozen = false ∧ thread < 96 ∧ addr < 2 ^ 52 ∧ addr % 4 = 0 ∧ m.get R.mode_seal_state = 2 ∧ m.on (R.casc_thr_held thread) = true ∧ (m.th thread).run = Run.vacant ∧ m.inKind1 addr (addr + 3) = true) fun m' =>
      (m'.th thread).run = Run.physical ∧ (m'.th thread).cur.ia = BitVec.ofNat 64 addr ∧ (m'.th thread).cur.gr 1 = BitVec.ofNat 64 thread ∧ (m'.th thread).com = (m'.th thread).cur ∧ m'.get R.mode_tstart_result = 1 ∧ m'.get R.mode_tstart_done = 1)

/-- Condition codes and overflow of add, sub, mul and div, and the corners of division (R119, R120, R122). -/
def Obligations.IntegerOverflow : Prop :=
  ∀ (s : State) (o : FA) (m1 : Mach), o.wf = true → Word s.m o.th m1 → Clear m1 o.th →
    let a := (s.m.th o.th).cur
    let x := a.gr o.a
    let y := a.gr o.b
    let past := fun (e : Int) => e < -2 ^ 63 ∨ 2 ^ 63 ≤ e
    let code := fun (e : Int) => if e < -2 ^ 63 ∨ 2 ^ 63 ≤ e then 3 else if e = 0 then 0 else if e < 0 then 1 else 2
    let corner := x = 0x8000000000000000 ∧ y = 0xffffffffffffffff
    let ends := fun (i : Instr) (r : Arch) (ovf : Prop) =>
      (¬ (ovf ∧ a.pswF 29 29 = 1) → Leaves i s o.th m1 (after a r 4) (m1.th o.th).com) ∧
      (ovf ∧ a.pswF 29 29 = 1 → Enters i s o.th m1 (after a r 4) (max 1 (after a r 4).pl) 0x0207 0 (after a r 4).ia)
    let faults := fun (i : Instr) => Enters i s o.th m1 a (max 1 a.pl) 0x0208 0 a.ia
    ends (.add o) ((a.setG o.t (x + y)).setCc (code (x.toInt + y.toInt))) (past (x.toInt + y.toInt)) ∧
    ends (.sub o) ((a.setG o.t (x - y)).setCc (code (x.toInt - y.toInt))) (past (x.toInt - y.toInt)) ∧
    ends (.mul o) ((a.setG o.t (x * y)).setCc (code (x.toInt * y.toInt))) (past (x.toInt * y.toInt)) ∧
    (y ≠ 0 → ¬ corner → ends (.div o) (a.setG o.t (BitVec.ofInt 64 (x.toInt.tdiv y.toInt))) False) ∧
    (corner → ends (.div o) (a.setG o.t 0x8000000000000000) True) ∧
    (corner → ends (.rem o) (a.setG o.t 0) False) ∧
    (y = 0 → faults (.div o) ∧ faults (.divu o) ∧ faults (.rem o) ∧ faults (.remu o))

/-- A shift or rotate takes bits 5:0 of g[b] as its amount and ignores the others; a shift by 0 copies g[a] (R121). -/
def Obligations.ShiftAmounts : Prop :=
  ∀ (s : State) (o : FA) (m1 : Mach), o.wf = true → Word s.m o.th m1 →
    let a := (s.m.th o.th).cur
    let x := a.gr o.a
    let leaves := fun (i : Instr) (b : Arch) => Leaves i s o.th m1 (after a b 4) (m1.th o.th).com
    (∀ (k : Nat), k < 64 → (a.gr o.b).toNat % 64 = k →
      leaves (.sll o) (a.setG o.t (BitVec.ofNat 64 (x.toNat * 2 ^ k))) ∧
      leaves (.srl o) (a.setG o.t (BitVec.ofNat 64 (x.toNat / 2 ^ k))) ∧
      leaves (.sra o) (a.setG o.t (BitVec.ofInt 64 (x.toInt / 2 ^ k))) ∧
      leaves (.rotl o) (a.setG o.t (BitVec.ofNat 64 (x.toNat * 2 ^ k + x.toNat / 2 ^ (64 - k))))) ∧
    ((a.gr o.b).toNat % 64 = 0 →
      leaves (.sll o) (a.setG o.t x) ∧ leaves (.srl o) (a.setG o.t x) ∧ leaves (.sra o) (a.setG o.t x) ∧ leaves (.rotl o) (a.setG o.t x))

/-- Register g0 reads as zero in every use, and a write to it is discarded (R73). -/
def Obligations.ZeroRegister : Prop :=
  ∀ (a : Arch) (v : W64) (r q disp sc : Nat),
    a.gr 0 = 0 ∧ a.setG 0 v = a ∧ (r ≠ 0 → (a.setG r v).gr r = v) ∧ (q ≠ r → (a.setG r v).gr q = a.gr q) ∧
    eaM a 0 disp = signExt 16 disp ∧ eaX a 0 r sc = a.gr r <<< sc ∧ eaX a r 0 sc = a.gr r

/-- What a software write does to a field of each access class (Table 1.17) (01_module_map.md, R41, R42, R43). -/
def Obligations.AccessClasses : Prop :=
  ∀ (f : FDesc) (isSealed : Bool) (old val w : Nat), f.lo ≤ f.hi → f.hi < 64 → f.lim = none →
    let n := f.apply isSealed old val (2 ^ 64 - 1) w
    let fld := fun (x : Nat) => bits x f.hi f.lo
    (f.cls = .rw ∨ f.cls = .cnt → fld n = fld val) ∧
    (f.cls = .ro ∨ f.cls = .wo → n = w) ∧
    (f.cls = .w1c → ∀ i, f.lo ≤ i → i ≤ f.hi → bit n i = (bit old i && !bit val i)) ∧
    (f.cls = .w1s → ∀ i, f.lo ≤ i → i ≤ f.hi → bit n i = (bit old i || bit val i)) ∧
    (f.cls = .rsl → isSealed = true → n = w) ∧
    (f.cls = .rsl → isSealed = false → fld n = fld val) ∧
    (∀ i, i < f.lo ∨ f.hi < i → bit n i = bit w i) ∧
    (fld old = fld w → fld (f.apply isSealed old val 0 w) = fld w)

/-- Memory as a list of cells: a byte written reads back, others stay, the canonical form is kept and is unique (the model's own form) (08_caches_and_ordering.md, 10_memory_ports.md). -/
def Obligations.MemoryCells : Prop :=
  ∀ (mem : Memory), mem.wf = true →
    (∀ (a : Nat) (v : Byte), (mem.wr a v).wf = true ∧ (mem.wr a v).rd a = v ∧ ∀ b, b ≠ a → (mem.wr a v).rd b = mem.rd b) ∧
    (∀ (a : Nat) (bs : List Nat), (mem.wrs a bs).wf = true ∧ ∀ b, b < a ∨ a + bs.length ≤ b → (mem.wrs a bs).rd b = mem.rd b) ∧
    (∀ (l : Nat) (d : Line), (mem.wrLine l d).wf = true ∧ (mem.wrLine l d).rdLine l = d) ∧
    (∀ lo n, (mem.zero lo n).wf = true ∧ (∀ b, lo ≤ b → b < lo + n → (mem.zero lo n).rd b = 0) ∧
      ∀ b, b < lo ∨ lo + n ≤ b → (mem.zero lo n).rd b = mem.rd b) ∧
    (∀ mem' : Memory, mem'.wf = true → (∀ a, mem'.rd a = mem.rd a) → mem' = mem)

/-- The machine right after reset: mode M0, not sealed, nothing waiting, and the reset values of its tables (01_module_map.md, 02_modes_and_epochs.md, 18_pcie_ports_and_hotplug.md, 20_interrupts_and_rills.md, 21_cascade_and_weir.md, 22_spillway_faults.md, R12, R511). -/
def Obligations.ResetState : Prop :=
  State.reset.pending = [] ∧ State.reset.m.mem = [] ∧ State.reset.m.sent = [] ∧ State.reset.m.frozen = false ∧
  let m := State.reset.m
  m.get R.mode_cur_cur = 0 ∧ m.sealed = false ∧ m.on R.spill_errn_asserted = false ∧
  m.get R.id_part_vendor = 0x4E4B ∧ m.get R.id_part_part = 0x25B0 ∧ m.get R.weir_limit_watts = 2000 ∧ m.get R.mode_cfg_drain_lim = 100 ∧
  (∀ p, p < 32 → m.get (R.pcie_p_stat_state p) = 4 ∧ m.on (R.pcie_p_stat_pwr p) = false ∧ m.on (R.pcie_p_hp_perst p) = true) ∧
  (∀ p, p < 50 → m.jlState p = 0) ∧
  (∀ r, r < 4096 → m.on (R.rill_r_base_en r) = false ∧ m.get (R.rill_r_base_lsize r) = 6) ∧
  (∀ g, g < 4096 → m.get (R.dbell_grp_tlim g) = 2 ∧ m.get (R.dbell_grp_climit g) = 1) ∧
  (∀ v, v < 1024 → m.vpSt v = 0 ∧ m.get (R.casc_vp_ctl_weight v) = 16 ∧ m.get (R.casc_vp_ctl_prio v) = 8) ∧
  (∀ x, x < 4096 → minAction x = 0 → m.get (R.spill_src_ctl_ord x) = 1 ∧ m.get (R.spill_src_ctl_sev x) = 2 ∧
    m.get (R.spill_src_ctl_w x) = 1000 ∧ m.get (R.spill_src_ctl_n x) = 16)

/-- Every command whose operands name something that exists completes, and leaves the queue alone (00_scope.md, 95_what_each_step_holds.md). -/
def Obligations.EveryCommandCompletes : Prop :=
  ∀ (c : Instr) (s : State), c.wf = true → ∃ t, exec c s = .next t ∧ t.pending = s.pending

/-- The commands that act while the module is checkstopped: power, reset and boot, the service network, and the indicators; all others leave a
checkstopped module as it is. -/
def actsFrozen : Instr → Bool
  | .concurrentRepairButton .. | .hubLost .. | .nmtStart .. | .nmtStop .. | .nmtEnterPreOperational .. | .nmtResetNode .. | .nmtResetCommunication ..
  | .bootUpMessage .. | .heartbeat .. | .emcy .. | .usdoRequest .. | .usdoTimeout .. | .tpdo1 .. | .tpdo2 .. | .canErrorPassive .. | .busOffRecovery ..
  | .imageWrite .. | .activate .. | .moduleResetObject .. | .debugStop .. | .debugResume .. | .debugStep .. | .debugRegisterAccess ..
  | .debugMemoryAccess .. | .readoutItem .. | .powerOnReset .. | .mainenAssert .. | .pwrgdRise .. | .pwrgdFall .. | .resetNChange ..
  | .referenceClockLoss .. | .moduleReset .. | .resetSequenceStart .. | .pllLock .. | .bootRomStart .. | .bootAreaChecked .. | .vAoLoss ..
  | .faultIndicatorTimeout .. => true
  | _ => false

/-- In a checkstop no command but those of power, reset, boot and the service network changes anything (02_modes_and_epochs.md, 22_spillway_faults.md, R65, R300, R587, R588). -/
def Obligations.CheckstopHolds : Prop :=
  ∀ (c : Instr) (s t : State), s.m.frozen = true → actsFrozen c = false → exec c s = .next t → t = s

/-- From a state whose waiting commands are well formed the block always goes on, and they stay so (00_scope.md, 95_what_each_step_holds.md). -/
def Obligations.QueueStaysGood : Prop :=
  ∀ (s : State), queueOk s = true → ∃ t, step s = .next t ∧ t.pending = s.pending.tail ∧ queueOk t = true ∧
    (s.pending = [] → { t.m with tod := s.m.tod } = s.m ∧ (s.m.boot.vao = true → t.m.tod = (s.m.tod + 1) % 2 ^ 64))
end

