-- ==== Sys2Proof/Laws/Memory.lean ====
section
/-! SUPPORT. Laws of memory: reading back a write, leaving other bytes alone, and keeping the canonical form. -/

namespace Sys2Proof.Machine

/-- Every listed address of a memory lies at or above a bound. -/
def Memory.above (b : Nat) (mem : Memory) : Prop := ∀ x ∈ mem, b ≤ x.1

theorem Memory.wf_cons (k : Nat) (v : Byte) (r : Memory) :
    Memory.wf ((k, v) :: r) = true ↔ v ≠ 0 ∧ Memory.above (k + 1) r ∧ Memory.wf r = true := by
  induction r generalizing k v with
  | nil => simp [Memory.wf, Memory.above]
  | cons y r ih =>
    obtain ⟨k', v'⟩ := y
    simp only [Memory.wf, Bool.and_eq_true, decide_eq_true_eq, bne_iff_ne]
    constructor
    · rintro ⟨⟨h1, h2⟩, h3⟩
      refine ⟨h2, ?_, h3⟩
      have := (ih k' v').1 h3
      intro x hx
      rcases List.mem_cons.1 hx with e | hx
      · subst e; exact h1
      · have := this.2.1 x hx; omega
    · rintro ⟨h1, h2, h3⟩
      exact ⟨⟨h2 (k', v') (by simp), h1⟩, h3⟩

theorem Memory.rd_above (mem : Memory) (b a : Nat) (h : mem.above b) (ha : a < b) : mem.rd a = 0 := by
  induction mem with
  | nil => rfl
  | cons y r ih =>
    obtain ⟨k, v⟩ := y
    have := h (k, v) (by simp)
    have hk : a ≠ k := by intro e; subst e; simp at this; omega
    simp only [Memory.rd, if_neg hk]
    exact ih fun x hx => h x (by simp [hx])

theorem Memory.wr_above (mem : Memory) (b a : Nat) (v : Byte) (h : mem.above b) (ha : b ≤ a) : (mem.wr a v).above b := by
  induction mem with
  | nil => simp only [Memory.wr]; split <;> simp [Memory.above, ha]
  | cons y r ih =>
    obtain ⟨k, w⟩ := y
    have hk := h (k, w) (by simp)
    have hr : Memory.above b r := fun x hx => h x (by simp [hx])
    have hall : ∀ (z : Host.Cell), z ∈ (k, w) :: r → b ≤ z.1 := h
    simp only [Memory.wr]
    split
    · split
      · exact hall
      · intro x hx; rcases List.mem_cons.1 hx with e | hx
        · subst e; exact ha
        · exact hall x hx
    · split
      · split
        · exact hr
        · intro x hx; rcases List.mem_cons.1 hx with e | hx
          · subst e; exact ha
          · exact hr x hx
      · intro x hx; rcases List.mem_cons.1 hx with e | hx
        · subst e; exact hk
        · exact ih hr x hx

/-- Writing one byte keeps the canonical form. -/
theorem Memory.wf_wr (mem : Memory) (a : Nat) (v : Byte) (h : mem.wf = true) : (mem.wr a v).wf = true := by
  induction mem with
  | nil =>
    simp only [Memory.wr]; split
    · rfl
    · simpa [Memory.wf] using ‹¬ v = 0›
  | cons y r ih =>
    obtain ⟨k, w⟩ := y
    have h' := (Memory.wf_cons k w r).1 h
    simp only [Memory.wr]
    split
    · split
      · exact h
      · refine (Memory.wf_cons _ _ _).2 ⟨‹_›, ?_, h⟩
        intro x hx; rcases List.mem_cons.1 hx with e | hx
        · subst e; show a + 1 ≤ k; omega
        · have := h'.2.1 x hx; omega
    · split
      · rename_i e; subst e
        split
        · exact h'.2.2
        · exact (Memory.wf_cons _ _ _).2 ⟨‹_›, h'.2.1, h'.2.2⟩
      · exact (Memory.wf_cons _ _ _).2 ⟨h'.1, Memory.wr_above _ _ _ _ h'.2.1 (by omega), ih h'.2.2⟩

/-- A byte reads back as written. -/
theorem Memory.rd_wr_same (mem : Memory) (a : Nat) (v : Byte) (h : mem.wf = true) : (mem.wr a v).rd a = v := by
  induction mem with
  | nil => simp only [Memory.wr]; split <;> simp_all [Memory.rd]
  | cons y r ih =>
    obtain ⟨k, w⟩ := y
    have h' := (Memory.wf_cons k w r).1 h
    simp only [Memory.wr]
    split
    · split
      · rename_i hv; subst hv
        exact Memory.rd_above _ k a (fun x hx => by rcases List.mem_cons.1 hx with e | hx
                                                    · subst e; exact Nat.le_refl _
                                                    · have := h'.2.1 x hx; omega) ‹_›
      · simp [Memory.rd]
    · split
      · rename_i e; subst e
        split
        · rename_i hv; subst hv; exact Memory.rd_above _ (a + 1) a h'.2.1 (by omega)
        · simp [Memory.rd]
      · rename_i e; simp only [Memory.rd, if_neg e]; exact ih h'.2.2

/-- A write leaves every other byte alone. -/
theorem Memory.rd_wr_ne (mem : Memory) (a b : Nat) (v : Byte) (h : b ≠ a) : (mem.wr a v).rd b = mem.rd b := by
  induction mem with
  | nil => simp only [Memory.wr]; split <;> simp [Memory.rd, h]
  | cons y r ih =>
    obtain ⟨k, w⟩ := y
    simp only [Memory.wr]
    split
    · split
      · rfl
      · simp [Memory.rd, h]
    · split
      · rename_i e; subst e
        split <;> simp [Memory.rd, h]
      · simp only [Memory.rd, ih]

/-- Writing bytes at ascending addresses keeps the canonical form. -/
theorem Memory.wf_wrs (bs : List Nat) (mem : Memory) (a : Nat) (h : mem.wf = true) : (mem.wrs a bs).wf = true := by
  induction bs generalizing mem a with
  | nil => exact h
  | cons b r ih => exact ih _ _ (mem.wf_wr a _ h)

/-- Writing bytes leaves every byte outside them alone. -/
theorem Memory.rd_wrs_ne (bs : List Nat) (mem : Memory) (a b : Nat) (h : b < a ∨ a + bs.length ≤ b) :
    (mem.wrs a bs).rd b = mem.rd b := by
  induction bs generalizing mem a with
  | nil => rfl
  | cons x r ih =>
    simp only [List.length_cons] at h
    simp only [Memory.wrs]
    rw [ih _ _ (by omega), mem.rd_wr_ne a b _ (by omega)]

/-- Writing a line keeps the canonical form. -/
theorem Memory.wf_wrLine (mem : Memory) (l : Nat) (d : Line) (h : mem.wf = true) : (mem.wrLine l d).wf = true := mem.wf_wrs _ _ h

/-- Writing a line leaves every byte outside it alone. -/
theorem Memory.rd_wrLine_ne (mem : Memory) (l a : Nat) (d : Line) (h : a / 256 ≠ l) : (mem.wrLine l d).rd a = mem.rd a := by
  refine Memory.rd_wrs_ne _ _ _ _ ?_
  simp only [List.length_map, List.length_range]
  omega

/-- Forgetting listed bytes keeps the canonical form. -/
theorem Memory.wf_filter (p : Host.Cell → Bool) (mem : Memory) (h : mem.wf = true) : Memory.wf (mem.filter p) = true := by
  induction mem with
  | nil => rfl
  | cons y r ih =>
    obtain ⟨k, v⟩ := y
    have h' := (Memory.wf_cons k v r).1 h
    by_cases hp : p (k, v) = true
    · rw [List.filter_cons_of_pos hp]
      exact (Memory.wf_cons _ _ _).2 ⟨h'.1, fun x hx => h'.2.1 x (List.mem_filter.1 hx |>.1), ih h'.2.2⟩
    · rw [List.filter_cons_of_neg hp]
      exact ih h'.2.2

/-- A byte of memory after forgetting the listed bytes that fail a test of their address. -/
theorem Memory.rd_filter (p : Nat → Bool) (mem : Memory) (a : Nat) (h : mem.wf = true) :
    Memory.rd (mem.filter fun c => p c.1) a = if p a = true then mem.rd a else 0 := by
  induction mem with
  | nil => simp [Memory.rd]
  | cons y r ih =>
    obtain ⟨k, v⟩ := y
    have h' := (Memory.wf_cons k v r).1 h
    have hr := ih h'.2.2
    by_cases hp : p k = true
    · rw [List.filter_cons_of_pos (by simpa using hp)]
      by_cases e : a = k
      · subst e; simp [Memory.rd, hp]
      · simp only [Memory.rd, if_neg e, hr]
    · rw [List.filter_cons_of_neg (by simpa using hp), hr]
      by_cases e : a = k
      · subst e; simp [hp]
      · simp only [Memory.rd, if_neg e]

/-- Zeroing a range keeps the canonical form. -/
theorem Memory.wf_zero (mem : Memory) (lo n : Nat) (h : mem.wf = true) : (mem.zero lo n).wf = true := mem.wf_filter _ h

/-- A zeroed range reads 0, and every other byte as before. -/
theorem Memory.rd_zero (mem : Memory) (lo n a : Nat) (h : mem.wf = true) :
    (mem.zero lo n).rd a = if a < lo ∨ lo + n ≤ a then mem.rd a else 0 := by
  rw [Memory.zero, Memory.rd_filter (fun k => decide (k < lo) || decide (lo + n ≤ k)) mem a h]
  simp only [Bool.or_eq_true, decide_eq_true_eq]

/-- The memory after reset is in canonical form. -/
theorem Memory.wf_reset : Mach.reset.mem.wf = true := rfl

end Sys2Proof.Machine
end

