-- ==== Sys2Proof/Laws/State.lean ====
section
/-! SUPPORT. What each named update of the machine leaves as it was: one lemma for each field and each update. -/

namespace Sys2Proof.Machine

variable (m : Mach)

@[simp] theorem Mach.setWord_mem (f : Fld) (w : Nat) : (m.setWord f w).mem = m.mem := rfl
@[simp] theorem Mach.setWord_thr (f : Fld) (w : Nat) : (m.setWord f w).thr = m.thr := rfl
@[simp] theorem Mach.setWord_cores (f : Fld) (w : Nat) : (m.setWord f w).cores = m.cores := rfl
@[simp] theorem Mach.setWord_patch (f : Fld) (w : Nat) : (m.setWord f w).patch = m.patch := rfl
@[simp] theorem Mach.setWord_home (f : Fld) (w : Nat) : (m.setWord f w).home = m.home := rfl
@[simp] theorem Mach.setWord_fab (f : Fld) (w : Nat) : (m.setWord f w).fab = m.fab := rfl
@[simp] theorem Mach.setWord_sl (f : Fld) (w : Nat) : (m.setWord f w).sl = m.sl := rfl
@[simp] theorem Mach.setWord_mode (f : Fld) (w : Nat) : (m.setWord f w).mode = m.mode := rfl
@[simp] theorem Mach.setWord_db (f : Fld) (w : Nat) : (m.setWord f w).db = m.db := rfl
@[simp] theorem Mach.setWord_rill (f : Fld) (w : Nat) : (m.setWord f w).rill = m.rill := rfl
@[simp] theorem Mach.setWord_spill (f : Fld) (w : Nat) : (m.setWord f w).spill = m.spill := rfl
@[simp] theorem Mach.setWord_memp (f : Fld) (w : Nat) : (m.setWord f w).memp = m.memp := rfl
@[simp] theorem Mach.setWord_tod (f : Fld) (w : Nat) : (m.setWord f w).tod = m.tod := rfl
@[simp] theorem Mach.setWord_seed (f : Fld) (w : Nat) : (m.setWord f w).seed = m.seed := rfl
@[simp] theorem Mach.setWord_sent (f : Fld) (w : Nat) : (m.setWord f w).sent = m.sent := rfl
@[simp] theorem Mach.setWord_frozen (f : Fld) (w : Nat) : (m.setWord f w).frozen = m.frozen := rfl
@[simp] theorem Mach.setWord_grotto (f : Fld) (w : Nat) : (m.setWord f w).grotto = m.grotto := rfl
@[simp] theorem Mach.setWord_pcie (f : Fld) (w : Nat) : (m.setWord f w).pcie = m.pcie := rfl
@[simp] theorem Mach.setWord_boot (f : Fld) (w : Nat) : (m.setWord f w).boot = m.boot := rfl
@[simp] theorem Mach.setWord_od (f : Fld) (w : Nat) : (m.setWord f w).od = m.od := rfl
@[simp] theorem Mach.setWord_vp (f : Fld) (w : Nat) : (m.setWord f w).vp = m.vp := rfl
@[simp] theorem Mach.setWord_shoot (f : Fld) (w : Nat) : (m.setWord f w).shoot = m.shoot := rfl
@[simp] theorem Mach.setWord_weir (f : Fld) (w : Nat) : (m.setWord f w).weir = m.weir := rfl
@[simp] theorem Mach.setWord_patchIn (f : Fld) (w : Nat) : (m.setWord f w).patchIn = m.patchIn := rfl
@[simp] theorem Mach.setWord_cis (f : Fld) (w : Nat) : (m.setWord f w).cis = m.cis := rfl
@[simp] theorem Mach.setWord_acc (f : Fld) (w : Nat) : (m.setWord f w).acc = m.acc := rfl
@[simp] theorem Mach.setWord_jl (f : Fld) (w : Nat) : (m.setWord f w).jl = m.jl := rfl
@[simp] theorem Mach.setWord_chan (f : Fld) (w : Nat) : (m.setWord f w).chan = m.chan := rfl
@[simp] theorem Mach.setWord_cpl (f : Fld) (w : Nat) : (m.setWord f w).cpl = m.cpl := rfl

@[simp] theorem Mach.set_mem (f : Fld) (v : Nat) : (m.set f v).mem = m.mem := rfl
@[simp] theorem Mach.set_thr (f : Fld) (v : Nat) : (m.set f v).thr = m.thr := rfl
@[simp] theorem Mach.set_cores (f : Fld) (v : Nat) : (m.set f v).cores = m.cores := rfl
@[simp] theorem Mach.set_patch (f : Fld) (v : Nat) : (m.set f v).patch = m.patch := rfl
@[simp] theorem Mach.set_home (f : Fld) (v : Nat) : (m.set f v).home = m.home := rfl
@[simp] theorem Mach.set_fab (f : Fld) (v : Nat) : (m.set f v).fab = m.fab := rfl
@[simp] theorem Mach.set_sl (f : Fld) (v : Nat) : (m.set f v).sl = m.sl := rfl
@[simp] theorem Mach.set_mode (f : Fld) (v : Nat) : (m.set f v).mode = m.mode := rfl
@[simp] theorem Mach.set_db (f : Fld) (v : Nat) : (m.set f v).db = m.db := rfl
@[simp] theorem Mach.set_rill (f : Fld) (v : Nat) : (m.set f v).rill = m.rill := rfl
@[simp] theorem Mach.set_spill (f : Fld) (v : Nat) : (m.set f v).spill = m.spill := rfl
@[simp] theorem Mach.set_memp (f : Fld) (v : Nat) : (m.set f v).memp = m.memp := rfl
@[simp] theorem Mach.set_tod (f : Fld) (v : Nat) : (m.set f v).tod = m.tod := rfl
@[simp] theorem Mach.set_seed (f : Fld) (v : Nat) : (m.set f v).seed = m.seed := rfl
@[simp] theorem Mach.set_sent (f : Fld) (v : Nat) : (m.set f v).sent = m.sent := rfl
@[simp] theorem Mach.set_frozen (f : Fld) (v : Nat) : (m.set f v).frozen = m.frozen := rfl
@[simp] theorem Mach.set_grotto (f : Fld) (v : Nat) : (m.set f v).grotto = m.grotto := rfl
@[simp] theorem Mach.set_pcie (f : Fld) (v : Nat) : (m.set f v).pcie = m.pcie := rfl
@[simp] theorem Mach.set_boot (f : Fld) (v : Nat) : (m.set f v).boot = m.boot := rfl
@[simp] theorem Mach.set_od (f : Fld) (v : Nat) : (m.set f v).od = m.od := rfl
@[simp] theorem Mach.set_vp (f : Fld) (v : Nat) : (m.set f v).vp = m.vp := rfl
@[simp] theorem Mach.set_shoot (f : Fld) (v : Nat) : (m.set f v).shoot = m.shoot := rfl
@[simp] theorem Mach.set_weir (f : Fld) (v : Nat) : (m.set f v).weir = m.weir := rfl
@[simp] theorem Mach.set_patchIn (f : Fld) (v : Nat) : (m.set f v).patchIn = m.patchIn := rfl
@[simp] theorem Mach.set_cis (f : Fld) (v : Nat) : (m.set f v).cis = m.cis := rfl
@[simp] theorem Mach.set_acc (f : Fld) (v : Nat) : (m.set f v).acc = m.acc := rfl
@[simp] theorem Mach.set_jl (f : Fld) (v : Nat) : (m.set f v).jl = m.jl := rfl
@[simp] theorem Mach.set_chan (f : Fld) (v : Nat) : (m.set f v).chan = m.chan := rfl
@[simp] theorem Mach.set_cpl (f : Fld) (v : Nat) : (m.set f v).cpl = m.cpl := rfl

@[simp] theorem Mach.setTh_regs (t : Nat) (x : Thread) : (m.setTh t x).regs = m.regs := rfl
@[simp] theorem Mach.setTh_mem (t : Nat) (x : Thread) : (m.setTh t x).mem = m.mem := rfl
@[simp] theorem Mach.setTh_cores (t : Nat) (x : Thread) : (m.setTh t x).cores = m.cores := rfl
@[simp] theorem Mach.setTh_patch (t : Nat) (x : Thread) : (m.setTh t x).patch = m.patch := rfl
@[simp] theorem Mach.setTh_home (t : Nat) (x : Thread) : (m.setTh t x).home = m.home := rfl
@[simp] theorem Mach.setTh_fab (t : Nat) (x : Thread) : (m.setTh t x).fab = m.fab := rfl
@[simp] theorem Mach.setTh_sl (t : Nat) (x : Thread) : (m.setTh t x).sl = m.sl := rfl
@[simp] theorem Mach.setTh_mode (t : Nat) (x : Thread) : (m.setTh t x).mode = m.mode := rfl
@[simp] theorem Mach.setTh_db (t : Nat) (x : Thread) : (m.setTh t x).db = m.db := rfl
@[simp] theorem Mach.setTh_rill (t : Nat) (x : Thread) : (m.setTh t x).rill = m.rill := rfl
@[simp] theorem Mach.setTh_spill (t : Nat) (x : Thread) : (m.setTh t x).spill = m.spill := rfl
@[simp] theorem Mach.setTh_memp (t : Nat) (x : Thread) : (m.setTh t x).memp = m.memp := rfl
@[simp] theorem Mach.setTh_tod (t : Nat) (x : Thread) : (m.setTh t x).tod = m.tod := rfl
@[simp] theorem Mach.setTh_seed (t : Nat) (x : Thread) : (m.setTh t x).seed = m.seed := rfl
@[simp] theorem Mach.setTh_sent (t : Nat) (x : Thread) : (m.setTh t x).sent = m.sent := rfl
@[simp] theorem Mach.setTh_frozen (t : Nat) (x : Thread) : (m.setTh t x).frozen = m.frozen := rfl
@[simp] theorem Mach.setTh_grotto (t : Nat) (x : Thread) : (m.setTh t x).grotto = m.grotto := rfl
@[simp] theorem Mach.setTh_pcie (t : Nat) (x : Thread) : (m.setTh t x).pcie = m.pcie := rfl
@[simp] theorem Mach.setTh_boot (t : Nat) (x : Thread) : (m.setTh t x).boot = m.boot := rfl
@[simp] theorem Mach.setTh_od (t : Nat) (x : Thread) : (m.setTh t x).od = m.od := rfl
@[simp] theorem Mach.setTh_vp (t : Nat) (x : Thread) : (m.setTh t x).vp = m.vp := rfl
@[simp] theorem Mach.setTh_shoot (t : Nat) (x : Thread) : (m.setTh t x).shoot = m.shoot := rfl
@[simp] theorem Mach.setTh_weir (t : Nat) (x : Thread) : (m.setTh t x).weir = m.weir := rfl
@[simp] theorem Mach.setTh_patchIn (t : Nat) (x : Thread) : (m.setTh t x).patchIn = m.patchIn := rfl
@[simp] theorem Mach.setTh_cis (t : Nat) (x : Thread) : (m.setTh t x).cis = m.cis := rfl
@[simp] theorem Mach.setTh_acc (t : Nat) (x : Thread) : (m.setTh t x).acc = m.acc := rfl
@[simp] theorem Mach.setTh_jl (t : Nat) (x : Thread) : (m.setTh t x).jl = m.jl := rfl
@[simp] theorem Mach.setTh_chan (t : Nat) (x : Thread) : (m.setTh t x).chan = m.chan := rfl
@[simp] theorem Mach.setTh_cpl (t : Nat) (x : Thread) : (m.setTh t x).cpl = m.cpl := rfl

@[simp] theorem Mach.onTh_regs (t : Nat) (g : Thread → Thread) : (m.onTh t g).regs = m.regs := rfl
@[simp] theorem Mach.onTh_mem (t : Nat) (g : Thread → Thread) : (m.onTh t g).mem = m.mem := rfl
@[simp] theorem Mach.onTh_cores (t : Nat) (g : Thread → Thread) : (m.onTh t g).cores = m.cores := rfl
@[simp] theorem Mach.onTh_patch (t : Nat) (g : Thread → Thread) : (m.onTh t g).patch = m.patch := rfl
@[simp] theorem Mach.onTh_home (t : Nat) (g : Thread → Thread) : (m.onTh t g).home = m.home := rfl
@[simp] theorem Mach.onTh_fab (t : Nat) (g : Thread → Thread) : (m.onTh t g).fab = m.fab := rfl
@[simp] theorem Mach.onTh_sl (t : Nat) (g : Thread → Thread) : (m.onTh t g).sl = m.sl := rfl
@[simp] theorem Mach.onTh_mode (t : Nat) (g : Thread → Thread) : (m.onTh t g).mode = m.mode := rfl
@[simp] theorem Mach.onTh_db (t : Nat) (g : Thread → Thread) : (m.onTh t g).db = m.db := rfl
@[simp] theorem Mach.onTh_rill (t : Nat) (g : Thread → Thread) : (m.onTh t g).rill = m.rill := rfl
@[simp] theorem Mach.onTh_spill (t : Nat) (g : Thread → Thread) : (m.onTh t g).spill = m.spill := rfl
@[simp] theorem Mach.onTh_memp (t : Nat) (g : Thread → Thread) : (m.onTh t g).memp = m.memp := rfl
@[simp] theorem Mach.onTh_tod (t : Nat) (g : Thread → Thread) : (m.onTh t g).tod = m.tod := rfl
@[simp] theorem Mach.onTh_seed (t : Nat) (g : Thread → Thread) : (m.onTh t g).seed = m.seed := rfl
@[simp] theorem Mach.onTh_sent (t : Nat) (g : Thread → Thread) : (m.onTh t g).sent = m.sent := rfl
@[simp] theorem Mach.onTh_frozen (t : Nat) (g : Thread → Thread) : (m.onTh t g).frozen = m.frozen := rfl
@[simp] theorem Mach.onTh_grotto (t : Nat) (g : Thread → Thread) : (m.onTh t g).grotto = m.grotto := rfl
@[simp] theorem Mach.onTh_pcie (t : Nat) (g : Thread → Thread) : (m.onTh t g).pcie = m.pcie := rfl
@[simp] theorem Mach.onTh_boot (t : Nat) (g : Thread → Thread) : (m.onTh t g).boot = m.boot := rfl
@[simp] theorem Mach.onTh_od (t : Nat) (g : Thread → Thread) : (m.onTh t g).od = m.od := rfl
@[simp] theorem Mach.onTh_vp (t : Nat) (g : Thread → Thread) : (m.onTh t g).vp = m.vp := rfl
@[simp] theorem Mach.onTh_shoot (t : Nat) (g : Thread → Thread) : (m.onTh t g).shoot = m.shoot := rfl
@[simp] theorem Mach.onTh_weir (t : Nat) (g : Thread → Thread) : (m.onTh t g).weir = m.weir := rfl
@[simp] theorem Mach.onTh_patchIn (t : Nat) (g : Thread → Thread) : (m.onTh t g).patchIn = m.patchIn := rfl
@[simp] theorem Mach.onTh_cis (t : Nat) (g : Thread → Thread) : (m.onTh t g).cis = m.cis := rfl
@[simp] theorem Mach.onTh_acc (t : Nat) (g : Thread → Thread) : (m.onTh t g).acc = m.acc := rfl
@[simp] theorem Mach.onTh_jl (t : Nat) (g : Thread → Thread) : (m.onTh t g).jl = m.jl := rfl
@[simp] theorem Mach.onTh_chan (t : Nat) (g : Thread → Thread) : (m.onTh t g).chan = m.chan := rfl
@[simp] theorem Mach.onTh_cpl (t : Nat) (g : Thread → Thread) : (m.onTh t g).cpl = m.cpl := rfl

@[simp] theorem Mach.setCore_regs (c : Nat) (x : Core) : (m.setCore c x).regs = m.regs := rfl
@[simp] theorem Mach.setCore_mem (c : Nat) (x : Core) : (m.setCore c x).mem = m.mem := rfl
@[simp] theorem Mach.setCore_thr (c : Nat) (x : Core) : (m.setCore c x).thr = m.thr := rfl
@[simp] theorem Mach.setCore_patch (c : Nat) (x : Core) : (m.setCore c x).patch = m.patch := rfl
@[simp] theorem Mach.setCore_home (c : Nat) (x : Core) : (m.setCore c x).home = m.home := rfl
@[simp] theorem Mach.setCore_fab (c : Nat) (x : Core) : (m.setCore c x).fab = m.fab := rfl
@[simp] theorem Mach.setCore_sl (c : Nat) (x : Core) : (m.setCore c x).sl = m.sl := rfl
@[simp] theorem Mach.setCore_mode (c : Nat) (x : Core) : (m.setCore c x).mode = m.mode := rfl
@[simp] theorem Mach.setCore_db (c : Nat) (x : Core) : (m.setCore c x).db = m.db := rfl
@[simp] theorem Mach.setCore_rill (c : Nat) (x : Core) : (m.setCore c x).rill = m.rill := rfl
@[simp] theorem Mach.setCore_spill (c : Nat) (x : Core) : (m.setCore c x).spill = m.spill := rfl
@[simp] theorem Mach.setCore_memp (c : Nat) (x : Core) : (m.setCore c x).memp = m.memp := rfl
@[simp] theorem Mach.setCore_tod (c : Nat) (x : Core) : (m.setCore c x).tod = m.tod := rfl
@[simp] theorem Mach.setCore_seed (c : Nat) (x : Core) : (m.setCore c x).seed = m.seed := rfl
@[simp] theorem Mach.setCore_sent (c : Nat) (x : Core) : (m.setCore c x).sent = m.sent := rfl
@[simp] theorem Mach.setCore_frozen (c : Nat) (x : Core) : (m.setCore c x).frozen = m.frozen := rfl
@[simp] theorem Mach.setCore_grotto (c : Nat) (x : Core) : (m.setCore c x).grotto = m.grotto := rfl
@[simp] theorem Mach.setCore_pcie (c : Nat) (x : Core) : (m.setCore c x).pcie = m.pcie := rfl
@[simp] theorem Mach.setCore_boot (c : Nat) (x : Core) : (m.setCore c x).boot = m.boot := rfl
@[simp] theorem Mach.setCore_od (c : Nat) (x : Core) : (m.setCore c x).od = m.od := rfl
@[simp] theorem Mach.setCore_vp (c : Nat) (x : Core) : (m.setCore c x).vp = m.vp := rfl
@[simp] theorem Mach.setCore_shoot (c : Nat) (x : Core) : (m.setCore c x).shoot = m.shoot := rfl
@[simp] theorem Mach.setCore_weir (c : Nat) (x : Core) : (m.setCore c x).weir = m.weir := rfl
@[simp] theorem Mach.setCore_patchIn (c : Nat) (x : Core) : (m.setCore c x).patchIn = m.patchIn := rfl
@[simp] theorem Mach.setCore_cis (c : Nat) (x : Core) : (m.setCore c x).cis = m.cis := rfl
@[simp] theorem Mach.setCore_acc (c : Nat) (x : Core) : (m.setCore c x).acc = m.acc := rfl
@[simp] theorem Mach.setCore_jl (c : Nat) (x : Core) : (m.setCore c x).jl = m.jl := rfl
@[simp] theorem Mach.setCore_chan (c : Nat) (x : Core) : (m.setCore c x).chan = m.chan := rfl
@[simp] theorem Mach.setCore_cpl (c : Nat) (x : Core) : (m.setCore c x).cpl = m.cpl := rfl

@[simp] theorem Mach.onCore_regs (c : Nat) (g : Core → Core) : (m.onCore c g).regs = m.regs := rfl
@[simp] theorem Mach.onCore_mem (c : Nat) (g : Core → Core) : (m.onCore c g).mem = m.mem := rfl
@[simp] theorem Mach.onCore_thr (c : Nat) (g : Core → Core) : (m.onCore c g).thr = m.thr := rfl
@[simp] theorem Mach.onCore_patch (c : Nat) (g : Core → Core) : (m.onCore c g).patch = m.patch := rfl
@[simp] theorem Mach.onCore_home (c : Nat) (g : Core → Core) : (m.onCore c g).home = m.home := rfl
@[simp] theorem Mach.onCore_fab (c : Nat) (g : Core → Core) : (m.onCore c g).fab = m.fab := rfl
@[simp] theorem Mach.onCore_sl (c : Nat) (g : Core → Core) : (m.onCore c g).sl = m.sl := rfl
@[simp] theorem Mach.onCore_mode (c : Nat) (g : Core → Core) : (m.onCore c g).mode = m.mode := rfl
@[simp] theorem Mach.onCore_db (c : Nat) (g : Core → Core) : (m.onCore c g).db = m.db := rfl
@[simp] theorem Mach.onCore_rill (c : Nat) (g : Core → Core) : (m.onCore c g).rill = m.rill := rfl
@[simp] theorem Mach.onCore_spill (c : Nat) (g : Core → Core) : (m.onCore c g).spill = m.spill := rfl
@[simp] theorem Mach.onCore_memp (c : Nat) (g : Core → Core) : (m.onCore c g).memp = m.memp := rfl
@[simp] theorem Mach.onCore_tod (c : Nat) (g : Core → Core) : (m.onCore c g).tod = m.tod := rfl
@[simp] theorem Mach.onCore_seed (c : Nat) (g : Core → Core) : (m.onCore c g).seed = m.seed := rfl
@[simp] theorem Mach.onCore_sent (c : Nat) (g : Core → Core) : (m.onCore c g).sent = m.sent := rfl
@[simp] theorem Mach.onCore_frozen (c : Nat) (g : Core → Core) : (m.onCore c g).frozen = m.frozen := rfl
@[simp] theorem Mach.onCore_grotto (c : Nat) (g : Core → Core) : (m.onCore c g).grotto = m.grotto := rfl
@[simp] theorem Mach.onCore_pcie (c : Nat) (g : Core → Core) : (m.onCore c g).pcie = m.pcie := rfl
@[simp] theorem Mach.onCore_boot (c : Nat) (g : Core → Core) : (m.onCore c g).boot = m.boot := rfl
@[simp] theorem Mach.onCore_od (c : Nat) (g : Core → Core) : (m.onCore c g).od = m.od := rfl
@[simp] theorem Mach.onCore_vp (c : Nat) (g : Core → Core) : (m.onCore c g).vp = m.vp := rfl
@[simp] theorem Mach.onCore_shoot (c : Nat) (g : Core → Core) : (m.onCore c g).shoot = m.shoot := rfl
@[simp] theorem Mach.onCore_weir (c : Nat) (g : Core → Core) : (m.onCore c g).weir = m.weir := rfl
@[simp] theorem Mach.onCore_patchIn (c : Nat) (g : Core → Core) : (m.onCore c g).patchIn = m.patchIn := rfl
@[simp] theorem Mach.onCore_cis (c : Nat) (g : Core → Core) : (m.onCore c g).cis = m.cis := rfl
@[simp] theorem Mach.onCore_acc (c : Nat) (g : Core → Core) : (m.onCore c g).acc = m.acc := rfl
@[simp] theorem Mach.onCore_jl (c : Nat) (g : Core → Core) : (m.onCore c g).jl = m.jl := rfl
@[simp] theorem Mach.onCore_chan (c : Nat) (g : Core → Core) : (m.onCore c g).chan = m.chan := rfl
@[simp] theorem Mach.onCore_cpl (c : Nat) (g : Core → Core) : (m.onCore c g).cpl = m.cpl := rfl

@[simp] theorem Mach.emit_regs (o : Out) : (m.emit o).regs = m.regs := rfl
@[simp] theorem Mach.emit_mem (o : Out) : (m.emit o).mem = m.mem := rfl
@[simp] theorem Mach.emit_thr (o : Out) : (m.emit o).thr = m.thr := rfl
@[simp] theorem Mach.emit_cores (o : Out) : (m.emit o).cores = m.cores := rfl
@[simp] theorem Mach.emit_patch (o : Out) : (m.emit o).patch = m.patch := rfl
@[simp] theorem Mach.emit_home (o : Out) : (m.emit o).home = m.home := rfl
@[simp] theorem Mach.emit_fab (o : Out) : (m.emit o).fab = m.fab := rfl
@[simp] theorem Mach.emit_sl (o : Out) : (m.emit o).sl = m.sl := rfl
@[simp] theorem Mach.emit_mode (o : Out) : (m.emit o).mode = m.mode := rfl
@[simp] theorem Mach.emit_db (o : Out) : (m.emit o).db = m.db := rfl
@[simp] theorem Mach.emit_rill (o : Out) : (m.emit o).rill = m.rill := rfl
@[simp] theorem Mach.emit_spill (o : Out) : (m.emit o).spill = m.spill := rfl
@[simp] theorem Mach.emit_memp (o : Out) : (m.emit o).memp = m.memp := rfl
@[simp] theorem Mach.emit_tod (o : Out) : (m.emit o).tod = m.tod := rfl
@[simp] theorem Mach.emit_seed (o : Out) : (m.emit o).seed = m.seed := rfl
@[simp] theorem Mach.emit_frozen (o : Out) : (m.emit o).frozen = m.frozen := rfl
@[simp] theorem Mach.emit_grotto (o : Out) : (m.emit o).grotto = m.grotto := rfl
@[simp] theorem Mach.emit_pcie (o : Out) : (m.emit o).pcie = m.pcie := rfl
@[simp] theorem Mach.emit_boot (o : Out) : (m.emit o).boot = m.boot := rfl
@[simp] theorem Mach.emit_od (o : Out) : (m.emit o).od = m.od := rfl
@[simp] theorem Mach.emit_vp (o : Out) : (m.emit o).vp = m.vp := rfl
@[simp] theorem Mach.emit_shoot (o : Out) : (m.emit o).shoot = m.shoot := rfl
@[simp] theorem Mach.emit_weir (o : Out) : (m.emit o).weir = m.weir := rfl
@[simp] theorem Mach.emit_patchIn (o : Out) : (m.emit o).patchIn = m.patchIn := rfl
@[simp] theorem Mach.emit_cis (o : Out) : (m.emit o).cis = m.cis := rfl
@[simp] theorem Mach.emit_acc (o : Out) : (m.emit o).acc = m.acc := rfl
@[simp] theorem Mach.emit_jl (o : Out) : (m.emit o).jl = m.jl := rfl
@[simp] theorem Mach.emit_chan (o : Out) : (m.emit o).chan = m.chan := rfl
@[simp] theorem Mach.emit_cpl (o : Out) : (m.emit o).cpl = m.cpl := rfl

@[simp] theorem Mach.setDir_regs (l : Nat) (e : DirE) : (m.setDir l e).regs = m.regs := rfl
@[simp] theorem Mach.setDir_mem (l : Nat) (e : DirE) : (m.setDir l e).mem = m.mem := rfl
@[simp] theorem Mach.setDir_thr (l : Nat) (e : DirE) : (m.setDir l e).thr = m.thr := rfl
@[simp] theorem Mach.setDir_cores (l : Nat) (e : DirE) : (m.setDir l e).cores = m.cores := rfl
@[simp] theorem Mach.setDir_patch (l : Nat) (e : DirE) : (m.setDir l e).patch = m.patch := rfl
@[simp] theorem Mach.setDir_fab (l : Nat) (e : DirE) : (m.setDir l e).fab = m.fab := rfl
@[simp] theorem Mach.setDir_sl (l : Nat) (e : DirE) : (m.setDir l e).sl = m.sl := rfl
@[simp] theorem Mach.setDir_mode (l : Nat) (e : DirE) : (m.setDir l e).mode = m.mode := rfl
@[simp] theorem Mach.setDir_db (l : Nat) (e : DirE) : (m.setDir l e).db = m.db := rfl
@[simp] theorem Mach.setDir_rill (l : Nat) (e : DirE) : (m.setDir l e).rill = m.rill := rfl
@[simp] theorem Mach.setDir_spill (l : Nat) (e : DirE) : (m.setDir l e).spill = m.spill := rfl
@[simp] theorem Mach.setDir_memp (l : Nat) (e : DirE) : (m.setDir l e).memp = m.memp := rfl
@[simp] theorem Mach.setDir_tod (l : Nat) (e : DirE) : (m.setDir l e).tod = m.tod := rfl
@[simp] theorem Mach.setDir_seed (l : Nat) (e : DirE) : (m.setDir l e).seed = m.seed := rfl
@[simp] theorem Mach.setDir_sent (l : Nat) (e : DirE) : (m.setDir l e).sent = m.sent := rfl
@[simp] theorem Mach.setDir_frozen (l : Nat) (e : DirE) : (m.setDir l e).frozen = m.frozen := rfl
@[simp] theorem Mach.setDir_grotto (l : Nat) (e : DirE) : (m.setDir l e).grotto = m.grotto := rfl
@[simp] theorem Mach.setDir_pcie (l : Nat) (e : DirE) : (m.setDir l e).pcie = m.pcie := rfl
@[simp] theorem Mach.setDir_boot (l : Nat) (e : DirE) : (m.setDir l e).boot = m.boot := rfl
@[simp] theorem Mach.setDir_od (l : Nat) (e : DirE) : (m.setDir l e).od = m.od := rfl
@[simp] theorem Mach.setDir_vp (l : Nat) (e : DirE) : (m.setDir l e).vp = m.vp := rfl
@[simp] theorem Mach.setDir_shoot (l : Nat) (e : DirE) : (m.setDir l e).shoot = m.shoot := rfl
@[simp] theorem Mach.setDir_weir (l : Nat) (e : DirE) : (m.setDir l e).weir = m.weir := rfl
@[simp] theorem Mach.setDir_patchIn (l : Nat) (e : DirE) : (m.setDir l e).patchIn = m.patchIn := rfl
@[simp] theorem Mach.setDir_cis (l : Nat) (e : DirE) : (m.setDir l e).cis = m.cis := rfl
@[simp] theorem Mach.setDir_acc (l : Nat) (e : DirE) : (m.setDir l e).acc = m.acc := rfl
@[simp] theorem Mach.setDir_jl (l : Nat) (e : DirE) : (m.setDir l e).jl = m.jl := rfl
@[simp] theorem Mach.setDir_chan (l : Nat) (e : DirE) : (m.setDir l e).chan = m.chan := rfl
@[simp] theorem Mach.setDir_cpl (l : Nat) (e : DirE) : (m.setDir l e).cpl = m.cpl := rfl

@[simp] theorem Mach.raise_regs (a b : Nat) (t : Option Nat) (x : List (Nat × Nat × Nat)) : (m.raise a b t x).regs = m.regs := rfl
@[simp] theorem Mach.raise_mem (a b : Nat) (t : Option Nat) (x : List (Nat × Nat × Nat)) : (m.raise a b t x).mem = m.mem := rfl
@[simp] theorem Mach.raise_thr (a b : Nat) (t : Option Nat) (x : List (Nat × Nat × Nat)) : (m.raise a b t x).thr = m.thr := rfl
@[simp] theorem Mach.raise_cores (a b : Nat) (t : Option Nat) (x : List (Nat × Nat × Nat)) : (m.raise a b t x).cores = m.cores := rfl
@[simp] theorem Mach.raise_patch (a b : Nat) (t : Option Nat) (x : List (Nat × Nat × Nat)) : (m.raise a b t x).patch = m.patch := rfl
@[simp] theorem Mach.raise_home (a b : Nat) (t : Option Nat) (x : List (Nat × Nat × Nat)) : (m.raise a b t x).home = m.home := rfl
@[simp] theorem Mach.raise_fab (a b : Nat) (t : Option Nat) (x : List (Nat × Nat × Nat)) : (m.raise a b t x).fab = m.fab := rfl
@[simp] theorem Mach.raise_sl (a b : Nat) (t : Option Nat) (x : List (Nat × Nat × Nat)) : (m.raise a b t x).sl = m.sl := rfl
@[simp] theorem Mach.raise_mode (a b : Nat) (t : Option Nat) (x : List (Nat × Nat × Nat)) : (m.raise a b t x).mode = m.mode := rfl
@[simp] theorem Mach.raise_db (a b : Nat) (t : Option Nat) (x : List (Nat × Nat × Nat)) : (m.raise a b t x).db = m.db := rfl
@[simp] theorem Mach.raise_rill (a b : Nat) (t : Option Nat) (x : List (Nat × Nat × Nat)) : (m.raise a b t x).rill = m.rill := rfl
@[simp] theorem Mach.raise_memp (a b : Nat) (t : Option Nat) (x : List (Nat × Nat × Nat)) : (m.raise a b t x).memp = m.memp := rfl
@[simp] theorem Mach.raise_tod (a b : Nat) (t : Option Nat) (x : List (Nat × Nat × Nat)) : (m.raise a b t x).tod = m.tod := rfl
@[simp] theorem Mach.raise_seed (a b : Nat) (t : Option Nat) (x : List (Nat × Nat × Nat)) : (m.raise a b t x).seed = m.seed := rfl
@[simp] theorem Mach.raise_sent (a b : Nat) (t : Option Nat) (x : List (Nat × Nat × Nat)) : (m.raise a b t x).sent = m.sent := rfl
@[simp] theorem Mach.raise_frozen (a b : Nat) (t : Option Nat) (x : List (Nat × Nat × Nat)) : (m.raise a b t x).frozen = m.frozen := rfl
@[simp] theorem Mach.raise_grotto (a b : Nat) (t : Option Nat) (x : List (Nat × Nat × Nat)) : (m.raise a b t x).grotto = m.grotto := rfl
@[simp] theorem Mach.raise_pcie (a b : Nat) (t : Option Nat) (x : List (Nat × Nat × Nat)) : (m.raise a b t x).pcie = m.pcie := rfl
@[simp] theorem Mach.raise_boot (a b : Nat) (t : Option Nat) (x : List (Nat × Nat × Nat)) : (m.raise a b t x).boot = m.boot := rfl
@[simp] theorem Mach.raise_od (a b : Nat) (t : Option Nat) (x : List (Nat × Nat × Nat)) : (m.raise a b t x).od = m.od := rfl
@[simp] theorem Mach.raise_vp (a b : Nat) (t : Option Nat) (x : List (Nat × Nat × Nat)) : (m.raise a b t x).vp = m.vp := rfl
@[simp] theorem Mach.raise_shoot (a b : Nat) (t : Option Nat) (x : List (Nat × Nat × Nat)) : (m.raise a b t x).shoot = m.shoot := rfl
@[simp] theorem Mach.raise_weir (a b : Nat) (t : Option Nat) (x : List (Nat × Nat × Nat)) : (m.raise a b t x).weir = m.weir := rfl
@[simp] theorem Mach.raise_patchIn (a b : Nat) (t : Option Nat) (x : List (Nat × Nat × Nat)) : (m.raise a b t x).patchIn = m.patchIn := rfl
@[simp] theorem Mach.raise_cis (a b : Nat) (t : Option Nat) (x : List (Nat × Nat × Nat)) : (m.raise a b t x).cis = m.cis := rfl
@[simp] theorem Mach.raise_acc (a b : Nat) (t : Option Nat) (x : List (Nat × Nat × Nat)) : (m.raise a b t x).acc = m.acc := rfl
@[simp] theorem Mach.raise_jl (a b : Nat) (t : Option Nat) (x : List (Nat × Nat × Nat)) : (m.raise a b t x).jl = m.jl := rfl
@[simp] theorem Mach.raise_chan (a b : Nat) (t : Option Nat) (x : List (Nat × Nat × Nat)) : (m.raise a b t x).chan = m.chan := rfl
@[simp] theorem Mach.raise_cpl (a b : Nat) (t : Option Nat) (x : List (Nat × Nat × Nat)) : (m.raise a b t x).cpl = m.cpl := rfl

@[simp] theorem Mach.count_mem (g : Fld) (n : Nat) : (m.count g n).mem = m.mem := rfl
@[simp] theorem Mach.count_thr (g : Fld) (n : Nat) : (m.count g n).thr = m.thr := rfl
@[simp] theorem Mach.count_cores (g : Fld) (n : Nat) : (m.count g n).cores = m.cores := rfl
@[simp] theorem Mach.count_patch (g : Fld) (n : Nat) : (m.count g n).patch = m.patch := rfl
@[simp] theorem Mach.count_home (g : Fld) (n : Nat) : (m.count g n).home = m.home := rfl
@[simp] theorem Mach.count_fab (g : Fld) (n : Nat) : (m.count g n).fab = m.fab := rfl
@[simp] theorem Mach.count_sl (g : Fld) (n : Nat) : (m.count g n).sl = m.sl := rfl
@[simp] theorem Mach.count_mode (g : Fld) (n : Nat) : (m.count g n).mode = m.mode := rfl
@[simp] theorem Mach.count_db (g : Fld) (n : Nat) : (m.count g n).db = m.db := rfl
@[simp] theorem Mach.count_rill (g : Fld) (n : Nat) : (m.count g n).rill = m.rill := rfl
@[simp] theorem Mach.count_spill (g : Fld) (n : Nat) : (m.count g n).spill = m.spill := rfl
@[simp] theorem Mach.count_memp (g : Fld) (n : Nat) : (m.count g n).memp = m.memp := rfl
@[simp] theorem Mach.count_tod (g : Fld) (n : Nat) : (m.count g n).tod = m.tod := rfl
@[simp] theorem Mach.count_seed (g : Fld) (n : Nat) : (m.count g n).seed = m.seed := rfl
@[simp] theorem Mach.count_sent (g : Fld) (n : Nat) : (m.count g n).sent = m.sent := rfl
@[simp] theorem Mach.count_frozen (g : Fld) (n : Nat) : (m.count g n).frozen = m.frozen := rfl
@[simp] theorem Mach.count_grotto (g : Fld) (n : Nat) : (m.count g n).grotto = m.grotto := rfl
@[simp] theorem Mach.count_pcie (g : Fld) (n : Nat) : (m.count g n).pcie = m.pcie := rfl
@[simp] theorem Mach.count_boot (g : Fld) (n : Nat) : (m.count g n).boot = m.boot := rfl
@[simp] theorem Mach.count_od (g : Fld) (n : Nat) : (m.count g n).od = m.od := rfl
@[simp] theorem Mach.count_vp (g : Fld) (n : Nat) : (m.count g n).vp = m.vp := rfl
@[simp] theorem Mach.count_shoot (g : Fld) (n : Nat) : (m.count g n).shoot = m.shoot := rfl
@[simp] theorem Mach.count_weir (g : Fld) (n : Nat) : (m.count g n).weir = m.weir := rfl
@[simp] theorem Mach.count_patchIn (g : Fld) (n : Nat) : (m.count g n).patchIn = m.patchIn := rfl
@[simp] theorem Mach.count_cis (g : Fld) (n : Nat) : (m.count g n).cis = m.cis := rfl
@[simp] theorem Mach.count_acc (g : Fld) (n : Nat) : (m.count g n).acc = m.acc := rfl
@[simp] theorem Mach.count_jl (g : Fld) (n : Nat) : (m.count g n).jl = m.jl := rfl
@[simp] theorem Mach.count_chan (g : Fld) (n : Nat) : (m.count g n).chan = m.chan := rfl
@[simp] theorem Mach.count_cpl (g : Fld) (n : Nat) : (m.count g n).cpl = m.cpl := rfl

@[simp] theorem Mach.sets_mem (l : List (Fld × Nat)) : (m.sets l).mem = m.mem := by
  induction l generalizing m with
  | nil => rfl
  | cons x r ih => exact ih (m.set x.1 x.2)
@[simp] theorem Mach.sets_thr (l : List (Fld × Nat)) : (m.sets l).thr = m.thr := by
  induction l generalizing m with
  | nil => rfl
  | cons x r ih => exact ih (m.set x.1 x.2)
@[simp] theorem Mach.sets_cores (l : List (Fld × Nat)) : (m.sets l).cores = m.cores := by
  induction l generalizing m with
  | nil => rfl
  | cons x r ih => exact ih (m.set x.1 x.2)
@[simp] theorem Mach.sets_patch (l : List (Fld × Nat)) : (m.sets l).patch = m.patch := by
  induction l generalizing m with
  | nil => rfl
  | cons x r ih => exact ih (m.set x.1 x.2)
@[simp] theorem Mach.sets_home (l : List (Fld × Nat)) : (m.sets l).home = m.home := by
  induction l generalizing m with
  | nil => rfl
  | cons x r ih => exact ih (m.set x.1 x.2)
@[simp] theorem Mach.sets_fab (l : List (Fld × Nat)) : (m.sets l).fab = m.fab := by
  induction l generalizing m with
  | nil => rfl
  | cons x r ih => exact ih (m.set x.1 x.2)
@[simp] theorem Mach.sets_sl (l : List (Fld × Nat)) : (m.sets l).sl = m.sl := by
  induction l generalizing m with
  | nil => rfl
  | cons x r ih => exact ih (m.set x.1 x.2)
@[simp] theorem Mach.sets_mode (l : List (Fld × Nat)) : (m.sets l).mode = m.mode := by
  induction l generalizing m with
  | nil => rfl
  | cons x r ih => exact ih (m.set x.1 x.2)
@[simp] theorem Mach.sets_db (l : List (Fld × Nat)) : (m.sets l).db = m.db := by
  induction l generalizing m with
  | nil => rfl
  | cons x r ih => exact ih (m.set x.1 x.2)
@[simp] theorem Mach.sets_rill (l : List (Fld × Nat)) : (m.sets l).rill = m.rill := by
  induction l generalizing m with
  | nil => rfl
  | cons x r ih => exact ih (m.set x.1 x.2)
@[simp] theorem Mach.sets_spill (l : List (Fld × Nat)) : (m.sets l).spill = m.spill := by
  induction l generalizing m with
  | nil => rfl
  | cons x r ih => exact ih (m.set x.1 x.2)
@[simp] theorem Mach.sets_memp (l : List (Fld × Nat)) : (m.sets l).memp = m.memp := by
  induction l generalizing m with
  | nil => rfl
  | cons x r ih => exact ih (m.set x.1 x.2)
@[simp] theorem Mach.sets_tod (l : List (Fld × Nat)) : (m.sets l).tod = m.tod := by
  induction l generalizing m with
  | nil => rfl
  | cons x r ih => exact ih (m.set x.1 x.2)
@[simp] theorem Mach.sets_seed (l : List (Fld × Nat)) : (m.sets l).seed = m.seed := by
  induction l generalizing m with
  | nil => rfl
  | cons x r ih => exact ih (m.set x.1 x.2)
@[simp] theorem Mach.sets_sent (l : List (Fld × Nat)) : (m.sets l).sent = m.sent := by
  induction l generalizing m with
  | nil => rfl
  | cons x r ih => exact ih (m.set x.1 x.2)
@[simp] theorem Mach.sets_frozen (l : List (Fld × Nat)) : (m.sets l).frozen = m.frozen := by
  induction l generalizing m with
  | nil => rfl
  | cons x r ih => exact ih (m.set x.1 x.2)
@[simp] theorem Mach.sets_grotto (l : List (Fld × Nat)) : (m.sets l).grotto = m.grotto := by
  induction l generalizing m with
  | nil => rfl
  | cons x r ih => exact ih (m.set x.1 x.2)
@[simp] theorem Mach.sets_pcie (l : List (Fld × Nat)) : (m.sets l).pcie = m.pcie := by
  induction l generalizing m with
  | nil => rfl
  | cons x r ih => exact ih (m.set x.1 x.2)
@[simp] theorem Mach.sets_boot (l : List (Fld × Nat)) : (m.sets l).boot = m.boot := by
  induction l generalizing m with
  | nil => rfl
  | cons x r ih => exact ih (m.set x.1 x.2)
@[simp] theorem Mach.sets_od (l : List (Fld × Nat)) : (m.sets l).od = m.od := by
  induction l generalizing m with
  | nil => rfl
  | cons x r ih => exact ih (m.set x.1 x.2)
@[simp] theorem Mach.sets_vp (l : List (Fld × Nat)) : (m.sets l).vp = m.vp := by
  induction l generalizing m with
  | nil => rfl
  | cons x r ih => exact ih (m.set x.1 x.2)
@[simp] theorem Mach.sets_shoot (l : List (Fld × Nat)) : (m.sets l).shoot = m.shoot := by
  induction l generalizing m with
  | nil => rfl
  | cons x r ih => exact ih (m.set x.1 x.2)
@[simp] theorem Mach.sets_weir (l : List (Fld × Nat)) : (m.sets l).weir = m.weir := by
  induction l generalizing m with
  | nil => rfl
  | cons x r ih => exact ih (m.set x.1 x.2)
@[simp] theorem Mach.sets_patchIn (l : List (Fld × Nat)) : (m.sets l).patchIn = m.patchIn := by
  induction l generalizing m with
  | nil => rfl
  | cons x r ih => exact ih (m.set x.1 x.2)
@[simp] theorem Mach.sets_cis (l : List (Fld × Nat)) : (m.sets l).cis = m.cis := by
  induction l generalizing m with
  | nil => rfl
  | cons x r ih => exact ih (m.set x.1 x.2)
@[simp] theorem Mach.sets_acc (l : List (Fld × Nat)) : (m.sets l).acc = m.acc := by
  induction l generalizing m with
  | nil => rfl
  | cons x r ih => exact ih (m.set x.1 x.2)
@[simp] theorem Mach.sets_jl (l : List (Fld × Nat)) : (m.sets l).jl = m.jl := by
  induction l generalizing m with
  | nil => rfl
  | cons x r ih => exact ih (m.set x.1 x.2)
@[simp] theorem Mach.sets_chan (l : List (Fld × Nat)) : (m.sets l).chan = m.chan := by
  induction l generalizing m with
  | nil => rfl
  | cons x r ih => exact ih (m.set x.1 x.2)
@[simp] theorem Mach.sets_cpl (l : List (Fld × Nat)) : (m.sets l).cpl = m.cpl := by
  induction l generalizing m with
  | nil => rfl
  | cons x r ih => exact ih (m.set x.1 x.2)

end Sys2Proof.Machine
end

