-- ==== Sys2Proof/Laws/Tables.lean ====
section
/-! SUPPORT. Laws of the sparse tables, of bit fields and of memory: reading back a write, and leaving the rest alone. -/

namespace Sys2Proof.Machine

variable {α : Type}

theorem tfind_tset_same (t : Tab α) (k : Nat) (v : α) : tfind (tset t k v) k = some v := by
  induction t with
  | nil => simp [tset, tfind]
  | cons x r ih =>
    obtain ⟨k', w⟩ := x
    simp only [tset]
    split
    · simp [tfind]
    · split
      · simp [tfind]
      · rename_i h; simp only [tfind]; rw [if_neg (fun e => h e.symm)]; exact ih

theorem tfind_tset_ne (t : Tab α) (k q : Nat) (v : α) (h : q ≠ k) : tfind (tset t k v) q = tfind t q := by
  induction t with
  | nil => simp only [tset, tfind]; rw [if_neg (fun e => h e.symm)]
  | cons x r ih =>
    obtain ⟨k', w⟩ := x
    simp only [tset]
    split
    · simp only [tfind]; rw [if_neg (fun e => h e.symm)]
    · split
      · rename_i e; subst e; simp only [tfind]; rw [if_neg (fun e => h e.symm), if_neg (fun e => h e.symm)]
      · simp only [tfind]; rw [ih]

@[simp] theorem tget_tset_same (t : Tab α) (k : Nat) (v d : α) : tget (tset t k v) k d = v := by
  simp [tget, tfind_tset_same]

theorem tget_tset_ne (t : Tab α) (k q : Nat) (v d : α) (h : q ≠ k) : tget (tset t k v) q d = tget t q d := by
  simp [tget, tfind_tset_ne t k q v h]

theorem tget_tset (t : Tab α) (k q : Nat) (v d : α) : tget (tset t k v) q d = if q = k then v else tget t q d := by
  split
  · subst_vars; simp
  · exact tget_tset_ne t k q v d ‹_›

/-- The later of two writes of one entry stands. -/
theorem tset_tset (t : Tab α) (k : Nat) (v w : α) : tset (tset t k v) k w = tset t k w := by
  induction t with
  | nil => simp [tset]
  | cons x r ih =>
    obtain ⟨k', y⟩ := x
    simp only [tset]
    split
    · simp [tset]
    · split
      · simp [tset]
      · rename_i h1 h2; simp only [tset]; rw [if_neg h1, if_neg h2, ih]

/-! ### Threads and cores -/


@[simp] theorem Mach.th_setTh_same (m : Mach) (t : Nat) (x : Thread) : (m.setTh t x).th t = x := by simp [Mach.th, Mach.setTh]
theorem Mach.th_setTh_ne (m : Mach) (t u : Nat) (x : Thread) (h : u ≠ t) : (m.setTh t x).th u = m.th u :=
  tget_tset_ne _ _ _ _ _ h
@[simp] theorem Mach.th_onTh_same (m : Mach) (t : Nat) (f : Thread → Thread) : (m.onTh t f).th t = f (m.th t) := by simp [Mach.onTh]
theorem Mach.th_onTh_ne (m : Mach) (t u : Nat) (f : Thread → Thread) (h : u ≠ t) : (m.onTh t f).th u = m.th u :=
  Mach.th_setTh_ne _ _ _ _ h
@[simp] theorem Mach.core_setCore_same (m : Mach) (c : Nat) (x : Core) : (m.setCore c x).core c = x := by simp [Mach.core, Mach.setCore]
theorem Mach.core_setCore_ne (m : Mach) (c d : Nat) (x : Core) (h : d ≠ c) : (m.setCore c x).core d = m.core d :=
  tget_tset_ne _ _ _ _ _ h
@[simp] theorem Mach.core_onCore_same (m : Mach) (c : Nat) (f : Core → Core) : (m.onCore c f).core c = f (m.core c) := by simp [Mach.onCore]
theorem Mach.core_onCore_ne (m : Mach) (c d : Nat) (f : Core → Core) (h : d ≠ c) : (m.onCore c f).core d = m.core d :=
  Mach.core_setCore_ne _ _ _ _ h

/-! ### Bit fields -/

theorem testBit_bits (x hi lo i : Nat) : (bits x hi lo).testBit i = (decide (i < hi + 1 - lo) && x.testBit (lo + i)) := by
  simp [bits, Nat.testBit_mod_two_pow, Nat.testBit_shiftRight]

theorem testBit_setBits (x hi lo v i : Nat) (h : lo ≤ hi) :
    (setBits x hi lo v).testBit i = if lo ≤ i ∧ i ≤ hi then v.testBit (i - lo) else x.testBit i := by
  simp only [setBits, Nat.testBit_or, Nat.testBit_shiftLeft, Nat.testBit_shiftRight, Nat.testBit_mod_two_pow]
  by_cases h1 : lo ≤ i
  · by_cases h2 : i ≤ hi
    · have a : ¬ (hi + 1 ≤ i) := by omega
      have b : i - lo < hi + 1 - lo := by omega
      have c : ¬ (i < lo) := by omega
      simp [h1, h2, a, b, c]
    · have a : hi + 1 ≤ i := by omega
      have b : ¬ (i - lo < hi + 1 - lo) := by omega
      have c : ¬ (i < lo) := by omega
      have d : hi + 1 + (i - (hi + 1)) = i := by omega
      simp [h1, h2, a, b, c, d]
  · have a : ¬ (hi + 1 ≤ i) := by omega
    have c : i < lo := by omega
    simp [h1, a, c]

/-- A field reads back what was written to it, cut to its width. -/
theorem bits_setBits_same (x hi lo v : Nat) (h : lo ≤ hi) : bits (setBits x hi lo v) hi lo = v % 2 ^ (hi + 1 - lo) := by
  apply Nat.eq_of_testBit_eq
  intro i
  rw [testBit_bits, testBit_setBits _ _ _ _ _ h, Nat.testBit_mod_two_pow]
  by_cases a : i < hi + 1 - lo
  · have b : lo ≤ lo + i ∧ lo + i ≤ hi := by omega
    simp [a, b]
  · simp [a]

/-- A field keeps its value when a field that shares no bit with it is written. -/
theorem bits_setBits_ne (x hi lo v hi' lo' : Nat) (h : lo ≤ hi) (d : hi' < lo ∨ hi < lo') :
    bits (setBits x hi lo v) hi' lo' = bits x hi' lo' := by
  apply Nat.eq_of_testBit_eq
  intro i
  rw [testBit_bits, testBit_bits, testBit_setBits _ _ _ _ _ h]
  by_cases a : i < hi' + 1 - lo'
  · have b : ¬ (lo ≤ lo' + i ∧ lo' + i ≤ hi) := by omega
    simp [b]
  · simp [a]

/-- The bits of a word that lie within 64 survive its storage as a register. -/
theorem bits_ofNat64 (x hi lo : Nat) (h : hi < 64) : bits (BitVec.ofNat 64 x).toNat hi lo = bits x hi lo := by
  apply Nat.eq_of_testBit_eq
  intro i
  rw [testBit_bits, testBit_bits, BitVec.toNat_ofNat, Nat.testBit_mod_two_pow]
  by_cases a : i < hi + 1 - lo
  · have b : lo + i < 64 := by omega
    simp [b]
  · simp [a]

/-! ### The register file -/

theorem Regs.tab_setTab_same (r : Regs) (b : Blk) (t : Tab W64) : (r.setTab b t).tab b = t := by cases b <;> rfl
theorem Regs.tab_setTab_ne (r : Regs) (b c : Blk) (t : Tab W64) (h : c ≠ b) : (r.setTab b t).tab c = r.tab c := by
  cases b <;> cases c <;> first | rfl | exact absurd rfl h

/-- A field of a register that is not the one written keeps its value. -/
theorem Mach.get_set_other (m : Mach) (f g : Fld) (v : Nat) (h : g.blk ≠ f.blk ∨ g.off ≠ f.off) : (m.set f v).get g = m.get g := by
  have e : (m.set f v).word g = m.word g := by
    unfold Mach.word
    by_cases hb : g.blk = f.blk
    · have ho : g.off ≠ f.off := by cases h with | inl h => exact absurd hb h | inr h => exact h
      have : tfind ((m.set f v).regs.tab g.blk) g.off = tfind (m.regs.tab g.blk) g.off := by
        simp only [Mach.set, Mach.setWord]
        rw [hb, Regs.tab_setTab_same, tfind_tset_ne _ _ _ _ ho]
      rw [this]
    · have : (m.set f v).regs.tab g.blk = m.regs.tab g.blk := Regs.tab_setTab_ne _ _ _ _ hb
      rw [this]
  unfold Mach.get; rw [e]

theorem Mach.word_set_same (m : Mach) (f g : Fld) (v : Nat) (hb : g.blk = f.blk) (ho : g.off = f.off) :
    (m.set f v).word g = (BitVec.ofNat 64 (setBits (m.word f) f.hi f.lo v)).toNat := by
  unfold Mach.word
  have : tfind ((m.set f v).regs.tab g.blk) g.off = some (BitVec.ofNat 64 (setBits (m.word f) f.hi f.lo v)) := by
    simp only [Mach.set, Mach.setWord]
    rw [hb, ho, Regs.tab_setTab_same, tfind_tset_same]
  rw [this]; simp [Mach.word]

/-- A field reads back the low bits of what was written to it. -/
theorem Mach.get_set_same (m : Mach) (f : Fld) (v : Nat) (h : f.lo ≤ f.hi) (h' : f.hi < 64) :
    (m.set f v).get f = v % 2 ^ (f.hi + 1 - f.lo) := by
  unfold Mach.get
  rw [m.word_set_same f f v rfl rfl, bits_ofNat64 _ _ _ h', bits_setBits_same _ _ _ _ h]

/-- A field of the same register that shares no bit with the one written keeps its value. -/
theorem Mach.get_set_beside (m : Mach) (f g : Fld) (v : Nat) (hb : g.blk = f.blk) (ho : g.off = f.off) (h : f.lo ≤ f.hi) (h' : g.hi < 64)
    (d : g.hi < f.lo ∨ f.hi < g.lo) : (m.set f v).get g = m.get g := by
  unfold Mach.get
  rw [m.word_set_same f g v hb ho, bits_ofNat64 _ _ _ h', bits_setBits_ne _ _ _ _ _ _ h d]
  unfold Mach.word; rw [hb, ho]

/-- What every write of a field does to every field, for fields of one register that are equal or share no bit. -/
theorem Mach.get_set (m : Mach) (f g : Fld) (v : Nat) (h : f.lo ≤ f.hi) (h' : g.hi < 64)
    (d : g.blk ≠ f.blk ∨ g.off ≠ f.off ∨ g = f ∨ g.hi < f.lo ∨ f.hi < g.lo) :
    (m.set f v).get g = if g = f then v % 2 ^ (f.hi + 1 - f.lo) else m.get g := by
  by_cases e : g = f
  · subst e; simp only [if_true]; exact m.get_set_same g v h h'
  · rw [if_neg e]
    by_cases hb : g.blk = f.blk
    · by_cases ho : g.off = f.off
      · refine m.get_set_beside f g v hb ho h h' ?_
        rcases d with d | d | d | d
        · exact absurd hb d
        · exact absurd ho d
        · exact absurd d e
        · exact d
      · exact m.get_set_other f g v (.inr ho)
    · exact m.get_set_other f g v (.inl hb)

@[simp] theorem Mach.sets_nil (m : Mach) : m.sets [] = m := rfl
@[simp] theorem Mach.sets_cons (m : Mach) (x : Fld × Nat) (l : List (Fld × Nat)) : m.sets (x :: l) = (m.set x.1 x.2).sets l := rfl

/-- A field depends on the register file alone. -/
theorem Mach.get_congr (m n : Mach) (f : Fld) (h : m.regs = n.regs) : m.get f = n.get f := by
  simp only [Mach.get, Mach.word, h]

end Sys2Proof.Machine
end

