-- ==== Sys2Proof/Laws/Thread.lean ====
section
/-! SUPPORT. Laws of instruction execution: what an instruction that completes leaves, said once for every instruction. -/

namespace Sys2Proof.Machine

open Sys2Proof.Safety

/-- A command on a unit that exists answers the next state with the machine changed. -/
@[simp] theorem ans_ok (ok : Bool) (s : State) (f : Mach → Mach) (h : ok = true) : ans ok s f = .next { s with m := f s.m } := by
  simp [ans, h]

@[simp] theorem bind_ok {α β : Type} (x : X α) (f : α → X β) (m m' : Mach) (a : α) (h : x m = .ok a m') : (x >>= f) m = f a m' := by
  show EStateM.bind x f m = _
  simp only [EStateM.bind, h]

/-- A thread that no debug command is stopping is left alone by `tryStop`. -/
theorem Mach.tryStop_idle (m : Mach) (th : Nat) (h : (m.th th).dbg = 0) : m.tryStop th = m := by
  unfold Mach.tryStop; simp [h]

theorem Mach.stepEnd_idle (m : Mach) (th : Nat) (h : (m.th th).dbg = 0) : m.stepEnd th = m := by
  unfold Mach.stepEnd; simp [h]

theorem Mach.executes_frozen (m : Mach) (th : Nat) (h : m.executes th = true) : m.frozen = false := by
  unfold Mach.executes at h
  cases hf : m.frozen
  · rfl
  · simp [hf] at h

/-- The frame of an instruction, once its fetch has passed: the body runs on `m1`. -/
theorem runInsn_ready {m : Mach} {th : Nat} {sh : Shape} {m1 m2 m3 : Mach} {body : X Done} {d : Done} (h : Ready m th sh m1)
    (hb : body m1 = .ok d m2) (hc : m2.complete th sh (m.th th).cur d = some m3) : m.runInsn th sh body = m3.stepEnd th := by
  have hf := m.executes_frozen th h.runs
  have hpre : (if sh.sync then m.commitAll th 40 else some m) = some m := by
    cases hs : sh.sync
    · simp
    · have := (h.sync hs).1; simp [Mach.commitAll, this]
  have hr : (m.takeIn th sh).isNone = false := by have := h.room; cases hx : m.takeIn th sh <;> simp_all
  have hfetch := h.fetch
  unfold fetchWords at hfetch
  have hprog : (do
      fetchCheck th (m.th th).cur.ia.toNat
      if sh.len = 8 then fetchCheck th ((m.th th).cur.ia + 4).toNat
      body : X Done) (m.onTh th fun t => { t with gotIx := 0 }) = .ok d m2 := by
    change EStateM.bind _ _ _ = _
    change EStateM.bind _ _ _ = _ at hfetch
    simp only [EStateM.bind] at hfetch ⊢
    split at hfetch
    · split at hfetch
      · rename_i h8
        simp only [h8, if_true]
        change EStateM.bind _ _ _ = _
        simp only [EStateM.bind, hfetch, hb]
      · rename_i h8
        simp only [h8, if_false]
        cases hfetch
        exact hb
    · cases hfetch
  dsimp only at hprog
  have hm : (if m.frozen = true then m else m.tryStop th) = m := by simp [hf, Mach.tryStop_idle _ _ h.noDbg]
  unfold Mach.runInsn
  simp only [hm, h.runs, hpre, hr, hprog, hc, Bool.not_true, Bool.false_eq_true, if_false]

/-- The window that an instruction joins: the stores of its open checkpoint and of the older ones are those of the window. -/
theorem takeIn_stores (m : Mach) (th : Nat) (sh : Shape) (k : Option Ckpt) (older : List Ckpt) (h : m.takeIn th sh = some (k, older)) :
    older.flatMap (·.stores) ++ (match k with | none => [] | some k => k.stores) = (m.th th).win.flatMap (·.stores) := by
  unfold Mach.takeIn at h
  dsimp only at h
  have fresh : ∀ {c : Prop} [Decidable c], (if c then some ((none : Option Ckpt), (m.th th).win) else none) = some (k, older) →
      older.flatMap (·.stores) ++ (match k with | none => [] | some k => k.stores) = (m.th th).win.flatMap (·.stores) := by
    intro c _ h
    split at h
    · cases h; simp
    · cases h
  split at h
  · cases h
  split at h
  · exact fresh h
  · rename_i k' hk
    split at h
    · exact fresh h
    · split at h
      · cases h
        have hw : (m.th th).win = (m.th th).win.dropLast ++ [k'] := by
          have hne : (m.th th).win ≠ [] := by intro e; simp [e] at hk
          rw [List.getLast?_eq_some_getLast hne] at hk
          cases hk
          exact (List.dropLast_concat_getLast hne).symm
        conv => rhs; rw [hw]
        simp
      · cases h

/-- The instruction joins the window without committing: only its thread changes, and its stores follow the thread's earlier ones. -/
theorem complete_plain (m : Mach) (th : Nat) (sh : Shape) (a0 : Arch) (nx : Next) (st : List StoreE) (hn : (m.th th).nowSync = false)
    (hs : sh.sync = false) (h6 : a0.pswF 6 6 = 0) (hr : (m.takeIn th sh).isSome = true) :
    ∃ m3, m.complete th sh a0 ⟨nx, st, none⟩ = some m3 ∧
      (m3.th th).cur = (match nx with
        | .seq => (m.th th).cur.stepLoops (a0.ia + BitVec.ofNat 64 (sh.len - 4)) (a0.ia + BitVec.ofNat 64 (sh.len - 4) + 4) 4
        | .jump x => { (m.th th).cur with ia := x }
        | .stay => { (m.th th).cur with ia := a0.ia }) ∧ (m3.th th).dbg = (m.th th).dbg ∧
      (m3.th th).com = (m.th th).com ∧ (m3.th th).stores = (m.th th).stores ++ st ∧
      (∀ u, u ≠ th → m3.th u = m.th u) ∧ { m3 with thr := m.thr } = m := by
  unfold Mach.complete
  simp only [hn, h6]
  cases hx : m.takeIn th sh with
  | none => simp [hx] at hr
  | some p =>
    obtain ⟨k, older⟩ := p
    apply Exists.intro
    constructor
    · simp only [Bool.false_eq_true, if_false, hx]
      rw [if_neg (by simp), hs]
      simp only [Bool.false_eq_true, if_false]
      rfl
    · refine ⟨by rw [Mach.th_setTh_same]; all_goals (cases nx <;> rfl), by rw [Mach.th_setTh_same], by rw [Mach.th_setTh_same], ?_, ?_, rfl⟩
      · rw [Mach.th_setTh_same]
        have := takeIn_stores m th sh k older hx
        unfold Thread.stores
        rw [← this]
        cases k <;> simp
      · intro u hu; rw [Mach.th_setTh_ne _ _ _ _ hu]

/-- The checkpoint of an instruction of R154 commits with it. -/
theorem commitAll_one (m : Mach) (th : Nat) (k : Ckpt) (hw : (m.th th).win = [k]) (he : (m.th th).ep = none) (hs : k.stores = [])
    (hb : (m.th th).sbuf.length ≤ 64) :
    m.commitAll th 40 = some (m.setTh th { m.th th with com := k.fin, win := [] }) := by
  have hb' : (decide (64 < (m.th th).sbuf.length)) = false := by simp; omega
  simp [Mach.commitAll, Mach.commitOldest, hw, he, hs, hb']

/-- An instruction of R154 without stores is performed and commits: only its thread changes, and the commit copy is the current state. -/
theorem complete_sync (m : Mach) (th : Nat) (sh : Shape) (a0 : Arch) (nx : Next) (hn : (m.th th).nowSync = false)
    (hs : sh.sync = true) (h6 : a0.pswF 6 6 = 0) (hr : (m.takeIn th sh).isSome = true) (hw : (m.th th).win = []) (he : (m.th th).ep = none)
    (hb : (m.th th).sbuf.length ≤ 64) :
    ∃ m3, m.complete th sh a0 ⟨nx, [], none⟩ = some m3 ∧
      (m3.th th).cur = (match nx with
        | .seq => (m.th th).cur.stepLoops (a0.ia + BitVec.ofNat 64 (sh.len - 4)) (a0.ia + BitVec.ofNat 64 (sh.len - 4) + 4) 4
        | .jump x => { (m.th th).cur with ia := x }
        | .stay => { (m.th th).cur with ia := a0.ia }) ∧ (m3.th th).dbg = (m.th th).dbg ∧
      (m3.th th).com = (m3.th th).cur ∧
      (∀ u, u ≠ th → m3.th u = m.th u) ∧ { m3 with thr := m.thr } = m := by
  unfold Mach.complete
  simp only [hn, h6]
  cases hx : m.takeIn th sh with
  | none => simp [hx] at hr
  | some p =>
    obtain ⟨k, older⟩ := p
    have ho : k = none ∧ older = [] := by
      unfold Mach.takeIn at hx
      simp only [hw, List.getLast?_nil] at hx
      split at hx
      · cases hx
      split at hx
      · cases hx; exact ⟨rfl, rfl⟩
      · cases hx
    obtain ⟨rfl, rfl⟩ := ho
    apply Exists.intro
    constructor
    · simp only [Bool.false_eq_true, if_false, hx]
      rw [if_neg (by simp), if_pos hs]
      refine commitAll_one _ _ _ (by rw [Mach.th_setTh_same]; rfl) (by rw [Mach.th_setTh_same]; exact he) rfl (by rw [Mach.th_setTh_same]; exact hb)
    · refine ⟨by rw [Mach.th_setTh_same, Mach.th_setTh_same]; all_goals (cases nx <;> rfl), by rw [Mach.th_setTh_same, Mach.th_setTh_same],
        by rw [Mach.th_setTh_same, Mach.th_setTh_same], ?_, rfl⟩
      intro u hu; rw [Mach.th_setTh_ne _ _ _ _ hu, Mach.th_setTh_ne _ _ _ _ hu]

/-- Whether the window takes an instruction does not depend on the registers of its thread. -/
theorem admit_onTh_cur (m : Mach) (th : Nat) (sh : Shape) (b : Arch) :
    (m.onTh th fun t => { t with cur := b }).takeIn th sh = m.takeIn th sh := by
  unfold Mach.takeIn Mach.share
  have hne : 2 * (th / 2) + 1 - th % 2 ≠ th := by omega
  rw [Mach.th_onTh_ne _ _ _ _ hne, Mach.th_onTh_same]
  rfl

/-- What an instruction leaves whose body changes the registers of its thread only, and that commits later. -/
theorem leaves_plain {i : Instr} {s : State} {th : Nat} {sh : Shape} {m1 : Mach} {body : X Done} {nx : Next} {b : Arch}
    (he : exec i s = .next { s with m := s.m.runInsn th sh body }) (hr : Ready s.m th sh m1) (hs : sh.sync = false)
    (hb : body m1 = .ok ⟨nx, [], none⟩ (m1.onTh th fun t => { t with cur := b })) :
    Leaves i s th m1 (match nx with
        | .seq => after (s.m.th th).cur b sh.len
        | .jump x => { b with ia := x }
        | .stay => { b with ia := (s.m.th th).cur.ia }) (m1.th th).com := by
  obtain ⟨m3, hc, h1, h2, h2', _, h3, h4⟩ := complete_plain (m1.onTh th fun t => { t with cur := b }) th sh (s.m.th th).cur nx []
    (by rw [Mach.th_onTh_same]; exact hr.fresh) hs hr.noStep (by rw [admit_onTh_cur]; exact hr.room1)
  have hd : (m3.th th).dbg = 0 := by rw [h2, Mach.th_onTh_same]; exact hr.noDbg1
  have hm : s.m.runInsn th sh body = m3 := by rw [runInsn_ready hr hb hc, Mach.stepEnd_idle _ _ hd]
  rw [hm] at he
  refine ⟨_, he, rfl, ?_, ?_, ?_, ?_⟩
  · rw [h1, Mach.th_onTh_same]; cases nx <;> rfl
  · rw [h2', Mach.th_onTh_same]
  · intro u hu; show m3.th u = _; rw [h3 u hu, Mach.th_onTh_ne _ _ _ _ hu]
  · exact congrArg (fun (x : Mach) => { x with thr := m1.thr }) h4

/-- What an instruction of R154 leaves whose body changes the registers of its thread only: it has committed. -/
theorem leaves_sync {i : Instr} {s : State} {th : Nat} {sh : Shape} {m1 : Mach} {body : X Done} {nx : Next} {b : Arch}
    (he : exec i s = .next { s with m := s.m.runInsn th sh body }) (hr : Ready s.m th sh m1) (hs : sh.sync = true)
    (hb : body m1 = .ok ⟨nx, [], none⟩ (m1.onTh th fun t => { t with cur := b })) :
    let c := (match nx with
        | .seq => after (s.m.th th).cur b sh.len
        | .jump x => { b with ia := x }
        | .stay => { b with ia := (s.m.th th).cur.ia })
    Leaves i s th m1 c c := by
  intro c
  have hy := hr.sync hs
  obtain ⟨m3, hc, h1, h2, h2', h3, h4⟩ := complete_sync (m1.onTh th fun t => { t with cur := b }) th sh (s.m.th th).cur nx
    (by rw [Mach.th_onTh_same]; exact hr.fresh) hs hr.noStep (by rw [admit_onTh_cur]; exact hr.room1)
    (by rw [Mach.th_onTh_same]; exact hy.2.1) (by rw [Mach.th_onTh_same]; exact hy.2.2.1) (by rw [Mach.th_onTh_same]; exact hy.2.2.2)
  have hd : (m3.th th).dbg = 0 := by rw [h2, Mach.th_onTh_same]; exact hr.noDbg1
  have hm : s.m.runInsn th sh body = m3 := by rw [runInsn_ready hr hb hc, Mach.stepEnd_idle _ _ hd]
  rw [hm] at he
  have hcur : (m3.th th).cur = c := by rw [h1, Mach.th_onTh_same]; cases nx <;> rfl
  refine ⟨_, he, rfl, hcur, by rw [h2', hcur], ?_, ?_⟩
  · intro u hu; show m3.th u = _; rw [h3 u hu, Mach.th_onTh_ne _ _ _ _ hu]
  · exact congrArg (fun (x : Mach) => { x with thr := m1.thr }) h4

/-- What an instruction leaves whose body has reached the machine `m2`, with its stores, and that commits later. -/
theorem leaves_body {i : Instr} {s : State} {th : Nat} {sh : Shape} {m1 m2 : Mach} {body : X Done} {nx : Next} {st : List StoreE}
    (he : exec i s = .next { s with m := s.m.runInsn th sh body }) (hr : Ready s.m th sh m1) (hs : sh.sync = false)
    (hb : body m1 = .ok ⟨nx, st, none⟩ m2) (hn : (m2.th th).nowSync = false) (hd : (m2.th th).dbg = 0)
    (ha : (m2.takeIn th sh).isSome = true) :
    ∃ t, exec i s = .next t ∧ t.pending = s.pending ∧ (t.m.th th).cur = (match nx with
        | .seq => after (s.m.th th).cur (m2.th th).cur sh.len
        | .jump x => { (m2.th th).cur with ia := x }
        | .stay => { (m2.th th).cur with ia := (s.m.th th).cur.ia }) ∧ (t.m.th th).com = (m2.th th).com ∧
      (t.m.th th).stores = (m2.th th).stores ++ st ∧ (∀ u, u ≠ th → t.m.th u = m2.th u) ∧ { t.m with thr := m2.thr } = m2 := by
  obtain ⟨m3, hc, h1, h2, h2', h3, h4, h5⟩ := complete_plain m2 th sh (s.m.th th).cur nx st hn hs hr.noStep ha
  have hm : s.m.runInsn th sh body = m3 := by
    rw [runInsn_ready hr hb hc, Mach.stepEnd_idle _ _ (h2.trans hd)]
  rw [hm] at he
  exact ⟨_, he, rfl, by rw [h1]; cases nx <;> rfl, h2', h3, h4, h5⟩

/-- What an instruction of R154 without window stores leaves whose body has reached the machine `m2`: it has committed. -/
theorem leaves_body_sync {i : Instr} {s : State} {th : Nat} {sh : Shape} {m1 m2 : Mach} {body : X Done} {nx : Next}
    (he : exec i s = .next { s with m := s.m.runInsn th sh body }) (hr : Ready s.m th sh m1) (hs : sh.sync = true)
    (hb : body m1 = .ok ⟨nx, [], none⟩ m2) (hn : (m2.th th).nowSync = false) (hd : (m2.th th).dbg = 0)
    (ha : (m2.takeIn th sh).isSome = true) (hw : (m2.th th).win = []) (hep : (m2.th th).ep = none) (hbuf : (m2.th th).sbuf.length ≤ 64) :
    let c := (match nx with
        | .seq => after (s.m.th th).cur (m2.th th).cur sh.len
        | .jump x => { (m2.th th).cur with ia := x }
        | .stay => { (m2.th th).cur with ia := (s.m.th th).cur.ia })
    Leaves i s th m2 c c := by
  intro c
  obtain ⟨m3, hc, h1, h2, h2', h3, h4⟩ := complete_sync m2 th sh (s.m.th th).cur nx hn hs hr.noStep ha hw hep hbuf
  have hm : s.m.runInsn th sh body = m3 := by rw [runInsn_ready hr hb hc, Mach.stepEnd_idle _ _ (h2.trans hd)]
  rw [hm] at he
  have hcur : (m3.th th).cur = c := by rw [h1]; cases nx <;> rfl
  exact ⟨_, he, rfl, hcur, by rw [h2', hcur], h3, h4⟩

/-! ### Interruptions -/

theorem pl_lt (a : Arch) : a.pl < 4 := Nat.mod_lt _ (by decide)

theorem pswF_setPsw_same (a : Arch) (hi lo v : Nat) (h : lo ≤ hi) (h' : hi < 64) : (a.setPsw hi lo v).pswF hi lo = v % 2 ^ (hi + 1 - lo) := by
  simp only [Arch.setPsw, Arch.pswF, bits_ofNat64 _ _ _ h', bits_setBits_same _ _ _ _ h]

theorem pswF_setPsw_ne (a : Arch) (hi lo v hi' lo' : Nat) (h : lo ≤ hi) (h' : hi' < 64) (d : hi' < lo ∨ hi < lo') :
    (a.setPsw hi lo v).pswF hi' lo' = a.pswF hi' lo' := by
  simp only [Arch.setPsw, Arch.pswF, bits_ofNat64 _ _ _ h', bits_setBits_ne _ _ _ _ _ _ h d]

theorem bits_or (x y hi lo : Nat) : bits (x ||| y) hi lo = bits x hi lo ||| bits y hi lo := by
  apply Nat.eq_of_testBit_eq; intro i
  simp only [testBit_bits, Nat.testBit_or]
  cases decide (i < hi + 1 - lo) <;> simp

theorem bits_shl_in (x hi lo w : Nat) (hx : x < 2 ^ (hi + 1 - lo)) (hw : lo ≤ hi) (e : w = lo) : bits (x <<< w) hi lo = x := by
  subst e
  unfold bits
  rw [Nat.shiftLeft_shiftRight, Nat.mod_eq_of_lt hx]

theorem bits_shl_out (x hi lo w : Nat) (h : hi < w ∨ x <<< w < 2 ^ lo) : bits (x <<< w) hi lo = 0 := by
  apply Nat.eq_of_testBit_eq; intro i
  rw [testBit_bits, Nat.zero_testBit]
  rcases h with h | h
  · by_cases a : i < hi + 1 - lo
    · have : ¬ (w ≤ lo + i) := by omega
      simp [Nat.testBit_shiftLeft, this]
    · simp [a]
  · rw [Nat.testBit_lt_two_pow (Nat.lt_of_lt_of_le h (Nat.pow_le_pow_right (by decide) (by omega)))]; simp

/-- The code and the level that `ecode_L` records (Table 3.18). -/
theorem ecodeWord_fields (code pl enc lvl ilen wr s2 prec : Nat) (hc : code < 2 ^ 16) (hp : pl < 4) (he : enc < 2) (hl : lvl < 8) (hi : ilen < 4)
    (hw : wr < 2) (h2 : s2 < 2) (hr : prec < 2) :
    bits (BitVec.ofNat 64 (ecodeWord code pl enc lvl ilen wr s2 prec)).toNat 15 0 = code ∧
    bits (BitVec.ofNat 64 (ecodeWord code pl enc lvl ilen wr s2 prec)).toNat 30 29 = pl := by
  have hv : vecOf code < 2 ^ 8 := by unfold vecOf; omega
  have z : bits code 15 0 = code := by unfold bits; rw [Nat.shiftRight_zero]; exact Nat.mod_eq_of_lt hc
  have z' : bits code 30 29 = 0 := by
    have := bits_shl_out code 30 29 0 (.inr (by rw [Nat.shiftLeft_zero]; exact Nat.lt_trans hc (by decide)))
    simpa using this
  have sm : ∀ (x n w : Nat), x < n → n * 2 ^ w ≤ 2 ^ 29 → x <<< w < 2 ^ 29 := by
    intro x n w h1 h2; rw [Nat.shiftLeft_eq]
    exact Nat.lt_of_lt_of_le (Nat.mul_lt_mul_of_pos_right h1 (Nat.pow_pos (by decide))) h2
  constructor
  · rw [bits_ofNat64 _ _ _ (by decide)]; unfold ecodeWord
    simp only [bits_or]
    rw [bits_shl_out pl _ _ _ (.inl (by decide)), bits_shl_out enc _ _ _ (.inl (by decide)), bits_shl_out lvl _ _ _ (.inl (by decide)),
      bits_shl_out ilen _ _ _ (.inl (by decide)), bits_shl_out wr _ _ _ (.inl (by decide)), bits_shl_out s2 _ _ _ (.inl (by decide)),
      bits_shl_out prec _ _ _ (.inl (by decide)), bits_shl_out (vecOf code) _ _ _ (.inl (by decide)), z]
    simp
  · rw [bits_ofNat64 _ _ _ (by decide)]; unfold ecodeWord
    simp only [bits_or]
    rw [bits_shl_in pl 30 29 29 (by simpa using hp) (by decide) rfl,
      bits_shl_out enc _ _ _ (.inr (sm _ 2 _ he (by decide))), bits_shl_out lvl _ _ _ (.inr (sm _ 8 _ hl (by decide))),
      bits_shl_out ilen _ _ _ (.inr (sm _ 4 _ hi (by decide))), bits_shl_out wr _ _ _ (.inr (sm _ 2 _ hw (by decide))),
      bits_shl_out s2 _ _ _ (.inr (sm _ 2 _ h2 (by decide))), bits_shl_out prec _ _ _ (.inr (sm _ 2 _ hr (by decide))),
      bits_shl_out (vecOf code) _ _ _ (.inr (sm _ 256 _ (by simpa using hv) (by decide))), z']
    simp

/-- The entry of R104 does what the spec lists. -/
theorem enter_entered (b : Arch) (L code eaddr : Nat) (sia ec : W64) (hL : L < 4) (h1 : code ≠ 1) (h2 : bits ec.toNat 15 0 = code)
    (h3 : bits ec.toNat 30 29 = b.pl) : Entered b (b.enter L code eaddr sia ec) L code (BitVec.ofNat 64 eaddr) sia := by
  have hp : L % 2 ^ (1 + 1 - 0) = L := Nat.mod_eq_of_lt (by simpa using hL)
  have ht : bits (tget b.ivb L 0).toNat 0 0 % 2 ^ (4 + 1 - 4) = bits (tget b.ivb L 0).toNat 0 0 := by
    apply Nat.mod_eq_of_lt; unfold bits; exact Nat.mod_lt _ (by decide)
  refine ⟨?_, ?_, ?_, ?_, ?_, ?_, ?_, ?_, ?_, ?_, ?_, ?_, ?_, ?_⟩ <;> simp only [Arch.enter, if_neg h1]
  · exact tget_tset_same _ _ _ _
  · exact tget_tset_same _ _ _ _
  · rw [← h2]; exact congrArg (fun x : W64 => bits x.toNat 15 0) (tget_tset_same _ _ _ _)
  · rw [← h3]; exact congrArg (fun x : W64 => bits x.toNat 30 29) (tget_tset_same _ _ _ _)
  · exact tget_tset_same _ _ _ _
  · show Arch.pswF (Arch.setPsw _ 23 20 0) 1 0 = L
    rw [pswF_setPsw_ne _ _ _ _ _ _ (by decide) (by decide) (by decide), pswF_setPsw_ne _ _ _ _ _ _ (by decide) (by decide) (by decide),
      pswF_setPsw_ne _ _ _ _ _ _ (by decide) (by decide) (by decide), pswF_setPsw_ne _ _ _ _ _ _ (by decide) (by decide) (by decide),
      pswF_setPsw_same _ _ _ _ (by decide) (by decide), hp]
  · show Arch.pswF (Arch.setPsw _ 23 20 0) 2 2 = 0
    rw [pswF_setPsw_ne _ _ _ _ _ _ (by decide) (by decide) (by decide), pswF_setPsw_ne _ _ _ _ _ _ (by decide) (by decide) (by decide),
      pswF_setPsw_ne _ _ _ _ _ _ (by decide) (by decide) (by decide), pswF_setPsw_same _ _ _ _ (by decide) (by decide)]
    all_goals simp
  · show Arch.pswF (Arch.setPsw _ 23 20 0) 4 4 = _
    rw [pswF_setPsw_ne _ _ _ _ _ _ (by decide) (by decide) (by decide), pswF_setPsw_ne _ _ _ _ _ _ (by decide) (by decide) (by decide),
      pswF_setPsw_same _ _ _ _ (by decide) (by decide), ht]
  · show Arch.pswF (Arch.setPsw _ 23 20 0) 6 5 = 0
    rw [pswF_setPsw_ne _ _ _ _ _ _ (by decide) (by decide) (by decide), pswF_setPsw_same _ _ _ _ (by decide) (by decide)]
    all_goals simp
  · show Arch.pswF (Arch.setPsw _ 23 20 0) 23 20 = 0
    rw [pswF_setPsw_same _ _ _ _ (by decide) (by decide)]
    all_goals simp
  · rfl
  · constructor
    · show Arch.pswF (Arch.setPsw _ 23 20 0) 17 16 = b.pswF 17 16
      rw [pswF_setPsw_ne _ _ _ _ _ _ (by decide) (by decide) (by decide), pswF_setPsw_ne _ _ _ _ _ _ (by decide) (by decide) (by decide),
        pswF_setPsw_ne _ _ _ _ _ _ (by decide) (by decide) (by decide), pswF_setPsw_ne _ _ _ _ _ _ (by decide) (by decide) (by decide),
        pswF_setPsw_ne _ _ _ _ _ _ (by decide) (by decide) (by decide)]; rfl
    · show Arch.pswF (Arch.setPsw _ 23 20 0) 31 29 = b.pswF 31 29
      rw [pswF_setPsw_ne _ _ _ _ _ _ (by decide) (by decide) (by decide), pswF_setPsw_ne _ _ _ _ _ _ (by decide) (by decide) (by decide),
        pswF_setPsw_ne _ _ _ _ _ _ (by decide) (by decide) (by decide), pswF_setPsw_ne _ _ _ _ _ _ (by decide) (by decide) (by decide),
        pswF_setPsw_ne _ _ _ _ _ _ (by decide) (by decide) (by decide)]; rfl
  · exact ⟨rfl, rfl, rfl, rfl, rfl⟩

/-- Taking an interruption outside an enclave changes its thread only. -/
theorem interrupt_plain (m : Mach) (th : Nat) (i : Intr) (he : (m.th th).encl = none) (ht : i.tfd = none) :
    m.interrupt th i = m.onTh th fun t =>
      let b := (m.th th).cur.enter (max (classOf i.code i.phys) (m.th th).cur.pl) i.code i.eaddr i.sia
        (BitVec.ofNat 64 (ecodeWord i.code (m.th th).cur.pl 0 0 i.ilen (b2n i.wr) 0 (b2n i.prec)))
      { t with cur := b, com := b, win := [], det := { t.det with cnt := 0 }, wait := .none, got := [], adWait := none, seen := [] } := by
  unfold Mach.interrupt
  simp only [he, ht, Mach.asyncExit, Option.isSome_none, Bool.false_and, Bool.false_eq_true, if_false, b2n]

/-- What taking an interruption that is no machine check leaves, outside an enclave. -/
theorem interrupt_entered (m : Mach) (th : Nat) (i : Intr) (he : (m.th th).encl = none) (ht : i.tfd = none) (hc : i.code < 2 ^ 16) (h1 : i.code ≠ 1)
    (hl : i.ilen < 4) :
    Entered (m.th th).cur ((m.interrupt th i).th th).cur (max (classOf i.code i.phys) (m.th th).cur.pl) i.code (BitVec.ofNat 64 i.eaddr) i.sia ∧
    ((m.interrupt th i).th th).com = ((m.interrupt th i).th th).cur ∧ ((m.interrupt th i).th th).win = [] ∧
    ((m.interrupt th i).th th).dbg = (m.th th).dbg ∧
    (∀ u, u ≠ th → (m.interrupt th i).th u = m.th u) ∧ { m.interrupt th i with thr := m.thr } = m := by
  have hb : ∀ b : Bool, b2n b < 2 := by intro b; cases b <;> decide
  have hL : max (classOf i.code i.phys) (m.th th).cur.pl < 4 := by
    have h1 := pl_lt (m.th th).cur
    have h2 : classOf i.code i.phys < 4 := by unfold classOf; repeat' split <;> first | decide | skip
    omega
  have hf := ecodeWord_fields i.code (m.th th).cur.pl 0 0 i.ilen (b2n i.wr) 0 (b2n i.prec) hc (pl_lt _) (by decide) (by decide) hl (hb _)
    (by decide) (hb _)
  rw [interrupt_plain m th i he ht]
  refine ⟨?_, by rw [Mach.th_onTh_same], by rw [Mach.th_onTh_same], by rw [Mach.th_onTh_same], fun u hu => Mach.th_onTh_ne _ _ _ _ hu, rfl⟩
  rw [Mach.th_onTh_same]
  exact enter_entered _ _ _ _ _ _ hL h1 hf.1 hf.2

/-- An interruption taken on a machine that differs from `m` in one thread only. -/
theorem interrupt_from (m m' : Mach) (th : Nat) (T : Thread) (hT : m'.th th = T) (he : T.encl = none) {code eaddr ilen : Nat} {sia : W64} {wr prec : Bool}
    (hc : code < 2 ^ 16) (h1 : code ≠ 1) (hl : ilen < 4) (hu : ∀ u, u ≠ th → m'.th u = m.th u) (hm : { m' with thr := m.thr } = m) :
    Entered T.cur ((m'.interrupt th ⟨code, eaddr, sia, ilen, wr, prec, false, none⟩).th th).cur (max (classOf code false) T.cur.pl) code
      (BitVec.ofNat 64 eaddr) sia ∧
    ((m'.interrupt th ⟨code, eaddr, sia, ilen, wr, prec, false, none⟩).th th).com =
      ((m'.interrupt th ⟨code, eaddr, sia, ilen, wr, prec, false, none⟩).th th).cur ∧
    ((m'.interrupt th ⟨code, eaddr, sia, ilen, wr, prec, false, none⟩).th th).win = [] ∧
    ((m'.interrupt th ⟨code, eaddr, sia, ilen, wr, prec, false, none⟩).th th).dbg = T.dbg ∧
    (∀ u, u ≠ th → (m'.interrupt th ⟨code, eaddr, sia, ilen, wr, prec, false, none⟩).th u = m.th u) ∧
    { m'.interrupt th ⟨code, eaddr, sia, ilen, wr, prec, false, none⟩ with thr := m.thr } = m := by
  subst hT
  obtain ⟨k1, k2, k3, k4, k5, k6⟩ := interrupt_entered m' th ⟨code, eaddr, sia, ilen, wr, prec, false, none⟩ he rfl hc h1 hl
  refine ⟨k1, k2, k3, k4, fun u h => (k5 u h).trans (hu u h), ?_⟩
  have := congrArg (fun (x : Mach) => { x with thr := m.thr }) k6
  exact this.trans hm

/-- The trap of an instruction that completes (R102): it is taken with the instruction committed. -/
theorem complete_trap (m : Mach) (th : Nat) (sh : Shape) (a0 : Arch) (code eaddr : Nat) (hn : (m.th th).nowSync = false)
    (hr : (m.takeIn th sh).isSome = true) (hcl : Clear m th) (hc : code < 2 ^ 16) (h1 : code ≠ 1) (hlen : sh.len / 4 < 4) :
    ∃ m3, m.complete th sh a0 ⟨.seq, [], some (code, eaddr)⟩ = some m3 ∧
      (let b := (m.th th).cur.stepLoops (a0.ia + BitVec.ofNat 64 (sh.len - 4)) (a0.ia + BitVec.ofNat 64 (sh.len - 4) + 4) 4
       Entered b (m3.th th).cur (max (classOf code false) b.pl) code (BitVec.ofNat 64 eaddr) b.ia) ∧
      (m3.th th).com = (m3.th th).cur ∧ (m3.th th).win = [] ∧ (m3.th th).dbg = (m.th th).dbg ∧
      (∀ u, u ≠ th → m3.th u = m.th u) ∧ { m3 with thr := m.thr } = m := by
  obtain ⟨hw, he, hen, hb⟩ := hcl
  unfold Mach.complete
  simp only [hn]
  cases hx : m.takeIn th sh with
  | none => simp [hx] at hr
  | some p =>
    obtain ⟨k, older⟩ := p
    have ho : k = none ∧ older = [] := by
      unfold Mach.takeIn at hx
      simp only [hw, List.getLast?_nil] at hx
      split at hx
      · cases hx
      split at hx
      · cases hx; exact ⟨rfl, rfl⟩
      · cases hx
    obtain ⟨rfl, rfl⟩ := ho
    apply Exists.intro
    constructor
    · simp only [Bool.false_eq_true, if_false, hx]
      rw [commitAll_one _ _ _ (by rw [Mach.th_setTh_same]; rfl) (by rw [Mach.th_setTh_same]; exact he) rfl (by rw [Mach.th_setTh_same]; exact hb)]
      rfl
    · have fin : ∀ (T T' : Thread), T'.encl = none → T'.cur = (m.th th).cur.stepLoops (a0.ia + BitVec.ofNat 64 (sh.len - 4))
            (a0.ia + BitVec.ofNat 64 (sh.len - 4) + 4) 4 → T'.dbg = (m.th th).dbg → _ := fun T T' g1 g2 g3 =>
        interrupt_from m ((m.setTh th T).setTh th T') th T' (Mach.th_setTh_same _ _ _) g1 (code := code) (eaddr := eaddr) (ilen := sh.len / 4)
          (sia := T'.cur.ia) (wr := false) (prec := true) hc h1 hlen
          (fun u hu => by rw [Mach.th_setTh_ne _ _ _ _ hu, Mach.th_setTh_ne _ _ _ _ hu]) rfl
      have hT := fun T => Mach.th_setTh_same m th T
      simp only [hT]
      exact fin _ { m.th th with
        nowSync := false
        got := []
        seen := []
        cur := (m.th th).cur.stepLoops (a0.ia + BitVec.ofNat 64 (sh.len - 4)) (a0.ia + BitVec.ofNat 64 (sh.len - 4) + 4) 4
        com := (m.th th).cur.stepLoops (a0.ia + BitVec.ofNat 64 (sh.len - 4)) (a0.ia + BitVec.ofNat 64 (sh.len - 4) + 4) 4
        win := [] } hen rfl rfl


/-- An instruction that traps on completion. -/
theorem enters_trap {i : Instr} {s : State} {th : Nat} {sh : Shape} {m1 m2 : Mach} {body : X Done} {code eaddr : Nat}
    (he : exec i s = .next { s with m := s.m.runInsn th sh body }) (hr : Ready s.m th sh m1)
    (hb : body m1 = .ok ⟨.seq, [], some (code, eaddr)⟩ m2) (hn : (m2.th th).nowSync = false) (hd : (m2.th th).dbg = 0)
    (ha : (m2.takeIn th sh).isSome = true) (hcl : Clear m2 th) (hc : code < 2 ^ 16) (h1 : code ≠ 1) (hlen : sh.len / 4 < 4) :
    let b := after (s.m.th th).cur (m2.th th).cur sh.len
    Enters i s th m2 b (max (classOf code false) b.pl) code (BitVec.ofNat 64 eaddr) b.ia := by
  intro b
  obtain ⟨m3, hc', k1, k2, k3, k4, k5, k6⟩ := complete_trap m2 th sh (s.m.th th).cur code eaddr hn ha hcl hc h1 hlen
  have hm : s.m.runInsn th sh body = m3 := by rw [runInsn_ready hr hb hc', Mach.stepEnd_idle _ _ (k4.trans hd)]
  rw [hm] at he
  exact ⟨_, he, rfl, k1, k2, k3, k5, k6⟩

/-- An instruction whose body faults (R102): the fault is taken at the boundary before it. -/
theorem enters_fault {i : Instr} {s : State} {th : Nat} {sh : Shape} {m1 : Mach} {body : X Done} {code eaddr : Nat} {wr : Bool}
    (he : exec i s = .next { s with m := s.m.runInsn th sh body }) (hr : Ready s.m th sh m1)
    (hb : body m1 = .error (.exc code eaddr wr none) m1) (hcl : Clear m1 th) (hc : code < 2 ^ 16) (h1 : code ≠ 1) (hlen : sh.len / 4 < 4) :
    let a := (s.m.th th).cur
    Enters i s th m1 a (max (classOf code false) a.pl) code (BitVec.ofNat 64 eaddr) a.ia := by
  intro a
  obtain ⟨hw, hep, hen, hbuf⟩ := hcl
  have hf := s.m.executes_frozen th hr.runs
  have hpre : (if sh.sync then s.m.commitAll th 40 else some s.m) = some s.m := by
    cases hs : sh.sync
    · simp
    · have := (hr.sync hs).1; simp [Mach.commitAll, this]
  have hrm : (s.m.takeIn th sh).isNone = false := by have := hr.room; cases hx : s.m.takeIn th sh <;> simp_all
  have hfetch := hr.fetch
  unfold fetchWords at hfetch
  have hprog : (do
      fetchCheck th (s.m.th th).cur.ia.toNat
      if sh.len = 8 then fetchCheck th ((s.m.th th).cur.ia + 4).toNat
      body : X Done) (s.m.onTh th fun t => { t with gotIx := 0 }) = .error (.exc code eaddr wr none) m1 := by
    change EStateM.bind _ _ _ = _
    change EStateM.bind _ _ _ = _ at hfetch
    simp only [EStateM.bind] at hfetch ⊢
    split at hfetch
    · split at hfetch
      · rename_i h8
        simp only [h8, if_true]
        change EStateM.bind _ _ _ = _
        simp only [EStateM.bind, hfetch, hb]
      · rename_i h8
        simp only [h8, if_false]
        cases hfetch
        exact hb
    · cases hfetch
  dsimp only at hprog
  have hm : (if s.m.frozen = true then s.m else s.m.tryStop th) = s.m := by simp [hf, Mach.tryStop_idle _ _ hr.noDbg]
  have hback : ((m1.onTh th fun t => { t with cur := (s.m.th th).cur, nowSync := false }).commitAll th 40) =
      some (m1.onTh th fun t => { t with cur := (s.m.th th).cur, nowSync := false }) := by
    have : ((m1.onTh th fun t => { t with cur := (s.m.th th).cur, nowSync := false }).th th).win = [] := by rw [Mach.th_onTh_same]; exact hw
    simp only [Mach.commitAll, this, if_true]
  obtain ⟨k1, k2, k3, k4, k5, k6⟩ := interrupt_from m1 (m1.onTh th fun t => { t with cur := (s.m.th th).cur, nowSync := false }) th _
    (Mach.th_onTh_same _ _ _) hen (eaddr := eaddr) (sia := (s.m.th th).cur.ia) (wr := wr) (prec := true) hc h1 hlen
    (fun u hu => Mach.th_onTh_ne _ _ _ _ hu) rfl
  have hrun : s.m.runInsn th sh body = (m1.onTh th fun t => { t with cur := (s.m.th th).cur, nowSync := false }).interrupt th
      ⟨code, eaddr, (s.m.th th).cur.ia, sh.len / 4, wr, true, false, none⟩ := by
    unfold Mach.runInsn
    simp only [hm, hr.runs, hpre, hrm, hprog, hback, Bool.not_true, Bool.false_eq_true, if_false]
    exact Mach.stepEnd_idle _ _ (k4.trans hr.noDbg1)
  rw [hrun] at he
  exact ⟨_, he, rfl, k1, k2, k3, k5, k6⟩

end Sys2Proof.Machine
end

