-- ==== Sys2Proof/Tests/Slice0.lean ====
section
/-! SUPPORT. Tests: for each statement states and operands that meet its hypotheses, commands that the check of operands turns away, and the
worked examples of the spec. -/

namespace Sys2Proof.Tests

open Sys2Proof.Machine Sys2Proof.Safety

set_option linter.unusedVariables false
set_option Elab.async false

/-- The machine after reset with one thread. -/
def wTh (t : Thread) : Mach := { Mach.reset with thr := [(0, t)] }

/-- A thread that runs. -/
def wRun : Thread := { Thread.init with run := .physical }

/-- A checkpoint of one instruction. -/
def wCk : Ckpt := ⟨1, 1, false, [], Arch.reset⟩

/-- The machine after reset with core 0 as given and thread 0 running. -/
def wCore (k : Core) : Mach := { Mach.reset with thr := [(0, wRun)], cores := [(0, k)] }

/-- A capsule of core 0 with nothing in it. -/
def wCap : Capsule := ⟨0, 11, 1, 2, 0, 0, Arch.reset, Arch.reset, [], [], [], [], 0⟩

/-- The machine after reset with home range 0 covering the low addresses. -/
def wHome : Mach := Mach.reset.sets [(R.aq_home_base 0, 0), (R.aq_home_size 0, 1), (R.aq_home_en 0, 1)]

/-- A directory entry for line 0, on `wHome`. -/
def wDir (st : DirSt) (vec : Nat) : Mach := wHome.setDir 0 ⟨st, vec, false⟩

/-- A transaction for line 0, on `wHome`. -/
def wTxn (t : HomeTxn) : Mach := wHome.setTxn 0 t

/-- A message for line 0 from agent `a` to agent `b`. -/
def wMsg (a b : Nat) : Msg := { noMsg with src := a, dst := b }

/-- Core 0 as given, on `wHome`, with thread 0 running. -/
def wHomeCore (k : Core) : Mach := { wHome with thr := [(0, wRun)], cores := [(0, k)] }

/-- The machine with the bytes `b` in the line of address `a`, from its first byte on, held in a log cache; the rest of the line is 0. -/
def wPut (m : Mach) (a : Nat) (b : List Nat) : Mach :=
  m.setLog 0 (⟨a / 256, BitVec.ofNat 2048 (ofBytes b * 256 ^ (256 - b.length))⟩ :: tget m.acc.log 0 [])

/-- A good flit whose header is `h` and whose slots are zero. -/
def wFlit (h : Nat) : List Nat := let b := toBytes 12 h ++ List.replicate 112 0; b ++ toBytes 4 (crc32c b)

/-- Memory port 0 up with the commands `c` outstanding, on `wHome`. -/
def wMem (c : List MemCmd) : Mach := (wHome.onMemP 0 fun x => { x with out := c }).sets [(R.mem_port_stat_state 0, 6), (R.mem_grp_stat_state 0, 2)]

/-- A machine with the Cistern enabled and ready: module 0's aperture is 1 GiB at 4 GiB, its pool lies at 512 MiB. -/
def wCis : Mach := wHome.sets [(R.mem_cis_stat_cfg, 1), (R.mem_cis_stat_ready, 1), (R.mem_cis_ap_base 0, 4), (R.mem_cis_ap_size 0, 1), (R.mem_cis_ap_en 0, 1),
  (R.mem_cis_pool_base, 512), (R.mem_cis_plim_lim, 767), (R.mem_cis_cmda_addr, 0x100000)]

/-- A machine whose monitor runs and has a command of the given op pending, with its block `b` at 0x1000. -/
def wMon (op : Nat) (b : List Nat) (t : Tab Enclave) : Mach :=
  let m := wHome.sets [(R.mem_rgn_base_en 0, 1), (R.mem_rgn_base_kind 0, 1), (R.mem_rgn_lim_lim 0, 0), (R.mem_rgn_base_en 1, 1), (R.mem_rgn_base_kind 1, 3),
    (R.mem_rgn_base_base 1, 256), (R.mem_rgn_lim_lim 1, 767), (R.grotto_cmd_go, 1), (R.grotto_cmd_op, op), (R.grotto_cmd_addr, 0x20), (R.grotto_stat_state, 2),
    (R.cryu_rbg_state 0, 1), (R.id_mfeat_cry, 2)]
  wPut { m with grotto := { m.grotto with encl := t } } 0x1000 b

/-- A sealed enclave, and one being created. -/
def wEncl (st : Nat) : Enclave := { Enclave.init with st := st, base := 0x18000000, size := 0x10000, csize := 0x1000, nctx := 1, meas := 5 }

/-- Instance 0 of unit `u` assigned, in state `st`, with the requests `q`. -/
def wAcc (u st : Nat) (q : List AccReq) : Mach :=
  (wHome.setInst u 0 { AccInst.init with q := q }).sets [(R.u_ictl_asg u 0, 1), (R.u_ictl_state u 0, st), (R.id_mfeat_cry, 2)]

/-- The same with the block `b` at 0x1000. -/
def wSub (u : Nat) (b : List Nat) : Mach := wPut (wAcc u 1 []) 0x1000 b

/-- The first bytes of a hash request's block, with an output area of 64 bytes. -/
def wHash : List Nat := [3, 0x11, 0, 3] ++ List.replicate 24 0 ++ [0, 0, 0, 64]

/-- An operation of subchannel 0 on path 0. -/
def wOp : ChOp :=
  { slot := 2, upd := 1, st := 1, flags := 0, xid := 5, scid := 0, part := 0, cp := 0, path := 0, mask := 255, blk := 0x3000, tag := 7, first := 0x4000,
    next := 0x4000, pos := 0, ended := 0, redrv := 0, hold := 0, tod := 0, paths := [4, 0, 0, 1] ++ List.replicate 28 0, fin := 0, dev := 0, sense := [],
    resid := 0, run := .idle, due := .nothing, unconf := false, mack := false, word := none, moved := 0, detail := 0, where_ := 0, stop := 0,
    redrive := false, busy := [], owedClear := false, owedHalt := false, peer := 0 }

/-- A machine with subchannel 0, whose one path is device 1 on I/O port 4, which is up; byte 0 of its descriptor is `b0`, and `t` its operations. -/
def wChan (b0 : Nat) (t : List ChOp) : Mach :=
  let m := wHome.sets [(R.chan_sct_base, 1), (R.chan_sct_en, 1), (R.chan_cpst_present, 1), (R.chan_jl_ctl_pers 4, 1), (R.chan_jl_stat_state 4, 6),
    (R.mem_rgn_base_en 4, 1), (R.mem_rgn_base_kind 4, 4), (R.mem_rgn_base_base 4, 32), (R.mem_rgn_lim_lim 4, 63), (R.mode_seal_state, 2),
    (R.chan_rsv_stat_cfg, 1), (R.chan_rsv_base_base, 40), (R.chan_rsv_lim_lim, 41), (R.chan_scmda_addr, 0x20), (R.chan_rsv_cmda_addr, 0x10)]
  wPut { m with
           jl := [(4, { JlPort.init with link := ⟨0, 0, [], [], [32, 1024], false, []⟩, grant := (32, 1024) })],
           chan := { m.chan with tableOk := true, ops := t.map fun x => (x.slot, x), slots := t.map fun x => (x.slot, x.st),
                                 subs := [(0, { ChSub.init with paths := [⟨1, 0, false⟩] })] } } (2 ^ 25) ([b0, 0, 1, 0] ++ List.replicate 12 0 ++ [4, 0, 0, 1])

/-- A machine whose coupling port 2 is up, with system 9 as its partner, and with the requests `r` outstanding; request queue 1 lies at 0x80000. -/
def wCpl (r : List CplReq) : Mach :=
  let m := (wChan 3 []).sets [(R.cpl_p_stat_state 2, 6), (R.cpl_p_stat_partner 2, 1), (R.cpl_p_peer_sys 2, 9), (R.cpl_sysid_id, 7), (R.cpl_pmask_ports 0, 4),
    (R.cpl_rq_en 1, 1), (R.cpl_rq_base 1, 0x40), (R.cpl_rq_lsize 1, 4), (R.cpl_mir_en 0, 1), (R.cpl_mirid_sys 0, 9), (R.cpl_mir_base 0, 3), (R.cpl_mir_size 0, 1)]
  { m with jl := [(34, { JlPort.init with link := ⟨0, 0, [], [], [64, 4096], false, []⟩, grant := (64, 4096) })], cpl := { m.cpl with reqs := r } }

/-- A machine whose port 5 is a root port that is up and powered, with the loads `l` outstanding. -/
def wPcie (l : List PcieLoad) : Mach :=
  let m := wHome.sets [(R.mode_seal_state, 2), (R.chan_jl_ctl_pers 5, 2), (R.pcie_ecam_res, 1), (R.pcie_ecam_en, 1), (R.pcie_ecam_base, 100), (R.pcie_p_stat_state 5, 2),
    (R.pcie_p_stat_pwr 5, 1), (R.pcie_p_stat_dlla 5, 1), (R.pcie_p_stat_prs 5, 1), (R.pcie_p_hp_pwren 5, 1), (R.pcie_p_hp_mrl 5, 1), (R.pcie_p_ctl_gmax 5, 3),
    (R.pcie_p_ttr2_lv 5, 0)]
  { m with pcie := [(5, { PciePort.init with loads := l })] }

/-- A machine with a target table at 8 MiB whose entry for source 5 is `e`, page 1 for sources 0 to 100, and Rill 5 as a disabled one at 0x70000. -/
def wBell (e : List Nat) : Mach :=
  wPut { wHome.sets [(R.dbell_ttab_base, 1), (R.dbell_ttab_res, 1), (R.dbell_pg_en 1, 1), (R.dbell_pg_last 1, 100), (R.dbell_grp_climit 0, 1), (R.rill_r_base_base 5, 0x70),
      (R.rill_r_base_lsize 5, 6), (R.rill_r_ci_addr 5, 0x1000)] with
    thr := [(0, wRun)] } (2 ^ 23) (List.replicate 40 0 ++ e)

/-- The same with Rill 5 enabled and the records `l` staged for the hub. -/
def wRill (l : List RillRec) : Mach :=
  { (wBell []).set (R.rill_r_base_en 5) 1 with rill := { (wBell []).rill with q := if l = [] then [] else [(4, l)] } }

/-- A machine in M1 whose virtual processor 7 is in state `st`. -/
def wVp (st : Nat) : Mach :=
  { wHome.sets [(R.mode_cur_cur, 1), (R.casc_vp_st_state 7, st), (R.casc_vp_ctl_weight 7, 1), (R.casc_part_ctl_share 0, 1024), (R.casc_part_st_credit 0, 1000)] with thr := [(4, { Thread.init with run := .vacant })] }

/-- A machine whose cores all run below their ceilings at 75 °C. -/
def wCool : Mach :=
  Mach.reset.sets ((List.range 48).map (fun c => (R.weir_temp_temp (64 * (c / 12) + 4 * (c % 12)), 75 * 16)) ++ (List.range 48).map (fun c => (R.weir_core_ceil c, 200)))

/-- A machine whose service node is number 5 in NMT state `st`. -/
def wNode (st : Nat) : Mach :=
  { wHome.sets [(R.id_place_can_node, 5), (R.grotto_dbg_n_ni, 1), (R.grotto_dbg_n_inv, 1), (R.grotto_dbg_f_ni, 1), (R.grotto_dbg_f_inv, 1)] with
    boot := { Mach.reset.boot with vao := true, phase := 5 }, od := { Mach.reset.od with nmt := st } }

/-- The same with a virtual processor on thread 0, in debug state `d`. -/
def wDbg (d : Nat) : Mach := wPut { wNode 2 with thr := [(0, { Thread.init with run := .placed 7, dbg := d })] } 0 []

/-- A machine with one module in the boot phase `p`. -/
def wBoot (p : Nat) : Mach := { wHome.set R.id_place_dsize 1 with boot := { Mach.reset.boot with vao := true, phase := p } }

/-! ### Machines that an instruction finds -/

/-- The machine after a piece of a thread's work. -/
def wEnd {α : Type} (x : X α) (m : Mach) : Mach :=
  match x m with
  | .ok _ m' => m'
  | .error _ m' => m'

/-- What the work answers, `d` where it stops. -/
def wVal {α : Type} (d : α) (x : X α) (m : Mach) : α :=
  match x m with
  | .ok v _ => v
  | .error _ _ => d

def wOk {α : Type} (x : X α) (m : Mach) : Bool :=
  match x m with
  | .ok _ _ => true
  | .error _ _ => false

theorem wOk_ok {α : Type} {x : X α} {m : Mach} (d : α) (h : wOk x m = true) : x m = .ok (wVal d x m) (wEnd x m) := by
  unfold wOk at h; unfold wVal wEnd; split at h
  · rename_i e; rw [e]
  · cases h

/-- A core that holds line 0, from which the instructions come. -/
def wCode : Core := { Core.init.setWay 0 ⟨0, .s, 0, false, 0, false⟩ with l1i := [(0, ⟨0, 0⟩)] }

/-- Thread 0 runs on core 0 with the registers `a`; the core holds line 0 and the line of address 0x1000, whose first bytes are `b`. -/
def wAt (a : Arch) (b : List Nat) : Mach :=
  { wHome with thr := [(0, { wRun with cur := a, com := a })],
               cores := [(0, wCode.setWay 256 ⟨16, .m, BitVec.ofNat 2048 (ofBytes b * 256 ^ (256 - b.length)), false, 0, false⟩)] }

/-- Registers after reset but for the general registers `g`. -/
def wG (g : Tab W64) : Arch := { Arch.reset with g := g }

/-- The machine after the fetch of an instruction of shape `sh` by thread 0. -/
def wF (m : Mach) (sh : Shape) : Mach := wEnd (fetchWords 0 (m.th 0).cur.ia sh.len) (m.onTh 0 fun t => { t with gotIx := 0 })

theorem wReady {m : Mach} {sh : Shape}
    (h : m.executes 0 = true ∧ (m.th 0).dbg = 0 ∧ (m.th 0).cur.pswF 6 6 = 0 ∧ (m.takeIn 0 sh).isSome = true ∧
      wOk (fetchWords 0 (m.th 0).cur.ia sh.len) (m.onTh 0 fun t => { t with gotIx := 0 }) = true ∧
      ((m.th 0).win = [] ∧ ((wF m sh).th 0).win = [] ∧ ((wF m sh).th 0).ep = none ∧ ((wF m sh).th 0).sbuf.length ≤ 64) ∧
      ((wF m sh).takeIn 0 sh).isSome = true ∧ ((wF m sh).th 0).nowSync = false ∧ ((wF m sh).th 0).cur = (m.th 0).cur ∧ ((wF m sh).th 0).dbg = 0) :
    Ready m 0 sh (wF m sh) := by
  obtain ⟨h1, h2, h3, h4, h5, h6, h7, h8, h9, h10⟩ := h
  exact ⟨h1, h2, h3, h4, wOk_ok () h5, fun _ => h6, h7, h8, h9, h10⟩

theorem wServed {m : Mach} {sh : Shape} {a : Arch}
    (h : (m.th 0).nowSync = false ∧ (m.th 0).dbg = 0 ∧ (m.takeIn 0 sh).isSome = true ∧ (m.th 0).cur = a) : Served m 0 sh a := ⟨h.1, h.2.1, h.2.2.1, h.2.2.2⟩

/-- The two operands of a form W instruction of thread 0, and the loads of its first and second operand. -/
def wOps (o : FW) (n1 n2 : Nat) (wr : Bool) (m : Mach) : List Piece × List Piece := wVal ([], []) (wOperands o n1 n2 wr) m

/-! ### States that the statements about instructions speak of -/

/-- g1 is 7 and g2 is 3. -/
def wSmall : Mach := wAt (wG [(1, 7), (2, 3)]) []

/-- g1 is 0x1000 and g2 is 8; the line of 0x1000 begins with the bytes 0x81 0x82 ... -/
def wLd : Mach := wAt (wG [(1, 0x1000), (2, 8), (4, 0x1122334455667788)]) [0x81, 0x82, 0x83, 0x84, 0x85, 0x86, 0x87, 0x88]

theorem witness_IntegerResults :
    let o : FA := ⟨0, 5, 1, 2⟩
    let a := (wSmall.th 0).cur
    o.wf = true ∧ Word wSmall 0 (wF wSmall (Shape.simple 0)) ∧ a.gr 1 = 7 ∧ a.gr 2 = 3 ∧ a.gr 2 ≠ 0 ∧ (⟨0, 0, 1, 2⟩ : FA).wf = true ∧
      ccSigned ((a.gr 1).toInt + (a.gr 2).toInt) ≠ 3 ∧ ccSigned ((a.gr 1).toInt * (a.gr 2).toInt) ≠ 3 := by
  exact ⟨by decide, wReady (by decide), by decide⟩

theorem witness_ImmediateResults :
    (⟨0, 5, 1, 0xffff⟩ : FI).wf = true ∧ (⟨0, 0, 1, 7⟩ : FI).wf = true ∧ Word wSmall 0 (wF wSmall (Shape.simple 0)) := by
  exact ⟨by decide, by decide, wReady (by decide)⟩

/-- g1 holds an address of 4-byte alignment, as `bgr` takes it. -/
theorem witness_BranchTargets :
    Word wLd 0 (wF wLd (Shape.simple 0)) ∧ ((wLd.th 0).cur.gr 1 + BitVec.ofInt 64 (sx 16 0xfffc)).toNat % 4 = 0 := by
  exact ⟨wReady (by decide), by decide⟩

/-- Loads of 1, 2, 4, 8 and 16 bytes at the address in g1. -/
theorem witness_LoadResults : ∀ n ∈ [1, 2, 4, 8, 16],
    let sh : Shape := memShape 0 n 0x1000
    let m1 := wF wLd sh
    let x := loadN 0 0x1000 n .load false
    (⟨0, 6, 1, 0⟩ : FM).wf = true ∧ (wLd.th 0).cur.gr 1 + BitVec.ofInt 64 (sx 16 0) = 0x1000 ∧ Ready wLd 0 sh m1 ∧
      x m1 = .ok (wVal 0 x m1) (wEnd x m1) ∧ Served (wEnd x m1) 0 sh (wLd.th 0).cur := by
  intro n hn
  simp only [List.mem_cons, List.not_mem_nil, or_false] at hn
  rcases hn with rfl | rfl | rfl | rfl | rfl <;> exact ⟨by decide, by decide, wReady (by decide), wOk_ok 0 (by decide), wServed (by decide)⟩

/-- Stores of 1, 2, 4, 8 and 16 bytes at the address in g1. -/
theorem witness_StoreResults : ∀ n ∈ [1, 2, 4, 8, 16],
    let sh : Shape := memShape 0 n 0x1000
    let m1 := wF wLd sh
    let x := access 0 0x1000 n .store
    (⟨0, 4, 1, 0⟩ : FM).wf = true ∧ Ready wLd 0 sh m1 ∧ x m1 = .ok (wVal [] x m1) (wEnd x m1) ∧ wVal [] x m1 ≠ [] ∧
      Plain (wEnd x m1) 0 (wVal [] x m1) ∧ Served (wEnd x m1) 0 sh (wLd.th 0).cur := by
  intro n hn
  simp only [List.mem_cons, List.not_mem_nil, or_false] at hn
  rcases hn with rfl | rfl | rfl | rfl | rfl <;> exact ⟨by decide, wReady (by decide), wOk_ok [] (by decide), by decide, by unfold Plain; decide, wServed (by decide)⟩

/-- `lb` and `ld`, then `std` and its non-temporal form, of form X, at g1 + 8 * g0. -/
theorem witness_IndexedAndNonTemporal :
    (∀ op ∈ [0x10, 0x13],
      let m1 := wF wLd (memShape 0 (opBytes op) 0x1000)
      let x := loadN 0 0x1000 (opBytes op) .load false
      (⟨0, 6, 1, 0, 3, op⟩ : FX).wf = true ∧ opStores op = false ∧ Ready wLd 0 (memShape 0 (opBytes op) 0x1000) m1 ∧ x m1 = .ok (wVal 0 x m1) (wEnd x m1) ∧
        Served (wEnd x m1) 0 (memShape 0 (opBytes op) 0x1000) (wLd.th 0).cur) ∧
    (let m1 := wF wLd (memShape 0 (opBytes 0x1B) 0x1000)
     let x := access 0 0x1000 (opBytes 0x1B) .store
     (⟨0, 4, 1, 0, 3, 0x5B⟩ : FX).wf = true ∧ opStores 0x1B = true ∧ Ready wLd 0 (memShape 0 (opBytes 0x1B) 0x1000) m1 ∧ x m1 = .ok (wVal [] x m1) (wEnd x m1) ∧
       Plain (wEnd x m1) 0 (wVal [] x m1) ∧ Served (wEnd x m1) 0 (memShape 0 (opBytes 0x1B) 0x1000) (wLd.th 0).cur) := by
  refine ⟨?_, by decide, by decide, wReady (by decide), wOk_ok [] (by decide), by unfold Plain; decide, wServed (by decide)⟩
  intro op hop
  simp only [List.mem_cons, List.not_mem_nil, or_false] at hop
  rcases hop with rfl | rfl <;> exact ⟨by decide, by decide, wReady (by decide), wOk_ok 0 (by decide), wServed (by decide)⟩

/-- The special registers of `mtsr`, one of each clause, at level F. -/
theorem witness_SpecialRegisterMoves :
    (∀ sr ∈ [0, 8, 0x10, 0x14, 0x18, 0x40, 0x41, 0x52, 0x63, 0x44, 0x55, 0x66], (⟨0, 0, 1, sr⟩ : FS).wf = true ∧
      ∃ l, srLevel sr = some l ∧ l ≤ (wSmall.th 0).cur.pl) ∧
    pswDenied 3 (wSmall.th 0).cur.psw 7 = false ∧ (⟨0, 5, 0, 0x40⟩ : FS).wf = true ∧
    Word wSmall 0 (wF wSmall (Shape.simple 0)) ∧ WordAlone wSmall 0 (wF wSmall (Shape.alone_ 0)) := by
  refine ⟨?_, by decide, by decide, wReady (by decide), wReady (by decide)⟩
  intro sr h
  simp only [List.mem_cons, List.not_mem_nil, or_false] at h
  rcases h with rfl | rfl | rfl | rfl | rfl | rfl | rfl | rfl | rfl | rfl | rfl | rfl <;> exact ⟨by decide, _, rfl, by decide⟩

theorem witness_CallsTakeTheirTrap :
    (⟨0, 0, 0, 1023⟩ : FS).wf = true ∧ WordAlone wSmall 0 (wF wSmall (Shape.alone_ 0)) ∧ Clear (wF wSmall (Shape.alone_ 0)) 0 ∧
      Word wSmall 0 (wF wSmall (Shape.simple 0)) ∧ 2 ≤ (wSmall.th 0).cur.pl := by
  exact ⟨by decide, wReady (by decide), by unfold Clear; decide, wReady (by decide), by decide⟩

/-- `rfi` to level S at 0x2000 from level F, the fences, and `wait` with nothing to deliver. -/
theorem witness_ReturnAndFences :
    let a : Arch := { wG [] with spsw := [(3, 0x21)], sia := [(3, 0x2000)], psw := 0x23 }
    let m := wAt a []
    (⟨0, 0, 0, 0⟩ : FS).wf = true ∧ WordAlone m 0 (wF m (Shape.alone_ 0)) ∧ a.pl = 3 ∧ 0x21 % 4 ≤ a.pl ∧ Word m 0 (wF m (Shape.simple 0)) ∧
      m.modeM5 = false ∧ Ready m 0 (Shape.sync_ 0) (wF m (Shape.sync_ 0)) ∧ ((wF m (Shape.sync_ 0)).core 0).comb = [] ∧
      (wF m (Shape.sync_ 0)).storesDone 0 = true ∧ a.pswF 5 5 = 1 ∧ (wF m (Shape.alone_ 0)).deliverable 0 = false ∧
      (let m5 := m.set R.mode_cur_cur 5
       m5.modeM5 = true ∧ (wF m5 (Shape.simple 0)).modeM5 = true ∧ Word m5 0 (wF m5 (Shape.simple 0))) ∧
      (let w := wAt { a with psw := 0x23 } []
       let p : Mach := w.onTh 0 fun t => { t with pendPhys := true }
       (wF p (Shape.alone_ 0)).deliverable 0 = true ∧ WordAlone p 0 (wF p (Shape.alone_ 0))) ∧
      (wAt (wG []) []).th 0 = { wRun with cur := wG [], com := wG [] } ∧ WordAlone (wAt (wG []) []) 0 (wF (wAt (wG []) []) (Shape.alone_ 0)) ∧
        (wG []).pswF 5 5 = 0 := by
  refine ⟨by decide, wReady (by decide), by decide, by decide, wReady (by decide), by decide, wReady (by decide), by decide, by decide, by decide, by decide,
    ⟨by decide, by decide, wReady (by decide)⟩, ⟨by decide, wReady (by decide)⟩, by decide, wReady (by decide), by decide⟩

/-- f1 is 1.5 and f2 is 0.25, in both formats; no exception is enabled. -/
theorem witness_FloatResults :
    let a : Arch := { wG [(1, 5)] with f := [(1, 0x3FF8000000000000), (2, 0x3FD0000000000000)] }
    let b : Arch := { wG [(1, 5)] with f := [(1, 0x3FC00000), (2, 0x3E800000)] }
    (⟨0, 3, 1, 2⟩ : FA).wf = true ∧ (⟨0, 3, 1, 0⟩ : FA).wf = true ∧ (⟨0, 0, 1, 2⟩ : FA).wf = true ∧ (⟨0, 3, 0, 0⟩ : FA).wf = true ∧
      Word (wAt a []) 0 (wF (wAt a []) (Shape.simple 0)) ∧ Word (wAt b []) 0 (wF (wAt b []) (Shape.simple 0)) ∧
      WordAlone (wAt a []) 0 (wF (wAt a []) (Shape.alone_ 0)) ∧
      (f64.addV 0 false (a.fop false 1) (a.fop false 2)).2 &&& (a.fpsr.toNat >>> 8) &&& 31 = 0 ∧
      (f32.divV 0 false (b.fop true 1) (b.fop true 2)).2 &&& (b.fpsr.toNat >>> 8) &&& 31 = 0 := by
  exact ⟨by decide, by decide, by decide, by decide, wReady (by decide), wReady (by decide), wReady (by decide), by decide, by decide⟩

/-- The atomics on the line that the core holds in M: 8 bytes for `lres`, `scond` and `cas8`, 16 for `cas16`; equal and unequal comparands. -/
theorem witness_AtomicResults : ∀ k ∈ [(8, 1, Acc.load, LineUse.load 0x1000 0x1000), (8, 1, Acc.rmw, .l2 0x1000), (16, 2, Acc.rmw, .l2 0x1000)],
    let a : Arch := { wG [(1, 0x1000), (4, 0x8182838485868788), (6, 0x8182838485868788), (8, 5)] with resv := some 16 }
    let m := wAt a [0x81, 0x82, 0x83, 0x84, 0x85, 0x86, 0x87, 0x88]
    let m1 := wF m (Shape.atomic 0 k.2.1)
    let x := access 0 0x1000 k.1 k.2.2.1
    let m2 := wEnd x m1
    let p : Piece := (wVal [] x m1).getD 0 ⟨0, 0, 0, ⟨0, false, false, false⟩, 0⟩
    let y := useBy k.2.2.2 0 16 true .demand
    let w := wVal ⟨0, .s, 0, false, 0, false⟩ y m2
    let m3 := wEnd y m2
    Ready m 0 (Shape.atomic 0 k.2.1) m1 ∧ x m1 = .ok (wVal [] x m1) m2 ∧ wVal [] x m1 = [p] ∧ (p.xl.nc || m2.uncached p.pa) = false ∧ p.pa / 256 = 16 ∧
      y m2 = .ok w m3 ∧ Served m3 0 (Shape.atomic 0 k.2.1) a ∧ (m3.th 0).win = [] ∧ (m3.th 0).ep = none ∧ (m3.th 0).sbuf.length ≤ 64 ∧
      m2.storesDone 0 = true ∧ a.resv = some 16 ∧ lineGet w.data (p.pa % 256) 8 = (a.gr 4).toNat ∧ lineGet w.data (p.pa % 256) 8 ≠ (a.gr 8).toNat ∧
      lineGet w.data (p.pa % 256) 16 = (a.gr 6).toNat * 2 ^ 64 + (a.gr 7).toNat ∧ (wG []).resv ≠ some 16 := by
  intro k hk
  simp only [List.mem_cons, List.not_mem_nil, or_false] at hk
  rcases hk with rfl | rfl | rfl <;>
    exact ⟨wReady (by decide), wOk_ok [] (by decide), by decide, by decide, by decide, wOk_ok _ (by decide), wServed (by decide), by decide +kernel⟩

/-- g1 is 0x1000, whose bytes are packed 12, 3 and zoned 45; the operands of a decimal instruction are at displacements 0, 3 and 4. -/
def wDec : Mach := wAt (wG [(1, 0x1000)]) [0x00, 0x01, 0x2C, 0x3C, 0xF4, 0xC5]

/-- The two operands as `dadd`, `dsub`, `dmul`, `ddiv` and `dcmp` take them, 3 bytes and 1 byte; the one that `dset` and `zdec` take. -/
theorem witness_DecimalResults :
    let o : FW := ⟨0, 3 * 32 + 1, 1, 0, 1, 3⟩
    let z : FW := ⟨0, 3 * 32 + 2, 1, 0, 1, 4⟩
    let m1 := wF wDec (Shape.wform 0)
    let a := (wDec.th 0).cur
    Ready wDec 0 (Shape.wform 0) m1 ∧
    (∀ wr ∈ [true, false],
      let op := wOperands o 3 1 wr
      let p := wVal ([], []) op m1
      let l1 := loadAll 0 false p.1
      let m3 := wEnd l1 (wEnd op m1)
      let l2 := loadAll 0 false p.2
      o.wf = true ∧ op m1 = .ok p (wEnd op m1) ∧ l1 (wEnd op m1) = .ok (wVal 0 l1 (wEnd op m1)) m3 ∧ l2 m3 = .ok (wVal 0 l2 m3) (wEnd l2 m3) ∧
        Plain (wEnd l2 m3) 0 p.1 ∧ Served (wEnd l2 m3) 0 (Shape.wform 0) a ∧
        unpack (toBytes 3 (wVal 0 l1 (wEnd op m1))) = some 12 ∧ unpack (toBytes 1 (wVal 0 l2 m3)) = some 3 ∧
        decOvf (12 + 3) 5 = false ∧ decOvf (Int.tdiv 12 3) 3 = false) ∧
    (let op := wOperands z 3 2 true
     let p := wVal ([], []) op m1
     let l2 := loadAll 0 false p.2
     let m4 := wEnd l2 (wEnd op m1)
     z.wf = true ∧ op m1 = .ok p (wEnd op m1) ∧ l2 (wEnd op m1) = .ok (wVal 0 l2 (wEnd op m1)) m4 ∧ Plain m4 0 p.1 ∧ Served m4 0 (Shape.wform 0) a ∧
       unzone (toBytes 2 (wVal 0 l2 (wEnd op m1))) = some 45) := by
  refine ⟨wReady (by decide), ?_, by decide, wOk_ok _ (by decide), wOk_ok _ (by decide), by unfold Plain; decide, wServed (by decide), by decide +kernel⟩
  intro wr h
  simp only [List.mem_cons, List.not_mem_nil, or_false] at h
  rcases h with rfl | rfl <;>
    exact ⟨by decide, wOk_ok _ (by decide), wOk_ok _ (by decide), wOk_ok _ (by decide), by unfold Plain; decide, wServed (by decide), by decide +kernel⟩

/-- Form W strings of 4 bytes, with a table of 256 bytes for `bmap`; the interruptible ones with lengths 4 and 4, and for `lmap` 4 and 0. -/
def wStr : Mach := wAt (wG [(1, 0x1000), (2, 0x1000), (3, 0x1008), (4, 0x400000004), (5, 0x400000000)]) [1, 2, 3, 4, 0, 0, 0, 0, 1, 2, 9, 4]

theorem witness_ByteStringResults :
    (∀ k ∈ [(4, true), (4, false), (256, true), (1, true)],
      let o : FW := ⟨0, 4, 1, 0, 1, if k.1 = 256 then 0 else 8⟩
      let m1 := wF wStr (Shape.wform 0)
      let op := wOperands o 4 k.1 k.2
      let p := wVal ([], []) op m1
      let l1 := loadAll 0 false p.1
      let m3 := wEnd l1 (wEnd op m1)
      let l2 := loadAll 0 false p.2
      o.wf = true ∧ Ready wStr 0 (Shape.wform 0) m1 ∧ op m1 = .ok p (wEnd op m1) ∧ l1 (wEnd op m1) = .ok (wVal 0 l1 (wEnd op m1)) m3 ∧
        l2 m3 = .ok (wVal 0 l2 m3) (wEnd l2 m3) ∧ Plain (wEnd l2 m3) 0 p.1 ∧ Served (wEnd l2 m3) 0 (Shape.wform 0) (wStr.th 0).cur ∧
        l2 (wEnd op m1) = .ok (wVal 0 l2 (wEnd op m1)) (wEnd l2 (wEnd op m1))) ∧
    (∀ k ∈ [(Acc.rmw, (0x1008 : W64), 4), (Acc.load, 0x1008, 4), (Acc.rmw, 0x1000, 256)],
      let sh : Shape := Shape.string 0
      let m1 := wF wStr sh
      let s1 := strAccess 0 k.2.1 4 k.1
      let m2 := wEnd s1 m1
      let s2 := strAccess 0 0x1000 k.2.2 .load
      let m3 := wEnd s2 m2
      let l1 := loadAll 0 false (wVal [] s1 m1)
      let l2 := loadAll 0 false (wVal [] s2 m2)
      Ready wStr 0 sh m1 ∧ s1 m1 = .ok (wVal [] s1 m1) m2 ∧ s2 m2 = .ok (wVal [] s2 m2) m3 ∧ l1 m3 = .ok (wVal 0 l1 m3) (wEnd l1 m3) ∧
        l2 (wEnd l1 m3) = .ok (wVal 0 l2 (wEnd l1 m3)) (wEnd l2 (wEnd l1 m3)) ∧ Plain (wEnd l2 (wEnd l1 m3)) 0 (wVal [] s1 m1) ∧
        Served (wEnd l2 (wEnd l1 m3)) 0 sh (wStr.th 0).cur ∧
        l2 m3 = .ok (wVal 0 l2 m3) (wEnd l2 m3) ∧ Plain (wEnd l2 m3) 0 (wVal [] s1 m1) ∧ Served (wEnd l2 m3) 0 sh (wStr.th 0).cur) ∧
    ((⟨0, 3, 2, 4⟩ : FA).wf = true ∧ (⟨0, 2, 1, 5⟩ : FA).wf = true ∧ firstDiff [1, 2, 3, 4] [1, 2, 9, 4] = some 2 ∧ firstDiff [1, 2] [1, 2] = none) := by
  refine ⟨?_, ?_, by decide⟩
  · intro k h
    simp only [List.mem_cons, List.not_mem_nil, or_false] at h
    rcases h with rfl | rfl | rfl | rfl <;>
      exact ⟨by decide, wReady (by decide), wOk_ok _ (by decide), wOk_ok _ (by decide), wOk_ok _ (by decide), by unfold Plain; decide, wServed (by decide),
        wOk_ok _ (by decide)⟩
  · intro k h
    simp only [List.mem_cons, List.not_mem_nil, or_false] at h
    rcases h with rfl | rfl | rfl <;>
      exact ⟨wReady (by decide), wOk_ok _ (by decide), wOk_ok _ (by decide), wOk_ok _ (by decide), wOk_ok _ (by decide), by unfold Plain; decide,
        wServed (by decide), wOk_ok _ (by decide), by unfold Plain; decide, wServed (by decide)⟩

/-- A thread at level F for the translation commands, with a removal of its own that is not acknowledged and without one. -/
theorem witness_TranslationRegistersAndTlb :
    let o : FS := ⟨0, 0, 1, 1⟩
    let m := wAt (wG [(1, 0x5001)]) []
    let m1 := wF m (Shape.micro_ 0)
    let p := m.onTh 0 fun t => { t with removals := [⟨0, 0x14, 0, 0, 64, [1]⟩] }
    let w := (wAt (wG []) []).onTh 0 fun t => { t with wait := .tlbsync }
    let w1 := wF (w.onTh 0 fun t => { t with wait := .none }) (Shape.micro_ 0)
    o.wf = true ∧ (⟨0, 0, 0, 0⟩ : FS).wf = true ∧ (⟨0, 5, 0, 2⟩ : FS).wf = true ∧ Ready m 0 (Shape.micro_ 0) m1 ∧
      m1.acceptsLv (0x5001 % 4) = true ∧ (m.th 0).cur.pl = 3 ∧ (m1.th 0).removals = [] ∧
      Ready p 0 (Shape.micro_ 0) (wF p (Shape.micro_ 0)) ∧ ((wF p (Shape.micro_ 0)).th 0).removals ≠ [] ∧
      w.frozen = false ∧ (w.th 0).wait = .tlbsync ∧ (w.th 0).removals = [] ∧ (w1.th 0).removals = [] ∧
      Ready (w.onTh 0 fun t => { t with wait := .none }) 0 (Shape.micro_ 0) w1 := by
  exact ⟨by decide, by decide, by decide, wReady (by decide), by decide, by decide, by decide, wReady (by decide), by decide, by decide, by decide,
    by decide, by decide, wReady (by decide)⟩

/-- A physical interruption with interruptions enabled, a machine check with and without another one being handled, and a wait that ends. -/
theorem witness_InterruptionsTaken :
    let a : Arch := { wG [] with psw := 0x23 }
    let x := (wAt a []).onTh 0 fun t => { t with pendPhys := true }
    let c := (wAt a []).onTh 0 fun t => { t with pendMck := some (27, false) }
    let d := (wAt { a with psw := 0xA3 } []).onTh 0 fun t => { t with pendMck := some (27, false) }
    let w := x.onTh 0 fun t => { t with wait := .waitInsn }
    let w0 := (w.onTh 0 fun t => { t with wait := .none }).vpState 0 3
    x.interruptible 0 = true ∧ Clear x 0 ∧ (x.th 0).dbg = 0 ∧ (x.pendingExt 0).isSome = true ∧
      c.interruptible 0 = true ∧ Clear c 0 ∧ (c.th 0).dbg = 0 ∧ (c.th 0).cur.psw.toNat / 128 % 2 = 0 ∧
      d.interruptible 0 = true ∧ Clear d 0 ∧ (d.th 0).dbg = 0 ∧ (d.th 0).cur.psw.toNat / 128 % 2 = 1 ∧
      w.frozen = false ∧ (w.th 0).wait = .waitInsn ∧ (w.th 0).dbg = 0 ∧ w.deliverable 0 = true ∧ 1 ≤ (w.th 0).cur.pl ∧
      (w.th 0).cur.psw.toNat / 32 % 2 = 1 ∧ (wF w0 (Shape.alone_ 0)).deliverable 0 = true ∧ Ready w0 0 (Shape.alone_ 0) (wF w0 (Shape.alone_ 0)) := by
  unfold Clear
  exact ⟨by decide, by decide, by decide, by decide, by decide, by decide, by decide, by decide, by decide, by decide, by decide, by decide,
    by decide, by decide, by decide, by decide, by decide, by decide, by decide, wReady (by decide)⟩

/-- Overflow and its trap, division by zero, and the corner of the most negative number by -1. -/
theorem witness_IntegerOverflow :
    let o : FA := ⟨0, 5, 1, 2⟩
    let big := wAt (wG [(1, 0x7fffffffffffffff), (2, 1)]) []
    let trap := wAt { wG [(1, 0x7fffffffffffffff), (2, 1)] with psw := 0x20000003 } []
    let zero := wAt (wG [(1, 5)]) []
    let corner := wAt (wG [(1, 0x8000000000000000), (2, 0xffffffffffffffff)]) []
    o.wf = true ∧ (Word big 0 (wF big (Shape.simple 0)) ∧ Clear (wF big (Shape.simple 0)) 0 ∧ (big.th 0).cur.pswF 29 29 = 0) ∧
      (Word trap 0 (wF trap (Shape.simple 0)) ∧ Clear (wF trap (Shape.simple 0)) 0 ∧ (trap.th 0).cur.pswF 29 29 = 1) ∧
      (Word zero 0 (wF zero (Shape.simple 0)) ∧ Clear (wF zero (Shape.simple 0)) 0 ∧ (zero.th 0).cur.gr 2 = 0) ∧
      (Word corner 0 (wF corner (Shape.simple 0)) ∧ Clear (wF corner (Shape.simple 0)) 0 ∧ (corner.th 0).cur.gr 1 = 0x8000000000000000 ∧
        (corner.th 0).cur.gr 2 = 0xffffffffffffffff) ∧ ((2 : Int) ^ 63 ≤ 0x7fffffffffffffff + 1) := by
  unfold Clear
  exact ⟨by decide, ⟨wReady (by decide), by decide⟩, ⟨wReady (by decide), by decide⟩, ⟨wReady (by decide), by decide⟩, ⟨wReady (by decide), by decide⟩,
    by decide⟩

/-- Shift amounts of 67, which shifts by 3, and of 64, which copies. -/
theorem witness_ShiftAmounts :
    let m := wAt (wG [(1, 9), (2, 67), (3, 64)]) []
    (⟨0, 5, 1, 2⟩ : FA).wf = true ∧ (⟨0, 5, 1, 3⟩ : FA).wf = true ∧ Word m 0 (wF m (Shape.simple 0)) ∧
      ((m.th 0).cur.gr 2).toNat % 64 = 3 ∧ ((m.th 0).cur.gr 3).toNat % 64 = 0 := by
  exact ⟨by decide, by decide, wReady (by decide), by decide, by decide⟩

/-- One field of each class. -/
theorem witness_AccessClasses :
    ∀ c ∈ [Cls.rw, .cnt, .ro, .wo, .w1c, .w1s, .rsl], ∃ f : FDesc, f.cls = c ∧ f.lo ≤ f.hi ∧ f.hi < 64 ∧ f.lim = none := by
  intro c _
  exact ⟨⟨7, 4, c, 0, none⟩, rfl, by simp, by simp, rfl⟩

/-- A memory of two bytes in canonical form, and one that is not. -/
theorem witness_MemoryCells : Memory.wf [(3, 7), (9, 1)] = true ∧ Memory.wf [(9, 1), (3, 7)] = false ∧ Memory.wf [(3, 0)] = false := by decide

/-- A command that a checkstopped module ignores. -/
theorem witness_CheckstopHolds :
    let s : State := ⟨[], { Mach.reset with frozen := true }⟩
    s.m.frozen = true ∧ actsFrozen .drainTimeout = false ∧ exec .drainTimeout s = .next s := by
  exact ⟨rfl, rfl, rfl⟩

/-- A queue of two well-formed commands, and an ill-formed one that `queueOk` turns away. -/
theorem witness_QueueStaysGood :
    queueOk ⟨[.pllLock, .add ⟨0, 1, 2, 3⟩], Mach.reset⟩ = true ∧ queueOk State.reset = true ∧ queueOk ⟨[.add ⟨96, 1, 2, 3⟩], Mach.reset⟩ = false := by
  decide

/-- A well-formed command. -/
theorem witness_EveryCommandCompletes : (Instr.odRead 0x2000 0 0 8191).wf = true := by decide

/-- A thread outside an enclave whose monitor does not run; one inside enclave 3; one at level H that may enter it, as its context is `c`. -/
def wGo (c : CtxSt) : Mach :=
  let m := wAt { wG [(1, 3)] with psw := 0x12, ttrh := 0x3 } []
  let m := m.onCore 0 fun k => { k with tlb := [⟨1, false, 0, 0, false, false, 0, 1, 0, 0, 0x195, 0, 1, 0⟩] }
  { m.set R.grotto_stat_state 2 with grotto := { m.grotto with encl := [(3, { wEncl 2 with ctxs := [(0, (c, SaveFrame.init))] })] } }

def wIn : Mach :=
  let m := (wAt { wG [] with psw := 0x17 } []).onTh 0 fun t => { t with encl := some ⟨3, 0, 0x4000, 5, 3, false, false⟩ }
  { m with cores := [(0, { wCode.setWay 1 ⟨0x180000, .s, 0, false, 0, false⟩ with l1i := [(1, ⟨0x180000, 0⟩)] })]
           grotto := { m.grotto with encl := [(3, wEncl 2)] } }

theorem witness_GrottoInstructions :
    let sy := Shape.micro_ 0
    (⟨0, 0, 0, 0⟩ : FS).wf = true ∧ (⟨0, 5, 1, 0⟩ : FS).wf = true ∧
    (Ready wSmall 0 sy (wF wSmall sy) ∧ (wSmall.th 0).cur.pswF 2 2 = 0 ∧ (wF wSmall sy).get R.grotto_stat_state ≠ 2) ∧
    (Ready wIn 0 sy (wF wIn sy) ∧ (wIn.th 0).cur.pswF 2 2 = 1 ∧ ((wF wIn sy).th 0).encl = some ⟨3, 0, 0x4000, 5, 3, false, false⟩) ∧
    (∀ c ∈ [CtxSt.idle, .suspended],
      let m := wGo c
      let a := (m.th 0).cur
      let m1 := wF m sy
      Ready m 0 sy m1 ∧ a.pswF 2 2 = 0 ∧ m1.get R.grotto_stat_state = 2 ∧ (m1.th 0).link = none ∧ bits (a.gr 1).toNat 11 0 = 3 ∧
        bits (a.gr 1).toNat 19 16 = 0 ∧ (m1.enclave 3).st = 2 ∧ 0 < (m1.enclave 3).nctx ∧ (m1.enclave 3).ctx 0 = (c, SaveFrame.init) ∧ a.pl < 3 ∧
        a.pswF 4 4 = 1 ∧ canonical (m1.enclave 3).vbase (vaBits 5) = true ∧
        canonical ((m1.enclave 3).vbase + (m1.enclave 3).size - 1) (vaBits 5) = true ∧ lvDepth (bits a.ttrh.toNat 1 0) = 5) := by
  refine ⟨by decide, by decide, ⟨wReady (by decide), by decide⟩, ⟨wReady (by decide), by decide⟩, ?_⟩
  intro c h
  simp only [List.mem_cons, List.not_mem_nil, or_false] at h
  rcases h with rfl | rfl <;> exact ⟨wReady (by decide), by decide⟩

/-! ### States that the statements about the other commands speak of -/

/-- For each command of `Obligations.ControlSpaceAccess` a machine and operands that meet all its hypotheses. -/
theorem witness_ControlSpaceAccess :
    (let m : Mach := Mach.reset; let off : Nat := 0x310000; let part : Nat := 0; let val : Nat := 0x123456789; let b : Blk := .weir;
      let d : RDesc := ((regAt .weir 0x310000).getD (RT.id_part, [])).1; let ix : List Nat := [];
      (.mcsRegisterWrite off part val : Instr).wf = true ∧ m.frozen = false ∧ off % 8 = 0 ∧ ((b = .id ∧ off < 0x10000) ∨ (b = .weir ∧
      0x310000 ≤ off ∧ off < 0x400000)) ∧ regAt b off = some (d, ix) ∧ (m.sealed && d.hitsRsl (partMask part)) = false) ∧
    (let m : Mach := Mach.reset; let off : Nat := 0x40; (.mcsReservedAccess off true : Instr).wf = true ∧ m.frozen = false ∧
      ¬ (0x100000 ≤ off / 8 * 8 ∧ off / 8 * 8 < 0x1f0000) ∧ ((blkOf (off / 8 * 8)).bind fun b => regAt b (off / 8 * 8)) = none) ∧
    (let m : Mach := Mach.reset; let off : Nat := 0x40; (.mcsReservedAccess off false : Instr).wf = true ∧ True) ∧
    (let m : Mach := Mach.reset; let who : Nat := 1; let port : Nat := 0; let rid : Nat := 0; let tag : Nat := 0; let off : Nat := 8;
      let wr : Bool := true; (.inboundMcsAccess who port rid tag off wr : Instr).wf = true ∧ m.frozen = false ∧ who ≠ 0 ∧ ¬ (wr = true ∧
      0x100000 ≤ off ∧ off < 0x200000)) ∧
    (let m : Mach := Mach.reset.sets [(R.chan_jl_ctl_pers 3, 2), (R.pcie_p_stat_state 3, 2)]; let port : Nat := 3; let rid : Nat := 256;
      let tag : Nat := 7; let off : Nat := 8; let wr : Bool := false; (.inboundMcsAccess 0 port rid tag off wr : Instr).wf = true ∧
      m.frozen = false ∧ m.isRoot port = true ∧ m.pcieUp port = true ∧ m.blkDown (80 + port) = false ∧ ¬ (wr = true ∧ 0x100000 ≤ off ∧
      off < 0x200000)) :=
  ⟨by decide, by decide, by decide, by decide, by decide⟩

/-- For each command of `Obligations.ModeChanges` a machine and operands that meet all its hypotheses. -/
theorem witness_ModeChanges :
    (let m : Mach := Mach.reset.set R.mode_cur_cur 1; let val : Nat := 0x151; (.modeRequest val : Instr).wf = true ∧ m.frozen = false ∧
      bit val 8 = true ∧ bit val 9 = false ∧
      ((m.set R.mode_req_cause (bits val 6 4)).set R.mode_req_target (bits val 2 0)).reqCheck (bits val 2 0) (bits val 6 4) ≠ 0) ∧
    (let m : Mach := Mach.reset.set R.mode_cur_cur 1; let val : Nat := 0x112; (.modeRequest val : Instr).wf = true ∧ m.frozen = false ∧
      bit val 8 = true ∧ bit val 9 = false ∧
      ((m.set R.mode_req_cause (bits val 6 4)).set R.mode_req_target (bits val 2 0)).reqCheck (bits val 2 0) (bits val 6 4) = 0 ∧
      ((m.set R.mode_req_cause (bits val 6 4)).set R.mode_req_target (bits val 2 0)).isDomain (bits val 2 0) (bits val 6 4) = false) ∧
    (let m : Mach := { Mach.reset with mode := { Mach.reset.mode with stage := 1 } }; let val : Nat := 0x12; (.modeCancel val : Instr).wf = true ∧
      m.frozen = false ∧ bit val 8 = false ∧ m.sl.quiesce = none ∧ m.mode.stage = 1) ∧
    (let m : Mach := Mach.reset; let val : Nat := 0x12; (.modeCancel val : Instr).wf = true ∧ m.frozen = false ∧ bit val 8 = false ∧
      m.sl.quiesce = none ∧ m.mode.stage ≠ 1) ∧
    (let m : Mach := { Mach.reset with mode := { Mach.reset.mode with stage := 1 } }; (.epochDrainStep2 : Instr).wf = true ∧ m.frozen = false ∧
      m.mode.stage = 1 ∧ m.step1Over = true) ∧
    (let m : Mach := { Mach.reset with mode := { Mach.reset.mode with stage := 2 } }; (.epochDrainStep3 : Instr).wf = true ∧ m.frozen = false ∧
      m.mode.stage = 2 ∧ m.step2Over = true) ∧
    (let m : Mach := { Mach.reset with mode := { Mach.reset.mode with stage := 3 } }; (.epochDrainStep4 : Instr).wf = true ∧ m.frozen = false ∧
      m.mode.stage = 3 ∧ m.step3Over = true) ∧
    (let m : Mach := { Mach.reset with mode := { Mach.reset.mode with stage := 4 } }; (.epochDrainStep5 : Instr).wf = true ∧ m.frozen = false ∧
      m.mode.stage = 4) ∧
    (let m : Mach := ({ Mach.reset with mode := { Mach.reset.mode with stage := 5, cause := 1, target := 2 } } : Mach).set R.mode_cur_cur 1;
      let u : Nat := 60; (.epochBoundary u : Instr).wf = true ∧ m.frozen = false ∧ m.mode.dom = false ∧ m.drainOver = true ∧ m.mode.cause = 1) ∧
    (let m : Mach := ({ Mach.reset with mode := { Mach.reset.mode with stage := 5, cause := 3, target := 1 } } : Mach).set R.mode_cur_cur 1;
      let u : Nat := 60; (.epochBoundary u : Instr).wf = true ∧ m.frozen = false ∧ m.mode.dom = false ∧ m.drainOver = true ∧ m.mode.cause ≠ 1) ∧
    (let m : Mach := { Mach.reset with mode := { Mach.reset.mode with stage := 3 } }; (.drainTimeout : Instr).wf = true ∧ m.frozen = false ∧
      m.mode.stage ≠ 0 ∧ m.sl.quiesce = none) ∧
    (let m : Mach := Mach.reset.set R.mode_cur_cur 1; (.concurrentRepairButton true : Instr).wf = true ∧ m.frozen = false ∧
      ((m.set R.mode_ind_crb 1).modeRequest (if m.mode_ = 6 then m.get R.mode_cur_base else 6) 1).2 = 0) ∧
    (let m : Mach := { Mach.reset with frozen := true }; (.concurrentRepairButton true : Instr).wf = true ∧ m.frozen = true) ∧
    (let m : Mach := Mach.reset.set R.mode_ind_crb 1; (.concurrentRepairButton false : Instr).wf = true ∧ True) ∧
    (let m : Mach := { Mach.reset with mode := { Mach.reset.mode with press := true } }; (.faultIndicatorTimeout : Instr).wf = true ∧ True) :=
  ⟨by decide, by decide, by decide, by decide, by decide, by decide, by decide, by decide, by decide, by decide, by decide, by decide, by decide,
    by decide, by decide⟩

/-- For each command of `Obligations.SluiceRing` a machine and operands that meet all its hypotheses. -/
theorem witness_SluiceRing :
    (let m : Mach := Mach.reset.sets [(R.id_place_dsize, 2), (R.id_place_module, 1)]; let ring : Nat := 0; let num : Nat := 5; let orig : Nat := 0;
      let vote : Nat := 1; let pay : Nat := 0x12; (.qreq ring num orig vote pay : Instr).wf = true ∧ m.frozen = false ∧ m.sluiceUsed = true ∧
      orig ≠ m.modNo ∧ m.sl.quiesce = none) ∧
    (let m : Mach := ({ Mach.reset.sets [(R.id_place_dsize, 2), (R.id_place_module, 1)] with sl := { Mach.reset.sl with quiesce := some ⟨0, 1, 2, 1, none⟩ } } : Mach);
      let ring : Nat := 0; let num : Nat := 5; let orig : Nat := 0; let vote : Nat := 1; let pay : Nat := 0x12;
      let q : Quiesce := ⟨0, 1, 2, 1, none⟩; (.qdrain ring num orig vote pay : Instr).wf = true ∧ m.frozen = false ∧ m.sluiceUsed = true ∧
      orig ≠ m.modNo ∧ m.sl.quiesce = some q ∧ q.orig = orig ∧ q.phase = 1 ∧ m.mode.stage = 0) ∧
    (let m : Mach := Mach.reset.sets [(R.id_place_dsize, 2), (R.id_place_module, 1)]; let ring : Nat := 1; let num : Nat := 5; let orig : Nat := 0;
      let vote : Nat := 1; let pay : Nat := 0x12; (.qpoll ring num orig vote pay : Instr).wf = true ∧ m.frozen = false ∧ m.sluiceUsed = true ∧
      orig ≠ m.modNo) ∧
    (let m : Mach := ({ Mach.reset.sets [(R.id_place_dsize, 2), (R.id_place_module, 1)] with sl := { Mach.reset.sl with quiesce := some ⟨0, 1, 2, 1, none⟩ } } : Mach);
      let ring : Nat := 0; let num : Nat := 5; let orig : Nat := 0; let vote : Nat := 0; let pay : Nat := 0x15;
      let q : Quiesce := ⟨0, 1, 2, 1, none⟩; (.qcommit ring num orig vote pay : Instr).wf = true ∧ m.frozen = false ∧ m.sluiceUsed = true ∧
      orig ≠ m.modNo ∧ m.sl.quiesce = some q ∧ q.orig = orig) ∧
    (let m : Mach := ({ ({ Mach.reset.sets [(R.id_place_dsize, 2), (R.id_place_module, 1)] with sl := { Mach.reset.sl with quiesce := some ⟨0, 1, 2, 1, none⟩ } } : Mach) with mode := { Mach.reset.mode with stage := 2, dom := true } } : Mach);
      let ring : Nat := 0; let num : Nat := 5; let orig : Nat := 0; let vote : Nat := 0; let pay : Nat := 0x12;
      let q : Quiesce := ⟨0, 1, 2, 1, none⟩; (.qabort ring num orig vote pay : Instr).wf = true ∧ m.frozen = false ∧ m.sluiceUsed = true ∧
      orig ≠ m.modNo ∧ m.sl.quiesce = some q ∧ q.orig = orig ∧ m.mode.dom = true) ∧
    (let m : Mach := ({ Mach.reset.sets [(R.id_place_dsize, 2), (R.id_place_module, 1)] with sl := { Mach.reset.sl with quiesce := some ⟨0, 4, 2, 1, some 9⟩ }, mode := { Mach.reset.mode with stage := 5, cause := 1, target := 2 } } : Mach);
      let u : Nat := 50; let q : Quiesce := ⟨0, 4, 2, 1, some 9⟩; (.quiesceBoundarySlot u : Instr).wf = true ∧ m.frozen = false ∧
      m.sl.quiesce = some q ∧ q.slot.isSome = true ∧ m.mode.stage = 5) ∧
    (let m : Mach := ({ Mach.reset.sets [(R.id_place_dsize, 2)] with boot := { Mach.reset.boot with phase := 5 } } : Mach);
      (.sluiceSlotOriginate : Instr).wf = true ∧ m.frozen = false ∧ m.sluiceUsed = true ∧ m.modNo = 0 ∧ 3 ≤ m.boot.phase ∧ m.tod / 8 % 32 = 0) ∧
    (let m : Mach := Mach.reset.sets [(R.id_place_dsize, 2), (R.id_place_module, 1)]; let ring : Nat := 0; let w : Nat := 77;
      (.sluiceSlotForward ring w : Instr).wf = true ∧ m.frozen = false ∧ m.sluiceUsed = true ∧ bits w 79 76 ≠ 10) ∧
    (let m : Mach := Mach.reset.sets [(R.id_place_dsize, 2), (R.id_place_module, 1)]; let ring : Nat := 0; let w : Nat := slotWord 9 1 0 0 1234;
      (.sluiceSlotForward ring w : Instr).wf = true ∧ m.frozen = false ∧ m.sluiceUsed = true ∧ bits w 79 76 = 10 ∧
      crc8 68 (bits w 75 8) = w % 256 ∧ bits w 67 64 = 1) ∧
    (let m : Mach := ({ Mach.reset.sets [(R.id_place_dsize, 2), (R.id_place_module, 1)] with tod := 1300, sl := { Mach.reset.sl with lockA := true, delayA := 66 } } : Mach);
      let ring : Nat := 0; let num : Nat := 3; let pay : Nat := 1234; (.tod ring num pay : Instr).wf = true ∧ m.frozen = false ∧
      m.sluiceUsed = true ∧ m.modNo ≠ 0 ∧ (if ring = 0 then m.sl.lockA else m.sl.lockB) = true ∧
      m.tod = pay + (if ring = 0 then m.sl.delayA else m.sl.delayB)) ∧
    (let m : Mach := Mach.reset.sets [(R.id_place_dsize, 2), (R.id_place_module, 1)]; let ring : Nat := 0; let num : Nat := 16; let vote : Nat := 1;
      let peers : List Nat := []; (.live ring num vote peers : Instr).wf = true ∧ m.frozen = false ∧ m.sluiceUsed = true ∧ m.modNo ≠ 0 ∧
      m.allVotes (vote ||| m.voteBit (m.get R.mode_seal_state == 2)) = false) ∧
    (let m : Mach := Mach.reset.sets [(R.id_place_dsize, 2), (R.id_place_module, 1), (R.mode_seal_state, 2)]; let ring : Nat := 0;
      let num : Nat := 16; let vote : Nat := 1; let peers : List Nat := []; (.live ring num vote peers : Instr).wf = true ∧ m.frozen = false ∧
      m.sluiceUsed = true ∧ m.modNo ≠ 0 ∧ m.allVotes (vote ||| m.voteBit (m.get R.mode_seal_state == 2)) = true) ∧
    (let m : Mach := ({ Mach.reset.sets [(R.id_place_dsize, 2), (R.aq_dom_joined, 3)] with sl := { Mach.reset.sl with misses := [(1, 300)] } } : Mach);
      let md : Nat := 1; (.missedLiveSlots md : Instr).wf = true ∧ m.frozen = false ∧ m.sluiceUsed = true ∧ m.get R.aq_dom_joined ≠ 0 ∧
      max 2 (m.get R.aq_sl_ctl_miss_lim) ≤ tget m.sl.misses md 0) ∧
    (let m : Mach := Mach.reset.sets [(R.id_place_dsize, 2), (R.id_place_module, 1)]; let ring : Nat := 1;
      (.sluiceInputLost ring false : Instr).wf = true ∧ m.frozen = false ∧ m.sluiceUsed = true ∧ m.sl.turn = none) ∧
    (let m : Mach := Mach.reset.sets [(R.id_place_dsize, 2), (R.id_place_module, 1)]; let ring : Nat := 0; let num : Nat := 2; let orig : Nat := 0;
      let pay : Nat := 0x401; (.chk ring num orig pay : Instr).wf = true ∧ m.frozen = false ∧ m.sluiceUsed = true) ∧
    (let m : Mach := Mach.reset; let cause : Nat := 0x32; let src : Nat := 1602; (.domainCheckstop cause src : Instr).wf = true ∧ True) ∧
    (let m : Mach := ({ Mach.reset.sets [(R.id_place_dsize, 2), (R.id_place_module, 1)] with boot := { Mach.reset.boot with phase := 5 } } : Mach);
      let ring : Nat := 0; let delay : Nat := 66; (.sluiceReceiverLock ring delay : Instr).wf = true ∧ m.frozen = false ∧ m.sluiceUsed = true ∧
      3 ≤ m.boot.phase) :=
  ⟨by decide, by decide, by decide, by decide, by decide, by decide, by decide, by decide, by decide +kernel, by decide, by decide, by decide,
    by decide, by decide, by decide, by decide, by decide⟩

/-- For each command of `Obligations.RetryAndSparing` a machine and operands that meet all its hypotheses. -/
theorem witness_RetryAndSparing :
    (let m : Mach := wTh { wRun with win := [wCk] }; let th : Nat := 0; let k : Ckpt := wCk; let w : List Ckpt := []; let m1 : Mach := wTh wRun;
      (.checkpointCommit th : Instr).wf = true ∧ m.frozen = false ∧ (m.core (th / 2)).swap = none ∧ (m.verdict (32 * (th / 2)) 8 0) = (m, 0) ∧
      (m.th th).win = k :: w ∧ m.commitOldest th = some m1 ∧ (m1.th th).dbg = 0) ∧
    (let m : Mach := { Mach.reset with thr := [(0, { wRun with win := List.replicate 32 wCk })], cores := [(0, { Core.init with miss := [⟨77, 1, false, .demand, 0, none, 0, none⟩] })] };
      let th : Nat := 0; (.runAheadEnter th : Instr).wf = true ∧ m.executes th = true ∧ m.shareFull th = true ∧ m.waitsLine th = true) ∧
    (let m : Mach := wTh { wRun with runAhead := true }; let th : Nat := 0; (.runAheadEnd th : Instr).wf = true ∧ m.frozen = false ∧
      m.waitsLine th = false) ∧
    (let m : Mach := { wTh { wRun with win := [wCk] } with cores := [(0, { Core.init with l1i := [(0, ⟨5, 0⟩)] })] }; let core : Nat := 0;
      let th : Nat := 0; let code : Nat := 4; let cs : CsErr := ⟨0, 0, 0, 0⟩; (.coreCheckError core th code cs : Instr).wf = true ∧
      m.frozen = false ∧ m.leadOf core = core ∧ (m.core core).swap = none ∧ th < 2 ∧ code ∈ [1, 2, 3, 4, 5, 6, 9] ∧
      (m.th (2 * core + th)).present = true ∧ (m.th (2 * core + th)).ep = none) ∧
    (let m : Mach := Mach.reset; let core : Nat := 3; let th : Nat := 1; let cs : CsErr := ⟨0, 0, 0, 0⟩;
      (.coreCheckError core th 0x10 cs : Instr).wf = true ∧ m.frozen = false ∧ (m.core (m.leadOf core)).swap = none) ∧
    (let m : Mach := wTh { wRun with win := [wCk] }; let th : Nat := 0; (.hangTimerExpiry th : Instr).wf = true ∧ (m.th th).win ≠ [] ∧
      m.executes th = true ∧ m.waitsLine th = false) ∧
    (let m : Mach := wCore { Core.init with swap := some ⟨11, 2, wCap, false⟩ }; let core : Nat := 0; let w : Swap := ⟨11, 2, wCap, false⟩;
      (.capsuleRead core 0 : Instr).wf = true ∧ m.frozen = false ∧ (m.core core).swap = some w) ∧
    (let m : Mach := wCore { Core.init with swap := some ⟨11, 2, wCap, true⟩, flushing := true }; let core : Nat := 0; let delay : Nat := 500;
      let excl : Nat := 10; let w : Swap := ⟨11, 2, wCap, true⟩; (.swapResumption core delay excl : Instr).wf = true ∧ m.frozen = false ∧
      (m.core core).swap = some w ∧ w.read = true ∧ w.cause = 2 ∧ w.repl ≠ core) ∧
    (let m : Mach := wCore { Core.init with flushing := true }; let core : Nat := 0; (.l2FlushComplete core : Instr).wf = true ∧ m.frozen = false ∧
      (m.core core).flushing = true ∧ (m.core core).swap = none) ∧
    (let m : Mach := Mach.reset; let core : Nat := 11; (.spareWarmed core : Instr).wf = true ∧ m.frozen = false ∧ m.healthySpare core = true ∧
      ((List.range 48).all fun d => !((m.healthySpare d && decide (d < core)) || m.on (R.core_state_warm d))) = true) ∧
    (let m : Mach := Mach.reset; let core : Nat := 2; let val : Nat := 0xB00; (.plannedSwap core val : Instr).wf = true ∧ m.frozen = false ∧
      bit val 0 = false ∧ bit val 20 = false) ∧
    (let m : Mach := Mach.reset.set R.mode_cur_cur 1; let core : Nat := 0; let val : Nat := 0x3F01; let d : Nat := 11;
      (.plannedSwap core val : Instr).wf = true ∧ m.frozen = false ∧ bit val 0 = true ∧ bit val 20 = false ∧ bits val 13 8 = 0x3F ∧
      (m.core core).swap = none ∧ m.get (R.core_state_swap core) = 0 ∧ m.get (R.core_state_episode core) = 0 ∧ m.mode_ ≠ 0 ∧ m.mode_ ≠ 7 ∧
      m.role core = 0 ∧ (m.set (R.core_swap_target core) 0x3F).replacement core = some d) ∧
    (let m : Mach := Mach.reset; let core : Nat := 0; let val : Nat := 0x3F01; (.plannedSwap core val : Instr).wf = true ∧ m.frozen = false ∧
      bit val 0 = true ∧ bit val 20 = false ∧ (m.core core).swap = none ∧ m.get (R.core_state_swap core) = 0 ∧
      m.get (R.core_state_episode core) = 0 ∧ (m.mode_ = 0 ∨ m.mode_ = 7)) :=
  ⟨by decide, by decide, by decide, by decide, by decide, by decide, by decide, by decide, by decide, by decide, by decide, by decide, by decide⟩

/-- For each command of `Obligations.ControlStorePatches` a machine and operands that meet all its hypotheses. -/
theorem witness_ControlStorePatches :
    (let m : Mach := Mach.reset; let val : Nat := 0x12340; (.patchGo val : Instr).wf = true ∧ m.frozen = false ∧ m.sealed = false ∧
      m.patchIn = none ∧ bit val 0 = false) ∧
    (let m : Mach := Mach.reset; let val : Nat := 0x12341; (.patchGo val : Instr).wf = true ∧ m.frozen = false ∧ m.sealed = false ∧
      m.patchIn = none ∧ bit val 0 = true) ∧
    (let m : Mach := { Mach.reset with patchIn := some ⟨⟨[], [], [], []⟩, 1⟩ }; let val : Nat := 1; (.patchGo val : Instr).wf = true ∧
      m.frozen = false ∧ m.patchIn ≠ none ∧ bit val 0 = true) ∧
    (let m : Mach := Mach.reset.set R.mode_seal_state 2; let val : Nat := 1; (.patchGo val : Instr).wf = true ∧ m.frozen = false ∧
      m.patchIn = none ∧ m.sealed = true ∧ bit val 0 = true) ∧
    (let m : Mach := { Mach.reset with patchIn := some ⟨⟨[], [], [], []⟩, 1⟩ }; let p : PatchIn := ⟨⟨[], [], [], []⟩, 1⟩;
      (.patchApplied : Instr).wf = true ∧ m.frozen = false ∧ m.patchIn = some p) :=
  ⟨by decide, by decide, by decide, by decide, by decide⟩

/-- For each command of `Obligations.ShootdownAndUpdates` a machine and operands that meet all its hypotheses. -/
theorem witness_ShootdownAndUpdates :
    (let m : Mach := wCore { Core.init with shoot := [⟨5, 0x18, 0, 0, 0, [0]⟩] }; let core : Nat := 0; let id : Nat := 5;
      let r : Removal := ⟨5, 0x18, 0, 0, 0, [0]⟩; let rest : List Removal := []; (.shootdownReceive core id : Instr).wf = true ∧
      m.frozen = false ∧ (m.core core).shoot = r :: rest ∧ r.id = id) ∧
    (let m : Mach := ({ Mach.reset with shoot := { Mach.reset.shoot with done := [(1, [⟨5, 1, 0, 0, []⟩])] }, thr := [(0, { wRun with removals := [⟨5, 0x18, 0, 0, 0, [1, 2]⟩] })] } : Mach);
      let core : Nat := 1; let id : Nat := 5; let d : ShootDone := ⟨5, 1, 0, 0, []⟩; let rest : List ShootDone := [];
      (.shootdownAck core id : Instr).wf = true ∧ m.frozen = false ∧ (m.core core).swap = none ∧ tget m.shoot.done core [] = d :: rest ∧
      d.id = id ∧ d.who = core ∧ d.n0 = 0 ∧ d.n1 = 0 ∧ ((m.core core).comb.any fun x => d.comb.contains x.line) = false) ∧
    (let m : Mach := wTh { wRun with removals := [⟨5, 0x18, 0, 0, 0, [1, 2]⟩] }; let th : Nat := 0; let core : Nat := 2;
      (.tlbShootdownTimeout th core : Instr).wf = true ∧ m.frozen = false ∧ ((m.th th).removals.any fun r => r.waits.contains core) = true) ∧
    (let m : Mach := ({ (wTh { wRun with adWait := some (0x108, 0, 0x40) }).sets [(R.aq_home_base 0, 0), (R.aq_home_size 0, 1), (R.aq_home_en 0, 1)] with cores := [(0, { Core.init with l2 := [(16, ⟨1, .e, 0, false, 2, false⟩)] })] } : Mach);
      let th : Nat := 0; let pa : Nat := 0x108; let old : Nat := 0; let new : Nat := 0x40; let key : Nat := 16;
      let w : L2Way := ⟨1, .e, 0, false, 2, false⟩; (.adBitUpdate th : Instr).wf = true ∧ m.executes th = true ∧ m.isDemand th = true ∧
      (m.th th).adWait = some (pa, old, new) ∧ m.patchIn = none ∧ (m.core (th / 2)).comb = [] ∧ (m.core (th / 2)).wpend = [] ∧
      (m.homeOf (256 * (pa / 256))).isSome = true ∧ (m.core (th / 2)).find (pa / 256) = some (key, w) ∧ w.st ≠ .s ∧ w.psn = false ∧
      lineGet w.data (pa % 256) 8 = old) :=
  ⟨by decide, by decide, by decide, by decide +kernel⟩

/-- For each command of `Obligations.HomeRequests` a machine and operands that meet all its hypotheses. -/
theorem witness_HomeRequests :
    (let m : Mach := wDir .s 2; let x : Msg := wMsg 3 56; (.rds x 0 0 : Instr).wf = true ∧ Quiet m x ∧ Unarmed m x ∧ (m.dirE x.line).st ≠ .x) ∧
    (let m : Mach := wDir .x 2; let x : Msg := wMsg 3 56; let o : Nat := 1; (.rds x 0 0 : Instr).wf = true ∧ Quiet m x ∧ Unarmed m x ∧
      (m.dirE x.line).st = .x ∧ (m.dirE x.line).agents.head? = some o) ∧
    (let m : Mach := wDir .s 6; let x : Msg := wMsg 1 56; (.rdx x 0 0 : Instr).wf = true ∧ Quiet m x ∧ Unarmed m x ∧ (m.dirE x.line).st ≠ .x) ∧
    (let m : Mach := wDir .x 2; let x : Msg := wMsg 3 56; let o : Nat := 1; (.rdx x 0 0 : Instr).wf = true ∧ Quiet m x ∧ Unarmed m x ∧
      (m.dirE x.line).st = .x ∧ (m.dirE x.line).agents.head? = some o ∧ o ≠ x.src) ∧
    (let m : Mach := wDir .s 6; let x : Msg := wMsg 1 56; (.upg x : Instr).wf = true ∧ Quiet m x ∧ (m.dirE x.line).st = .s ∧
      (m.dirE x.line).has x.src = true) ∧
    (let m : Mach := wDir .s 6; let x : Msg := wMsg 3 56; (.own x : Instr).wf = true ∧ Quiet m x) ∧
    (let m : Mach := wDir .s 6; let x : Msg := wMsg 3 56; (.wrf x : Instr).wf = true ∧ Quiet m x) ∧
    (let m : Mach := wDir .x 2; let x : Msg := wMsg 3 56; (.wrm x : Instr).wf = true ∧ Quiet m x) ∧
    (let m : Mach := wDir .s 6; let x : Msg := wMsg 3 56; (.evc x : Instr).wf = true ∧ Quiet m x ∧ (m.dirE x.line).has x.src = false) ∧
    (let m : Mach := (wDir .s 6).bsnFill 0 5 false false 1; let x : Msg := wMsg 2 56; (.evc x : Instr).wf = true ∧ Quiet m x ∧
      (m.dirE x.line).has x.src = true ∧ (m.bsnFind x.line).isSome = true) ∧
    (let m : Mach := wDir .x 2; let x : Msg := wMsg 1 56; (.evd x : Instr).wf = true ∧ Quiet m x) ∧
    (let m : Mach := wTxn (newTxn 1 (wMsg 3 56) []); let x : Msg := { wMsg 55 56 with req := 3, aux := 7 };
      let t : HomeTxn := newTxn 1 (wMsg 3 56) []; (.mov x : Instr).wf = true ∧ m.frozen = false ∧ m.toHome x = true ∧
      tfind m.home.txn x.line = some t ∧ t.agent = x.req ∧ t.req.tag = x.tag ∧ m.home.waitq = []) :=
  ⟨by decide, by decide, by decide, by decide, by decide, by decide, by decide, by decide, by decide, by decide, by decide, by decide +kernel⟩

/-- For each command of `Obligations.HomeAnswers` a machine and operands that meet all its hypotheses. -/
theorem witness_HomeAnswers :
    (let m : Mach := wTxn (newTxn 1 (wMsg 3 56) []); let x : Msg := wMsg 3 56; let t : HomeTxn := newTxn 1 (wMsg 3 56) [];
      (.done x : Instr).wf = true ∧ m.frozen = false ∧ m.toHome x = true ∧ tfind m.home.txn x.line = some t ∧ t.agent = x.src ∧ 1 ≤ t.op ∧
      t.op ≤ 4) ∧
    (let m : Mach := wTxn (newTxn 1 (wMsg 3 56) [1]); let x : Msg := wMsg 1 56; let t : HomeTxn := newTxn 1 (wMsg 3 56) [1];
      (.pra x : Instr).wf = true ∧ m.frozen = false ∧ m.toHome x = true ∧ tfind m.home.txn x.line = some t ∧ t.awaits.contains x.src = true ∧
      x.acks ≠ 1) ∧
    (let m : Mach := wHome; let x : Msg := wMsg 1 56; (.pra x : Instr).wf = true ∧ m.frozen = false ∧ m.toHome x = true ∧
      tfind m.home.txn x.line = none) ∧
    (let m : Mach := wHome; let x : Msg := wMsg 1 56; (.dath x : Instr).wf = true ∧ m.frozen = false ∧ m.toHome x = true ∧
      tfind m.home.txn x.line = none) ∧
    (let m : Mach := wTxn (newTxn 1 (wMsg 3 56) [1]); let x : Msg := { wMsg 1 56 with data := 77 }; let t : HomeTxn := newTxn 1 (wMsg 3 56) [1];
      (.dath x : Instr).wf = true ∧ m.frozen = false ∧ m.toHome x = true ∧ tfind m.home.txn x.line = some t ∧ t.op ≠ 7 ∧ t.op ≠ 8) ∧
    (let m : Mach := wTxn (newTxn 5 (wMsg 3 56) []); let x : Msg := { wMsg 3 56 with data := 77, mask := 2 ^ 256 - 1 };
      let t : HomeTxn := newTxn 5 (wMsg 3 56) []; (.wdat x : Instr).wf = true ∧ m.frozen = false ∧ m.toHome x = true ∧
      tfind m.home.txn x.line = some t ∧ (t.op = 5 ∨ t.op = 6) ∧ t.req.src = x.src ∧ t.wdata = none) ∧
    (let m : Mach := wHomeCore { Core.init with l2 := [(0, ⟨0, .m, 9, false, 0, false⟩)] }; let x : Msg := wMsg 56 0; (.prs x : Instr).wf = true ∧
      m.frozen = false ∧ m.toCache x = true ∧ x.dst % 64 < 48 ∧ (m.core (x.dst % 64)).holds.contains x.line = false) ∧
    (let m : Mach := wHomeCore { Core.init with l2 := [(0, ⟨0, .m, 9, false, 0, false⟩)] }; let x : Msg := wMsg 56 0; (.prx x : Instr).wf = true ∧
      m.frozen = false ∧ m.toCache x = true ∧ x.dst % 64 < 48 ∧ (m.core (x.dst % 64)).holds.contains x.line = false) ∧
    (let m : Mach := wHomeCore { Core.init with l2 := [(0, ⟨0, .m, 9, false, 0, false⟩)] }; let x : Msg := wMsg 56 0; (.pri x : Instr).wf = true ∧
      m.frozen = false ∧ m.toCache x = true ∧ x.dst % 64 < 48 ∧ (m.core (x.dst % 64)).holds.contains x.line = false) ∧
    (let m : Mach := wHomeCore { Core.init with l2 := [(0, ⟨0, .m, 9, false, 0, false⟩)], holds := [0] }; let x : Msg := wMsg 56 0;
      (.prw x : Instr).wf = true ∧ m.frozen = false ∧ m.toCache x = true ∧ x.dst % 64 < 48 ∧ (m.core (x.dst % 64)).holds.contains x.line = true) ∧
    (let m : Mach := wHome; let x : Msg := wMsg 56 0; (.prw x : Instr).wf = true ∧ m.frozen = false ∧ m.toCache x = true ∧ x.dst % 64 < 48 ∧
      (m.core (x.dst % 64)).holds.contains x.line = false ∧ (m.core (x.dst % 64)).probed x.line = none) ∧
    (let m : Mach := wHomeCore { Core.init with holds := [0], probes := [(0x14, wMsg 56 0)] }; let agent : Nat := 0; let line : Nat := 0;
      let op : Nat := 0x14; let x : Msg := wMsg 56 0; (.holdExpiry agent line : Instr).wf = true ∧ m.frozen = false ∧
      (m.core agent).holds.contains line = true ∧ (m.core agent).probes = [(op, x)] ∧ x.line = line) ∧
    (let m : Mach := wHomeCore { Core.init with miss := [⟨0, 0, true, .demand, 0, none, 0, none⟩] }; let x : Msg := wMsg 56 0;
      let y : Miss := ⟨0, 0, true, .demand, 0, none, 0, none⟩; (.ack x : Instr).wf = true ∧ m.frozen = false ∧ m.toCore x = true ∧
      ((m.core (x.dst % 64)).miss.find? fun y => y.line == x.line && y.tag == x.tag) = some y ∧ y.grant = none) ∧
    (let m : Mach := wHomeCore { Core.init with miss := [⟨0, 0, true, .demand, 0, none, 0, none⟩] };
      let x : Msg := { wMsg 56 0 with acks := 2, st := 2 }; let y : Miss := ⟨0, 0, true, .demand, 0, none, 0, none⟩;
      (.cmpGrant x : Instr).wf = true ∧ m.frozen = false ∧ m.toCore x = true ∧
      ((m.core (x.dst % 64)).miss.find? fun y => y.line == x.line && y.tag == x.tag) = some y ∧ y.got < x.acks) ∧
    (let m : Mach := wHomeCore { Core.init with miss := [⟨0, 0, false, .demand, 0, none, 0, none⟩] };
      let x : Msg := { wMsg 56 0 with st := 1, data := 9 }; let y : Miss := ⟨0, 0, false, .demand, 0, none, 0, none⟩;
      let m1 : Mach := wHomeCore { Core.init with miss := [⟨0, 0, false, .demand, 0, some 0, 0, some (.s, some (9, false))⟩], l2 := [(0, ⟨0, .s, 9, false, 0, false⟩)] };
      (.dataMsg x : Instr).wf = true ∧ m.frozen = false ∧ m.toCore x = true ∧ (m.core (x.dst % 64)).miss = [y] ∧ y.line = x.line ∧
      y.tag = x.tag ∧ y.excl = false ∧ y.why = .demand ∧ x.acks ≤ y.got ∧
      (m.onCore (x.dst % 64) fun k => { k with miss := [{ y with acks := some x.acks, grant := some (stOf x.st, some (x.data, x.psn)) }] }).fill (x.dst % 64) x.line (stOf x.st) x.data x.psn 0 false = some m1) ∧
    (let m : Mach := wHomeCore { Core.init with evb := [⟨0, .m, 9, false, true⟩] }; let x : Msg := wMsg 56 0; (.eva x : Instr).wf = true ∧
      m.frozen = false ∧ m.toCore x = true ∧ (m.core (x.dst % 64)).miss = []) ∧
    (let m : Mach := wHomeCore { Core.init with evb := [⟨0, .e, 9, false, true⟩] }; let x : Msg := wMsg 56 0;
      let e : EvEntry := ⟨0, .e, 9, false, true⟩; (.evp x : Instr).wf = true ∧ m.frozen = false ∧ m.toCore x = true ∧
      ((m.core (x.dst % 64)).evb.find? fun e => e.line == x.line && e.sent) = some e) ∧
    (let m : Mach := wHomeCore { Core.init with wpend := [(0, 0, true)] }; let x : Msg := wMsg 56 0; let y : Nat × Nat × Bool := (0, 0, true);
      let rest : List (Nat × Nat × Bool) := []; (.wra x : Instr).wf = true ∧ m.frozen = false ∧ m.toCore x = true ∧
      takeFirst (fun y => y.1 == x.line) (m.core (x.dst % 64)).wpend = some (y, rest)) ∧
    (let m : Mach := wHomeCore { Core.init with miss := [⟨0, 0, false, .demand, 0, none, 0, none⟩] }; let x : Msg := wMsg 56 0;
      let y : Miss := ⟨0, 0, false, .demand, 0, none, 0, none⟩; (.err x : Instr).wf = true ∧ m.frozen = false ∧ m.toCore x = true ∧
      (m.core (x.dst % 64)).miss = [y] ∧ y.line = x.line ∧ y.tag = x.tag ∧ y.why ≠ MissFor.prefetch) ∧
    (let m : Mach := Mach.reset; let x : Msg := { wMsg 64 55 with aux := 0x18 }; let c : Nat := 47; (.tlbi x : Instr).wf = true ∧ m.frozen = false ∧
      m.toHub x = true ∧ c < 48) ∧
    (let m : Mach := wTh { wRun with removals := [⟨5, 0x18, 0, 0, 0, [65]⟩] }; let x : Msg := { wMsg 64 55 with tag := 5 };
      let r : Removal := ⟨5, 0x18, 0, 0, 0, [65]⟩; (.tlba x : Instr).wf = true ∧ m.frozen = false ∧ m.toHub x = true ∧
      ((List.range 96).findSome? fun t => (m.th t).removals.find? fun r => r.id % 4096 == x.tag && r.waits.contains (64 + x.src / 64)) = some r) ∧
    (let m : Mach := wTxn (newTxn 1 (wMsg 3 56) [1]); let line : Nat := 0; let t : HomeTxn := newTxn 1 (wMsg 3 56) [1];
      (.probeTimeout line : Instr).wf = true ∧ m.frozen = false ∧ tfind m.home.txn line = some t ∧ t.awaits ≠ []) :=
  ⟨by decide +kernel, by decide +kernel, by decide, by decide, by decide +kernel, by decide +kernel, by decide, by decide, by decide, by decide,
    by decide, by decide +kernel, by decide, by decide, by decide +kernel, by decide, by decide +kernel, by decide, by decide, by decide,
    by decide, by decide +kernel⟩

/-- For each command of `Obligations.StoresAndPrefetches` a machine and operands that meet all its hypotheses. -/
theorem witness_StoresAndPrefetches :
    (let m : Mach := { wHomeCore { Core.init with l2 := [(0, ⟨0, .e, 9, false, 2, false⟩)] } with thr := [(0, { wRun with sbuf := [⟨8, 8, 0x1234, false⟩] })], regs := wHome.regs };
      let th : Nat := 0; let e : StoreE := ⟨8, 8, 0x1234, false⟩; let key : Nat := 0; let w : L2Way := ⟨0, .e, 9, false, 2, false⟩;
      (.storePerform th : Instr).wf = true ∧ m.frozen = false ∧ (m.core (th / 2)).swap = none ∧ (m.core (th / 2)).wpend = [] ∧
      (m.core (th / 2)).comb = [] ∧ (m.th th).sbuf = [e] ∧ (m.homeOf (256 * (e.pa / 256))).isSome = true ∧ runMask [e] ≠ 2 ^ 256 - 1 ∧
      (m.core (th / 2)).find (e.pa / 256) = some (key, w) ∧ w.st ≠ .s) ∧
    (let m : Mach := { wHome with thr := [(0, { wRun with sbuf := [⟨8, 8, 0x1234, false⟩] })] }; let th : Nat := 0;
      let e : StoreE := ⟨8, 8, 0x1234, false⟩; (.storePerform th : Instr).wf = true ∧ m.frozen = false ∧ (m.core (th / 2)).swap = none ∧
      (m.core (th / 2)).wpend = [] ∧ (m.core (th / 2)).comb = [] ∧ runMask [e] ≠ 2 ^ 256 - 1 ∧ (m.th th).sbuf = [e] ∧
      (m.homeOf (256 * (e.pa / 256))).isSome = true ∧ (m.core (th / 2)).stOf (e.pa / 256) = none) ∧
    (let m : Mach := { wHome.set (R.core_l2cfg_st_en 0) 0 with thr := [(0, { wRun with sbuf := [⟨0, 256, 0x1234, false⟩] })] }; let th : Nat := 0;
      let e : StoreE := ⟨0, 256, 0x1234, false⟩; (.storePerform th : Instr).wf = true ∧ m.frozen = false ∧ (m.core (th / 2)).swap = none ∧
      (m.core (th / 2)).wpend = [] ∧ (m.core (th / 2)).comb = [] ∧ m.on (R.core_l2cfg_st_en (th / 2)) = false ∧ runMask [e] = 2 ^ 256 - 1 ∧
      (m.th th).sbuf = [e] ∧ (m.homeOf (256 * (e.pa / 256))).isSome = true ∧ (m.core (th / 2)).stOf (e.pa / 256) = none) ∧
    (let m : Mach := wTh { wRun with sbuf := [⟨8, 8, 0x1234, false⟩] }; let th : Nat := 0; let e : StoreE := ⟨8, 8, 0x1234, false⟩;
      (.storePerform th : Instr).wf = true ∧ m.frozen = false ∧ (m.core (th / 2)).swap = none ∧ (m.core (th / 2)).wpend = [] ∧
      (m.th th).sbuf = [e] ∧ m.homeOf (256 * (e.pa / 256)) = none) ∧
    (let m : Mach := wHomeCore { Core.init with comb := [⟨0, 5, 255, 0⟩] }; let core : Nat := 0; let line : Nat := 0;
      let x : CombLine := ⟨0, 5, 255, 0⟩; (.combiningLineTimeout core line : Instr).wf = true ∧ m.frozen = false ∧
      ((m.core core).comb.find? fun x => x.line == line) = some x) ∧
    (let m : Mach := (wHomeCore { Core.init with pf := [⟨0, 3, none, 1, 3, [4, 5]⟩] }).sets [(R.core_l2cfg_pf_en 0, 1), (R.core_l2cfg_pf_dist 0, 4)];
      let core : Nat := 0; let k : Nat := 0; let x : PfStream := ⟨0, 3, none, 1, 3, [4, 5]⟩; let n : Nat := 7;
      (.prefetchRequest core k : Instr).wf = true ∧ m.frozen = false ∧ m.on (R.core_l2cfg_pf_en core) = true ∧ (m.core core).pf[k]? = some x ∧
      x.seen = 3 ∧ x.stride ≠ 0 ∧ (x.last : Int) + x.stride * (m.get (R.core_l2cfg_pf_dist core) : Int) = (n : Int) ∧ n / 16 = x.last / 16 ∧
      x.asked.length < 64 ∧ (m.core core).stOf n = none ∧ (m.homeOf (256 * n)).isSome = true ∧ m.uncached (256 * n) = false) ∧
    (let m : Mach := (wHomeCore { Core.init with pf := [⟨0, 3, none, 1, 3, List.replicate 64 9⟩] }).sets [(R.core_l2cfg_pf_en 0, 1), (R.core_l2cfg_pf_dist 0, 4)];
      let core : Nat := 0; let k : Nat := 0; let x : PfStream := ⟨0, 3, none, 1, 3, List.replicate 64 9⟩; let n : Nat := 7;
      (.prefetchRequest core k : Instr).wf = true ∧ m.frozen = false ∧ m.on (R.core_l2cfg_pf_en core) = true ∧ (m.core core).pf[k]? = some x ∧
      x.seen = 3 ∧ x.stride ≠ 0 ∧ (x.last : Int) + x.stride * (m.get (R.core_l2cfg_pf_dist core) : Int) = (n : Int) ∧ n / 16 = x.last / 16 ∧
      64 ≤ x.asked.length) ∧
    (let m : Mach := wHomeCore { Core.init with evb := [⟨0, .m, 9, false, false⟩] }; let core : Nat := 0; let set : Nat := 0; let way : Nat := 3;
      let e : EvEntry := ⟨0, .m, 9, false, false⟩; (.l2Eviction core set way 0 : Instr).wf = true ∧ m.frozen = false ∧
      (m.core core).swap = none ∧ m.verdict (32 * core + 15) 6 0 = (m, 0) ∧ (m.core core).miss = [] ∧ (m.core core).evb = [e] ∧
      e.line % 1024 = set ∧ e.sent = false) :=
  ⟨by decide +kernel, by decide, by decide, by decide, by decide +kernel, by decide, by decide, by decide +kernel⟩

/-- For each command of `Obligations.FabricPorts` a machine and operands that meet all its hypotheses. -/
theorem witness_FabricPorts :
    (let m : Mach := Mach.reset.set (R.aq_fab_stat_state 2) 6; let port : Nat := 2; let bytes : List Nat := List.replicate 128 1;
      (.fabricFlit port bytes false : Instr).wf = true ∧ m.frozen = false ∧ (m.get (R.aq_fab_stat_state port)) = 6 ∧ bytes.length = 128 ∧
      crc32c (bytes.take 124) ≠ ofBytes (bytes.drop 124)) ∧
    (let m : Mach := Mach.reset.set (R.aq_fab_stat_state 2) 6; let port : Nat := 2; let bytes : List Nat := wFlit (2 ^ 94 + 5 * 2 ^ 64);
      (.fabricFlit port bytes false : Instr).wf = true ∧ m.frozen = false ∧ (m.get (R.aq_fab_stat_state port)) = 6 ∧ flitGood bytes ∧
      (bits (flitHead bytes) 95 94 = 1 ∨ bits (flitHead bytes) 95 94 = 2)) ∧
    (let m : Mach := Mach.reset.set (R.aq_fab_stat_state 2) 6; let port : Nat := 2; let bytes : List Nat := wFlit (2 ^ 33);
      (.fabricFlit port bytes false : Instr).wf = true ∧ m.frozen = false ∧ (m.get (R.aq_fab_stat_state port)) = 6 ∧ flitGood bytes ∧
      bits (flitHead bytes) 95 94 = 0 ∧ bits (flitHead bytes) 93 84 = (m.fabP port).rxSeq) ∧
    (let m : Mach := Mach.reset.sets [(R.aq_fab_stat_state 2, 6), (R.aq_fab_ctl_spare_en 2, 1)]; let port : Nat := 2; let lane : Nat := 4;
      (.fabricLaneFailure port lane : Instr).wf = true ∧ m.frozen = false ∧ (m.get (R.aq_fab_stat_state port)) = 6 ∧
      m.get (R.aq_fab_stat_failed port) = 0 ∧ m.on (R.aq_fab_stat_spare_used port) = false ∧ m.on (R.aq_fab_ctl_spare_en port) = true ∧
      lane < 16) ∧
    (let m : Mach := Mach.reset.sets [(R.aq_fab_stat_state 2, 6), (R.aq_fab_stat_spare_used 2, 1), (R.aq_fab_stat_width 2, 1)]; let port : Nat := 2;
      let lane : Nat := 4; (.fabricLaneFailure port lane : Instr).wf = true ∧ m.frozen = false ∧ (m.get (R.aq_fab_stat_state port)) = 6 ∧
      lane < 16 ∧ bit (m.get (R.aq_fab_stat_failed port)) lane = false ∧ m.on (R.aq_fab_stat_spare_used port) = true ∧
      m.get (R.aq_fab_stat_width port) ≠ 2) ∧
    (let m : Mach := Mach.reset.set (R.aq_fab_stat_state 2) 6; let port : Nat := 2; let lane : Nat := 4;
      (.fabricLanemap port lane : Instr).wf = true ∧ m.frozen = false ∧ (m.get (R.aq_fab_stat_state port)) = 6) ∧
    (let m : Mach := Mach.reset.sets [(R.aq_fab_stat_state 2, 3), (R.aq_fab_stat_width 2, 1), (R.id_ports_fab, 4)]; let port : Nat := 2;
      (.fabricRetrainAtX8Done port : Instr).wf = true ∧ m.frozen = false ∧ (m.get (R.aq_fab_stat_state port)) = 3 ∧
      m.get (R.aq_fab_stat_width port) = 1 ∧ bit (m.get R.id_ports_fab) port = true ∧ (m.fabP port).replay = [] ∧ (m.fabP port).waiting = []) ∧
    (let m : Mach := Mach.reset.set (R.aq_fab_ctl_en 2) 1; let port : Nat := 2; (.fabricTrainingStart port : Instr).wf = true ∧ m.frozen = false ∧
      m.on (R.aq_fab_ctl_en port) = true ∧ (m.get (R.aq_fab_stat_state port)) ≠ 6) ∧
    (let m : Mach := Mach.reset.set (R.aq_fab_stat_state 2) 1; let port : Nat := 2; let locked : Nat := 0x1FFFF;
      (.fabricEqualisationEnd port locked : Instr).wf = true ∧ m.frozen = false ∧
      ((m.get (R.aq_fab_stat_state port)) = 1 ∨ (m.get (R.aq_fab_stat_state port)) = 2) ∧ locked % 2 ^ 17 = 2 ^ 17 - 1) ∧
    (let m : Mach := Mach.reset.set (R.aq_fab_stat_state 0) 3; let port : Nat := 0; let md : Nat := 1; let far : Nat := 2; let size : Nat := 1;
      (.fabricIdent port md far size : Instr).wf = true ∧ m.frozen = false ∧ (m.get (R.aq_fab_stat_state port)) = 3 ∧
      bit (m.get R.id_ports_fab) port = false ∧ md = (m.modNo + port % 3 + 1) % 4 ∧ far = 3 * (port / 3) + (2 - port % 3) ∧ size = m.dsize) ∧
    (let m : Mach := Mach.reset.set (R.aq_fab_stat_state 0) 3; let port : Nat := 0; let md : Nat := 2; let far : Nat := 2; let size : Nat := 1;
      (.fabricIdent port md far size : Instr).wf = true ∧ m.frozen = false ∧ (m.get (R.aq_fab_stat_state port)) = 3 ∧
      bit (m.get R.id_ports_fab) port = false ∧ md ≠ (m.modNo + port % 3 + 1) % 4) ∧
    (let m : Mach := Mach.reset.set (R.aq_fab_stat_state 0) 4; let port : Nat := 0; (.fabricCrdinit port : Instr).wf = true ∧ m.frozen = false ∧
      (m.get (R.aq_fab_stat_state port)) = 4 ∧ (m.fabP port).replay = [] ∧ (m.fabP port).waiting = []) ∧
    (let m : Mach := Mach.reset.set (R.aq_fab_ctl_en 0) 0; let port : Nat := 0; let val : Nat := 0x203;
      (.fabricPortControlWrite port val : Instr).wf = true ∧ m.frozen = false ∧ m.on (R.aq_fab_ctl_en port) = false ∧ bit val 0 = true) ∧
    (let m : Mach := Mach.reset.sets [(R.aq_fab_ctl_en 0, 1), (R.mode_cur_cur, 1)]; let port : Nat := 0; let val : Nat := 0x202;
      (.fabricPortControlWrite port val : Instr).wf = true ∧ m.frozen = false ∧ m.on (R.aq_fab_ctl_en port) = true ∧ bit val 0 = false ∧
      m.mode_ ≠ 6) :=
  ⟨by decide +kernel, by decide +kernel, by decide +kernel, by decide, by decide, by decide, by decide, by decide, by decide, by decide,
    by decide, by decide, by decide, by decide⟩

/-- For each command of `Obligations.MemoryPorts` a machine and operands that meet all its hypotheses. -/
theorem witness_MemoryPorts :
    (let m : Mach := wMem []; let port : Nat := 0; let addr : Nat := 5; (.memRd port addr : Instr).wf = true ∧ m.frozen = false) ∧
    (let m : Mach := wMem []; let port : Nat := 0; let addr : Nat := 5; (.memWr port addr : Instr).wf = true ∧ m.frozen = false ∧
      (List.range 96).any m.frozenThread = false) ∧
    (let m : Mach := wMem []; let port : Nat := 0; let reg : Nat := 5; (.memCrd port reg : Instr).wf = true ∧ m.frozen = false) ∧
    (let m : Mach := wMem []; let port : Nat := 0; let reg : Nat := 5; let val : Nat := 7; (.memCwr port reg val : Instr).wf = true ∧
      m.frozen = false) ∧
    (let m : Mach := wMem [⟨3, 1, 5⟩]; let port : Nat := 0; let tag : Nat := 3; let pc : Nat := 77; let crc : Nat := pieceCrc 0 5 77;
      let psn : Bool := false; let ver : Nat := 1; let c : MemCmd := ⟨3, 1, 5⟩; let rest : List MemCmd := [];
      (.memRdd port tag pc crc psn ver : Instr).wf = true ∧ m.frozen = false ∧
      takeFirst (fun (c : MemCmd) => c.tag == tag && [1].contains c.op) (m.memP port).out = some (c, rest) ∧ crc = pieceCrc port c.addr pc ∧
      ver = 1) ∧
    (let m : Mach := wMem [⟨3, 1, 5⟩]; let port : Nat := 0; let tag : Nat := 3; let pc : Nat := 77; let crc : Nat := pieceCrc 0 5 77 + 1;
      let psn : Bool := false; let ver : Nat := 1; let c : MemCmd := ⟨3, 1, 5⟩; let rest : List MemCmd := [];
      (.memRdd port tag pc crc psn ver : Instr).wf = true ∧ m.frozen = false ∧
      takeFirst (fun (c : MemCmd) => c.tag == tag && [1].contains c.op) (m.memP port).out = some (c, rest) ∧ crc ≠ pieceCrc port c.addr pc) ∧
    (let m : Mach := wMem [⟨3, 1, 5⟩]; let port : Nat := 0; let tag : Nat := 3; let c : MemCmd := ⟨3, 1, 5⟩; let rest : List MemCmd := [];
      (.memRerr port tag : Instr).wf = true ∧ m.frozen = false ∧
      takeFirst (fun (c : MemCmd) => c.tag == tag && [1].contains c.op) (m.memP port).out = some (c, rest)) ∧
    (let m : Mach := wMem [⟨3, 2, 5⟩]; let port : Nat := 0; let tag : Nat := 3; let c : MemCmd := ⟨3, 2, 5⟩; let rest : List MemCmd := [];
      (.memWra port tag : Instr).wf = true ∧ m.frozen = false ∧
      takeFirst (fun (c : MemCmd) => c.tag == tag && [2, 4].contains c.op) (m.memP port).out = some (c, rest)) ∧
    (let m : Mach := wMem [⟨3, 3, 5⟩]; let port : Nat := 0; let tag : Nat := 3; let val : Nat := 9; let c : MemCmd := ⟨3, 3, 5⟩;
      let rest : List MemCmd := []; (.memCra port tag val : Instr).wf = true ∧ m.frozen = false ∧
      takeFirst (fun (c : MemCmd) => c.tag == tag && [3].contains c.op) (m.memP port).out = some (c, rest)) ∧
    (let m : Mach := wMem [⟨3, 3, 5⟩]; let port : Nat := 0; let tag : Nat := 3; (.memResponseTimeout port tag : Instr).wf = true ∧
      m.frozen = false ∧ ((m.memP port).out.any fun c => c.tag == tag) = true) ∧
    (let m : Mach := wMem []; let port : Nat := 0; let bytes : List Nat := List.replicate 128 1; (.memoryLinkFlit port bytes : Instr).wf = true ∧
      m.frozen = false ∧ m.get (R.mem_port_stat_state port) = 6 ∧ bytes.length = 128 ∧ crc32c (bytes.take 124) ≠ ofBytes (bytes.drop 124)) ∧
    (let m : Mach := wMem []; let port : Nat := 0; let bytes : List Nat := wFlit (2 ^ 33); (.memoryLinkFlit port bytes : Instr).wf = true ∧
      m.frozen = false ∧ m.get (R.mem_port_stat_state port) = 6 ∧ flitGood bytes ∧ bits (flitHead bytes) 95 94 = 0 ∧
      bits (flitHead bytes) 93 84 = (m.memP port).link.rxSeq ∧ bit (flitHead bytes) 73 = false ∧ bit (flitHead bytes) 72 = false ∧
      (m.memP port).link.waiting = []) ∧
    (let m : Mach := wMem []; let port : Nat := 0; let lane : Nat := 3; (.memLaneFailure port lane : Instr).wf = true ∧ m.frozen = false ∧
      m.get (R.mem_port_stat_state port) = 6 ∧ m.get (R.mem_port_stat_failed port) = 0 ∧ lane < 8) ∧
    (let m : Mach := (wMem []).set (R.mem_port_stat_failed 0) 1; let port : Nat := 0; let lane : Nat := 3;
      (.memLaneFailure port lane : Instr).wf = true ∧ m.frozen = false ∧ m.get (R.mem_port_stat_state port) = 6 ∧
      m.get (R.mem_port_stat_failed port) ≠ 0 ∧ bit (m.get (R.mem_port_stat_failed port)) lane = false) ∧
    (let m : Mach := wMem []; let port : Nat := 0; let lane : Nat := 3; (.memLanemap port lane : Instr).wf = true ∧ m.frozen = false ∧
      m.get (R.mem_port_stat_state port) = 6) ∧
    (let m : Mach := Mach.reset; let port : Nat := 7; (.memTrainingStart port : Instr).wf = true ∧ m.frozen = false ∧
      m.get (R.mem_port_stat_state port) = 0) ∧
    (let m : Mach := Mach.reset.set (R.mem_port_stat_state 3) 1; let port : Nat := 3; let locked : Nat := 511;
      (.memEqualisationEnd port locked : Instr).wf = true ∧ m.frozen = false ∧
      (m.get (R.mem_port_stat_state port) = 1 ∨ m.get (R.mem_port_stat_state port) = 2) ∧ locked % 512 = 511) ∧
    (let m : Mach := Mach.reset.set (R.mem_port_stat_state 3) 3; let port : Nat := 3; let vendor : Nat := 1; let part : Nat := 2;
      let cap : Nat := 6 + Mach.reset.get R.mem_cfg_cap; (.memIdent port vendor part cap : Instr).wf = true ∧ m.frozen = false ∧
      m.get (R.mem_port_stat_state port) = 3 ∧ cap = 6 + m.get R.mem_cfg_cap) ∧
    (let m : Mach := Mach.reset.set (R.mem_port_stat_state 3) 4; let port : Nat := 3; (.memCrdinit port : Instr).wf = true ∧ m.frozen = false ∧
      m.get (R.mem_port_stat_state port) = 4) ∧
    (let m : Mach := Mach.reset.set (R.mem_port_stat_state 3) 5; let port : Nat := 3; let kept : Bool := true;
      (.memReady port kept : Instr).wf = true ∧ m.frozen = false ∧ m.get (R.mem_port_stat_state port) = 5 ∧ m.memp.upReq = [] ∧
      m.get (R.mem_grp_stat_state (port / 5)) ≠ 3) ∧
    (let m : Mach := (wMem []).set R.mode_cur_cur 1; let port : Nat := 0; (.memPortDown port : Instr).wf = true ∧ m.frozen = false ∧
      m.memp.upReq.contains port = false ∧ m.blkDown (48 + port) = false ∧ m.mode_ ≠ 6) ∧
    (let m : Mach := (wMem []).set R.mode_cur_cur 6; let port : Nat := 0; (.memPortDown port : Instr).wf = true ∧ m.frozen = false ∧
      m.memp.upReq.contains port = false ∧ m.blkDown (48 + port) = false ∧ m.mode_ = 6 ∧ m.get (R.mem_grp_stat_state (port / 5)) ≠ 3 ∧
      m.get (R.mem_grp_stat_state (port / 5)) ≠ 4 ∧ (m.memP port).out = []) ∧
    (let m : Mach := (wMem []).sets [(R.mode_cur_cur, 6), (R.mem_port_stat_state 0, 10)]; let port : Nat := 0; (.memPortUp port : Instr).wf = true ∧
      m.frozen = false ∧ m.memp.upReq.contains port = false ∧ m.blkDown (48 + port) = false ∧ m.mode_ = 6 ∧
      7 ≤ m.get (R.mem_port_stat_state port) ∧ m.get (R.mem_port_stat_state port) ≤ 10) :=
  ⟨by decide, by decide, by decide, by decide, by decide +kernel, by decide +kernel, by decide, by decide, by decide, by decide,
    by decide +kernel, by decide +kernel, by decide, by decide, by decide, by decide, by decide, by decide, by decide, by decide, by decide,
    by decide, by decide⟩

/-- For each command of `Obligations.RedundancyGroups` a machine and operands that meet all its hypotheses. -/
theorem witness_RedundancyGroups :
    (let m : Mach := (wMem []).sets [(R.mem_grp_stat_state 0, 4), (R.mem_grp_stat_lost 0, 0)]; let g : Nat := 0;
      (.rebuildLine g : Instr).wf = true ∧ m.frozen = false ∧ m.get (R.mem_grp_stat_state g) = 4 ∧
      m.lineBusy (m.lineOf g (m.get (R.mem_grp_rb_ptr g))) = false ∧
      m.get (R.mem_grp_rb_ptr g) + 1 ≠ (m.memWr (5 * g + m.get (R.mem_grp_stat_lost g)) (m.get (R.mem_grp_rb_ptr g))).groupLines) ∧
    (let m : Mach := (wMem []).sets [(R.mem_cfg_scrub_h, 1)]; let g : Nat := 0; let k : Nat := 2; (.patrolScrubLine g [k] false : Instr).wf = true ∧
      m.frozen = false ∧ m.get (R.mem_grp_stat_state g) = 2 ∧ m.get R.mem_cfg_scrub_h ≠ 0 ∧
      m.lineBusy (m.lineOf g (tget m.memp.scrub g 0)) = false ∧
      ((List.range 5).all fun k => !m.pieceLost (portOf g (tget m.memp.scrub g 0) k) (tget m.memp.scrub g 0)) = true ∧ k < 5) ∧
    (let m : Mach := Mach.reset; let g : Nat := 1; (.groupInit g : Instr).wf = true ∧ m.frozen = false ∧ m.mode_ = 0 ∧ m.sealed = false ∧
      (m.get (R.mem_grp_stat_state g) = 0 ∨ m.get (R.mem_grp_stat_state g) = 2)) ∧
    (let m : Mach := ({ wHome with mem := [(0, 1)] } : Mach).sets [(R.mem_grp_ctl_init 0, 1), (R.mem_grp_stat_state 0, 1), (R.mem_port_stat_state 0, 6), (R.mem_port_stat_state 1, 6), (R.mem_port_stat_state 2, 6), (R.mem_port_stat_state 3, 6), (R.mem_port_stat_state 4, 6)];
      let g : Nat := 0; (.groupInitComplete g : Instr).wf = true ∧ m.frozen = false ∧ m.on (R.mem_grp_ctl_init g) = true ∧
      ((List.range 5).all fun p => m.get (R.mem_port_stat_state (5 * g + p)) == 6) = true) :=
  ⟨by decide +kernel, by decide, by decide, by decide⟩

/-- For each command of `Obligations.CisternCommands` a machine and operands that meet all its hypotheses. -/
theorem witness_CisternCommands :
    (let m : Mach := { wCis with cis := { wCis.cis with cmd := some 3 } }; (.cisternDiscard : Instr).wf = true ∧ m.frozen = false ∧ m.cis.cmd ≠ none) ∧
    (let m : Mach := wCis; (.cisternDiscard : Instr).wf = true ∧ m.frozen = false ∧ m.cis.cmd = none ∧ m.cisOn = true ∧
      m.on R.mem_cis_stat_ready = true ∧ m.myPage (m.get R.mem_cis_cmda_addr) = true ∧ m.pageBusy (m.get R.mem_cis_cmda_addr) = false ∧
      tfind m.cis.exp (m.get R.mem_cis_cmda_addr) = none) ∧
    (let m : Mach := wCis; (.cisternEvict : Instr).wf = true ∧ m.frozen = false ∧ m.cis.cmd = none ∧ m.cisOn = true ∧
      m.on R.mem_cis_stat_ready = true ∧ m.myPage (m.get R.mem_cis_cmda_addr) = true ∧ m.pageBusy (m.get R.mem_cis_cmda_addr) = false ∧
      tfind m.cis.exp (m.get R.mem_cis_cmda_addr) = none) ∧
    (let m : Mach := Mach.reset; (.cisternEvict : Instr).wf = true ∧ m.frozen = false ∧ m.cis.cmd = none ∧ m.cisOn = false) ∧
    (let m : Mach := wCis; (.cisternQuery : Instr).wf = true ∧ m.frozen = false ∧ m.cis.cmd = none ∧ m.cisOn = true ∧
      m.on R.mem_cis_stat_ready = true ∧ m.myPage (m.get R.mem_cis_cmda_addr) = true ∧ m.pageBusy (m.get R.mem_cis_cmda_addr) = false ∧
      tfind m.cis.exp (m.get R.mem_cis_cmda_addr) = none) ∧
    (let m : Mach := wCis.set R.mem_cis_cmda_addr 5; (.cisternQuery : Instr).wf = true ∧ m.frozen = false ∧ m.cis.cmd = none ∧ m.cisOn = true ∧
      m.on R.mem_cis_stat_ready = true ∧ m.myPage (m.get R.mem_cis_cmda_addr) = false) ∧
    (let m : Mach := wCis.set R.mem_cis_stat_ready 0; (.mapScanComplete : Instr).wf = true ∧ m.frozen = false ∧ m.cisOn = true ∧
      m.on R.mem_cis_stat_ready = false ∧ m.mapPages = [] ∧ m.home.waitq = []) ∧
    (let m : Mach := { wCis with cis := { wCis.cis with exp := [(0x100000, ⟨28, 0, 1, 0, none⟩)] } }; let page : Nat := 0x100000;
      let x : ExpPage := ⟨28, 0, 1, 0, none⟩; (.expansionComplete page : Instr).wf = true ∧ m.frozen = false ∧ tfind m.cis.exp page = some x ∧
      x.busy = 1) ∧
    (let m : Mach := { wCis with cis := { wCis.cis with waits := [(0x100000, 0)] } }; let page : Nat := 0x100000; let age : Nat := 0;
      let m1 : Mach := { wCis with cis := { wCis.cis with exp := [(0x100000, ⟨28, 0, 1, 0, none⟩)] } };
      (.expansionWaitEnd page : Instr).wf = true ∧ m.frozen = false ∧ m.cis.waits = [(page, age)] ∧
      ({ m with cis := { m.cis with waits := [] } } : Mach).chooseWay page age = some m1) ∧
    (let m : Mach := { wCis with cis := { wCis.cis with exp := [(0x100000, ⟨28, 0, 2, 1, none⟩)], cmd := some 2 } }; let page : Nat := 0x100000;
      let x : ExpPage := ⟨28, 0, 2, 1, none⟩; (.pageEvictionComplete page : Instr).wf = true ∧ m.frozen = false ∧
      tfind m.cis.exp page = some x ∧ x.busy = 2 ∧ (m.home.txn.any fun y => y.1 / 16 == page) = false ∧ x.why = 1) ∧
    (let m : Mach := { wCis with cis := { wCis.cis with exp := [(0x100000, ⟨28, 0, 2, 0, some (0x101000, 0)⟩)] } }; let page : Nat := 0x100000;
      let q : Nat := 0x101000; let age : Nat := 0; let x : ExpPage := ⟨28, 0, 2, 0, some (0x101000, 0)⟩;
      (.pageEvictionComplete page : Instr).wf = true ∧ m.frozen = false ∧ tfind m.cis.exp page = some x ∧ x.busy = 2 ∧
      (m.home.txn.any fun y => y.1 / 16 == page) = false ∧ x.why = 0 ∧ x.next = some (q, age) ∧ (m.endEvict page x).2 = true) :=
  ⟨by decide, by decide, by decide, by decide, by decide, by decide, by decide, by decide, by decide, by decide, by decide⟩

/-- For each command of `Obligations.GrottoMonitor` a machine and operands that meet all its hypotheses. -/
theorem witness_GrottoMonitor :
    (let m : Mach := (wMon 1 [] []).set R.grotto_stat_state 4; (.grottoCreate : Instr).wf = true ∧ m.frozen = false ∧ m.get R.grotto_cmd_go = 1 ∧
      m.get R.grotto_cmd_op = 1 ∧ m.get R.grotto_stat_state ≠ 2) ∧
    (let m : Mach := wMon 1 (toBytes 2 3 ++ [1, 0, 0, 0, 0, 0] ++ toBytes 8 0x18000000 ++ toBytes 4 1 ++ toBytes 4 1) []; let a : Nat := 0x1000;
      let e : Nat := 3;
      let b : List Nat := (wMon 1 (toBytes 2 3 ++ [1, 0, 0, 0, 0, 0] ++ toBytes 8 0x18000000 ++ toBytes 4 1 ++ toBytes 4 1) []).devRead 0x1000 128;
      (.grottoCreate : Instr).wf = true ∧ Monitor m 1 a b ∧ blkF b 0 2 = e ∧ e < 4096 ∧ blkF b 2 1 ≠ 0 ∧ blkF b 2 1 ≤ 16 ∧
      (m.enclave e).st = 0 ∧ m.createOk (blkF b 8 8) (blkF b 0x10 4 * 65536) (blkF b 0x14 4 * 65536) (blkF b 0x18 8) (blkF b 0x20 8) = true ∧
      m.rng = .ready) ∧
    (let m : Mach := wMon 2 [0, 3] []; let a : Nat := 0x1000; let e : Nat := 3; let b : List Nat := (wMon 2 [0, 3] []).devRead 0x1000 128;
      (.grottoAdd : Instr).wf = true ∧ Monitor m 2 a b ∧ blkF b 0 2 = e ∧ e < 4096 ∧ (m.enclave e).st ≠ 1) ∧
    (let m : Mach := wMon 2 ([0, 3] ++ List.replicate 38 0 ++ toBytes 8 0x2000000 ++ [0, 0, 0, 0] ++ [0, 0, 0, 0]) [(3, wEncl 1)];
      let a : Nat := 0x1000; let e : Nat := 3; let src : Nat := 0x2000000; let doff : Nat := 0; let n : Nat := 0;
      let b : List Nat := (wMon 2 ([0, 3] ++ List.replicate 38 0 ++ toBytes 8 0x2000000 ++ [0, 0, 0, 0] ++ [0, 0, 0, 0]) [(3, wEncl 1)]).devRead 0x1000 128;
      (.grottoAdd : Instr).wf = true ∧ Monitor m 2 a b ∧ blkF b 0 2 = e ∧ e < 4096 ∧ (m.enclave e).st = 1 ∧ blkF b 0x28 8 = src ∧
      blkF b 0x30 4 = doff ∧ blkF b 0x34 4 = n ∧ src % 4096 = 0 ∧ (doff + n) * 4096 ≤ (m.enclave e).size ∧
      m.meetsRegion src (4096 * n) = false ∧ m.devRange .hub src (4096 * n) = none) ∧
    (let m : Mach := wMon 3 [0, 3] [(3, wEncl 1)]; let a : Nat := 0x1000; let e : Nat := 3;
      let b : List Nat := (wMon 3 [0, 3] [(3, wEncl 1)]).devRead 0x1000 128; (.grottoSeal : Instr).wf = true ∧ Monitor m 3 a b ∧
      blkF b 0 2 = e ∧ e < 4096 ∧ (m.enclave e).st = 1) ∧
    (let m : Mach := wMon 4 [0, 3] [(3, { wEncl 2 with size := 0 })]; let a : Nat := 0x1000; let e : Nat := 3;
      let b : List Nat := (wMon 4 [0, 3] [(3, { wEncl 2 with size := 0 })]).devRead 0x1000 128; (.grottoTeardown : Instr).wf = true ∧
      Monitor m 4 a b ∧ blkF b 0 2 = e ∧ e < 4096 ∧ ((m.enclave e).st = 1 ∨ (m.enclave e).st = 2) ∧
      ((m.enclave e).ctxs.any fun c => c.2.1 == .running) = false ∧ m.rng = .ready) ∧
    (let m : Mach := wMon 5 [0, 3] [(3, wEncl 1)]; let a : Nat := 0x1000; let e : Nat := 3;
      let b : List Nat := (wMon 5 [0, 3] [(3, wEncl 1)]).devRead 0x1000 128; (.grottoQuery : Instr).wf = true ∧ Monitor m 5 a b ∧
      blkF b 0 2 = e ∧ e < 4096 ∧ (m.enclave e).st < 2) ∧
    (let m : Mach := wMon 5 [0, 3] [(3, wEncl 2)]; let a : Nat := 0x1000; let e : Nat := 3;
      let b : List Nat := (wMon 5 [0, 3] [(3, wEncl 2)]).devRead 0x1000 128; (.grottoQuery : Instr).wf = true ∧ Monitor m 5 a b ∧
      blkF b 0 2 = e ∧ e < 4096 ∧ 2 ≤ (m.enclave e).st) ∧
    (let m : Mach := wMon 0 [] []; (.watchdogKick true : Instr).wf = true ∧ m.frozen = false ∧ m.get R.grotto_stat_state = 2) ∧
    (let m : Mach := Mach.reset; (.watchdogKick false : Instr).wf = true ∧ m.frozen = false) ∧
    (let m : Mach := (wMon 0 [] []).set R.grotto_cmd_go 0; (.watchdogExpiry : Instr).wf = true ∧ m.frozen = false ∧ m.get R.grotto_stat_state = 2 ∧
      m.get R.grotto_cmd_go = 0) ∧
    (let m : Mach := (wMon 0 [] [(3, wEncl 2)]).set R.grotto_stat_state 3; (.isolationComplete : Instr).wf = true ∧ m.frozen = false ∧
      (m.get R.grotto_stat_state = 3 ∨ m.get R.grotto_stat_state = 5)) ∧
    (let m : Mach := (wMon 0 [] []).sets [(R.grotto_stat_state, 3), (R.grotto_ctl_noesc, 1)]; (.isolationTimeout : Instr).wf = true ∧
      m.frozen = false ∧ m.get R.grotto_stat_state = 3 ∧ m.on R.grotto_ctl_noesc = true) ∧
    (let m : Mach := (wMon 0 [] []).set R.grotto_stat_state 3; (.isolationTimeout : Instr).wf = true ∧ m.frozen = false ∧
      m.get R.grotto_stat_state = 3 ∧ m.on R.grotto_ctl_noesc = false) ∧
    (let m : Mach := Mach.reset; let cert : List Nat := [1, 2, 3]; (.debugCertificate cert : Instr).wf = true ∧ m.frozen = false ∧
      m.certResult cert ≠ 1) ∧
    (let m : Mach := Mach.reset.set R.grotto_dbg_f_ni 1; (.debugEnablesClear : Instr).wf = true ∧ m.frozen = false) :=
  ⟨by decide, by decide +kernel, by decide +kernel, by decide +kernel, by decide +kernel, by decide +kernel, by decide +kernel, by decide +kernel,
    by decide, by decide, by decide, by decide, by decide, by decide, by decide, by decide⟩

/-- For each command of `Obligations.InstanceCommands` a machine and operands that meet all its hypotheses. -/
theorem witness_InstanceCommands :
    (let m : Mach := Mach.reset.set (R.u_ictl_go 0 0) 1; let u : Nat := 0; let i : Nat := 0; (.instanceAssign u i : Instr).wf = true ∧
      m.frozen = false ∧ m.get (R.u_ictl_go u i) = 1) ∧
    (let m : Mach := Mach.reset; let u : Nat := 0; let i : Nat := 0; (.instanceAssign u i : Instr).wf = true ∧ m.frozen = false ∧
      m.get (R.u_ictl_go u i) = 0 ∧ (instTaken m u i 1).iAsg u i = false ∧
      ((List.range 64).any fun j => j != i && (instTaken m u i 1).iAsg u j && (instTaken m u i 1).get (R.u_ittr2_part u j) == (instTaken m u i 1).get (R.u_ittr2_part u i)) = false) ∧
    (let m : Mach := wAcc 0 0 []; let u : Nat := 0; let i : Nat := 0; (.instanceEnable u i : Instr).wf = true ∧ m.frozen = false ∧
      m.get (R.u_ictl_go u i) = 0 ∧ u < 2 ∧ (instTaken m u i 2).iAsg u i = true ∧ (instTaken m u i 2).iState u i = 0 ∧ m.mode.stage < 3) ∧
    (let m : Mach := (wAcc 2 0 []).set (R.cryu_kpol_wkset 0 0) 1; let u : Nat := 2; let i : Nat := 0; (.instanceEnable u i : Instr).wf = true ∧
      m.frozen = false ∧ m.get (R.u_ictl_go u i) = 0 ∧ 2 ≤ u ∧ (instTaken m u i 2).iAsg u i = true ∧ (instTaken m u i 2).iState u i = 0 ∧
      m.mode.stage < 3 ∧ (((instTaken m u i 2).set (R.u_ictl_state u i) 1).drawBytes 32).2.on (R.cryu_kpol_wkset (u - 2) i) = true ∧
      ((instTaken m u i 2).set (R.u_ictl_state u i) 1).on (R.cryu_kpol_wkset (u - 2) i) = true) ∧
    (let m : Mach := wAcc 1 1 []; let u : Nat := 1; let i : Nat := 0; (.instanceQuiesce u i : Instr).wf = true ∧ m.frozen = false ∧
      m.get (R.u_ictl_go u i) = 0 ∧ (instTaken m u i 3).iState u i = 1) ∧
    (let m : Mach := wAcc 1 0 []; let u : Nat := 1; let i : Nat := 0; (.instanceQuiesce u i : Instr).wf = true ∧ m.frozen = false ∧
      m.get (R.u_ictl_go u i) = 0 ∧ (instTaken m u i 3).iState u i ≠ 1) ∧
    (let m : Mach := wAcc 1 2 []; let u : Nat := 1; let i : Nat := 0; (.instanceQuiesced u i : Instr).wf = true ∧ m.frozen = false ∧
      m.iState u i = 2 ∧ (m.inst u i).q = [] ∧ m.recWaits u i = false) ∧
    (let m : Mach := wAcc 1 3 []; let u : Nat := 1; let i : Nat := 0; (.instanceResume u i : Instr).wf = true ∧ m.frozen = false ∧
      m.get (R.u_ictl_go u i) = 0 ∧ (instTaken m u i 4).iState u i = 3) ∧
    (let m : Mach := wAcc 1 3 [⟨0, [], none⟩]; let u : Nat := 1; let i : Nat := 0; (.instanceReset u i : Instr).wf = true ∧ m.frozen = false ∧
      m.get (R.u_ictl_go u i) = 0 ∧ u < 2 ∧ (instTaken m u i 5).iState u i = 3) ∧
    (let m : Mach := wAcc 1 0 []; let u : Nat := 1; let i : Nat := 0; (.instanceRemove u i : Instr).wf = true ∧ m.frozen = false ∧
      m.get (R.u_ictl_go u i) = 0 ∧ u < 2 ∧ (instTaken m u i 6).iState u i = 0 ∧ (instTaken m u i 6).iAsg u i = true) ∧
    (let m : Mach := ((wAcc 1 3 []).onInst 1 0 fun x => { x with stream := some (Stream.new 1 1) }).sets [(R.u_isave_addr 1 0, 16)];
      let u : Nat := 1; let i : Nat := 0; let x : Stream := Stream.new 1 1; (.instanceSave u i : Instr).wf = true ∧ m.frozen = false ∧
      m.get (R.u_ictl_go u i) = 0 ∧ u < 2 ∧ (instTaken m u i 7).iState u i = 3 ∧ ((instTaken m u i 7).inst u i).stream = some x ∧
      (instTaken m u i 7).devRange .acc ((instTaken m u i 7).get (R.u_isave_addr u i) * 256) 40960 = none) ∧
    (let m : Mach := wAcc 1 3 []; let u : Nat := 1; let i : Nat := 0; (.instanceSave u i : Instr).wf = true ∧ m.frozen = false ∧
      m.get (R.u_ictl_go u i) = 0 ∧ u < 2 ∧ (instTaken m u i 7).iState u i = 3 ∧ ((instTaken m u i 7).inst u i).stream = none) ∧
    (let m : Mach := (wAcc 1 0 []).set (R.u_isave_addr 1 0) 16; let u : Nat := 1; let i : Nat := 0; (.instanceRestore u i : Instr).wf = true ∧
      m.frozen = false ∧ m.get (R.u_ictl_go u i) = 0 ∧ u < 2 ∧ (instTaken m u i 8).iState u i = 0 ∧ (instTaken m u i 8).iAsg u i = true ∧
      (instTaken m u i 8).devRange .acc ((instTaken m u i 8).get (R.u_isave_addr u i) * 256) 40960 = none ∧
      (instTaken m u i 8).devPoison ((instTaken m u i 8).get (R.u_isave_addr u i) * 256) 40960 = false) ∧
    (let m : Mach := wAcc 2 0 []; let u : Nat := 2; let i : Nat := 0; (.instanceRestore u i : Instr).wf = true ∧ m.frozen = false ∧
      m.get (R.u_ictl_go u i) = 0 ∧ 2 ≤ u) ∧
    (let m : Mach := Mach.reset; let u : Nat := 1; let i : Nat := 0; let val : Nat := 0x12345002;
      (.instanceRootWrite u i true val : Instr).wf = true ∧ m.frozen = false ∧ m.get (R.cmpu_i_stat_queued u i) = 0 ∧
      m.acceptsLv (bits val 1 0) = true) ∧
    (let m : Mach := wAcc 1 1 [⟨0, [], none⟩]; let u : Nat := 1; let i : Nat := 0; let val : Nat := 0x12345002;
      (.instanceRootWrite u i true val : Instr).wf = true ∧ m.frozen = false ∧ m.get (R.cmpu_i_stat_queued u i) ≠ 0) ∧
    (let m : Mach := Mach.reset; let u : Nat := 1; let i : Nat := 0; let val : Nat := 0x12345002;
      (.instanceRootWrite u i false val : Instr).wf = true ∧ m.frozen = false ∧ m.get (R.u_ictl_state u i) = 0 ∧
      m.acceptsLv (bits val 1 0) = true) :=
  ⟨by decide, by decide, by decide, by decide, by decide, by decide, by decide, by decide, by decide, by decide, by decide, by decide, by decide,
    by decide, by decide, by decide, by decide⟩

/-- For each command of `Obligations.AcceleratorRequests` a machine and operands that meet all its hypotheses. -/
theorem witness_AcceleratorRequests :
    (let m : Mach := wSub 0 [1, 1]; let u : Nat := 0; let i : Nat := 0; let addr : Nat := 0x1000;
      let m1 : Mach := ((wSub 0 [1, 1]).accRead 0 0 0x1000 64).1; let hdr : List Nat := [1, 1] ++ List.replicate 62 0;
      (.cmpSubmit u i addr : Instr).wf = true ∧ m.frozen = false ∧ (m.accRead u i (addr / 128 * 128) 64).1 = m1 ∧
      (m.accRead u i (addr / 128 * 128) 64).2.1 = hdr ∧ (m.accRead u i (addr / 128 * 128) 64).2.2.isNone = true ∧ m1.submitRefusal u i = none ∧
      cmpBad hdr = false) ∧
    (let m : Mach := (wSub 0 [1, 1]).set (R.u_ictl_state 0 0) 0; let u : Nat := 0; let i : Nat := 0; let addr : Nat := 0x1000; let st : Nat := 0x11;
      let m1 : Mach := (((wSub 0 [1, 1]).set (R.u_ictl_state 0 0) 0).accRead 0 0 0x1000 64).1;
      let hdr : List Nat := [1, 1] ++ List.replicate 62 0; (.cmpSubmit u i addr : Instr).wf = true ∧ m.frozen = false ∧
      (m.accRead u i (addr / 128 * 128) 64).1 = m1 ∧ (m.accRead u i (addr / 128 * 128) 64).2.1 = hdr ∧
      (m.accRead u i (addr / 128 * 128) 64).2.2.isNone = true ∧ m1.submitRefusal u i = some st) ∧
    (let m : Mach := wSub 0 [9, 1]; let u : Nat := 0; let i : Nat := 0; let addr : Nat := 0x1000;
      let m1 : Mach := ((wSub 0 [9, 1]).accRead 0 0 0x1000 64).1; let hdr : List Nat := [9, 1] ++ List.replicate 62 0;
      (.cmpSubmit u i addr : Instr).wf = true ∧ m.frozen = false ∧ (m.accRead u i (addr / 128 * 128) 64).1 = m1 ∧
      (m.accRead u i (addr / 128 * 128) 64).2.1 = hdr ∧ (m.accRead u i (addr / 128 * 128) 64).2.2.isNone = true ∧ m1.submitRefusal u i = none ∧
      cmpBad hdr = true) ∧
    (let m : Mach := wSub 2 wHash; let u : Nat := 0; let i : Nat := 0; let addr : Nat := 0x1000;
      let m1 : Mach := ((wSub 2 wHash).accRead 2 0 0x1000 64).1;
      let m2 : Mach := (((wSub 2 wHash).accRead 2 0 0x1000 64).1.cryAccept 2 0 (wHash ++ List.replicate (64 - wHash.length) 0)).1;
      let hdr : List Nat := wHash ++ List.replicate (64 - wHash.length) 0; (.crySubmit u i addr : Instr).wf = true ∧ m.frozen = false ∧
      (m.accRead (2 + u) i (addr / 128 * 128) 64).1 = m1 ∧ (m.accRead (2 + u) i (addr / 128 * 128) 64).2.1 = hdr ∧
      (m.accRead (2 + u) i (addr / 128 * 128) 64).2.2.isNone = true ∧ m1.submitRefusal (2 + u) i = none ∧
      m1.cryAccept (2 + u) i hdr = (m2, none)) ∧
    (let m : Mach := wSub 2 [255]; let u : Nat := 0; let i : Nat := 0; let addr : Nat := 0x1000; let st : Nat := 0x13;
      let m1 : Mach := ((wSub 2 [255]).accRead 2 0 0x1000 64).1; let m2 : Mach := ((wSub 2 [255]).accRead 2 0 0x1000 64).1;
      let hdr : List Nat := [255] ++ List.replicate 63 0; (.crySubmit u i addr : Instr).wf = true ∧ m.frozen = false ∧
      (m.accRead (2 + u) i (addr / 128 * 128) 64).1 = m1 ∧ (m.accRead (2 + u) i (addr / 128 * 128) 64).2.1 = hdr ∧
      (m.accRead (2 + u) i (addr / 128 * 128) 64).2.2.isNone = true ∧ m1.submitRefusal (2 + u) i = none ∧
      m1.cryAccept (2 + u) i hdr = (m2, some st)) ∧
    (let m : Mach := wAcc 0 1 [⟨0x1000, [1, 1], some 30000⟩]; let u : Nat := 0; let i : Nat := 0; let k : Nat := 30000;
      let r : AccReq := ⟨0x1000, [1, 1], some 30000⟩; let rest : List AccReq := []; (.rotationSlot u i 0 : Instr).wf = true ∧ m.frozen = false ∧
      u < 2 ∧ m.verdict (2175 + 16 * u) 2 0 = (m, 0) ∧ (m.inst u i).q = r :: rest ∧ r.left = some k ∧ 24576 < k) ∧
    (let m : Mach := wAcc 0 1 [⟨0x1000, [1, 1] ++ List.replicate 62 0, some 3⟩]; let u : Nat := 0; let i : Nat := 0; let k : Nat := 3;
      let r : AccReq := ⟨0x1000, [1, 1] ++ List.replicate 62 0, some 3⟩; let rest : List AccReq := []; (.rotationSlot u i 0 : Instr).wf = true ∧
      m.frozen = false ∧ u < 2 ∧ m.verdict (2175 + 16 * u) 2 0 = (m, 0) ∧ (m.inst u i).q = r :: rest ∧ r.left = some k ∧ k ≤ 24576) ∧
    (let m : Mach := wAcc 2 1 []; let u : Nat := 2; let i : Nat := 0; (.rotationSlot u i 2 : Instr).wf = true ∧ m.frozen = false ∧ 2 ≤ u ∧
      m.verdict (2175 + 16 * u + 4) 2 2 = (m, 2)) ∧
    (let m : Mach := (wAcc 0 1 [⟨0x1000, [1, 1] ++ List.replicate 62 0, none⟩]); let u : Nat := 0; let i : Nat := 0;
      (.cmpAbort u i : Instr).wf = true ∧ m.frozen = false) ∧
    (let m : Mach := (wAcc 2 1 [⟨0x1000, [1, 1] ++ List.replicate 62 0, none⟩]); let u : Nat := 0; let i : Nat := 0;
      (.cryAbort u i : Instr).wf = true ∧ m.frozen = false) ∧
    (let m : Mach := wAcc 2 0 []; let u : Nat := 0; let i : Nat := 0; let val : Nat := 77; (.wrappingKeyLoad u i val : Instr).wf = true ∧
      m.frozen = false ∧ m.get (R.u_ictl_state (2 + u) i) = 0 ) ∧
    (let m : Mach := wAcc 2 1 []; let u : Nat := 0; let i : Nat := 0; let val : Nat := 77; (.wrappingKeyLoad u i val : Instr).wf = true ∧
      m.frozen = false ∧ m.get (R.u_ictl_state (2 + u) i) ≠ 0 ) ∧
    (let m : Mach := Mach.reset; let u : Nat := 1; (.entropyHealthFailure u : Instr).wf = true ∧ m.frozen = false ∧ m.get (R.cryu_rbg_state u) ≠ 3) ∧
    (let m : Mach := Mach.reset.set (R.cryu_rbg_state 1) 2; let u : Nat := 1; (.entropyRestartEnd u true : Instr).wf = true ∧ m.frozen = false ∧
      (m.get (R.cryu_rbg_state u) = 0 ∨ m.get (R.cryu_rbg_state u) = 2)) ∧
    (let m : Mach := ({ Mach.reset with acc := { Mach.reset.acc with rbgFails := [(1, 2)] } } : Mach).set (R.cryu_rbg_state 1) 2; let u : Nat := 1;
      (.entropyRestartEnd u false : Instr).wf = true ∧ m.frozen = false ∧ (m.get (R.cryu_rbg_state u) = 0 ∨ m.get (R.cryu_rbg_state u) = 2) ∧
      2 ≤ tget m.acc.rbgFails u 0) ∧
    (let m : Mach := ({ Mach.reset with shoot := { Mach.reset.shoot with mtu := [⟨5, 0x18, 0, 0, 0, []⟩] }, thr := [(0, { wRun with removals := [⟨5, 0x18, 0, 0, 0, [48]⟩] })] } : Mach);
      let id : Nat := 5; let r : Removal := ⟨5, 0x18, 0, 0, 0, []⟩; let rest : List Removal := []; (.mtuRemoval id : Instr).wf = true ∧
      m.frozen = false ∧ m.shoot.mtu = r :: rest ∧ r.id = id) ∧
    (let m : Mach := wHome.setLog 0 [⟨5, 77⟩]; let u : Nat := 0; let line : Nat := 5; let y : LogLine := ⟨5, 77⟩;
      (.logCacheWriteback u line : Instr).wf = true ∧ m.frozen = false ∧ ((tget m.acc.log u []).find? fun y => y.line == line) = some y) :=
  ⟨by decide +kernel, by decide +kernel, by decide +kernel, by decide +kernel, by decide +kernel, by decide, by decide, by decide, by decide,
    by decide, by decide, by decide, by decide, by decide, by decide, by decide, by decide +kernel⟩

/-- For each command of `Obligations.ChannelFunctions` a machine and operands that meet all its hypotheses. -/
theorem witness_ChannelFunctions :
    (let m : Mach := wChan 3 []; let p : Nat := 0; let addr : Nat := 0x1000; let pend : Nat := 0; let st : Nat := 0x13; let d : Nat := 0;
      (.channelSubmit p addr pend : Instr).wf = true ∧ m.frozen = false ∧ (blockRead m p addr pend).2.2.isNone = true ∧
      (blockRead m p addr pend).1.fnRefusal p pend (blockRead m p addr pend).2.1 = some (st, d) ∧ st ≠ 0x12 ∧ st ≠ 0x16) ∧
    (let m : Mach := wPut (wChan 3 []) 0x1000 [1, 0, 0, 0, 0, 0, 0, 9, 0, 0, 0, 0, 0, 0, 0, 0, 0, 0, 0, 0, 0, 0, 0x40, 0]; let p : Nat := 0;
      let addr : Nat := 0x1000; let pend : Nat := 0; (.channelSubmit p addr pend : Instr).wf = true ∧ m.frozen = false ∧
      (blockRead m p addr pend).2.2.isNone = true ∧ (blockRead m p addr pend).1.fnRefusal p pend (blockRead m p addr pend).2.1 = none ∧
      hdrF (blockRead m p addr pend).2.1 0 1 = 1) ∧
    (let m : Mach := Mach.reset; let scid : Nat := 5; (.subchannelDefine scid : Instr).wf = true ∧ m.frozen = false ∧ m.chan.tableOk = false) ∧
    (let m : Mach := wPut (wChan 0 []) 0x1000 ([1, 0, 1, 0] ++ List.replicate 12 0 ++ [5, 0, 0, 9]); let scid : Nat := 7; let a : Nat := 0x1000;
      (.subchannelDefine scid : Instr).wf = true ∧ m.frozen = false ∧ m.chan.tableOk = true ∧
      a = (subTaken m scid 1 0).get R.chan_scmda_addr * 128 ∧
      ((subTaken m scid 1 0).desc scid).elim false (fun d => d.valid && d.enabled) = false ∧ (subTaken m scid 1 0).devRange .acc a 64 = none ∧
      (subTaken m scid 1 0).devPoison a 64 = false ∧ descBad ((subTaken m scid 1 0).devRead a 64) = false) ∧
    (let m : Mach := wChan 1 []; let scid : Nat := 0;
      let d : ChDesc := chDesc ([1, 0, 1, 0] ++ List.replicate 12 0 ++ [4, 0, 0, 1] ++ List.replicate 44 0);
      (.subchannelEnable scid : Instr).wf = true ∧ m.frozen = false ∧ m.chan.tableOk = true ∧ (subTaken m scid 2 0).sctBad scid = false ∧
      (subTaken m scid 2 0).desc scid = some d ∧ d.valid = true ∧ d.enabled = false) ∧
    (let m : Mach := wChan 3 []; let scid : Nat := 0;
      let d : ChDesc := chDesc ([3, 0, 1, 0] ++ List.replicate 12 0 ++ [4, 0, 0, 1] ++ List.replicate 44 0);
      (.subchannelDisable scid : Instr).wf = true ∧ m.frozen = false ∧ m.chan.tableOk = true ∧ (subTaken m scid 3 0).sctBad scid = false ∧
      (subTaken m scid 3 0).desc scid = some d ∧ d.valid = true ∧ d.enabled = true ∧ (subTaken m scid 3 0).subIdle scid = true) ∧
    (let m : Mach := wChan 3 [wOp]; let scid : Nat := 0;
      let d : ChDesc := chDesc ([3, 0, 1, 0] ++ List.replicate 12 0 ++ [4, 0, 0, 1] ++ List.replicate 44 0);
      (.subchannelDisable scid : Instr).wf = true ∧ m.frozen = false ∧ m.chan.tableOk = true ∧ (subTaken m scid 3 0).sctBad scid = false ∧
      (subTaken m scid 3 0).desc scid = some d ∧ d.valid = true ∧ d.enabled = true ∧ (subTaken m scid 3 0).subIdle scid = false) ∧
    (let m : Mach := wChan 3 []; let scid : Nat := 0; let a : Nat := 0x1000; (.subchannelQuery scid : Instr).wf = true ∧ m.frozen = false ∧
      m.chan.tableOk = true ∧ (subTaken m scid 4 0).sctBad scid = false ∧ a = (subTaken m scid 4 0).get R.chan_scmda_addr * 128 ∧
      (subTaken m scid 4 0).devRange .acc a 128 = none) ∧
    (let m : Mach := wChan 3 []; let path : Nat := 0; let scid : Nat := 0;
      let d : ChDesc := chDesc ([3, 0, 1, 0] ++ List.replicate 12 0 ++ [4, 0, 0, 1] ++ List.replicate 44 0);
      (.varyOffline scid path : Instr).wf = true ∧ m.frozen = false ∧ m.chan.tableOk = true ∧ (subTaken m scid 5 path).sctBad scid = false ∧
      (subTaken m scid 5 path).desc scid = some d ∧ d.valid = true ∧ path < d.n ∧ (subTaken m scid 5 path).leavesNone scid path = false) ∧
    (let m : Mach := wChan 3 []; let path : Nat := 3; let scid : Nat := 0;
      let d : ChDesc := chDesc ([3, 0, 1, 0] ++ List.replicate 12 0 ++ [4, 0, 0, 1] ++ List.replicate 44 0);
      (.varyOffline scid path : Instr).wf = true ∧ m.frozen = false ∧ m.chan.tableOk = true ∧ (subTaken m scid 5 path).sctBad scid = false ∧
      (subTaken m scid 5 path).desc scid = some d ∧ d.valid = true ∧ d.n ≤ path) ∧
    (let m : Mach := (wChan 3 []).setPath 0 0 ⟨3, 5, false⟩; let path : Nat := 0; let scid : Nat := 0;
      let d : ChDesc := chDesc ([3, 0, 1, 0] ++ List.replicate 12 0 ++ [4, 0, 0, 1] ++ List.replicate 44 0);
      (.varyOnline scid path : Instr).wf = true ∧ m.frozen = false ∧ m.chan.tableOk = true ∧ (subTaken m scid 6 path).sctBad scid = false ∧
      (subTaken m scid 6 path).desc scid = some d ∧ d.valid = true ∧ path < d.n ∧ ((subTaken m scid 6 path).pathSt scid path).st = 3) ∧
    (let m : Mach := wChan 1 []; let scid : Nat := 0;
      let d : ChDesc := chDesc ([1, 0, 1, 0] ++ List.replicate 12 0 ++ [4, 0, 0, 1] ++ List.replicate 44 0);
      (.subchannelUndefine scid : Instr).wf = true ∧ m.frozen = false ∧ m.chan.tableOk = true ∧ (subTaken m scid 7 0).sctBad scid = false ∧
      (subTaken m scid 7 0).desc scid = some d ∧ d.valid = true ∧ d.enabled = false) ∧
    (let m : Mach := wChan 3 [{ wOp with unconf := true, due := .halt }]; let slot : Nat := 2;
      let x : ChOp := { wOp with unconf := true, due := .halt }; (.recordConfirmed slot 0 : Instr).wf = true ∧ m.frozen = false ∧
      m.opOf slot = some x ∧ x.unconf = true ∧ x.mack = false ∧ x.slot = slot ∧ x.due = .halt) ∧
    (let m : Mach := wChan 3 [{ wOp with st := 2, path := 255 }]; let slot : Nat := 2; let x : ChOp := { wOp with st := 2, path := 255 };
      (.holdExpired slot : Instr).wf = true ∧ m.frozen = false ∧ m.opOf slot = some x ∧ x.st = 2 ∧ (m.cpOf x.scid).isSome = true) ∧
    (let m : Mach := wChan 3 [{ wOp with run := .busy }]; let slot : Nat := 2; let scid : Nat := 0; let x : ChOp := { wOp with run := .busy };
      (.exchangeTimeout slot scid : Instr).wf = true ∧ m.frozen = false ∧ slot ≠ 0 ∧ m.opOf slot = some x ∧ x.path < 8 ∧ x.st = 1 ∧
      x.run = .busy) ∧
    (let m : Mach := (wChan 3 []).setPath 0 0 ⟨2, 2, false⟩; let scid : Nat := 0; let k : Nat := 0; let port : Nat := 4;
      (.pathProbeInterval scid k : Instr).wf = true ∧ m.frozen = false ∧ (m.pathSt scid k).st = 2 ∧
      port = (m.desc scid).elim 255 (fun d => pathPort d.paths k) ∧ m.jlChan port = true ∧ m.jlUp port = true) ∧
    (let m : Mach := wChan 3 [{ wOp with run := .wait, busy := [0] }]; let slot : Nat := 2; let k : Nat := 0;
      let x : ChOp := { wOp with run := .wait, busy := [0] }; (.deviceBusyWaitEnd slot : Instr).wf = true ∧ m.frozen = false ∧
      m.opOf slot = some x ∧ x.run = .wait ∧ x.busy.head? = some k ∧ m.usable x k = true) :=
  ⟨by decide +kernel, by decide +kernel, by decide, by decide +kernel, by decide +kernel, by decide +kernel, by decide +kernel, by decide,
    by decide +kernel, by decide +kernel, by decide +kernel, by decide +kernel, by decide, by decide, by decide, by decide +kernel,
    by decide +kernel⟩

/-- For each command of `Obligations.ChannelFrames` a machine and operands that meet all its hypotheses. -/
theorem witness_ChannelFrames :
    (let m : Mach := wChan 3 [{ wOp with run := .cmd, word := some ⟨0x4000, 1, 9, false, false, []⟩ }]; let slot : Nat := 2;
      let x : ChOp := { wOp with run := .cmd, word := some ⟨0x4000, 1, 9, false, false, []⟩ };
      let w : ChWord := ⟨0x4000, 1, 9, false, false, []⟩; (.cmd slot : Instr).wf = true ∧ m.frozen = false ∧ m.opOf slot = some x ∧
      x.word = some w ∧ w.mark = false ∧ x.st = 1 ∧ x.run = .cmd ∧ x.path < 8 ∧ m.jlUp (pathPort x.paths x.path) = true) ∧
    (let m : Mach := wChan 3 [{ wOp with run := .busy, word := some ⟨0x4000, 2, 9, false, false, [(0x5000, 8, false)]⟩ }]; let slot : Nat := 2;
      let x : ChOp := { wOp with run := .busy, word := some ⟨0x4000, 2, 9, false, false, [(0x5000, 8, false)]⟩ };
      let w : ChWord := ⟨0x4000, 2, 9, false, false, [(0x5000, 8, false)]⟩;
      let m1 : Mach := ((wChan 3 [{ wOp with run := .busy, word := some ⟨0x4000, 2, 9, false, false, [(0x5000, 8, false)]⟩ }]).readPieces 0 [(0x5000, 8, false)]).1;
      let b : List Nat := List.replicate 8 0; (.wdata slot : Instr).wf = true ∧ m.frozen = false ∧ m.opOf slot = some x ∧ x.word = some w ∧
      w.kind = 2 ∧ x.moved < w.total ∧ x.st = 1 ∧ x.run = .busy ∧ m.jlUp (pathPort x.paths x.path) = true ∧
      (m.readPieces x.part (extPieces w.exts x.moved (min 4096 (w.total - x.moved)))).2.2.isNone = true ∧
      (m.readPieces x.part (extPieces w.exts x.moved (min 4096 (w.total - x.moved)))).1 = m1 ∧
      (m.readPieces x.part (extPieces w.exts x.moved (min 4096 (w.total - x.moved)))).2.1 = b) ∧
    (let m : Mach := wChan 3 [{ wOp with run := .halt }]; let slot : Nat := 2; let x : ChOp := { wOp with run := .halt };
      (.halt slot : Instr).wf = true ∧ m.frozen = false ∧ m.opOf slot = some x ∧ x.run = .halt ∧ x.unconf = false ∧ x.st = 1 ∧ x.path < 8 ∧
      m.jlUp (pathPort x.paths x.path) = true) ∧
    (let m : Mach := (wChan 3 []).setSub 0 ⟨[⟨1, 0, false⟩], 7, none, some ⟨0x3000, 7, 0, false⟩, some (0, 0, false)⟩; let k : Nat := 0;
      let scid : Nat := 0; let d : ChDesc := chDesc ([3, 0, 1, 0] ++ List.replicate 12 0 ++ [4, 0, 0, 1] ++ List.replicate 44 0);
      (.clear 0 scid : Instr).wf = true ∧ m.frozen = false ∧ (m.sub scid).clrPath = some (k, 0, false) ∧ m.desc scid = some d ∧
      (m.pathSt scid k).st = 1 ∧ m.jlUp (pathPort d.paths k) = true) ∧
    (let m : Mach := (wChan 3 []).setPath 0 0 ⟨2, 0, true⟩; let k : Nat := 0; let scid : Nat := 0;
      let d : ChDesc := chDesc ([3, 0, 1, 0] ++ List.replicate 12 0 ++ [4, 0, 0, 1] ++ List.replicate 44 0);
      (.identCmd scid k : Instr).wf = true ∧ m.frozen = false ∧ m.desc scid = some d ∧ d.valid = true ∧ d.enabled = true ∧
      (m.pathSt scid k).st = 2 ∧ (m.pathSt scid k).due = true ∧ m.jlChan (pathPort d.paths k) = true ∧ m.jlUp (pathPort d.paths k) = true) ∧
    (let m : Mach := wChan 3 [{ wOp with st := 4, run := .close }]; let slot : Nat := 2; let k : Nat := 0;
      let x : ChOp := { wOp with st := 4, run := .close }; (.close slot false : Instr).wf = true ∧ m.frozen = false ∧ m.opOf slot = some x ∧
      x.st = 4 ∧ x.run = .close ∧ x.owedClear = false ∧ x.owedHalt = false ∧ x.unconf = false ∧ m.closePath x = some k ∧
      m.jlUp (pathPort x.paths k) = true) ∧
    (let m : Mach := wChan 3 [{ wOp with run := .busy, word := some ⟨0x4000, 3, 9, false, false, [(0x5000, 8, false)]⟩ }]; let port : Nat := 4;
      let f : XFrame := { XFrame.zero with addr := 1, xid := 5, data := [1, 2, 3] };
      let x : ChOp := { wOp with run := .busy, word := some ⟨0x4000, 3, 9, false, false, [(0x5000, 8, false)]⟩ };
      let w : ChWord := ⟨0x4000, 3, 9, false, false, [(0x5000, 8, false)]⟩; (.rdata port f : Instr).wf = true ∧ m.frozen = false ∧
      m.jlUp port = true ∧ m.xchg port f = some x ∧ x.word = some w ∧ w.kind = 3 ∧ x.onDevice = true ∧ f.pos = x.ended ∧ f.a = x.moved ∧
      f.data ≠ [] ∧ (m.writePieces x.part (extPieces w.exts x.moved (min f.data.length (w.total - x.moved))) f.data).2.isNone = true) ∧
    (let m : Mach := wChan 3 [{ wOp with run := .busy, word := some ⟨0x4000, 1, 9, false, false, []⟩ }]; let port : Nat := 4;
      let f : XFrame := { XFrame.zero with addr := 1, xid := 5, dstat := 64 };
      let x : ChOp := { wOp with run := .busy, word := some ⟨0x4000, 1, 9, false, false, []⟩ };
      let w : ChWord := ⟨0x4000, 1, 9, false, false, []⟩; (.endCmd port f : Instr).wf = true ∧ m.frozen = false ∧ m.jlUp port = true ∧
      m.xchg port f = some x ∧ x.word = some w ∧ w.kind = 1 ∧ x.onDevice = true ∧ f.pos = x.ended ∧ x.run = .busy ∧ bit x.flags 1 = false ∧
      bit f.dstat 6 = true) ∧
    (let m : Mach := wChan 3 [{ wOp with run := .busy }]; let port : Nat := 4; let f : XFrame := { XFrame.zero with addr := 1, xid := 5 };
      let x : ChOp := { wOp with run := .busy }; (.busy port f : Instr).wf = true ∧ m.frozen = false ∧ m.jlUp port = true ∧
      m.xchg port f = some x ∧ x.st = 1 ∧ x.run = .busy ∧ f.pos = x.ended ∧ m.pickPath x (x.busy ++ [x.path]) = none) ∧
    (let m : Mach := wChan 3 [{ wOp with run := .wait, busy := [0] }]; let port : Nat := 4;
      let f : XFrame := { XFrame.zero with addr := 1, xid := 5 }; let x : ChOp := { wOp with run := .wait, busy := [0] };
      (.free port f : Instr).wf = true ∧ m.frozen = false ∧ m.jlUp port = true ∧ m.chan.ops = [(x.slot, x)] ∧ x.run = .wait ∧
      (m.pathSt x.scid 0).st ≠ 0 ∧ pathPort x.paths 0 = port ∧ pathAddr x.paths 0 = f.addr) ∧
    (let m : Mach := wChan 3 [{ wOp with run := .halta }]; let port : Nat := 4; let f : XFrame := { XFrame.zero with addr := 1, xid := 5 };
      let x : ChOp := { wOp with run := .halta }; (.halta port f : Instr).wf = true ∧ m.frozen = false ∧ m.jlUp port = true ∧
      m.xchg port f = some x ∧ x.run = .halta ∧ x.st = 1 ∧ x.word = none ∧ x.stop = 0) ∧
    (let m : Mach := (wChan 3 []).setSub 0 ⟨[⟨1, 0, false⟩], 7, none, some ⟨0x3000, 7, 0, false⟩, some (0, 5, true)⟩; let port : Nat := 4;
      let f : XFrame := { XFrame.zero with addr := 1, xid := 5 };
      let c : ChSub := ⟨[⟨1, 0, false⟩], 7, none, some ⟨0x3000, 7, 0, false⟩, some (0, 5, true)⟩; let k : Nat := 0;
      let d : ChDesc := chDesc ([3, 0, 1, 0] ++ List.replicate 12 0 ++ [4, 0, 0, 1] ++ List.replicate 44 0);
      (.cleara port f : Instr).wf = true ∧ m.frozen = false ∧ m.jlUp port = true ∧ m.chan.subs = [(0, c)] ∧ c.clear.isSome = true ∧
      c.clrPath = some (k, f.xid, true) ∧ m.desc 0 = some d ∧ pathPort d.paths k = port ∧ pathAddr d.paths k = f.addr) ∧
    (let m : Mach := (wChan 3 []).setPath 0 0 ⟨2, 0, false⟩; let port : Nat := 4; let f : XFrame := { XFrame.zero with addr := 1, xid := 5 };
      let sc : Nat := 0; let k : Nat := 0; (.identr port f : Instr).wf = true ∧ m.frozen = false ∧ m.jlUp port = true ∧
      m.pathsAt port f.addr = [(sc, k)]) ∧
    (let m : Mach := wChan 3 [{ wOp with run := .busy }]; let port : Nat := 4; let f : XFrame := { XFrame.zero with addr := 1, xid := 5 };
      let x : ChOp := { wOp with run := .busy }; (.rej port f : Instr).wf = true ∧ m.frozen = false ∧ m.jlUp port = true ∧
      m.xchg port f = some x ∧ (m.pathSt x.scid x.path).st = 1) ∧
    (let m : Mach := wChan 3 []; let port : Nat := 4; let f : XFrame := { XFrame.zero with addr := 1, xid := 5 }; (.keep port f : Instr).wf = true ∧
      True) ∧
    (let m : Mach := Mach.reset; let slot : Nat := 5; (.reservoirAdopt slot : Instr).wf = true ∧ m.frozen = false ∧ m.rsvOk = false ∧
      tfind m.chan.slots slot = none) ∧
    (let m : Mach := (wChan 3 []).setSlot 3 (some 5); let slot : Nat := 3; (.reservoirAdopt slot : Instr).wf = true ∧ m.frozen = false ∧
      (rsvTaken m slot 1).rsvOk = true ∧ slot < (rsvTaken m slot 1).rsvSlots ∧ tfind m.chan.slots slot = some 5) ∧
    (let m : Mach := (wChan 3 []).setSlot 3 (some 6); let slot : Nat := 3; (.reservoirRelease slot : Instr).wf = true ∧ m.frozen = false ∧
      (rsvTaken m slot 2).rsvOk = true ∧ slot < (rsvTaken m slot 2).rsvSlots ∧
      (tfind m.chan.slots slot = some 5 ∨ tfind m.chan.slots slot = some 6)) ∧
    (let m : Mach := (wChan 3 []); let slot : Nat := 3; let a : Nat := 0x1000; (.reservoirQuery slot : Instr).wf = true ∧ m.frozen = false ∧
      (rsvTaken m slot 3).rsvOk = true ∧ slot < (rsvTaken m slot 3).rsvSlots ∧ a = (rsvTaken m slot 3).get R.chan_rsv_cmda_addr * 256 ∧
      (rsvTaken m slot 3).devCheck .chan a = none) :=
  ⟨by decide, by decide +kernel, by decide, by decide +kernel, by decide +kernel, by decide +kernel, by decide, by decide, by decide +kernel,
    by decide +kernel, by decide, by decide +kernel, by decide +kernel, by decide +kernel, by decide, by decide, by decide, by decide, by decide⟩

/-- For each command of `Obligations.JalperTraining` a machine and operands that meet all its hypotheses. -/
theorem witness_JalperTraining :
    (let m : Mach := ((wChan 3 []).set (R.chan_jl_stat_state 4) 0); let port : Nat := 4; (.jlTrainingStart port : Instr).wf = true ∧
      m.jlMayTrain port = true) ∧
    (let m : Mach := wChan 3 []; let port : Nat := 4; (.jlTrainingStart port : Instr).wf = true ∧ m.jlMayTrain port = false) ∧
    (let m : Mach := ((wChan 3 []).set (R.chan_jl_stat_state 4) 1); let port : Nat := 4; let locked : Nat := 0x0F; let w : Nat := 4;
      let first : Nat := 0; (.jlEqualisationEnd port locked : Instr).wf = true ∧ m.jlMayTrain port = true ∧ m.jlState port = 1 ∧
      widthOf ((2 ^ m.jlFull port - 1) ^^^ (locked % 2 ^ m.jlFull port)) (m.jlFull port) (m.jlFull port) = some (w, first)) ∧
    (let m : Mach := ((wChan 3 []).set (R.chan_jl_stat_state 4) 4); let port : Nat := 4; let locked : Nat := 0xF0; let w : Nat := 4;
      let first : Nat := 4; (.jlEqualisationEnd port locked : Instr).wf = true ∧ m.jlMayTrain port = true ∧ m.jlState port = 4 ∧
      widthOf ((2 ^ m.jlFull port - 1) ^^^ (locked % 2 ^ m.jlFull port)) (m.jlFull port) (m.jlFull port) = some (w, first)) ∧
    (let m : Mach := ((wChan 3 []).set (R.chan_jl_stat_state 4) 1); let port : Nat := 4; (.jlEqualisationEnd port 0 : Instr).wf = true ∧
      m.jlMayTrain port = true ∧ m.jlState port = 1) ∧
    (let m : Mach := (((wChan 3 []).set (R.chan_jl_stat_state 4) 4).onJlP 4 fun x => { x with target := 3 }); let port : Nat := 4;
      (.jlEqualisationEnd port 0 : Instr).wf = true ∧ m.jlMayTrain port = true ∧ port < 32 ∧ m.jlState port = 4 ∧ 1 < (m.jlP port).target) ∧
    (let m : Mach := ((wChan 3 []).set (R.chan_jl_stat_state 4) 2); let port : Nat := 4; let gens : Nat := 3; (.jlTs port gens : Instr).wf = true ∧
      m.jlMayTrain port = true ∧ port < 32 ∧ m.jlState port = 2) ∧
    (let m : Mach := ((wChan 3 []).set (R.chan_jl_stat_state 4) 3); let port : Nat := 4; let gens : Nat := 3; (.jlTs port gens : Instr).wf = true ∧
      m.jlMayTrain port = true ∧ m.jlState port = 3) ∧
    (let m : Mach := ({ ((wChan 3 []).set (R.chan_jl_stat_state 4) 5) with chan := (⟨false, [], [], [], []⟩ : ChanSt) } : Mach);
      let port : Nat := 4; let vendor : Nat := 1; let part : Nat := 2; let maxx : Nat := 3; let frames : Nat := 64; let cells : Nat := 4096;
      (.jlInit port vendor part maxx frames cells : Instr).wf = true ∧ m.jlMayTrain port = true ∧ m.jlState port = 5 ∧ 32 ≤ frames ∧
      1024 ≤ cells ∧ m.chan.subs = [] ∧ (m.jlP port).far ≤ (m.jlP port).target) ∧
    (let m : Mach := ((wChan 3 []).set (R.chan_jl_stat_state 4) 5); let port : Nat := 4; let vendor : Nat := 1; let part : Nat := 2;
      let maxx : Nat := 3; let frames : Nat := 31; let cells : Nat := 4096; (.jlInit port vendor part maxx frames cells : Instr).wf = true ∧
      m.jlMayTrain port = true ∧ m.jlState port = 5 ∧ (frames < 32 ∨ cells < 1024) ∧ (m.jlP port).upReq = false) ∧
    (let m : Mach := (((wChan 3 []).onJlP 4 fun x => { x with link := ⟨1, 0, [(0, 0, ⟨1, XFrame.zero⟩)], [], [3, 1024], false, []⟩ }).set (R.chan_jl_stat_state 4) 7);
      let port : Nat := 4; (.jlNarrowingDone port : Instr).wf = true ∧ m.frozen = false ∧ m.jlState port = 7 ∧ (m.jlP port).link.waiting = []) ∧
    (let m : Mach := (wChan 3 []).set R.mode_cur_cur 6; let port : Nat := 4; (.jlPortDown port : Instr).wf = true ∧ m.frozen = false ∧
      m.jlChan port = true ∧ m.mode_ = 6 ∧ (m.jlP port).upReq = false ∧ m.blkDown (80 + port) = false) ∧
    (let m : Mach := ((wChan 3 []).sets [(R.mode_cur_cur, 1), (R.chan_jl_ctl_down 4, 1)]); let port : Nat := 4;
      (.jlPortDown port : Instr).wf = true ∧ m.frozen = false ∧ m.jlChan port = true ∧ m.mode_ ≠ 6) ∧
    (let m : Mach := (((((wChan 3 []).set (R.chan_jl_stat_state 4) 10).set R.mode_cur_cur 6).onJlP 4 fun x => { x with fenced := true }));
      let port : Nat := 4; (.jlPortUp port : Instr).wf = true ∧ m.frozen = false ∧ m.jlChan port = true ∧ m.mode_ = 6 ∧
      (m.jlP port).upReq = false ∧ m.blkDown (80 + port) = false ∧ (m.jlP port).fenced = true) ∧
    (let m : Mach := ((wChan 3 []).sets [(R.mode_cur_cur, 6), (R.chan_jl_ctl_up 4, 1)]); let port : Nat := 4; (.jlPortUp port : Instr).wf = true ∧
      m.frozen = false ∧ m.jlChan port = true ∧ m.mode_ = 6 ∧ (m.jlP port).upReq = false ∧ m.blkDown (80 + port) = false ∧
      (m.jlP port).fenced = false) ∧
    (let m : Mach := (wCpl []).set R.mode_cur_cur 6; let port : Nat := 2; (.couplingPortDown port : Instr).wf = true ∧ m.frozen = false ∧
      m.mode_ = 6 ∧ (m.jlP (32 + port)).upReq = false ∧ m.blkDown (80 + (32 + port)) = false) ∧
    (let m : Mach := (((wCpl []).sets [(R.mode_cur_cur, 6), (R.cpl_p_stat_state 2, 10)]).onJlP 34 fun x => { x with fenced := true });
      let port : Nat := 2; (.couplingPortUp port : Instr).wf = true ∧ m.frozen = false ∧ m.mode_ = 6 ∧ (m.jlP (32 + port)).upReq = false ∧
      m.blkDown (80 + (32 + port)) = false ∧ (m.jlP (32 + port)).fenced = true) :=
  ⟨by decide, by decide, by decide, by decide, by decide, by decide, by decide, by decide, by decide, by decide, by decide, by decide, by decide,
    by decide, by decide, by decide, by decide⟩

/-- For each command of `Obligations.JalperLinks` a machine and operands that meet all its hypotheses. -/
theorem witness_JalperLinks :
    (let m : Mach := wChan 3 []; let port : Nat := 4; let hdr : Nat := 0; let bytes : List Nat := List.replicate 640 0; let fixed : Bool := false;
      (.jlCodeword port hdr bytes fixed false : Instr).wf = true ∧ m.frozen = false ∧ m.jlUp port = true) ∧
    (let m : Mach := wChan 3 []; let port : Nat := 4; let hdr : Nat := 0; let bytes : List Nat := List.replicate 640 0;
      (.jlCodeword port hdr bytes true true : Instr).wf = true ∧ m.frozen = false ∧ m.jlUp port = true ∧ (m.jlP port).gap = false) ∧
    (let m : Mach := (wChan 3 []).onJlP 4 fun x => { x with gap := true }; let port : Nat := 4; let hdr : Nat := 0xF0;
      let bytes : List Nat := List.replicate 640 0; (.jlCodeword port hdr bytes true true : Instr).wf = true ∧ m.frozen = false ∧
      m.jlUp port = true ∧ ((m.count (jlFeccF port)).jlP port).gap = true ∧ 9 < bits hdr 7 4) ∧
    (let m : Mach := ((wChan 3 []).onJlP 4 fun x => { x with link := ⟨1, 0, [(0, 0, ⟨1, XFrame.zero⟩)], [], [3, 1024], false, []⟩ });
      let port : Nat := 4; (.jlReplayTimeout port : Instr).wf = true ∧ m.frozen = false ∧ m.jlState port = 6 ∧ (m.jlP port).link.replay ≠ [] ∧
      ((m.jlP port).link.replay.all fun (y : Nat × Nat × TFrame) => decide (y.2.1 < 7)) = true) ∧
    (let m : Mach := ((wChan 3 []).onJlP 4 fun x => { x with link := ⟨1, 0, [(0, 7, ⟨1, XFrame.zero⟩)], [], [3, 1024], false, []⟩ });
      let port : Nat := 4; (.jlReplayTimeout port : Instr).wf = true ∧ m.frozen = false ∧ m.jlState port = 6 ∧
      ((m.jlP port).link.replay.any fun (y : Nat × Nat × TFrame) => decide (8 ≤ y.2.1 + 1)) = true) ∧
    (let m : Mach := wChan 3 []; let port : Nat := 4; (.jlReplayTimeout port : Instr).wf = true ∧ m.jlState port = 6 ∧ (m.jlP port).link.replay = []) ∧
    (let m : Mach := (wChan 3 []).jlSetWidth 4 8 0; let port : Nat := 4; let lane : Nat := 1; let w : Nat := 4; let first : Nat := 4;
      (.jlLaneFailure port lane : Instr).wf = true ∧ m.frozen = false ∧ m.jlUp port = true ∧ lane < m.jlFull port ∧
      bit (m.get (jlFailedF port)) lane = false ∧
      widthOf (m.get (jlFailedF port) ||| 2 ^ lane) (m.jlFull port) ((m.set (jlFailedF port) (m.get (jlFailedF port) ||| 2 ^ lane)).jlWidth port) = some (w, first) ∧
      w < (m.set (jlFailedF port) (m.get (jlFailedF port) ||| 2 ^ lane)).jlWidth port) ∧
    (let m : Mach := ((wChan 3 []).jlSetWidth 4 1 7).set (R.chan_jl_stat_failed 4) 0x7F; let port : Nat := 4; let lane : Nat := 7;
      (.jlLaneFailure port lane : Instr).wf = true ∧ m.frozen = false ∧ m.jlUp port = true ∧ lane < m.jlFull port ∧
      bit (m.get (jlFailedF port)) lane = false ∧
      widthOf (m.get (jlFailedF port) ||| 2 ^ lane) (m.jlFull port) ((m.set (jlFailedF port) (m.get (jlFailedF port) ||| 2 ^ lane)).jlWidth port) = none) ∧
    (let m : Mach := (wChan 3 []).jlSetWidth 4 8 0; let port : Nat := 4; let w : Nat := 2; let first : Nat := 6;
      (.jlLanemap port w first : Instr).wf = true ∧ m.frozen = false ∧ m.jlUp port = true ∧ (w = 1 ∨ w = 2 ∨ w = 4 ∨ w = 8) ∧ first % w = 0 ∧
      first + w ≤ m.jlFull port ∧ w ≤ m.jlWidth port) ∧
    (let m : Mach := wChan 3 []; let port : Nat := 4; (.jlLinkDown port : Instr).wf = true ∧ m.frozen = false ∧ m.jlUp port = true) :=
  ⟨by decide +kernel, by decide +kernel, by decide +kernel, by decide, by decide, by decide, by decide, by decide, by decide, by decide⟩

/-- For each command of `Obligations.PcieTransactions` a machine and operands that meet all its hypotheses. -/
theorem witness_PcieTransactions :
    (let m : Mach := wPcie [⟨3, 0, 0x40, 4⟩]; let port : Nat := 5; let tag : Nat := 3; let data : Nat := 0x123456789;
      let l : PcieLoad := ⟨3, 0, 0x40, 4⟩; (.pcieCompletion port tag data true false : Instr).wf = true ∧ m.frozen = false ∧ m.sealed = true ∧
      m.isRoot port = true ∧ m.pcieUp port = true ∧ ((m.pport port).loads.find? fun (x : PcieLoad) => x.tag == tag) = some l) ∧
    (let m : Mach := wPcie [⟨3, 0, 0x40, 4⟩]; let port : Nat := 5; let tag : Nat := 3; let data : Nat := 0; let l : PcieLoad := ⟨3, 0, 0x40, 4⟩;
      (.pcieCompletion port tag data true true : Instr).wf = true ∧ m.frozen = false ∧ m.sealed = true ∧ m.isRoot port = true ∧
      m.pcieUp port = true ∧ ((m.pport port).loads.find? fun (x : PcieLoad) => x.tag == tag) = some l) ∧
    (let m : Mach := wPcie [⟨3, 0, 0x40, 4⟩]; let port : Nat := 5; let tag : Nat := 3; let data : Nat := 0; let l : PcieLoad := ⟨3, 0, 0x40, 4⟩;
      (.pcieCompletion port tag data false false : Instr).wf = true ∧ m.frozen = false ∧ m.sealed = true ∧ m.isRoot port = true ∧
      m.pcieUp port = true ∧ ((m.pport port).loads.find? fun (x : PcieLoad) => x.tag == tag) = some l) ∧
    (let m : Mach := wPcie [⟨3, 0, 0x40, 4⟩]; let port : Nat := 5; let tag : Nat := 3; let l : PcieLoad := ⟨3, 0, 0x40, 4⟩;
      (.pcieCompletionTimeout port tag : Instr).wf = true ∧ m.frozen = false ∧ m.sealed = true ∧ m.isRoot port = true ∧
      ((m.pport port).loads.find? fun (x : PcieLoad) => x.tag == tag) = some l) ∧
    (let m : Mach := wPcie []; let port : Nat := 5; let rid : Nat := 1; let tag : Nat := 9; let addr : Nat := 0x4000; let len : Nat := 64;
      let pa : Nat := 0x4000; let m1 : Mach := ((wPcie []).decodeIn 5 0x4000 false false).1;
      (.pcieInboundMemoryRead port rid tag addr len : Instr).wf = true ∧ m.frozen = false ∧ m.sealed = true ∧ m.isRoot port = true ∧
      m.pcieUp port = true ∧ m.blkDown (80 + port) = false ∧ 0 < len ∧ addr % 4096 + len ≤ 4096 ∧
      (m.decodeIn port addr false false) = (m1, .at_ pa) ∧ m1.devPoison pa len = false) ∧
    (let m : Mach := wPcie []; let port : Nat := 5; let rid : Nat := 1; let tag : Nat := 9; let addr : Nat := 2 ^ 52; let len : Nat := 64;
      let c : Nat := 0xC5; let m1 : Mach := wPcie []; (.pcieInboundMemoryRead port rid tag addr len : Instr).wf = true ∧ m.frozen = false ∧
      m.sealed = true ∧ m.isRoot port = true ∧ m.pcieUp port = true ∧ m.blkDown (80 + port) = false ∧ 0 < len ∧ addr % 4096 + len ≤ 4096 ∧
      (m.decodeIn port addr false false) = (m1, .ur c)) ∧
    (let m : Mach := wPcie []; let port : Nat := 5; let rid : Nat := 1; let tag : Nat := 9; let addr : Nat := 0x4FF0; let len : Nat := 64;
      (.pcieInboundMemoryRead port rid tag addr len : Instr).wf = true ∧ m.frozen = false ∧ m.sealed = true ∧ m.isRoot port = true ∧
      m.pcieUp port = true ∧ m.blkDown (80 + port) = false ∧ 4096 < addr % 4096 + len ∧ m.on (R.pcie_p_stat_pwr port) = true) ∧
    (let m : Mach := wPcie []; let port : Nat := 5; let rid : Nat := 1; let addr : Nat := 0x4000; let bytes : List Nat := [1, 2, 3];
      let pa : Nat := 0x4000; let m1 : Mach := ((wPcie []).decodeIn 5 0x4000 true true).1;
      (.pcieInboundMemoryWrite port rid addr bytes false : Instr).wf = true ∧ m.frozen = false ∧ m.sealed = true ∧ m.isRoot port = true ∧
      m.pcieUp port = true ∧ m.blkDown (80 + port) = false ∧ bytes ≠ [] ∧ bytes.length ≤ 512 ∧ addr % 4096 + bytes.length ≤ 4096 ∧
      (m.decodeIn port addr true true) = (m1, .at_ pa)) ∧
    (let m : Mach := wPcie []; let port : Nat := 5; let rid : Nat := 1; let addr : Nat := 0x000fe00000100000; let bytes : List Nat := [0, 0, 0, 7];
      (.pcieInboundMemoryWrite port rid addr bytes false : Instr).wf = true ∧ m.frozen = false ∧ m.sealed = true ∧ m.isRoot port = true ∧
      m.pcieUp port = true ∧ m.blkDown (80 + port) = false ∧ bytes ≠ [] ∧ bytes.length ≤ 512 ∧ addr % 4096 + bytes.length ≤ 4096 ∧
      0x000fe00000100000 ≤ addr ∧ addr < 0x000fe000001f0000) ∧
    (let m : Mach := wPcie []; let port : Nat := 5; let rid : Nat := 1; let addr : Nat := 0x000fe000001f0000; let bytes : List Nat := [0, 0, 0, 7];
      (.pcieInboundMemoryWrite port rid addr bytes false : Instr).wf = true ∧ m.frozen = false ∧ m.sealed = true ∧ m.isRoot port = true ∧
      m.pcieUp port = true ∧ m.blkDown (80 + port) = false ∧ bytes ≠ [] ∧ bytes.length ≤ 512 ∧ addr % 4096 + bytes.length ≤ 4096 ∧
      0x000fe000001f0000 ≤ addr ∧ addr < 0x000fe00000200000) ∧
    (let m : Mach := wPcie []; let port : Nat := 5; let rid : Nat := 1; let tag : Nat := 9; let addr : Nat := 0x4000; let op : Nat := 0;
      let n : Nat := 8; let a : Nat := 5; let b : Nat := 0; let pa : Nat := 0x4000;
      let m1 : Mach := ((wPcie []).decodeIn 5 0x4000 true false).1; (.pcieInboundAtomicop port rid tag addr op n a b : Instr).wf = true ∧
      m.frozen = false ∧ m.sealed = true ∧ m.isRoot port = true ∧ m.pcieUp port = true ∧ m.blkDown (80 + port) = false ∧
      (n = 4 ∨ n = 8 ∨ (n = 16 ∧ op = 2)) ∧ addr % n = 0 ∧ (m.decodeIn port addr true false) = (m1, .at_ pa) ∧ m1.devPoison pa n = false) ∧
    (let m : Mach := wPcie []; let port : Nat := 5; let rid : Nat := 1; let tag : Nat := 9; let addr : Nat := 64;
      (.pcieInboundUnsupported port rid tag addr : Instr).wf = true ∧ m.frozen = false ∧ m.sealed = true ∧ m.isRoot port = true ∧
      m.pcieUp port = true ∧ m.blkDown (80 + port) = false) ∧
    (let m : Mach := wPcie []; let port : Nat := 5; let rid : Nat := 1; (.pcieErrorMessage port rid 0 : Instr).wf = true ∧ m.frozen = false ∧
      m.sealed = true ∧ m.isRoot port = true ∧ m.pcieUp port = true ∧ m.blkDown (80 + port) = false) ∧
    (let m : Mach := wPcie []; let port : Nat := 5; let rid : Nat := 1; (.pcieErrorMessage port rid 1 : Instr).wf = true ∧ m.frozen = false ∧
      m.sealed = true ∧ m.isRoot port = true ∧ m.pcieUp port = true ∧ m.blkDown (80 + port) = false) ∧
    (let m : Mach := wPcie []; let port : Nat := 5; let rid : Nat := 1; (.pcieErrorMessage port rid 2 : Instr).wf = true ∧ m.frozen = false ∧
      m.sealed = true ∧ m.isRoot port = true ∧ m.pcieUp port = true ∧ m.blkDown (80 + port) = false) :=
  ⟨by decide, by decide, by decide, by decide, by decide, by decide, by decide, by decide, by decide, by decide, by decide, by decide, by decide,
    by decide, by decide⟩

/-- For each command of `Obligations.PcieSlots` a machine and operands that meet all its hypotheses. -/
theorem witness_PcieSlots :
    (let m : Mach := wPcie []; let port : Nat := 5; (.attentionButtonPressed port true : Instr).wf = true ∧ m.frozen = false ∧ m.sealed = true ∧
      m.isRoot port = true) ∧
    (let m : Mach := (wPcie []).set (R.pcie_p_hp_abtn 5) 1; let port : Nat := 5; (.attentionButtonPressed port false : Instr).wf = true ∧
      m.frozen = false ∧ m.sealed = true ∧ m.isRoot port = true) ∧
    (let m : Mach := (wPcie []).sets [(R.pcie_p_stat_prs 5, 0), (R.pcie_p_stat_dlla 5, 0)]; let port : Nat := 5;
      (.presenceDetectChanged port true : Instr).wf = true ∧ m.frozen = false ∧ m.sealed = true ∧ m.isRoot port = true ∧
      m.on (R.pcie_p_stat_prs port) = false) ∧
    (let m : Mach := (wPcie []).sets [(R.pcie_p_stat_dlla 5, 0)]; let port : Nat := 5; (.presenceDetectChanged port false : Instr).wf = true ∧
      m.frozen = false ∧ m.sealed = true ∧ m.isRoot port = true ∧ m.on (R.pcie_p_stat_prs port) = true ∧
      m.on (R.pcie_p_stat_dlla port) = false ∧ m.on (R.pcie_p_stat_pwr port) = true) ∧
    (let m : Mach := (wPcie []).set (R.pcie_p_hp_mrl 5) 0; let port : Nat := 5; (.mrlSensorChanged port true : Instr).wf = true ∧ m.frozen = false ∧
      m.sealed = true ∧ m.isRoot port = true ∧ m.on (R.pcie_p_hp_mrl port) = false) ∧
    (let m : Mach := wPcie []; let port : Nat := 5; let closed : Bool := true; (.mrlSensorChanged port closed : Instr).wf = true ∧
      m.frozen = false ∧ m.sealed = true ∧ m.isRoot port = true ∧ m.on (R.pcie_p_hp_mrl port) = closed) ∧
    (let m : Mach := wPcie []; let port : Nat := 5; (.powerFault port true : Instr).wf = true ∧ m.frozen = false ∧ m.sealed = true ∧
      m.isRoot port = true ∧ m.on (R.pcie_p_stat_pwr port) = true) ∧
    (let m : Mach := (wPcie []).set (R.pcie_p_hp_pflt 5) 1; let port : Nat := 5; (.powerFault port false : Instr).wf = true ∧ m.frozen = false ∧
      m.sealed = true ∧ m.isRoot port = true) ∧
    (let m : Mach := (wPcie []).sets [(R.pcie_p_stat_pwr 5, 0), (R.pcie_p_stat_state 5, 4)]; let port : Nat := 5;
      (.slotPowerOn port : Instr).wf = true ∧ m.frozen = false ∧ m.sealed = true ∧ m.isRoot port = true ∧
      m.on (R.pcie_p_stat_pwr port) = false ∧ m.on (R.pcie_p_stat_cont port) = false ∧ bits (m.pport port).slotCtl 7 6 ≠ 0 ∧
      bits (m.pport port).slotCtl 9 8 ≠ 0) ∧
    (let m : Mach := wPcie []; let port : Nat := 5; (.slotPowerOff port : Instr).wf = true ∧ m.frozen = false ∧ m.sealed = true ∧
      m.isRoot port = true ∧ m.on (R.pcie_p_stat_pwr port) = true ∧ m.on (R.pcie_p_stat_cont port) = false ∧
      bits (m.pport port).slotCtl 7 6 ≠ 0 ∧ bits (m.pport port).slotCtl 9 8 ≠ 0) ∧
    (let m : Mach := wPcie []; let port : Nat := 5; let aind : Nat := 2; let pind : Nat := 1; (.indicatorChange port aind pind : Instr).wf = true ∧
      m.frozen = false ∧ m.sealed = true ∧ m.isRoot port = true ∧ aind = 2 ∧ pind = 1) ∧
    (let m : Mach := (wPcie []).sets [(R.pcie_p_hp_perst 5, 1), (R.pcie_p_stat_state 5, 0)]; let port : Nat := 5;
      (.perstRelease port : Instr).wf = true ∧ m.frozen = false ∧ m.sealed = true ∧ m.isRoot port = true ∧
      m.on (R.pcie_p_hp_pwren port) = true ∧ m.on (R.pcie_p_hp_perst port) = true ∧ m.get (R.pcie_p_stat_state port) = 0) ∧
    (let m : Mach := (wPcie []).sets [(R.pcie_p_stat_state 5, 1), (R.pcie_p_hp_perst 5, 0)]; let port : Nat := 5;
      (.noLinkTimeout port : Instr).wf = true ∧ m.frozen = false ∧ m.sealed = true ∧ m.isRoot port = true ∧
      m.on (R.pcie_p_stat_pwr port) = true ∧ m.on (R.pcie_p_hp_perst port) = false ∧ m.get (R.pcie_p_stat_state port) ≠ 2) ∧
    (let m : Mach := (wPcie []).sets [(R.pcie_p_stat_state 5, 1), (R.pcie_p_stat_dlla 5, 0)]; let port : Nat := 5; let rate : Nat := 3;
      let width : Nat := 8; let below : Bool := true; (.pcieLinkUp port rate width below : Instr).wf = true ∧ m.frozen = false ∧
      m.sealed = true ∧ m.isRoot port = true ∧ m.get (R.pcie_p_stat_state port) = 1 ∧ m.get R.pcie_ecam_res = 1 ∧ width < 32 ∧ rate < 4) ∧
    (let m : Mach := wPcie []; let port : Nat := 5; (.pcieLinkDown port : Instr).wf = true ∧ m.frozen = false ∧ m.sealed = true ∧
      m.isRoot port = true ∧ m.get (R.pcie_p_stat_state port) = 2 ∧ m.on (R.pcie_p_stat_pwr port) = true) ∧
    (let m : Mach := wPcie []; let port : Nat := 5; (.pcieLinkError port false : Instr).wf = true ∧ m.frozen = false ∧ m.sealed = true ∧
      m.isRoot port = true) ∧
    (let m : Mach := wPcie []; let port : Nat := 5; (.pcieLinkError port true : Instr).wf = true ∧ m.frozen = false ∧ m.sealed = true ∧
      m.isRoot port = true ∧ m.on (R.pcie_p_stat_pwr port) = true) ∧
    (let m : Mach := (wPcie []).contain 5 0xC9; let port : Nat := 5; (.containmentRelease port : Instr).wf = true ∧ m.frozen = false ∧
      m.sealed = true ∧ m.isRoot port = true ∧ m.on (R.pcie_p_stat_cont port) = true) :=
  ⟨by decide, by decide, by decide, by decide, by decide, by decide, by decide, by decide, by decide, by decide, by decide, by decide, by decide,
    by decide, by decide, by decide, by decide, by decide⟩

/-- For each command of `Obligations.CouplingRequests` a machine and operands that meet all its hypotheses. -/
theorem witness_CouplingRequests :
    (let m : Mach := wCpl []; let part : Nat := 0; let addr : Nat := 0x3000; let th : Nat := 96; let st : Nat := 0x13;
      (.couplingSubmit part addr th : Instr).wf = true ∧ m.frozen = false ∧ (subRead m part addr).2.2.isNone = true ∧
      (subRead m part addr).1.cplRefusal part (subRead m part addr).2.1 = some st) ∧
    (let m : Mach := wCpl []; let part : Nat := 0; let addr : Nat := 2 ^ 50; let th : Nat := 96; (.couplingSubmit part addr th : Instr).wf = true ∧
      m.frozen = false ∧ (subRead m part addr).2.2.isSome = true) ∧
    (let m : Mach := wPut (wCpl []) 0x3000 ([1, 0, 2, 1] ++ List.replicate 19 0 ++ [64]); let part : Nat := 0; let addr : Nat := 0x3000;
      let th : Nat := 96; let n : Nat := 0; (.couplingSubmit part addr th : Instr).wf = true ∧ m.frozen = false ∧
      (subRead m part addr).2.2.isNone = true ∧ (subRead m part addr).1.cplRefusal part (subRead m part addr).2.1 = none ∧
      hdrF (subRead m part addr).2.1 0 1 = 1 ∧ 96 ≤ th ∧ n = tget (subRead m part addr).1.cpl.cnt (hdrF (subRead m part addr).2.1 2 1) 0) ∧
    (let m : Mach := wCpl []; let port : Nat := 2; let a : Nat := 0x80000;
      let f : XFrame := { XFrame.zero with xid := 77, addr := 1, a := 64, data := [1, 2, 3] }; (.sreq port f : Instr).wf = true ∧
      m.frozen = false ∧ m.jlUp (32 + port) = true ∧ f.addr < 64 ∧ m.on (R.cpl_rq_en f.addr) = true ∧
      (m.get (R.cpl_rqi_prod f.addr) + 65536 - m.get (R.cpl_rqi_cons f.addr)) % 65536 < 2 ^ m.get (R.cpl_rq_lsize f.addr) ∧
      a = m.get (R.cpl_rq_base f.addr) * 8192 + 8192 * (m.get (R.cpl_rqi_prod f.addr) % 2 ^ m.get (R.cpl_rq_lsize f.addr)) ∧
      (cplPut m f.addr a (cplHead m port 1 f)).2.2.isNone = true ∧ (cplStore m port 1 a f).2.2.isNone = true) ∧
    (let m : Mach := wCpl []; let port : Nat := 2; let a : Nat := 0x80000;
      let f : XFrame := { XFrame.zero with xid := 77, addr := 1, a := 64, data := [1, 2, 3] }; (.areq port f : Instr).wf = true ∧
      m.frozen = false ∧ m.jlUp (32 + port) = true ∧ f.addr < 64 ∧ m.on (R.cpl_rq_en f.addr) = true ∧
      (m.get (R.cpl_rqi_prod f.addr) + 65536 - m.get (R.cpl_rqi_cons f.addr)) % 65536 < 2 ^ m.get (R.cpl_rq_lsize f.addr) ∧
      a = m.get (R.cpl_rq_base f.addr) * 8192 + 8192 * (m.get (R.cpl_rqi_prod f.addr) % 2 ^ m.get (R.cpl_rq_lsize f.addr)) ∧
      (cplPut m f.addr a (cplHead m port 2 f)).2.2.isNone = true ∧ (cplStore m port 2 a f).2.2.isNone = true) ∧
    (let m : Mach := wCpl []; let port : Nat := 2; let f : XFrame := { XFrame.zero with xid := 77, addr := 2 }; (.sreq port f : Instr).wf = true ∧
      m.frozen = false ∧ m.jlUp (32 + port) = true ∧ (64 ≤ f.addr ∨ m.on (R.cpl_rq_en f.addr) = false)) ∧
    (let m : Mach := (wCpl []).set (R.cpl_rqi_prod 1) 16; let port : Nat := 2; let f : XFrame := { XFrame.zero with xid := 77, addr := 1 };
      (.areq port f : Instr).wf = true ∧ m.frozen = false ∧ m.jlUp (32 + port) = true ∧ f.addr < 64 ∧ m.on (R.cpl_rq_en f.addr) = true ∧
      (m.get (R.cpl_rqi_prod f.addr) + 65536 - m.get (R.cpl_rqi_cons f.addr)) % 65536 = 2 ^ m.get (R.cpl_rq_lsize f.addr)) ∧
    (let m : Mach := wCpl [⟨2, 5, 0, 0x3000, [1, 0, 2, 1] ++ List.replicate 16 0 ++ [0, 0, 0, 64] ++ [0, 0, 0, 0, 0, 0, 0x50, 0] ++ List.replicate 32 0, some 0⟩];
      let port : Nat := 2; let f : XFrame := { XFrame.zero with xid := 5, data := [1, 2, 3] };
      let r : CplReq := ⟨2, 5, 0, 0x3000, [1, 0, 2, 1] ++ List.replicate 16 0 ++ [0, 0, 0, 64] ++ [0, 0, 0, 0, 0, 0, 0x50, 0] ++ List.replicate 32 0, some 0⟩;
      (.srsp port f : Instr).wf = true ∧ m.frozen = false ∧ m.jlUp (32 + port) = true ∧ m.cplReq port f.xid 1 = some r ∧
      ((m.whoWrite (m.cplWho r.part) (hdrF r.hdr 24 8) (f.data.take (hdrF r.hdr 20 4)))).2.2.isNone = true) ∧
    (let m : Mach := wCpl [⟨2, 5, 0, 0x3000, [2, 0, 2, 1] ++ List.replicate 16 0 ++ [0, 0, 0, 64] ++ [0, 0, 0, 0, 0, 0, 0x50, 0] ++ List.replicate 32 0, none⟩];
      let port : Nat := 2; let f : XFrame := { XFrame.zero with xid := 5, data := [1, 2, 3] };
      let r : CplReq := ⟨2, 5, 0, 0x3000, [2, 0, 2, 1] ++ List.replicate 16 0 ++ [0, 0, 0, 64] ++ [0, 0, 0, 0, 0, 0, 0x50, 0] ++ List.replicate 32 0, none⟩;
      (.arsp port f : Instr).wf = true ∧ m.frozen = false ∧ m.jlUp (32 + port) = true ∧ m.cplReq port f.xid 2 = some r ∧
      ((m.whoWrite (m.cplWho r.part) (hdrF r.hdr 24 8) (f.data.take (hdrF r.hdr 20 4)))).2.2.isNone = true) ∧
    (let m : Mach := wCpl []; let port : Nat := 2; let f : XFrame := { XFrame.zero with xid := 5, data := [1, 2, 3] };
      (.srsp port f : Instr).wf = true ∧ m.frozen = false ∧ m.jlUp (32 + port) = true ∧ m.cplReq port f.xid 1 = none) ∧
    (let m : Mach := wCpl [⟨2, 5, 0, 0x3000, [1, 0, 2, 1] ++ List.replicate 16 0 ++ [0, 0, 0, 64] ++ [0, 0, 0, 0, 0, 0, 0x50, 0] ++ List.replicate 32 0, some 0⟩];
      let port : Nat := 2; let f : XFrame := { XFrame.zero with xid := 5, data := [1, 2, 3] };
      let r : CplReq := ⟨2, 5, 0, 0x3000, [1, 0, 2, 1] ++ List.replicate 16 0 ++ [0, 0, 0, 64] ++ [0, 0, 0, 0, 0, 0, 0x50, 0] ++ List.replicate 32 0, some 0⟩;
      (.rbusy port f : Instr).wf = true ∧ m.frozen = false ∧ m.jlUp (32 + port) = true ∧
      (m.cpl.reqs.find? fun (x : CplReq) => x.port == port && x.xid == f.xid && hdrF x.hdr 0 1 != 3) = some r) ∧
    (let m : Mach := wCpl [⟨2, 5, 0, 0x3000, [1, 0, 2, 1] ++ List.replicate 16 0 ++ [0, 0, 0, 64] ++ [0, 0, 0, 0, 0, 0, 0x50, 0] ++ List.replicate 32 0, some 0⟩];
      let port : Nat := 2; let f : XFrame := { XFrame.zero with xid := 5, data := [1, 2, 3] };
      let r : CplReq := ⟨2, 5, 0, 0x3000, [1, 0, 2, 1] ++ List.replicate 16 0 ++ [0, 0, 0, 64] ++ [0, 0, 0, 0, 0, 0, 0x50, 0] ++ List.replicate 32 0, some 0⟩;
      (.rrej port f : Instr).wf = true ∧ m.frozen = false ∧ m.jlUp (32 + port) = true ∧
      (m.cpl.reqs.find? fun (x : CplReq) => x.port == port && x.xid == f.xid && hdrF x.hdr 0 1 != 3) = some r) ∧
    (let m : Mach := wCpl [⟨2, 5, 0, 0x3000, [1, 0, 2, 1] ++ List.replicate 16 0 ++ [0, 0, 0, 64] ++ [0, 0, 0, 0, 0, 0, 0x50, 0] ++ List.replicate 32 0, some 0⟩];
      let port : Nat := 2; let xid : Nat := 5;
      let r : CplReq := ⟨2, 5, 0, 0x3000, [1, 0, 2, 1] ++ List.replicate 16 0 ++ [0, 0, 0, 64] ++ [0, 0, 0, 0, 0, 0, 0x50, 0] ++ List.replicate 32 0, some 0⟩;
      (.couplingRequestTimeout port xid : Instr).wf = true ∧ m.frozen = false ∧
      (m.cpl.reqs.find? fun (x : CplReq) => x.port == port && x.xid == xid && hdrF x.hdr 0 1 != 3) = some r) :=
  ⟨by decide +kernel, by decide, by decide +kernel, by decide, by decide, by decide, by decide, by decide, by decide, by decide, by decide,
    by decide, by decide⟩

/-- For each command of `Obligations.CouplingPartners` a machine and operands that meet all its hypotheses. -/
theorem witness_CouplingPartners :
    (let m : Mach := (wCpl []).set (R.cpl_p_stat_state 2) 5; let port : Nat := 2; let sys : Nat := 11; let frames : Nat := 64;
      let cells : Nat := 4096; (.cp2Init port sys frames cells : Instr).wf = true ∧ m.jlMayTrain (32 + port) = true ∧
      m.jlState (32 + port) = 5 ∧ m.get R.cpl_sysid_id ≠ 0 ∧ sys ≠ 0 ∧ 64 ≤ frames ∧ 4096 ≤ cells) ∧
    (let m : Mach := (wCpl []).set (R.cpl_p_stat_state 2) 5; let port : Nat := 2; let sys : Nat := 0; let frames : Nat := 64;
      let cells : Nat := 4096; (.cp2Init port sys frames cells : Instr).wf = true ∧ m.jlMayTrain (32 + port) = true ∧
      m.jlState (32 + port) = 5 ∧ (m.get R.cpl_sysid_id = 0 ∨ sys = 0 ∨ frames < 64 ∨ cells < 4096) ∧ (m.jlP (32 + port)).upReq = false) ∧
    (let m : Mach := (wCpl []).set (R.cpl_mir_en 0) 0; let port : Nat := 2; let f : XFrame := { XFrame.zero with xid := 5, data := [1, 2, 3] };
      (.mupd port f : Instr).wf = true ∧ m.frozen = false ∧ m.jlUp (32 + port) = true ∧
      (List.range 4).find? (fun k => m.on (R.cpl_mir_en k) && m.get (R.cpl_mirid_sys k) == m.get (R.cpl_p_peer_sys port)) = none) ∧
    (let m : Mach := (wCpl []).set (R.cpl_mir_frozen 0) 1; let port : Nat := 2; let k : Nat := 0;
      let f : XFrame := { XFrame.zero with xid := 5, data := [1, 2, 3] }; (.mupd port f : Instr).wf = true ∧ m.frozen = false ∧
      m.jlUp (32 + port) = true ∧
      (List.range 4).find? (fun k => m.on (R.cpl_mir_en k) && m.get (R.cpl_mirid_sys k) == m.get (R.cpl_p_peer_sys port)) = some k ∧
      m.on (R.cpl_mir_frozen k) = true) ∧
    (let m : Mach := wCpl []; let port : Nat := 2; let k : Nat := 0; let f : XFrame := { XFrame.zero with a := 4096 };
      (.mupd port f : Instr).wf = true ∧ m.frozen = false ∧ m.jlUp (32 + port) = true ∧
      (List.range 4).find? (fun k => m.on (R.cpl_mir_en k) && m.get (R.cpl_mirid_sys k) == m.get (R.cpl_p_peer_sys port)) = some k ∧
      m.on (R.cpl_mir_frozen k) = false ∧ m.get (R.cpl_mir_size k) * 4096 ≤ f.a) ∧
    (let m : Mach := wCpl []; let port : Nat := 2; let k : Nat := 0; let a : Nat := 0x300000 + 256 * 2;
      let f : XFrame := { XFrame.zero with a := 2, xid := 6, data := [1, 2, 3] }; (.mupd port f : Instr).wf = true ∧ m.frozen = false ∧
      m.jlUp (32 + port) = true ∧
      (List.range 4).find? (fun k => m.on (R.cpl_mir_en k) && m.get (R.cpl_mirid_sys k) == m.get (R.cpl_p_peer_sys port)) = some k ∧
      m.on (R.cpl_mir_frozen k) = false ∧ f.a < m.get (R.cpl_mir_size k) * 4096 ∧ a = m.get (R.cpl_mir_base k) * 2 ^ 20 + 256 * f.a ∧
      m.devCheck .cpl a = none ∧ (m.devPoison a 256 || !recValid (m.devRead a 256) || decide (hdrF (m.devRead a 256) 8 8 < f.xid)) = true) ∧
    (let m : Mach := ({ wCpl [] with cpl := ⟨[], [], [(2, 9, 6, [])], []⟩ } : Mach); let port : Nat := 2;
      let f : XFrame := { XFrame.zero with a := 9, xid := 6 }; (.mack port f : Instr).wf = true ∧ m.frozen = false ∧ m.jlUp (32 + port) = true ∧
      (m.cpl.mupd.any fun (u : Nat × Nat × Nat × List Nat) => u.1 == port && u.2.1 == f.a && u.2.2.1 == f.xid) = true ∧ m.opOf f.a = none) ∧
    (let m : Mach := wCpl []; let port : Nat := 2; let f : XFrame := { XFrame.zero with xid := 5, data := [1, 2, 3] };
      (.mnak port f : Instr).wf = true ∧ m.frozen = false ∧ m.jlUp (32 + port) = true) ∧
    (let m : Mach := wCpl []; let port : Nat := 2; (.cp2Stop port : Instr).wf = true ∧ m.frozen = false ∧ m.jlUp (32 + port) = true) ∧
    (let m : Mach := (wCpl []).set (R.cpl_p_stat_state 2) 0; let port : Nat := 2; (.partnerSilent port : Instr).wf = true ∧ m.frozen = false ∧
      m.get (R.cpl_p_peer_sys port) ≠ 0 ∧
      ((List.range 18).filter fun p => m.get (R.cpl_p_peer_sys p) == m.get (R.cpl_p_peer_sys port)) = [port] ∧ m.jlUp (32 + port) = false ∧
      m.get (R.cpl_p_stat_partner port) = 1) ∧
    (let m : Mach := wCpl []; let port : Nat := 2; (.partnerSilent port : Instr).wf = true ∧ m.jlUp (32 + port) = true) ∧
    (let m : Mach := (wCpl []).sets [(R.cpl_mir_frozen 1, 1), (R.cpl_mir_release 1, 1)]; let k : Nat := 1; (.mirrorRelease k : Instr).wf = true ∧
      m.frozen = false) :=
  ⟨by decide, by decide, by decide, by decide, by decide, by decide +kernel, by decide, by decide, by decide, by decide, by decide, by decide⟩

/-- For each command of `Obligations.Doorbells` a machine and operands that meet all its hypotheses. -/
theorem witness_Doorbells :
    (let m : Mach := Mach.reset; let page : Nat := 1; let off : Nat := 6; let n : Nat := 4; let val : Nat := 5;
      (.doorbellRing page off n val : Instr).wf = true ∧ m.frozen = false ∧ ((n ≠ 4 ∧ n ≠ 8) ∨ off % n ≠ 0 ∨ 2 ^ 20 ≤ val)) ∧
    (let m : Mach := Mach.reset; let page : Nat := 1; let off : Nat := 8; let n : Nat := 8; let val : Nat := 5;
      (.doorbellRing page off n val : Instr).wf = true ∧ m.frozen = false ∧ (n = 4 ∨ n = 8) ∧ off % n = 0 ∧ val < 2 ^ 20 ∧
      (m.on (R.dbell_pg_en page) = false ∨ val < m.get (R.dbell_pg_first page) ∨ m.get (R.dbell_pg_last page) < val)) ∧
    (let m : Mach := (wBell []).set R.dbell_ttab_res 0; let page : Nat := 1; let off : Nat := 8; let n : Nat := 8; let val : Nat := 5;
      (.doorbellRing page off n val : Instr).wf = true ∧ m.frozen = false ∧ pageOk m page off n val ∧
      (m.count R.dbell_cnt_rings).get R.dbell_ttab_res ≠ 1) ∧
    (let m : Mach := wBell (toBytes 8 0x123); let page : Nat := 1; let off : Nat := 8; let n : Nat := 8; let val : Nat := 5; let e : Nat := 0x123;
      (.doorbellRing page off n val : Instr).wf = true ∧ m.frozen = false ∧ pageOk m page off n val ∧
      (m.count R.dbell_cnt_rings).get R.dbell_ttab_res = 1 ∧ (m.count R.dbell_cnt_rings).targetEntry val = some e ∧
      (m.count R.dbell_cnt_rings).targetOk e = false) ∧
    (let m : Mach := (wBell (toBytes 8 (2 ^ 63 + 2 ^ 62 + 3))).set (R.dbell_grp_climit 0) 4; let page : Nat := 1; let off : Nat := 8;
      let n : Nat := 8; let val : Nat := 5; let e : Nat := (2 ^ 63 + 2 ^ 62 + 3); (.doorbellRing page off n val : Instr).wf = true ∧
      m.frozen = false ∧ pageOk m page off n val ∧ (m.count R.dbell_cnt_rings).get R.dbell_ttab_res = 1 ∧
      (m.count R.dbell_cnt_rings).targetEntry val = some e ∧ (m.count R.dbell_cnt_rings).targetOk e = true ∧
      ((m.count R.dbell_cnt_rings).setSummary page val e).db.holding = false ∧ (rung m page val e).grpFull (val / 256) = false) ∧
    (let m : Mach := wBell (toBytes 8 (2 ^ 63 + 2 ^ 62 + 3)); let page : Nat := 1; let off : Nat := 8; let n : Nat := 8; let val : Nat := 5;
      let e : Nat := (2 ^ 63 + 2 ^ 62 + 3); (.doorbellRing page off n val : Instr).wf = true ∧ m.frozen = false ∧ pageOk m page off n val ∧
      (m.count R.dbell_cnt_rings).get R.dbell_ttab_res = 1 ∧ (m.count R.dbell_cnt_rings).targetEntry val = some e ∧
      (m.count R.dbell_cnt_rings).targetOk e = true ∧ ((m.count R.dbell_cnt_rings).setSummary page val e).db.holding = false ∧
      (rung m page val e).grpFull (val / 256) = true) ∧
    (let m : Mach := (wBell []).setGrp 7 ⟨2, true, 0, [(true, 0)]⟩; let g : Nat := 7; let t : Nat := 0; (.groupTimeLimit g : Instr).wf = true ∧
      m.frozen = false ∧ (m.grp g).isOpen = true ∧ (m.grp g).targets = [(true, t)]) ∧
    (let m : Mach := Mach.reset; let g : Nat := 7; (.groupTimeLimit g : Instr).wf = true ∧ m.frozen = false ∧ (m.grp g).isOpen = false) ∧
    (let m : Mach := wBell []; let g : Nat := 7; let val : Nat := 0x7FF0000; (.groupLimitWrite g val : Instr).wf = true ∧ m.frozen = false ∧
      (m.grp g).isOpen = false) ∧
    (let m : Mach := (wBell []).setGrp 7 ⟨2, true, 0, [(true, 0)]⟩; let g : Nat := 7; let val : Nat := 0x10002;
      (.groupLimitWrite g val : Instr).wf = true ∧ m.frozen = false ∧ (m.grp g).isOpen = true ∧
      (m.sets [(R.dbell_grp_tlim g, max 1 (min 2000 (bits val 26 16))), (R.dbell_grp_climit g, max 1 (bits val 7 0))]).grpFull g = true) ∧
    (let m : Mach := (wBell []).set R.dbell_tdata_value (2 ^ 63 + 2 ^ 62 + 3); let src : Nat := 9; (.targetWrite src : Instr).wf = true ∧
      m.frozen = false ∧ (tgtTaken m 1 src).get R.dbell_ttab_res = 1 ∧ badTarget ((tgtTaken m 1 src).get R.dbell_tdata_value) = false ∧
      ((tgtTaken m 1 src).grp (src / 256)).isOpen = false ∧ (tgtTaken m 1 src).devCheck .hub ((tgtTaken m 1 src).targetAddr src) = none) ∧
    (let m : Mach := (wBell []).set R.dbell_tdata_value (2 ^ 62 + 96); let src : Nat := 9; (.targetWrite src : Instr).wf = true ∧ m.frozen = false ∧
      (tgtTaken m 1 src).get R.dbell_ttab_res = 1 ∧ badTarget ((tgtTaken m 1 src).get R.dbell_tdata_value) = true) ∧
    (let m : Mach := wBell (toBytes 8 (2 ^ 63 + 2 ^ 62 + 3)); let src : Nat := 5; let e : Nat := (2 ^ 63 + 2 ^ 62 + 3);
      (.targetRead src : Instr).wf = true ∧ m.frozen = false ∧ (tgtTaken m 2 src).get R.dbell_ttab_res = 1 ∧
      (tgtTaken m 2 src).targetEntry src = some e) ∧
    (let m : Mach := Mach.reset; let src : Nat := 5; (.targetRead src : Instr).wf = true ∧ m.frozen = false ∧
      (tgtTaken m 2 src).get R.dbell_ttab_res ≠ 1) :=
  ⟨by decide, by decide, by decide, by decide +kernel, by decide +kernel, by decide +kernel, by decide, by decide, by decide, by decide,
    by decide, by decide, by decide +kernel, by decide⟩

/-- For each command of `Obligations.Rills` a machine and operands that meet all its hypotheses. -/
theorem witness_Rills :
    (let m : Mach := (wBell []).set (R.rill_r_ring_prod 5) 3; let r : Nat := 5; let val : Nat := 2 ^ 63 + 0x70007;
      (.rillEnable r val : Instr).wf = true ∧ m.frozen = false ∧ m.on (R.rill_r_base_en r) = false ∧ bit val 63 = true) ∧
    (let m : Mach := wBell []; let r : Nat := 5; let val : Nat := 0x70011; (.rillEnable r val : Instr).wf = true ∧ m.frozen = false ∧
      m.on (R.rill_r_base_en r) = false ∧ bit val 63 = false) ∧
    (let m : Mach := wRill []; let r : Nat := 5; let val : Nat := 2 ^ 63 + 0x70007; (.rillEnable r val : Instr).wf = true ∧ m.frozen = false ∧
      m.on (R.rill_r_base_en r) = true ∧ bit val 63 = true) ∧
    (let m : Mach := wRill [⟨5, 8, 0, [], 1000, true, false⟩]; let r : Nat := 5; let val : Nat := 0x70007; (.rillEnable r val : Instr).wf = true ∧
      m.frozen = false ∧ m.on (R.rill_r_base_en r) = true ∧ bit val 63 = false) ∧
    (let m : Mach := wRill []; let th : Nat := 30; let val : Nat := 0x1200000005; (.rillPost th val : Instr).wf = true ∧ m.frozen = false ∧
      (tget m.rill.q (th / 24) []).length < 64) ∧
    (let m : Mach := ({ wBell [] with rill := { (wBell []).rill with q := [(1, List.replicate 64 ⟨5, 8, 0, [], 1000, true, false⟩)] } } : Mach);
      let th : Nat := 30; let val : Nat := 0x1200000005; (.rillPost th val : Instr).wf = true ∧ m.frozen = false ∧
      64 ≤ (tget m.rill.q (th / 24) []).length) ∧
    (let m : Mach := ({ wRill [] with rill := { (wRill []).rill with q := [(4, List.replicate 64 ⟨5, 8, 0, [], 1000, true, false⟩)] } } : Mach);
      let q : Nat := 4; let x : RillRec := ⟨5, 8, 0, [], 1000, true, false⟩;
      let rest : List RillRec := List.replicate 63 ⟨5, 8, 0, [], 1000, true, false⟩; (.rillWriterSlot : Instr).wf = true ∧ m.frozen = false ∧
      64 ≤ (tget m.rill.q 4 []).length ∧ (m.rill.q.flatMap fun (y : Nat × List RillRec) => y.2.map (·.rill)).eraseDups = [x.rill] ∧
      (((List.range 5).map fun i => (m.rill.nextQ + i) % 5).findSome? fun k => (takeFirst (m.lookCons x.rill).mayWrite (tget (m.lookCons x.rill).rill.q k [])).map fun y => (k, y)) = some (q, x, rest) ∧
      (m.lookCons x.rill).rill.nextQ = m.rill.nextQ) ∧
    (let m : Mach := wBell []; (.rillWriterSlot : Instr).wf = true ∧ m.frozen = false ∧ m.rill.q = [] ∧ m.rill.kept = []) ∧
    (let m : Mach := wRill []; let r : Nat := 5; let a : Nat := 0x8000; (.consumerWordRead r : Instr).wf = true ∧ m.frozen = false ∧
      m.on (R.rill_r_base_en r) = true ∧ a = m.get (R.rill_r_ci_addr r) * 8 ∧ m.devCheck .hub a = none ∧ m.devPoison a 8 = false) ∧
    (let m : Mach := (wRill []).set (R.rill_r_ci_addr 5) (2 ^ 48); let r : Nat := 5; let a : Nat := 2 ^ 51;
      (.consumerWordRead r : Instr).wf = true ∧ m.frozen = false ∧ m.on (R.rill_r_base_en r) = true ∧ a = m.get (R.rill_r_ci_addr r) * 8 ∧
      (m.devCheck .hub a).isSome = true) :=
  ⟨by decide, by decide, by decide, by decide, by decide, by decide, by decide +kernel, by decide, by decide, by decide⟩

/-- For each command of `Obligations.CascadeCommands` a machine and operands that meet all its hypotheses. -/
theorem witness_CascadeCommands :
    (let m : Mach := wVp 0; let vp : Nat := 7; (.vpDefine vp : Instr).wf = true ∧ m.frozen = false ∧ (vcTaken m 1 vp).on R.casc_vcmd_go = false ∧
      (vcTaken m 1 vp).vpSt vp = 0 ∧ (vcTaken m 1 vp).rgnKind ((vcTaken m 1 vp).frameAddr vp) = 0) ∧
    (let m : Mach := (wVp 0).set R.casc_vcmd_go 1; let vp : Nat := 7; (.vpDefine vp : Instr).wf = true ∧ m.frozen = false ∧
      (vcTaken m 1 vp).on R.casc_vcmd_go = true) ∧
    (let m : Mach := wVp 1; let vp : Nat := 7; (.vpReady vp : Instr).wf = true ∧ m.frozen = false ∧ (vcTaken m 2 vp).on R.casc_vcmd_go = false ∧
      ((vcTaken m 2 vp).vpSt vp = 1 ∨ (vcTaken m 2 vp).vpSt vp = 5)) ∧
    (let m : Mach := wVp 0; let vp : Nat := 7; (.vpReady vp : Instr).wf = true ∧ m.frozen = false ∧ (vcTaken m 2 vp).on R.casc_vcmd_go = false ∧
      (vcTaken m 2 vp).vpSt vp = 0) ∧
    (let m : Mach := wVp 2; let vp : Nat := 7; (.vpStop vp : Instr).wf = true ∧ m.frozen = false ∧ (vcTaken m 3 vp).on R.casc_vcmd_go = false ∧
      (vcTaken m 3 vp).vpSt vp = 2) ∧
    (let m : Mach := { wVp 3 with thr := [(0, { Thread.init with run := .placed 7 })] }; let vp : Nat := 7; (.vpStop vp : Instr).wf = true ∧
      m.frozen = false ∧ (vcTaken m 3 vp).on R.casc_vcmd_go = false ∧ (vcTaken m 3 vp).vpSt vp = 3 ∧
      ((vcTaken m 3 vp).vpThread vp).isSome = true) ∧
    (let m : Mach := (wVp 1).set (R.casc_vp_tmr_tod 7) 5; let vp : Nat := 7; (.vpUndefine vp : Instr).wf = true ∧ m.frozen = false ∧
      (vcTaken m 4 vp).on R.casc_vcmd_go = false ∧ ((vcTaken m 4 vp).vpSt vp = 1 ∨ (vcTaken m 4 vp).vpSt vp = 5)) ∧
    (let m : Mach := wVp 1; (.cascadeSelection : Instr).wf = true ∧ m.frozen = false ∧ m.candidate = none) ∧
    (let m : Mach := wVp 2; let v : Nat := 7; let th : Nat := 4; (.cascadeSelection : Instr).wf = true ∧ m.frozen = false ∧ m.candidate = some v ∧
      pick m.betterTh ((List.range 96).filter m.mayPlace) = some th) ∧
    (let m : Mach := ({ (wVp 3).sets [(R.casc_vp_st_state 8, 2), (R.casc_vp_ctl_weight 8, 1)] with tod := 100, thr := [(0, { Thread.init with run := .placed 7 })], vp := [(7, { VpX.init with vt := 9 })] } : Mach);
      let th : Nat := 0; let vp : Nat := 7; (.sliceEnd th : Instr).wf = true ∧ m.frozen = false ∧ m.vpOn th = some vp ∧ m.vpSt vp = 3 ∧
      m.vpStopped vp = false ∧
      ((List.range 1024).any fun w => m.vpSt w == 2 && m.barred w == 0 && m.get (R.casc_vp_ctl_prio w) == m.get (R.casc_vp_ctl_prio vp) && decide (m.vtNow w < m.vtNow vp)) = true) ∧
    (let m : Mach := wVp 2; let th : Nat := 0; (.sliceEnd th : Instr).wf = true ∧ m.frozen = false ∧ m.vpOn th = none) ∧
    (let m : Mach := ({ wVp 6 with thr := [(0, { Thread.init with run := .placed 7 })], vp := [(7, { VpX.init with after := 2 })] } : Mach);
      let th : Nat := 0; let vp : Nat := 7; (.vpLeave th : Instr).wf = true ∧ m.frozen = false ∧ m.vpOn th = some vp ∧ m.vpSt vp = 6 ∧
      (m.th th).dbg = 0 ∧ (m.th th).ep.isNone = true ∧ (m.th th).wait = .none ∧ (m.th th).got = [] ∧ (m.core (th / 2)).swap.isNone = true ∧
      (m.toBoundary th).isSome = true) ∧
    (let m : Mach := wVp 2; let vp : Nat := 7; let val : Nat := 1000; (.vpTimerWrite vp val : Instr).wf = true ∧ m.frozen = false ∧ m.tod < val ∧
      val < 2 ^ 64) ∧
    (let m : Mach := ({ wVp 2 with tod := 1000 } : Mach); let vp : Nat := 7; let val : Nat := 1000; (.vpTimerWrite vp val : Instr).wf = true ∧
      m.frozen = false ∧ val ≠ 0 ∧ val ≤ m.tod ∧ val < 2 ^ 64) ∧
    (let m : Mach := ({ (wVp 2).set (R.casc_vp_tmr_tod 7) 500 with tod := 1000 } : Mach); let vp : Nat := 7; (.vpTimerExpiry vp : Instr).wf = true ∧
      m.frozen = false ∧ m.get (R.casc_vp_tmr_tod vp) ≠ 0 ∧ m.get (R.casc_vp_tmr_tod vp) ≤ m.tod) ∧
    (let m : Mach := (wVp 4).sets [(R.casc_part_ctl_stall 3, 9), (R.casc_vp_ctl_part 7, 3)]; let part : Nat := 3;
      (.partitionStall part : Instr).wf = true ∧ m.frozen = false ∧ m.get (R.casc_part_ctl_stall part) ≠ 0 ∧ m.isStalled part = true ∧
      ((m.set (R.casc_part_st_stalled part) 1).cascError 0xF0 part 0 (m.get (R.casc_part_ctl_stall part))).on (R.casc_part_ctl_wake part) = false) ∧
    (let m : Mach := (wVp 2).sets [(R.casc_part_ctl_stall 3, 9), (R.casc_vp_ctl_part 7, 3)]; let part : Nat := 3;
      (.partitionStall part : Instr).wf = true ∧ m.frozen = false ∧ m.isStalled part = false) :=
  ⟨by decide, by decide, by decide, by decide, by decide, by decide, by decide, by decide +kernel, by decide +kernel, by decide +kernel,
    by decide, by decide, by decide, by decide, by decide, by decide +kernel, by decide +kernel⟩

/-- For each command of `Obligations.WeirPower` a machine and operands that meet all its hypotheses. -/
theorem witness_WeirPower :
    (let m : Mach := (wVp 2).sets [(R.weir_limit_watts, 300), (R.weir_stat_inforce, 200)]; let u : Nat := 5; let avg : Nat := 202;
      let peak : Nat := 210; let low : Bool := false; (.budgetInterval u avg peak low : Instr).wf = true ∧ m.frozen = false ∧ u < 4096 ∧
      avg < 4096 ∧ peak < 4096 ∧ avg * 100 ≤ m.get R.weir_stat_inforce * 101) ∧
    (let m : Mach := (wVp 2).sets [(R.weir_limit_watts, 300), (R.weir_stat_inforce, 200)]; let u : Nat := 5; let avg : Nat := 203;
      let peak : Nat := 210; let low : Bool := false; (.budgetInterval u avg peak low : Instr).wf = true ∧ m.frozen = false ∧ u < 4096 ∧
      avg < 4096 ∧ peak < 4096 ∧ m.get R.weir_stat_inforce * 101 < avg * 100) ∧
    (let m : Mach := Mach.reset.sets [(R.mode_cur_cur, 5), (R.weir_stat_inforce, 100)]; let watts : Nat := 200; let noncore : Nat := 7;
      (.powerSample watts noncore [] [] : Instr).wf = true ∧ m.frozen = false ∧ watts < 4096 ∧ noncore < 4096 ∧ m.modeM5 = true ∧
      m.get R.weir_stat_inforce < watts) ∧
    (let m : Mach := Mach.reset.sets [(R.mode_cur_cur, 5), (R.weir_stat_inforce, 100)]; let watts : Nat := 50; let noncore : Nat := 7;
      (.powerSample watts noncore [] [] : Instr).wf = true ∧ m.frozen = false ∧ watts < 4096 ∧ noncore < 4096 ∧ m.modeM5 = true ∧
      watts ≤ m.get R.weir_stat_inforce ∧ m.weir.off = 0) ∧
    (let m : Mach := wCool; (.sensorReading [] [] : Instr).wf = true ∧ m.frozen = false ∧
      ((List.range 48).all fun c => m.headroom c == 20 && m.get (R.weir_core_park c) == 0 && (m.core c).park == .running && decide (m.get (R.weir_core_freq c) ≤ m.get (R.weir_core_ceil c))) = true) ∧
    (let m : Mach := wCool; let t : Nat := 1200; (.sensorReading [t] [0] : Instr).wf = true ∧ m.frozen = false ∧ t < 65536 ∧
      m.on (R.weir_temp_fail 0) = false) ∧
    (let m : Mach := (wVp 2).set (R.weir_core_head 3) 0; let core : Nat := 3; (.thermalPark core : Instr).wf = true ∧ m.frozen = false ∧
      m.get (R.weir_core_head core) = 0 ∧ m.get (R.weir_core_park core) ≠ 3 ∧ m.busy core = false ∧ (m.combFlush core).drained core = true) ∧
    (let m : Mach := wVp 2; let core : Nat := 3; (.shallowPark core : Instr).wf = true ∧ m.frozen = false ∧ m.idle core = true ∧ m.baseMode ≠ 4 ∧
      (m.core core).park = Park.running ∧ (m.combFlush core).drained core = true) ∧
    (let m : Mach := (wVp 2).set R.mode_cur_cur 4; let core : Nat := 3; (.shallowPark core : Instr).wf = true ∧ m.frozen = false ∧ m.baseMode = 4) ∧
    (let m : Mach := (wVp 2).onCore 3 fun k => { k with park := .shallow }; let core : Nat := 3; (.deepPark core : Instr).wf = true ∧
      m.frozen = false ∧ m.idle core = true ∧ (m.core core).park = Park.shallow ∧ m.on (R.core_state_warm core) = false ∧
      (m.combFlush core).drained core = true) ∧
    (let m : Mach := (wVp 2).onCore 3 fun k => { k with park := .deep }; let core : Nat := 3; (.coreUnpark core : Instr).wf = true ∧
      m.frozen = false ∧ ((m.core core).park = Park.shallow ∨ (m.core core).park = Park.deep) ∧ m.role core = 0 ∧
      m.get (R.weir_core_park core) ≠ 3) :=
  ⟨by decide, by decide, by decide, by decide, by decide, by decide, by decide, by decide, by decide, by decide, by decide⟩

/-- For each command of `Obligations.SpillwayEvents` a machine and operands that meet all its hypotheses. -/
theorem witness_SpillwayEvents :
    (let m : Mach := Mach.reset.sets [(R.spill_src_ctl_ord 1600, 0)]; let n : Nat := 0; let src : Nat := 1600; let ereg : Nat := 5;
      let th : Nat := 96; (.spillwayEvent n src ereg th : Instr).wf = true ∧ m.frozen = false ∧ srcExists src = true ∧ m.spill.inbox = [] ∧
      (m.spill.blks = []) ∧
      (Mach.judge m.spill.blks m (⟨src, BitVec.ofNat 64 ereg, if th < 96 then some th else none, false, []⟩ : SpEvent)).2.act = 0 ∧
      (Mach.judge m.spill.blks m (⟨src, BitVec.ofNat 64 ereg, if th < 96 then some th else none, false, []⟩ : SpEvent)).2.errn = false ∧
      src ≠ 3638) ∧
    (let m : Mach := Mach.reset.sets [(R.spill_src_ctl_ord 1600, 2), (R.spill_cfg_rill_en, 1), (R.spill_cfg_rill, 5)]; let n : Nat := 0;
      let src : Nat := 1600; let ereg : Nat := 5; let th : Nat := 96; (.spillwayEvent n src ereg th : Instr).wf = true ∧ m.frozen = false ∧
      srcExists src = true ∧ m.spill.inbox = [] ∧
      (1 ≤ (Mach.judge m.spill.blks m (⟨src, BitVec.ofNat 64 ereg, if th < 96 then some th else none, false, []⟩ : SpEvent)).2.act ∧
      (Mach.judge m.spill.blks m (⟨src, BitVec.ofNat 64 ereg, if th < 96 then some th else none, false, []⟩ : SpEvent)).2.act ≤ 2) ∧
      (Mach.judge m.spill.blks m (⟨src, BitVec.ofNat 64 ereg, if th < 96 then some th else none, false, []⟩ : SpEvent)).2.errn = false) ∧
    (let m : Mach := Mach.reset.sets [(R.spill_src_ctl_ord 1600, 3), (R.spill_src_ctl_n 1600, 0)]; let n : Nat := 0; let src : Nat := 1600;
      let ereg : Nat := 5; let th : Nat := 96; let t : Nat := 0; (.spillwayEvent n src ereg th : Instr).wf = true ∧ m.frozen = false ∧
      srcExists src = true ∧ m.spill.inbox = [] ∧
      (Mach.judge m.spill.blks m (⟨src, BitVec.ofNat 64 ereg, if th < 96 then some th else none, false, []⟩ : SpEvent)).2.act = 3 ∧
      (Mach.judge m.spill.blks m (⟨src, BitVec.ofNat 64 ereg, if th < 96 then some th else none, false, []⟩ : SpEvent)).2.errn = false ∧
      minAction src ≠ 3 ∧
      ((Mach.judge m.spill.blks m (⟨src, BitVec.ofNat 64 ereg, if th < 96 then some th else none, false, []⟩ : SpEvent)).1.emcy 0xFF01 src 3 (Mach.judge m.spill.blks m (⟨src, BitVec.ofNat 64 ereg, if th < 96 then some th else none, false, []⟩ : SpEvent)).2.flags).mckThread (⟨src, BitVec.ofNat 64 ereg, if th < 96 then some th else none, false, []⟩ : SpEvent) = some t) ∧
    (let m : Mach := Mach.reset.sets [(R.spill_src_ctl_ord 1600, 5)]; let n : Nat := 0; let src : Nat := 1600; let ereg : Nat := 5;
      let th : Nat := 96; (.spillwayEvent n src ereg th : Instr).wf = true ∧ m.frozen = false ∧ srcExists src = true ∧ m.spill.inbox = [] ∧
      (Mach.judge m.spill.blks m (⟨src, BitVec.ofNat 64 ereg, if th < 96 then some th else none, false, []⟩ : SpEvent)).2.act = 5 ∧
      (Mach.judge m.spill.blks m (⟨src, BitVec.ofNat 64 ereg, if th < 96 then some th else none, false, []⟩ : SpEvent)).2.errn = false) ∧
    (let m : Mach := Mach.reset.sets [(R.spill_src_ctl_ord 1600, 6)]; let n : Nat := 0; let src : Nat := 1600; let ereg : Nat := 5;
      let th : Nat := 96; (.spillwayEvent n src ereg th : Instr).wf = true ∧ m.frozen = false ∧ srcExists src = true ∧ m.spill.inbox = [] ∧
      (Mach.judge m.spill.blks m (⟨src, BitVec.ofNat 64 ereg, if th < 96 then some th else none, false, []⟩ : SpEvent)).2.act = 6 ∧
      (Mach.judge m.spill.blks m (⟨src, BitVec.ofNat 64 ereg, if th < 96 then some th else none, false, []⟩ : SpEvent)).2.errn = false) ∧
    (let m : Mach := ({ Mach.reset with spill := { Mach.reset.spill with blks := [(48, ⟨false, [1824], false⟩)] } } : Mach).set (R.spill_src_ctl_ord 1824) 0;
      let n : Nat := 0; let src : Nat := 1824; let ereg : Nat := 5; let th : Nat := 96; (.spillwayEvent n src ereg th : Instr).wf = true ∧
      m.frozen = false ∧ srcExists src = true ∧ m.spill.inbox = [] ∧
      m.markers m.spill.blks (⟨src, BitVec.ofNat 64 ereg, if th < 96 then some th else none, false, []⟩ : SpEvent) ≠ [] ∧ m.minAct src = 0 ∧
      (Mach.judge m.spill.blks m (⟨src, BitVec.ofNat 64 ereg, if th < 96 then some th else none, false, []⟩ : SpEvent)).2.act = 0 ∧
      (Mach.judge m.spill.blks m (⟨src, BitVec.ofNat 64 ereg, if th < 96 then some th else none, false, []⟩ : SpEvent)).2.errn = false) ∧
    (let m : Mach := Mach.reset.sets [(R.spill_src_st_bucket 70, 1), (R.spill_src_st_severe 70, 1)]; let src : Nat := 70;
      (.bucketUnitEnd src : Instr).wf = true ∧ m.frozen = false ∧ m.get (R.spill_src_st_bucket src) ≠ 0) ∧
    (let m : Mach := Mach.reset; let src : Nat := 70; (.bucketUnitEnd src : Instr).wf = true ∧ m.frozen = false ∧
      m.get (R.spill_src_st_bucket src) = 0) ∧
    (let m : Mach := Mach.reset.sets [(R.spill_src_st_bucket 70, 9), (R.spill_src_st_severe 70, 1)]; let src : Nat := 70;
      (.severeClear src : Instr).wf = true ∧ m.frozen = false) ∧
    (let m : Mach := Mach.reset.set R.spill_errn_asserted 1; (.errnClear : Instr).wf = true ∧ m.frozen = false ∧ m.on R.spill_errn_asserted = true) ∧
    (let m : Mach := Mach.reset; (.errnClear : Instr).wf = true ∧ m.on R.spill_errn_asserted = false) ∧
    (let m : Mach := Mach.reset.set R.mode_cur_cur 1; let mode : Nat := 1; let src : Nat := 70; (.faultInjection mode src : Instr).wf = true ∧
      m.frozen = false ∧ m.mode_ ≠ 7) ∧
    (let m : Mach := Mach.reset.set R.mode_cur_cur 7; let mode : Nat := 1; let src : Nat := 1; (.faultInjection mode src : Instr).wf = true ∧
      m.frozen = false ∧ m.mode_ = 7 ∧ m.spill.inj = none ∧ mode = 1 ∧ hasChecker src = true) ∧
    (let m : Mach := Mach.reset.set R.mode_cur_cur 7; let mode : Nat := 0; let src : Nat := 1600; (.faultInjection mode src : Instr).wf = true ∧
      m.frozen = false ∧ m.mode_ = 7 ∧ m.spill.inj = none ∧ mode ≠ 1 ∧ srcExists src = true) ∧
    (let m : Mach := ({ Mach.reset with spill := { Mach.reset.spill with inj := some 1 } } : Mach).set R.mode_cur_cur 7; let mode : Nat := 0;
      let src : Nat := 1600; (.faultInjection mode src : Instr).wf = true ∧ m.frozen = false ∧ m.mode_ = 7 ∧ m.spill.inj.isSome = true) :=
  ⟨by decide, by decide, by decide, by decide, by decide, by decide, by decide, by decide, by decide, by decide, by decide, by decide, by decide,
    by decide, by decide⟩

/-- For each command of `Obligations.BlockResets` a machine and operands that meet all its hypotheses. -/
theorem witness_BlockResets :
    (let m : Mach := Mach.reset; let block : Nat := 150; (.blockResetRequest block : Instr).wf = true ∧ m.frozen = false ∧
      m.on R.spill_brst_go = false ∧ 150 ≤ block) ∧
    (let m : Mach := Mach.reset.set (R.spill_blk_state 48) 4; let block : Nat := 48; (.blockResetRequest block : Instr).wf = true ∧
      m.frozen = false ∧ m.on R.spill_brst_go = false ∧ block < 150 ∧ (brstTaken m block).blkFailed block = true) ∧
    (let m : Mach := Mach.reset.set (R.spill_blk_state 48) 2; let block : Nat := 48; (.blockResetRequest block : Instr).wf = true ∧
      m.frozen = false ∧ m.on R.spill_brst_go = false ∧ block < 150 ∧ (brstTaken m block).blkFailed block = false ∧
      (brstTaken m block).mayReset block = false) ∧
    (let m : Mach := wHome; let block : Nat := 48; (.blockResetRequest block : Instr).wf = true ∧ m.frozen = false ∧ m.on R.spill_brst_go = false ∧
      48 ≤ block ∧ block < 134 ∧ (brstTaken m block).blkFailed block = false ∧ (brstTaken m block).mayReset block = true) ∧
    (let m : Mach := Mach.reset.set R.spill_brst_go 1; let block : Nat := 48; (.blockResetRequest block : Instr).wf = true ∧ m.frozen = false ∧
      m.on R.spill_brst_go = true) ∧
    (let m : Mach := (wHome.setBlk 48 ⟨false, [1824], false⟩).set (R.spill_blk_state 48) 1; let block : Nat := 48;
      (.fenceLimit block : Instr).wf = true ∧ m.frozen = false ∧ m.get (R.spill_blk_state block) = 1 ∧
      ((tfind m.spill.blks block).map (·.repair)).getD false = false) ∧
    (let m : Mach := Mach.reset; let block : Nat := 48; (.fenceLimit block : Instr).wf = true ∧ m.frozen = false ∧
      m.get (R.spill_blk_state block) ≠ 1) ∧
    (let m : Mach := wHome.sets [(R.spill_blk_state 48, 2), (R.mem_port_stat_state 0, 6)]; let block : Nat := 48;
      (.blockResetComplete block : Instr).wf = true ∧ m.frozen = false ∧ block < 134 ∧ m.get (R.spill_blk_state block) = 2 ∧
      m.resetOver block = true) ∧
    (let m : Mach := (wHome.setBlk 131 ⟨false, [2176], false⟩).set (R.spill_blk_state 131) 2; let block : Nat := 131;
      (.blockResetTimeout block : Instr).wf = true ∧ m.frozen = false ∧ 130 ≤ block ∧ block < 134 ∧ m.get (R.spill_blk_state block) = 2) ∧
    (let m : Mach := wHome.set (R.spill_blk_state 131) 3; let block : Nat := 131; (.blockResetTimeout block : Instr).wf = true ∧ m.frozen = false ∧
      m.get (R.spill_blk_state block) = 3) ∧
    (let m : Mach := (wHome.setBlk 48 ⟨false, [1824], false⟩).set (R.spill_blk_state 48) 3; let block : Nat := 48;
      (.consequentialMarkExpiry block : Instr).wf = true ∧ m.frozen = false ∧ m.get (R.spill_blk_state block) = 3) ∧
    (let m : Mach := Mach.reset; (.hubLost : Instr).wf = true ∧ True) :=
  ⟨by decide, by decide, by decide, by decide, by decide, by decide, by decide, by decide, by decide, by decide, by decide, by decide⟩

/-- For each command of `Obligations.ServiceNode` a machine and operands that meet all its hypotheses. -/
theorem witness_ServiceNode :
    (let m : Mach := wNode 1; (.nmtStart : Instr).wf = true ∧ m.nmtHeard = true) ∧
    (let m : Mach := wNode 0; (.nmtStart : Instr).wf = true ∧ m.nmtHeard = false) ∧
    (let m : Mach := wNode 1; (.nmtStop : Instr).wf = true ∧ m.nmtHeard = true) ∧
    (let m : Mach := wNode 2; (.nmtEnterPreOperational : Instr).wf = true ∧ m.nmtHeard = true) ∧
    (let m : Mach := ({ wNode 2 with od := { (wNode 2).od with objs := [(odKey 0x1017 0, 5), (odKey 0x2800 1, 7)] } } : Mach);
      (.nmtResetNode : Instr).wf = true ∧ m.nmtHeard = true) ∧
    (let m : Mach := ({ wNode 2 with od := { (wNode 2).od with objs := [(odKey 0x1017 0, 5), (odKey 0x2800 1, 7)] } } : Mach);
      (.nmtResetCommunication : Instr).wf = true ∧ m.nmtHeard = true) ∧
    (let m : Mach := wNode 0; (.bootUpMessage : Instr).wf = true ∧ m.onBus = true ∧ m.od.nmt = 0) ∧
    (let m : Mach := wNode 2; (.heartbeat : Instr).wf = true ∧ m.nmtHeard = true ∧ m.stored 0x1017 0 ≠ 0) ∧
    (let m : Mach := ({ wNode 2 with od := { (wNode 2).od with objs := [(odKey 0x1017 0, 0)] } } : Mach); (.heartbeat : Instr).wf = true ∧
      m.stored 0x1017 0 = 0) ∧
    (let m : Mach := ({ wNode 2 with od := { (wNode 2).od with emcy := [⟨0xFF01, 1, 70, 6, 0, 99⟩] } } : Mach);
      let e : Emcy := ⟨0xFF01, 1, 70, 6, 0, 99⟩; let rest : List Emcy := []; (.emcy : Instr).wf = true ∧ m.usdoServed = true ∧
      m.od.emcy = e :: rest) ∧
    (let m : Mach := wNode 2; let id : Nat := 5; let index : Nat := 0x1000; let sub : Nat := 0; let wr : Bool := false; let data : List Nat := [];
      (.usdoRequest id wr index sub data true true : Instr).wf = true ∧ m.usdoServed = true ∧ id < 2 ^ 16 ∧ index < 65536 ∧ sub < 256 ∧
      (m.od.sess.find? fun (x : Usdo) => x.id == id) = none ∧ m.od.sess.length < 8) ∧
    (let m : Mach := wNode 2; let id : Nat := 5; let index : Nat := 0x2600; let sub : Nat := 2; let wr : Bool := true; let data : List Nat := [1];
      (.usdoRequest id wr index sub data true false : Instr).wf = true ∧ m.usdoServed = true ∧ id < 2 ^ 16 ∧ index < 65536 ∧ sub < 256 ∧
      (m.od.sess.find? fun (x : Usdo) => x.id == id) = none ∧ m.od.sess.length < 8) ∧
    (let m : Mach := ({ wNode 2 with od := { (wNode 2).od with sess := [⟨5, true, 0x2600, 2, [1]⟩] } } : Mach); let id : Nat := 5;
      let index : Nat := 0x2600; let sub : Nat := 2; let wr : Bool := true; let last : Bool := false; let data : List Nat := [1];
      (.usdoRequest id wr index sub data true last : Instr).wf = true ∧ m.usdoServed = true ∧ id < 2 ^ 16 ∧ index < 65536 ∧ sub < 256 ∧
      ((m.od.sess.find? fun (x : Usdo) => x.id == id).isSome = true ∨ 8 ≤ m.od.sess.length)) ∧
    (let m : Mach := wNode 2; let id : Nat := 5; let index : Nat := 0x2600; let sub : Nat := 2; let wr : Bool := true; let last : Bool := false;
      let data : List Nat := [1]; (.usdoRequest id wr index sub data false last : Instr).wf = true ∧ m.usdoServed = true ∧ id < 2 ^ 16 ∧
      index < 65536 ∧ sub < 256 ∧ (m.od.sess.find? fun (x : Usdo) => x.id == id) = none) ∧
    (let m : Mach := ({ wNode 2 with od := { (wNode 2).od with sess := [⟨5, true, 0x2600, 2, [1]⟩] } } : Mach); let id : Nat := 5;
      let x : Usdo := ⟨5, true, 0x2600, 2, [1]⟩; (.usdoTimeout id : Instr).wf = true ∧ id < 2 ^ 16 ∧
      (m.od.sess.find? fun (x : Usdo) => x.id == id) = some x ∧ m.usdoServed = true) ∧
    (let m : Mach := wNode 2; (.tpdo1 : Instr).wf = true ∧ m.tpdoOn 0x1800 = true) ∧
    (let m : Mach := wNode 1; (.tpdo1 : Instr).wf = true ∧ m.tpdoOn 0x1800 = false) ∧
    (let m : Mach := wNode 2; let timer : Bool := true; (.tpdo2 timer : Instr).wf = true ∧ m.tpdoOn 0x1801 = true ∧
      (timer = true ∨ m.od.tpdo2 ≠ m.tpdo2Watch)) ∧
    (let m : Mach := ({ wNode 2 with od := { (wNode 2).od with tpdo2 := (wNode 2).tpdo2Watch } } : Mach); (.tpdo2 false : Instr).wf = true ∧
      m.od.tpdo2 = m.tpdo2Watch) ∧
    (let m : Mach := wNode 2; (.canErrorPassive : Instr).wf = true ∧ m.onBus = true) ∧
    (let m : Mach := wNode 2; (.busOffRecovery : Instr).wf = true ∧ m.onBus = true) :=
  ⟨by decide, by decide, by decide, by decide, by decide, by decide, by decide, by decide, by decide, by decide, by decide, by decide, by decide,
    by decide, by decide, by decide, by decide, by decide, by decide, by decide, by decide⟩

/-- For each command of `Obligations.ObjectAccess` a machine and operands that meet all its hypotheses. -/
theorem witness_ObjectAccess :
    (let m : Mach := wNode 2; let bytes : List Nat := [1, 2, 3]; (.imageWrite bytes : Instr).wf = true ∧ m.usdoServed = true ∧
      (m.objOpen true true 0x2600 2).toOption = some (netWo 0) ∧ m.od.img ≠ 1 ∧ m.od.img ≠ 2) ∧
    (let m : Mach := ({ wNode 2 with od := { (wNode 2).od with img := 1 } } : Mach); let bytes : List Nat := [1, 2, 3];
      (.imageWrite bytes : Instr).wf = true ∧ m.usdoServed = true ∧ (m.objOpen true true 0x2600 2).toOption = some (netWo 0) ∧ m.od.img = 1) ∧
    (let m : Mach := ({ wNode 2 with od := { (wNode 2).od with img := 1 } } : Mach); (.imageVerified true : Instr).wf = true ∧ m.frozen = false ∧
      m.od.img = 1 ∧ m.od.imgLen ≤ areaSize) ∧
    (let m : Mach := ({ wNode 2 with od := { (wNode 2).od with img := 1, imgLen := 2 ^ 40 } } : Mach); let flashErr : Bool := true;
      (.imageVerified flashErr : Instr).wf = true ∧ m.frozen = false ∧ m.od.img = 1 ∧ areaSize < m.od.imgLen) ∧
    (let m : Mach := ({ wNode 2 with od := { (wNode 2).od with img := 1 } } : Mach); (.imageVerified false : Instr).wf = true ∧ m.frozen = false ∧
      m.od.img = 1 ∧ m.od.imgLen ≤ areaSize ∧ (m.imageCheck (fun o n => m.flashRd (areaBase m.idleArea + o) n) 1).1 ≠ 0) ∧
    (let m : Mach := wNode 2; let val : Nat := 2; (.activate val : Instr).wf = true ∧ m.usdoServed = true ∧
      (m.objOpen true true 0x2600 4).toOption = some (netWo 1) ∧ 1 < val ∧ val < 256) ∧
    (let m : Mach := (({ wNode 2 with od := { (wNode 2).od with img := 3 } } : Mach).set R.mode_boot_area 3); (.activate 1 : Instr).wf = true ∧
      m.usdoServed = true ∧ (m.objOpen true true 0x2600 4).toOption = some (netWo 1) ∧ m.od.img = 3 ∧ m.get R.mode_boot_area = 3) ∧
    (let m : Mach := wNode 2; (.moduleResetObject 0x5253 : Instr).wf = true ∧ m.usdoServed = true ∧
      (m.objOpen true true 0x2101 0).toOption = some (netWo 2) ∧ m.frozen = false) ∧
    (let m : Mach := ({ wNode 2 with frozen := true } : Mach); (.moduleResetObject 0x5253 : Instr).wf = true ∧ m.usdoServed = true ∧
      (m.objOpen true true 0x2101 0).toOption = some (netWo 2) ∧ m.frozen = true ∧ m.od.hubLost = false) ∧
    (let m : Mach := wNode 2; let val : Nat := 1; (.moduleResetObject val : Instr).wf = true ∧ m.usdoServed = true ∧
      (m.objOpen true true 0x2101 0).toOption = some (netWo 2) ∧ val < 65536 ∧ val ≠ 0x5253) ∧
    (let m : Mach := wNode 2; (.debugStop : Instr).wf = true ∧ m.usdoServed = true ∧ (m.objOpen true true 0x2800 2).toOption = some (netWo 1) ∧
      m.dbgVacant = true) ∧
    (let m : Mach := wDbg 0; (.debugStop : Instr).wf = true ∧ m.usdoServed = true ∧ (m.objOpen true true 0x2800 2).toOption = some (netWo 1) ∧
      m.dbgVacant = false ∧ m.dbgState = 0) ∧
    (let m : Mach := wDbg 1; (.debugResume : Instr).wf = true ∧ m.usdoServed = true ∧ (m.objOpen true true 0x2800 2).toOption = some (netWo 1) ∧
      m.dbgVacant = false) ∧
    (let m : Mach := wDbg 1; (.debugStep : Instr).wf = true ∧ m.usdoServed = true ∧ (m.objOpen true true 0x2800 2).toOption = some (netWo 1) ∧
      m.dbgVacant = false ∧ m.dbgState = 2 ∧ (m.worldDebug m.dbgThread).2 = true) ∧
    (let m : Mach := wDbg 0; (.debugStep : Instr).wf = true ∧ m.usdoServed = true ∧ (m.objOpen true true 0x2800 2).toOption = some (netWo 1) ∧
      m.dbgVacant = false ∧ m.dbgState = 0) ∧
    (let m : Mach := wDbg 1; let sub : Nat := 5; let val : Nat := 0x123456789ABC; (.debugRegisterAccess true sub val : Instr).wf = true ∧
      m.usdoServed = true ∧ sub < 256 ∧ val < 2 ^ 64 ∧ (m.objOpen true true 0x2801 sub).toOption = some (netRw 8) ∧ m.dbgRegOpen = 1) ∧
    (let m : Mach := wDbg 1; let sub : Nat := 5; let val : Nat := 0; (.debugRegisterAccess false sub val : Instr).wf = true ∧ m.usdoServed = true ∧
      sub < 256 ∧ val < 2 ^ 64 ∧ (m.objOpen true false 0x2801 sub).toOption = some (netRw 8) ∧ m.dbgRegOpen = 1) ∧
    (let m : Mach := wDbg 0; let sub : Nat := 5; let val : Nat := 0; (.debugRegisterAccess false sub val : Instr).wf = true ∧ m.usdoServed = true ∧
      sub < 256 ∧ val < 2 ^ 64 ∧ (m.objOpen true false 0x2801 sub).toOption = some (netRw 8) ∧ m.dbgState ≠ 2) ∧
    (let m : Mach := wDbg 1; let bs : List Nat := List.replicate 256 0; (.debugMemoryAccess false [] : Instr).wf = true ∧ m.usdoServed = true ∧
      (m.objOpen true false 0x2802 4).toOption = some (netRw 0) ∧ m.dbgMemRead = (1, bs)) ∧
    (let m : Mach := wDbg 1; let bytes : List Nat := List.replicate 256 7; (.debugMemoryAccess true bytes : Instr).wf = true ∧ m.usdoServed = true ∧
      (m.objOpen true true 0x2802 4).toOption = some (netRw 0)) ∧
    (let m : Mach := wNode 2; (.readoutItem : Instr).wf = true ∧ m.usdoServed = true ∧ (m.objOpen true false 0x2900 4).toOption = some (netRo 0) ∧
      m.frozen = false) ∧
    (let m : Mach := ({ wNode 2 with frozen := true } : Mach); (.readoutItem : Instr).wf = true ∧ m.usdoServed = true ∧
      (m.objOpen true false 0x2900 4).toOption = some (netRo 0) ∧ m.frozen = true) ∧
    (let m : Mach := wNode 2; let index : Nat := 0x1000; let sub : Nat := 0; let off : Nat := 0; let len : Nat := 0;
      (.odRead index sub off len : Instr).wf = true ∧ m.frozen = false ∧ index < 65536 ∧ sub < 256 ∧ off < 2 ^ 32 ∧ len < 8192 ∧
      m.on R.od_cmd_go = false ∧ (len = 0 ∨ 4096 < len)) ∧
    (let m : Mach := wNode 2; let index : Nat := 0x1000; (.odRead index 0 0 4 : Instr).wf = true ∧ m.frozen = false ∧ index = 0x1000 ∧
      m.on R.od_cmd_go = false ∧ m.od.hubLost = false) ∧
    (let m : Mach := wNode 2; let index : Nat := 0x1000; let sub : Nat := 0; let off : Nat := 0; let bytes : List Nat := [1];
      let fin : Bool := true; (.odWrite index sub off bytes fin : Instr).wf = true ∧ m.frozen = false ∧ index < 65536 ∧ sub < 256 ∧
      off < 2 ^ 32 ∧ index = 0x1000 ∧ sub = 0 ∧ m.on R.od_cmd_go = false ∧ 0 < bytes.length ∧ bytes.length ≤ 4096 ∧ m.od.hubLost = false) :=
  ⟨by decide, by decide, by decide, by decide, by decide, by decide, by decide, by decide, by decide, by decide, by decide, by decide, by decide,
    by decide, by decide, by decide, by decide, by decide, by decide +kernel, by decide +kernel, by decide, by decide, by decide, by decide,
    by decide⟩

/-- For each command of `Obligations.PowerAndReset` a machine and operands that meet all its hypotheses. -/
theorem witness_PowerAndReset :
    (let m : Mach := wNode 2; (.powerOnReset : Instr).wf = true ∧ True) ∧
    (let m : Mach := wNode 2; (.vAoLoss : Instr).wf = true ∧ True) ∧
    (let m : Mach := Mach.reset; (.mainenAssert : Instr).wf = true ∧ m.boot.vao = true ∧ m.boot.mainen = false) ∧
    (let m : Mach := ({ Mach.reset with boot := { Mach.reset.boot with mainen := true } } : Mach); (.mainenAssert : Instr).wf = true ∧
      m.boot.mainen = true) ∧
    (let m : Mach := ({ Mach.reset with boot := { Mach.reset.boot with pwrgd := false } } : Mach); (.pwrgdRise : Instr).wf = true ∧ True) ∧
    (let m : Mach := wBoot 5; (.pwrgdFall : Instr).wf = true ∧ 2 ≤ m.boot.phase ∧ m.frozen = false) ∧
    (let m : Mach := ({ wBoot 5 with frozen := true } : Mach); (.pwrgdFall : Instr).wf = true ∧ 2 ≤ m.boot.phase ∧ m.frozen = true ∧
      m.od.hubLost = false) ∧
    (let m : Mach := wBoot 5; (.resetNChange false : Instr).wf = true ∧ 2 ≤ m.boot.phase ∧ m.frozen = false) ∧
    (let m : Mach := ({ Mach.reset with boot := { Mach.reset.boot with resetN := false } } : Mach); (.resetNChange true : Instr).wf = true ∧ True) ∧
    (let m : Mach := ({ wBoot 5 with boot := { (wBoot 5).boot with pwrgd := true } } : Mach); (.referenceClockLoss : Instr).wf = true ∧
      m.boot.pwrgd = true) ∧
    (let m : Mach := ({ wBoot 5 with boot := { (wBoot 5).boot with pwrgd := false } } : Mach); (.referenceClockLoss : Instr).wf = true ∧
      m.boot.pwrgd = false) ∧
    (let m : Mach := ({ wBoot 5 with boot := { (wBoot 5).boot with pendReset := some (2, 70) } } : Mach); let cause : Nat := 2; let src : Nat := 70;
      (.moduleReset : Instr).wf = true ∧ m.boot.pendReset = some (cause, src)) ∧
    (let m : Mach := wBoot 5; (.moduleReset : Instr).wf = true ∧ m.boot.pendReset = none) ∧
    (let m : Mach := ({ wBoot 5 with boot := { (wBoot 5).boot with rails := [(0, ⟨9, 0, 0, false, false⟩)] } } : Mach); let mv : Nat := 11000;
      let x : Excursion := ⟨9, 0, 0, false, false⟩; (.supplyExcursion [mv] : Instr).wf = true ∧ m.frozen = false ∧ m.boot.vao = true ∧
      tget m.boot.rails 0 ⟨0, 0, 0, false, false⟩ = x ∧ x.now = false ∧ x.outRun = 9 ∧ mv < 11400 ∧ 10800 ≤ mv) ∧
    (let m : Mach := wBoot 5; let mv : Nat := 12000; (.supplyExcursion [mv] : Instr).wf = true ∧ m.frozen = false ∧ m.boot.vao = true ∧ 11400 ≤ mv ∧
      mv ≤ 12600 ∧ (tget m.boot.rails 0 ⟨0, 0, 0, false, false⟩).now = false) :=
  ⟨by decide, by decide, by decide, by decide, by decide, by decide, by decide, by decide, by decide, by decide, by decide, by decide, by decide,
    by decide, by decide⟩

/-- For each command of `Obligations.BootSequence` a machine and operands that meet all its hypotheses. -/
theorem witness_BootSequence :
    (let m : Mach := ({ wBoot 1 with boot := { (wBoot 1).boot with pwrgd := true, resetN := true } } : Mach); let module : Nat := 2;
      let dsz : Nat := 3; let node : Nat := 9; let ftestN : Bool := true; (.resetSequenceStart module dsz node ftestN : Instr).wf = true ∧
      m.boot.phase = 1 ∧ m.boot.pwrgd = true ∧ m.boot.resetN = true ∧ module < 4 ∧ dsz < 4 ∧ node < 128) ∧
    (let m : Mach := wBoot 2; let module : Nat := 2; let dsz : Nat := 3; let node : Nat := 9; let ftestN : Bool := true;
      (.resetSequenceStart module dsz node ftestN : Instr).wf = true ∧ m.boot.phase ≠ 1) ∧
    (let m : Mach := wBoot 2; (.pllLock : Instr).wf = true ∧ m.boot.phase = 2 ∧ m.dsize = 1) ∧
    (let m : Mach := wBoot 3; (.bootRomStart : Instr).wf = true ∧ m.boot.phase = 3) ∧
    (let m : Mach := wBoot 4; (.bootAreaChecked true : Instr).wf = true ∧ m.boot.phase = 4 ∧
      m.on (if m.selArea = 0 then R.mode_boot_resa else R.mode_boot_resb) = false) ∧
    (let m : Mach := (wBoot 4).sets [(R.mode_boot_resa, 7), (R.mode_boot_resb, 0)]; (.bootAreaChecked true : Instr).wf = true ∧ m.boot.phase = 4 ∧
      m.on (if m.selArea = 0 then R.mode_boot_resa else R.mode_boot_resb) = true) ∧
    (let m : Mach := (wBoot 5).sets ((List.range 4).map fun g => (R.mem_grp_stat_state g, 2)); (.directorySweep : Instr).wf = true ∧
      m.frozen = false ∧ 3 ≤ m.boot.phase ∧ m.sealed = false ∧ m.on R.mode_boot_sweep = false ∧ m.home.sweeping = false ∧ m.groupsReady = true) ∧
    (let m : Mach := ({ wBoot 5 with home := { (wBoot 5).home with sweeping := true } } : Mach); (.directorySweepComplete : Instr).wf = true ∧
      m.frozen = false ∧ m.home.sweeping = true ∧ m.home.waitq = [] ) ∧
    (let m : Mach := (wBoot 5).set R.mode_seal_state 2; (.bootSeal : Instr).wf = true ∧ m.frozen = false ∧ m.boot.phase = 5 ∧ m.sealed = true) ∧
    (let m : Mach := (wBoot 5).sets [(R.mem_rgn_base_en 3, 1), (R.mem_rgn_base_kind 3, 2)]; (.bootSeal : Instr).wf = true ∧ m.frozen = false ∧
      m.boot.phase = 5 ∧ m.sealed = false ∧ m.rgnCheck.1 ≠ 1) ∧
    (let m : Mach := wBoot 5; let thread : Nat := 3; let addr : Nat := 0x4000; (.threadStart thread addr : Instr).wf = true ∧ m.frozen = false ∧
      thread < 128 ∧ addr < 2 ^ 52 ∧ addr % 4 = 0 ∧ m.get R.mode_seal_state ≠ 2) ∧
    (let m : Mach := ({ wMon 0 [] [] with thr := [(3, { Thread.init with run := .vacant })] } : Mach).sets [(R.mode_seal_state, 2), (R.casc_thr_held 3, 1)];
      let thread : Nat := 3; let addr : Nat := 0x4000; (.threadStart thread addr : Instr).wf = true ∧ m.frozen = false ∧ thread < 96 ∧
      addr < 2 ^ 52 ∧ addr % 4 = 0 ∧ m.get R.mode_seal_state = 2 ∧ m.on (R.casc_thr_held thread) = true ∧ (m.th thread).run = Run.vacant ∧
      m.inKind1 addr (addr + 3) = true) :=
  ⟨by decide, by decide, by decide, by decide, by decide, by decide, by decide, by decide, by decide, by decide, by decide, by decide⟩

/-! ### Ill-formed commands -/

/-- One operand of FA out of its range, for each of its checks. -/
theorem test_illFormA :
    ([⟨96, 0, 0, 0⟩, ⟨0, 32, 0, 0⟩, ⟨0, 0, 32, 0⟩, ⟨0, 0, 0, 32⟩] : List FA).all (fun x => !x.wf) = true := by decide

/-- One operand of FI out of its range, for each of its checks. -/
theorem test_illFormI :
    ([⟨96, 0, 0, 0⟩, ⟨0, 32, 0, 0⟩, ⟨0, 0, 32, 0⟩, ⟨0, 0, 0, 65536⟩] : List FI).all (fun x => !x.wf) = true := by decide

/-- One operand of FM out of its range, for each of its checks. -/
theorem test_illFormM :
    ([⟨96, 0, 0, 0⟩, ⟨0, 32, 0, 0⟩, ⟨0, 0, 32, 0⟩, ⟨0, 0, 0, 65536⟩] : List FM).all (fun x => !x.wf) = true := by decide

/-- One operand of FX out of its range, for each of its checks. -/
theorem test_illFormX :
    ([⟨96, 0, 0, 0, 0, 0⟩, ⟨0, 32, 0, 0, 0, 0⟩, ⟨0, 0, 32, 0, 0, 0⟩, ⟨0, 0, 0, 32, 0, 0⟩, ⟨0, 0, 0, 0, 4, 0⟩, ⟨0, 0, 0, 0, 0, 512⟩] : List FX).all (fun x => !x.wf) = true := by decide

/-- One operand of FS out of its range, for each of its checks. -/
theorem test_illFormS :
    ([⟨96, 0, 0, 0⟩, ⟨0, 32, 0, 0⟩, ⟨0, 0, 32, 0⟩, ⟨0, 0, 0, 1024⟩] : List FS).all (fun x => !x.wf) = true := by decide

/-- One operand of FW out of its range, for each of its checks. -/
theorem test_illFormW :
    ([⟨96, 0, 0, 0, 0, 0⟩, ⟨0, 1024, 0, 0, 0, 0⟩, ⟨0, 0, 32, 0, 0, 0⟩, ⟨0, 0, 0, 65536, 0, 0⟩, ⟨0, 0, 0, 0, 32, 0⟩, ⟨0, 0, 0, 0, 0, 65536⟩] : List FW).all (fun x => !x.wf) = true := by decide

/-- One operand of Msg out of its range, for each of its checks. -/
theorem test_illMessage :
    ([{ noMsg with src := 256 }, { noMsg with dst := 256 }, { noMsg with tag := 4096 }, { noMsg with line := 2 ^ 44 }, { noMsg with acks := 256 },
     { noMsg with st := 4 }, { noMsg with req := 256 }, { noMsg with aux := 2 ^ 24 }, { noMsg with mask := 2 ^ 256 }] : List Msg).all (fun x => !x.wf) = true := by decide

/-- One operand of CsErr out of its range, for each of its checks. -/
theorem test_illControlStoreError :
    ([⟨32768, 0, 0, 0⟩, ⟨0, 256, 0, 0⟩, ⟨0, 0, 4, 0⟩, ⟨0, 0, 0, 3⟩] : List CsErr).all (fun x => !x.wf) = true := by decide

/-- One operand of XFrame out of its range, for each of its checks. -/
theorem test_illFrame :
    ([{ XFrame.zero with addr := 65536 }, { XFrame.zero with xid := 2 ^ 64 }, { XFrame.zero with pos := 2 ^ 32 }, { XFrame.zero with a := 2 ^ 32 },
     { XFrame.zero with b := 2 ^ 32 }, { XFrame.zero with dcmd := 256 }, { XFrame.zero with flags := 8 }, { XFrame.zero with dstat := 256 },
     { XFrame.zero with sense := List.replicate 17 0 }, { XFrame.zero with sense := [256] }, { XFrame.zero with data := List.replicate 4097 0 },
     { XFrame.zero with data := [256] }] : List XFrame).all (fun x => !x.wf) = true := by decide +kernel

/-- One operand out of its range, for each check of the commands `mcsRegisterWrite` to `qcommit`. -/
theorem test_illFormed_mcsRegisterWrite :
    ([.mcsRegisterWrite 0x2000000 0 0, .mcsRegisterWrite 0 3 0, .mcsRegisterWrite 0 0 0x10000000000000000, .mcsReservedAccess 0x2000000 false,
     .inboundMcsAccess 3 0 0 0 0 false, .inboundMcsAccess 0 32 0 0 0 false, .inboundMcsAccess 0 0 65536 0 0 false,
     .inboundMcsAccess 0 0 0 1024 0 false, .inboundMcsAccess 0 0 0 0 0x2000000 false, .modeRequest 0x10000000000000000,
     .modeCancel 0x10000000000000000, .epochBoundary 4096, .qreq 2 0 0 0 0, .qreq 0 256 0 0 0, .qreq 0 0 4 0 0, .qreq 0 0 0 16 0,
     .qreq 0 0 0 0 0x1000000000000, .qdrain 2 0 0 0 0, .qdrain 0 256 0 0 0, .qdrain 0 0 4 0 0, .qdrain 0 0 0 16 0, .qdrain 0 0 0 0 0x1000000000000,
     .qpoll 2 0 0 0 0, .qpoll 0 256 0 0 0, .qpoll 0 0 4 0 0, .qpoll 0 0 0 16 0, .qpoll 0 0 0 0 0x1000000000000, .qcommit 2 0 0 0 0,
     .qcommit 0 256 0 0 0, .qcommit 0 0 4 0 0, .qcommit 0 0 0 16 0, .qcommit 0 0 0 0 0x1000000000000] : List Instr).all (fun i => !i.wf) = true := by decide

/-- One operand out of its range, for each check of the commands `qabort` to `cmp`. -/
theorem test_illFormed_qabort :
    ([.qabort 2 0 0 0 0, .qabort 0 256 0 0 0, .qabort 0 0 4 0 0, .qabort 0 0 0 16 0, .qabort 0 0 0 0 0x1000000000000, .quiesceBoundarySlot 4096,
     .sluiceSlotForward 2 0, .sluiceSlotForward 0 0x100000000000000000000, .tod 2 0 0, .tod 0 256 0, .tod 0 0 0x1000000000000, .live 2 0 0 [],
     .live 0 256 0 [], .live 0 0 16 [], .live 0 0 0 [0, 18446744073709551616], .missedLiveSlots 4, .sluiceInputLost 2 false, .chk 2 0 0 0,
     .chk 0 256 0 0, .chk 0 0 4 0, .chk 0 0 0 0x1000000000000, .domainCheckstop 256 0, .domainCheckstop 0 4096, .add ⟨96, 0, 0, 0⟩,
     .addl ⟨96, 0, 0, 0⟩, .sub ⟨96, 0, 0, 0⟩, .subl ⟨96, 0, 0, 0⟩, .andI ⟨96, 0, 0, 0⟩, .orI ⟨96, 0, 0, 0⟩, .xorI ⟨96, 0, 0, 0⟩,
     .andc ⟨96, 0, 0, 0⟩, .sll ⟨96, 0, 0, 0⟩, .srl ⟨96, 0, 0, 0⟩, .sra ⟨96, 0, 0, 0⟩, .rotl ⟨96, 0, 0, 0⟩, .cmp ⟨96, 0, 0, 0⟩] : List Instr).all (fun i => !i.wf) = true := by decide

/-- One operand out of its range, for each check of the commands `cmpl` to `br`. -/
theorem test_illFormed_cmpl :
    ([.cmpl ⟨96, 0, 0, 0⟩, .mul ⟨96, 0, 0, 0⟩, .mulh ⟨96, 0, 0, 0⟩, .mulhu ⟨96, 0, 0, 0⟩, .div ⟨96, 0, 0, 0⟩, .divu ⟨96, 0, 0, 0⟩,
     .rem ⟨96, 0, 0, 0⟩, .remu ⟨96, 0, 0, 0⟩, .addi ⟨96, 0, 0, 0⟩, .addis ⟨96, 0, 0, 0⟩, .andi ⟨96, 0, 0, 0⟩, .ori ⟨96, 0, 0, 0⟩,
     .xori ⟨96, 0, 0, 0⟩, .cmpi ⟨96, 0, 0, 0⟩, .cmpli ⟨96, 0, 0, 0⟩, .lb ⟨96, 0, 0, 0⟩, .lh ⟨96, 0, 0, 0⟩, .lw ⟨96, 0, 0, 0⟩, .ld ⟨96, 0, 0, 0⟩,
     .lq ⟨96, 0, 0, 0⟩, .lbs ⟨96, 0, 0, 0⟩, .lhs ⟨96, 0, 0, 0⟩, .lws ⟨96, 0, 0, 0⟩, .stb ⟨96, 0, 0, 0⟩, .sth ⟨96, 0, 0, 0⟩, .stw ⟨96, 0, 0, 0⟩,
     .std ⟨96, 0, 0, 0⟩, .stq ⟨96, 0, 0, 0⟩, .lfs ⟨96, 0, 0, 0⟩, .lfd ⟨96, 0, 0, 0⟩, .stfs ⟨96, 0, 0, 0⟩, .stfd ⟨96, 0, 0, 0⟩,
     .indexedAccess ⟨96, 0, 0, 0, 0, 0⟩, .nonTemporalStore ⟨96, 0, 0, 0, 0, 0⟩, .br 96 0, .br 0 0x4000000] : List Instr).all (fun i => !i.wf) = true := by decide

/-- One operand out of its range, for each check of the commands `brl` to `dadd`. -/
theorem test_illFormed_brl :
    ([.brl 96 0, .brl 0 0x4000000, .brc 96 0 0 0, .brc 0 32 0 0, .brc 0 0 32 0, .brc 0 0 0 65536, .bgr ⟨96, 0, 0, 0⟩, .loop 96 0 0 0 0,
     .loop 0 4 0 0 0, .loop 0 0 8 0 0, .loop 0 0 0 32 0, .loop 0 0 0 0 65536, .mfsr ⟨96, 0, 0, 0⟩, .mtsr ⟨96, 0, 0, 0⟩, .svc ⟨96, 0, 0, 0⟩,
     .hvc ⟨96, 0, 0, 0⟩, .fwc ⟨96, 0, 0, 0⟩, .rfi ⟨96, 0, 0, 0⟩, .fenceL ⟨96, 0, 0, 0⟩, .fenceS ⟨96, 0, 0, 0⟩, .fenceF ⟨96, 0, 0, 0⟩,
     .isync ⟨96, 0, 0, 0⟩, .wait ⟨96, 0, 0, 0⟩, .waitWake 96, .rdtod ⟨96, 0, 0, 0⟩, .brk ⟨96, 0, 0, 0⟩, .undefinedInstruction 96 0,
     .undefinedInstruction 0 0x100000000, .lres ⟨96, 0, 0, 0⟩, .scond ⟨96, 0, 0, 0⟩, .cas8 ⟨96, 0, 0, 0⟩, .cas16 ⟨96, 0, 0, 0⟩,
     .lcpy ⟨96, 0, 0, 0⟩, .lcmp ⟨96, 0, 0, 0⟩, .lmap ⟨96, 0, 0, 0⟩, .dadd ⟨96, 0, 0, 0, 0, 0⟩] : List Instr).all (fun i => !i.wf) = true := by decide

/-- One operand out of its range, for each check of the commands `dsub` to `runAheadEnter`. -/
theorem test_illFormed_dsub :
    ([.dsub ⟨96, 0, 0, 0, 0, 0⟩, .dcmp ⟨96, 0, 0, 0, 0, 0⟩, .dmul ⟨96, 0, 0, 0, 0, 0⟩, .ddiv ⟨96, 0, 0, 0, 0, 0⟩, .dset ⟨96, 0, 0, 0, 0, 0⟩,
     .zdec ⟨96, 0, 0, 0, 0, 0⟩, .dzon ⟨96, 0, 0, 0, 0, 0⟩, .bcpy ⟨96, 0, 0, 0, 0, 0⟩, .bcmp ⟨96, 0, 0, 0, 0, 0⟩, .bmap ⟨96, 0, 0, 0, 0, 0⟩,
     .bxor ⟨96, 0, 0, 0, 0, 0⟩, .bfil ⟨96, 0, 0, 0, 0, 0⟩, .fadd ⟨96, 0, 0, 0⟩ false, .fsub ⟨96, 0, 0, 0⟩ false, .fmul ⟨96, 0, 0, 0⟩ false,
     .fdiv ⟨96, 0, 0, 0⟩ false, .fsqrt ⟨96, 0, 0, 0⟩ false, .fmadd ⟨96, 0, 0, 0⟩ false, .fmsub ⟨96, 0, 0, 0⟩ false, .fcmp ⟨96, 0, 0, 0⟩ false,
     .fcvtSD ⟨96, 0, 0, 0⟩, .fcvtDS ⟨96, 0, 0, 0⟩, .fcfi ⟨96, 0, 0, 0⟩ false, .fcti ⟨96, 0, 0, 0⟩ false, .fctiz ⟨96, 0, 0, 0⟩ false,
     .fmov ⟨96, 0, 0, 0⟩ false, .fneg ⟨96, 0, 0, 0⟩ false, .fabs ⟨96, 0, 0, 0⟩ false, .mffs ⟨96, 0, 0, 0⟩, .mtfs ⟨96, 0, 0, 0⟩,
     .fmgf ⟨96, 0, 0, 0⟩, .fmfg ⟨96, 0, 0, 0⟩, .externalInterruption 96, .machineCheck 96, .checkpointCommit 96, .runAheadEnter 96] : List Instr).all (fun i => !i.wf) = true := by decide

/-- One operand out of its range, for each check of the commands `runAheadEnd` to `combiningLineTimeout`. -/
theorem test_illFormed_runAheadEnd :
    ([.runAheadEnd 96, .coreCheckError 48 0 0 ⟨0, 0, 0, 0⟩, .coreCheckError 0 3 0 ⟨0, 0, 0, 0⟩, .coreCheckError 0 0 256 ⟨0, 0, 0, 0⟩,
     .coreCheckError 0 0 0 ⟨32768, 0, 0, 0⟩, .hangTimerExpiry 96, .capsuleRead 48 0, .capsuleRead 0 128, .swapResumption 48 0 0,
     .swapResumption 0 0x1000000 0, .swapResumption 0 0 0x1000000, .l2FlushComplete 48, .spareWarmed 48, .plannedSwap 48 0,
     .plannedSwap 0 0x10000000000000000, .patchGo 0x10000000000000000, .ldtt ⟨96, 0, 0, 0⟩, .sttt ⟨96, 0, 0, 0⟩, .tlbiva ⟨96, 0, 0, 0⟩,
     .tlbiasid ⟨96, 0, 0, 0⟩, .tlbip1 ⟨96, 0, 0, 0⟩, .tlbigpa ⟨96, 0, 0, 0⟩, .tlbipart ⟨96, 0, 0, 0⟩, .tlbihva ⟨96, 0, 0, 0⟩,
     .tlbihall ⟨96, 0, 0, 0⟩, .tlbsync ⟨96, 0, 0, 0⟩, .tlbsyncComplete 96, .adBitUpdate 96, .shootdownReceive 48 0, .shootdownAck 48 0,
     .tlbShootdownTimeout 96 0, .tlbShootdownTimeout 0 48, .storePerform 96, .combiningLineTimeout 48 0, .combiningLineTimeout 0 0x100000000000] : List Instr).all (fun i => !i.wf) = true := by decide

/-- One operand out of its range, for each check of the commands `prefetchRequest` to `wdat`. -/
theorem test_illFormed_prefetchRequest :
    ([.prefetchRequest 48 0, .prefetchRequest 0 32, .l2Eviction 48 0 0 0, .l2Eviction 0 1024 0 0, .l2Eviction 0 0 16 0, .l2Eviction 0 0 0 7,
     .rds { noMsg with src := 256 } 0 0, .rds noMsg 6 0, .rds noMsg 0 5, .rdx { noMsg with src := 256 } 0 0, .rdx noMsg 6 0, .rdx noMsg 0 5,
     .upg { noMsg with src := 256 }, .own { noMsg with src := 256 }, .wrf { noMsg with src := 256 }, .wrm { noMsg with src := 256 },
     .evc { noMsg with src := 256 }, .evd { noMsg with src := 256 }, .mov { noMsg with src := 256 }, .tlbi { noMsg with src := 256 },
     .prs { noMsg with src := 256 }, .prx { noMsg with src := 256 }, .pri { noMsg with src := 256 }, .prw { noMsg with src := 256 },
     .ack { noMsg with src := 256 }, .cmpGrant { noMsg with src := 256 }, .done { noMsg with src := 256 }, .pra { noMsg with src := 256 },
     .eva { noMsg with src := 256 }, .evp { noMsg with src := 256 }, .wra { noMsg with src := 256 }, .tlba { noMsg with src := 256 },
     .err { noMsg with src := 256 }, .dataMsg { noMsg with src := 256 }, .dath { noMsg with src := 256 }, .wdat { noMsg with src := 256 }] : List Instr).all (fun i => !i.wf) = true := by decide

/-- One operand out of its range, for each check of the commands `holdExpiry` to `memCra`. -/
theorem test_illFormed_holdExpiry :
    ([.holdExpiry 48 0, .holdExpiry 0 0x100000000000, .probeTimeout 0x100000000000, .fabricFlit 12 [] false, .fabricFlit 0 [0, 256] false,
     .fabricLaneFailure 12 0, .fabricLaneFailure 0 17, .fabricLanemap 12 0, .fabricLanemap 0 17, .fabricTrainingStart 12,
     .fabricEqualisationEnd 12 0, .fabricEqualisationEnd 0 0x20000, .fabricIdent 12 0 0 0, .fabricIdent 0 4 0 0, .fabricIdent 0 0 12 0,
     .fabricIdent 0 0 0 5, .fabricCrdinit 12, .memRd 20 0, .memRd 0 0x400000000, .memWr 20 0, .memWr 0 0x400000000, .memCrd 20 0, .memCrd 0 65536,
     .memCwr 20 0 0, .memCwr 0 65536 0, .memCwr 0 0 0x100000000, .memRdd 20 0 0 0 false 0, .memRdd 0 1024 0 0 false 0,
     .memRdd 0 0 0x100000000000000000000000000000000000000000000000000000000000000000000000000000000000000000000000000000000000000000000000000000000 0 false 0,
     .memRdd 0 0 0 0x100000000 false 0, .memRdd 0 0 0 0 false 8, .memWra 20 0, .memWra 0 1024, .memCra 20 0 0, .memCra 0 1024 0,
     .memCra 0 0 0x100000000] : List Instr).all (fun i => !i.wf) = true := by decide

/-- One operand out of its range, for each check of the commands `memRerr` to `cmpSubmit`. -/
theorem test_illFormed_memRerr :
    ([.memRerr 20 0, .memRerr 0 1024, .memResponseTimeout 20 0, .memResponseTimeout 0 1024, .memLaneFailure 20 0, .memLaneFailure 0 9,
     .memLanemap 20 0, .memLanemap 0 9, .memIdent 20 0 0 0, .memIdent 0 65536 0 0, .memIdent 0 0 65536 0, .memIdent 0 0 0 256, .memCrdinit 20,
     .memReady 20 false, .memTrainingStart 20, .memEqualisationEnd 20 0, .memEqualisationEnd 0 512, .memPortDown 20, .memPortUp 20, .rebuildLine 4,
     .patrolScrubLine 4 [] false, .patrolScrubLine 0 [0, 5] false, .groupInit 4, .groupInitComplete 4, .expansionComplete 0x10000000000,
     .expansionWaitEnd 0x10000000000, .pageEvictionComplete 0x10000000000, .genter ⟨96, 0, 0, 0⟩, .gexit ⟨96, 0, 0, 0⟩, .gdetach ⟨96, 0, 0, 0⟩,
     .gquery ⟨96, 0, 0, 0⟩, .debugCertificate [0, 256], .cmpSubmit 2 0 0, .cmpSubmit 0 64 0, .cmpSubmit 0 0 0x10000000000000000] : List Instr).all (fun i => !i.wf) = true := by decide

/-- One operand out of its range, for each check of the commands `rotationSlot` to `instanceRootWrite`. -/
theorem test_illFormed_rotationSlot :
    ([.rotationSlot 4 0 0, .rotationSlot 0 64 0, .rotationSlot 0 0 3, .cmpAbort 2 0, .cmpAbort 0 64, .crySubmit 2 0 0, .crySubmit 0 64 0,
     .crySubmit 0 0 0x10000000000000000, .cryAbort 2 0, .cryAbort 0 64, .wrappingKeyLoad 2 0 0, .wrappingKeyLoad 0 64 0,
     .wrappingKeyLoad 0 0 0x10000000000000000, .entropyHealthFailure 2, .entropyRestartEnd 2 false, .instanceAssign 4 0, .instanceAssign 0 64,
     .instanceEnable 4 0, .instanceEnable 0 64, .instanceQuiesce 4 0, .instanceQuiesce 0 64, .instanceQuiesced 4 0, .instanceQuiesced 0 64,
     .instanceResume 4 0, .instanceResume 0 64, .instanceReset 4 0, .instanceReset 0 64, .instanceRemove 4 0, .instanceRemove 0 64,
     .instanceSave 4 0, .instanceSave 0 64, .instanceRestore 4 0, .instanceRestore 0 64, .instanceRootWrite 4 0 false 0,
     .instanceRootWrite 0 64 false 0, .instanceRootWrite 0 0 false 0x10000000000000000] : List Instr).all (fun i => !i.wf) = true := by decide

/-- One operand out of its range, for each check of the commands `logCacheWriteback` to `busy`. -/
theorem test_illFormed_logCacheWriteback :
    ([.logCacheWriteback 4 0, .logCacheWriteback 0 0x100000000000, .subchannelDefine 0x40000, .subchannelEnable 0x40000, .subchannelDisable 0x40000,
     .subchannelQuery 0x40000, .varyOffline 0x40000 0, .varyOffline 0 8, .varyOnline 0x40000 0, .varyOnline 0 8, .subchannelUndefine 0x40000,
     .channelSubmit 64 0 0, .channelSubmit 0 0x10000000000000000 0, .channelSubmit 0 0 17, .recordConfirmed 0x100000000 0, .recordConfirmed 0 3,
     .holdExpired 0x100000000, .exchangeTimeout 0x100000000 0, .exchangeTimeout 0 0x40000, .pathProbeInterval 0x40000 0, .pathProbeInterval 0 8,
     .deviceBusyWaitEnd 0x100000000, .cmd 0x100000000, .wdata 0x100000000, .halt 0x100000000, .clear 0x100000000 0, .clear 0 0x40000,
     .identCmd 0x40000 0, .identCmd 0 8, .close 0x100000000 false, .rdata 32 XFrame.zero, .rdata 0 { XFrame.zero with addr := 65536 },
     .endCmd 32 XFrame.zero, .endCmd 0 { XFrame.zero with addr := 65536 }, .busy 32 XFrame.zero, .busy 0 { XFrame.zero with addr := 65536 }] : List Instr).all (fun i => !i.wf) = true := by decide

/-- One operand out of its range, for each check of the commands `free` to `jlPortUp`. -/
theorem test_illFormed_free :
    ([.free 32 XFrame.zero, .free 0 { XFrame.zero with addr := 65536 }, .halta 32 XFrame.zero, .halta 0 { XFrame.zero with addr := 65536 },
     .cleara 32 XFrame.zero, .cleara 0 { XFrame.zero with addr := 65536 }, .identr 32 XFrame.zero, .identr 0 { XFrame.zero with addr := 65536 },
     .rej 32 XFrame.zero, .rej 0 { XFrame.zero with addr := 65536 }, .keep 32 XFrame.zero, .keep 0 { XFrame.zero with addr := 65536 },
     .jlCodeword 50 0 (List.replicate 640 0) false false, .jlCodeword 0 0x100000 (List.replicate 640 0) false false,
     .jlCodeword 0 0 (256 :: List.replicate 639 0) false false, .jlCodeword 0 0 [] false false, .jlReplayTimeout 50, .jlLaneFailure 50 0,
     .jlLaneFailure 0 16, .jlLanemap 50 0 0, .jlLanemap 0 17 0, .jlLanemap 0 0 16, .jlTs 50 0, .jlTs 0 8, .jlInit 32 0 0 0 0 0,
     .jlInit 0 65536 0 0 0 0, .jlInit 0 0 65536 0 0 0, .jlInit 0 0 0 65536 0 0, .jlInit 0 0 0 0 65536 0, .jlInit 0 0 0 0 0 0x100000000,
     .jlTrainingStart 50, .jlEqualisationEnd 50 0, .jlEqualisationEnd 0 65536, .jlLinkDown 50, .jlPortDown 32, .jlPortUp 32] : List Instr).all (fun i => !i.wf) = true := by decide +kernel

/-- One operand out of its range, for each check of the commands `reservoirAdopt` to `powerFault`. -/
theorem test_illFormed_reservoirAdopt :
    ([.reservoirAdopt 0x100000000, .reservoirRelease 0x100000000, .reservoirQuery 0x100000000, .pcieCompletion 32 0 0 false false,
     .pcieCompletion 0 256 0 false false, .pcieCompletion 0 0 0x100000000000000000000000000000000 false false, .pcieCompletionTimeout 32 0,
     .pcieCompletionTimeout 0 256, .pcieInboundMemoryRead 32 0 0 0 0, .pcieInboundMemoryRead 0 65536 0 0 0, .pcieInboundMemoryRead 0 0 1024 0 0,
     .pcieInboundMemoryRead 0 0 0 0x10000000000000000 0, .pcieInboundMemoryRead 0 0 0 0 4097, .pcieInboundMemoryWrite 32 0 0 [] false,
     .pcieInboundMemoryWrite 0 65536 0 [] false, .pcieInboundMemoryWrite 0 0 0x10000000000000000 [] false,
     .pcieInboundMemoryWrite 0 0 0 [0, 256] false, .pcieInboundAtomicop 32 0 0 0 0 0 0 0, .pcieInboundAtomicop 0 65536 0 0 0 0 0 0,
     .pcieInboundAtomicop 0 0 1024 0 0 0 0 0, .pcieInboundAtomicop 0 0 0 0x10000000000000000 0 0 0 0, .pcieInboundAtomicop 0 0 0 0 3 0 0 0,
     .pcieInboundAtomicop 0 0 0 0 0 17 0 0, .pcieInboundAtomicop 0 0 0 0 0 0 0x100000000000000000000000000000000 0,
     .pcieInboundAtomicop 0 0 0 0 0 0 0 0x100000000000000000000000000000000, .pcieInboundUnsupported 32 0 0 0, .pcieInboundUnsupported 0 65536 0 0,
     .pcieInboundUnsupported 0 0 1024 0, .pcieInboundUnsupported 0 0 0 0x10000000000000000, .pcieErrorMessage 32 0 0, .pcieErrorMessage 0 65536 0,
     .pcieErrorMessage 0 0 3, .attentionButtonPressed 32 false, .presenceDetectChanged 32 false, .mrlSensorChanged 32 false, .powerFault 32 false] : List Instr).all (fun i => !i.wf) = true := by decide

/-- One operand out of its range, for each check of the commands `slotPowerOn` to `cp2Init`. -/
theorem test_illFormed_slotPowerOn :
    ([.slotPowerOn 32, .slotPowerOff 32, .indicatorChange 32 0 0, .indicatorChange 0 4 0, .indicatorChange 0 0 4, .perstRelease 32,
     .noLinkTimeout 32, .pcieLinkDown 32, .containmentRelease 32, .couplingSubmit 64 0 0, .couplingSubmit 0 0x10000000000000000 0,
     .couplingSubmit 0 0 97, .sreq 18 XFrame.zero, .sreq 0 { XFrame.zero with addr := 65536 }, .srsp 18 XFrame.zero,
     .srsp 0 { XFrame.zero with addr := 65536 }, .areq 18 XFrame.zero, .areq 0 { XFrame.zero with addr := 65536 }, .arsp 18 XFrame.zero,
     .arsp 0 { XFrame.zero with addr := 65536 }, .rbusy 18 XFrame.zero, .rbusy 0 { XFrame.zero with addr := 65536 }, .rrej 18 XFrame.zero,
     .rrej 0 { XFrame.zero with addr := 65536 }, .mupd 18 XFrame.zero, .mupd 0 { XFrame.zero with addr := 65536 }, .mack 18 XFrame.zero,
     .mack 0 { XFrame.zero with addr := 65536 }, .mnak 18 XFrame.zero, .mnak 0 { XFrame.zero with addr := 65536 }, .cp2Stop 18, .cp2Init 18 0 0 0,
     .cp2Init 0 0x10000000000000000 0 0, .cp2Init 0 0 65536 0, .cp2Init 0 0 0 0x100000000] : List Instr).all (fun i => !i.wf) = true := by decide

/-- One operand out of its range, for each check of the commands `couplingRequestTimeout` to `budgetInterval`. -/
theorem test_illFormed_couplingRequestTimeout :
    ([.couplingRequestTimeout 18 0, .couplingRequestTimeout 0 0x10000000000000000, .partnerSilent 18, .mirrorRelease 4, .couplingPortDown 18,
     .couplingPortUp 18, .doorbellRing 240 0 0 0, .doorbellRing 0 4096 0 0, .doorbellRing 0 0 257 0, .doorbellRing 0 0 0 0x10000000000000000,
     .groupTimeLimit 4096, .groupLimitWrite 4096 0, .groupLimitWrite 0 0x10000000000000000, .targetWrite 0x100000, .targetRead 0x100000,
     .rillEnable 4096 0, .rillEnable 0 0x10000000000000000, .rillPost 96 0, .rillPost 0 0x10000000000000000, .consumerWordRead 4096,
     .vpDefine 1024, .vpReady 1024, .vpStop 1024, .vpUndefine 1024, .sliceEnd 96, .vpLeave 96, .vpTimerWrite 1024 0,
     .vpTimerWrite 0 0x10000000000000000, .vpTimerExpiry 1024, .partitionStall 64, .budgetInterval 4096 0 0 false, .budgetInterval 0 4096 0 false,
     .budgetInterval 0 0 4096 false] : List Instr).all (fun i => !i.wf) = true := by decide

/-- One operand out of its range, for each check of the commands `powerSample` to `odWrite`. -/
theorem test_illFormed_powerSample :
    ([.powerSample 4096 0 [] [], .powerSample 0 4096 [] [], .powerSample 0 0 [0, 65536] [], .powerSample 0 0 [] [0, 65536],
     .sensorReading [0, 65536] [], .sensorReading [] [0, 272], .thermalPark 48, .shallowPark 48, .deepPark 48, .coreUnpark 48,
     .spillwayEvent 4096 0 0 0, .spillwayEvent 0 4096 0 0, .spillwayEvent 0 0 0x10000000000000000 0, .spillwayEvent 0 0 0 97, .bucketUnitEnd 4096,
     .severeClear 4096, .blockResetRequest 256, .fenceLimit 150, .blockResetComplete 150, .blockResetTimeout 150, .consequentialMarkExpiry 150,
     .faultInjection 4 0, .faultInjection 0 4096, .usdoRequest 65536 false 0 0 [] false false, .usdoRequest 0 false 65536 0 [] false false,
     .usdoRequest 0 false 0 256 [] false false, .usdoRequest 0 false 0 0 [0, 256] false false, .usdoTimeout 65536, .odRead 65536 0 0 0,
     .odRead 0 256 0 0, .odRead 0 0 0x100000000 0, .odRead 0 0 0 8192, .odWrite 65536 0 0 [] false, .odWrite 0 256 0 [] false,
     .odWrite 0 0 0x100000000 [] false, .odWrite 0 0 0 [0, 256] false] : List Instr).all (fun i => !i.wf) = true := by decide

/-- One operand out of its range, for each check of the commands `imageWrite` to `sluiceReceiverLock`. -/
theorem test_illFormed_imageWrite :
    ([.imageWrite [0, 256], .activate 256, .moduleResetObject 65536, .debugRegisterAccess false 256 0,
     .debugRegisterAccess false 0 0x10000000000000000, .debugMemoryAccess false [0, 256], .resetSequenceStart 4 0 0 false,
     .resetSequenceStart 0 4 0 false, .resetSequenceStart 0 0 128 false, .threadStart 128 0, .threadStart 0 0x10000000000000, .threadStart 0 1,
     .supplyExcursion [0, 65536], .fabricPortControlWrite 12 0, .fabricPortControlWrite 0 0x10000000000000000, .fabricRetrainAtX8Done 12,
     .jlNarrowingDone 50, .memoryLinkFlit 20 [], .memoryLinkFlit 0 [0, 256], .pcieLinkUp 32 0 0 false, .pcieLinkUp 0 4 0 false,
     .pcieLinkUp 0 0 17 false, .pcieLinkError 32 false, .sluiceReceiverLock 2 0, .sluiceReceiverLock 0 65536] : List Instr).all (fun i => !i.wf) = true := by decide

/-! ### Worked examples -/

/-- The machine after a command on an empty queue; the machine as it was where the command stops. -/
def wDo (c : Instr) (m : Mach) : Mach :=
  match exec c ⟨[], m⟩ with
  | .next t => t.m
  | .fault _ => m
  | .refused _ => m

/-- The first store of thread 0 that is not performed yet, its cc, and whether an interruption has taken it away. -/
def wSeen (m : Mach) : Option Nat × Nat × Nat := ((m.th 0).stores.head?.map (·.val), (m.th 0).cur.cc, bits (tget (m.th 0).cur.ecode 3 0).toNat 15 0)

/-- A decimal operation on an operand of 3 bytes and one of 2 bytes, with the decimal overflow trap on (Table 4.7). -/
def wTab (a b : List Nat) : Mach := wAt { wG [(4, 0x1000)] with psw := 0x40000003 } (a ++ b)
def wTabOp : FW := ⟨0, 0x062, 4, 0, 4, 3⟩

/-- Table 4.7, its five rows. -/
theorem test_decimal_add : wSeen (wDo (.dadd wTabOp) (wTab [0x01, 0x25, 0x0C] [0x30, 0x0C])) = (some 0x01550C, 2, 0) := by decide +kernel
theorem test_decimal_sub_negative : wSeen (wDo (.dsub wTabOp) (wTab [0x00, 0x30, 0x0C] [0x12, 0x5D])) = (some 0x00425C, 2, 0) := by decide +kernel
theorem test_decimal_sub_zero : wSeen (wDo (.dsub wTabOp) (wTab [0x00, 0x30, 0x0F] [0x30, 0x0C])) = (some 0x00000C, 0, 0) := by decide +kernel
theorem test_decimal_overflow : wSeen (wDo (.dadd wTabOp) (wTab [0x99, 0x99, 0x9C] [0x00, 0x1C])) = (some 0x00000C, 3, 0x020A) := by decide +kernel
theorem test_decimal_data : wSeen (wDo (.dadd wTabOp) (wTab [0x01, 0x2A, 0x0C] [0x00, 0x1C])) = (none, 0, 0x0209) := by decide +kernel

/-- The division example of 04_arithmetic_and_decimal.md: 1234 by 12, and by 1, which faults. -/
theorem test_decimal_divide : wSeen (wDo (.ddiv ⟨0, 4 * 32 + 2, 4, 0, 4, 4⟩) (wTab [0x00, 0x01, 0x23, 0x4C] [0x01, 0x2C])) = (some 0x102C010C, 0, 0) := by
  decide +kernel
theorem test_decimal_divide_fault : wSeen (wDo (.ddiv ⟨0, 4 * 32 + 2, 4, 0, 4, 4⟩) (wTab [0x00, 0x01, 0x23, 0x4C] [0x00, 0x1C])) = (none, 0, 0x020B) := by
  decide +kernel

/-- The encoding examples of 03_worzen_execution.md and 04_arithmetic_and_decimal.md. -/
theorem test_encode_ld : encI 0x13 5 9 0x40 = 0x4CA90040 := by decide
theorem test_encode_dadd : encW 0x3E 1 0x062 4 0x10 5 0x20 = 0xF811888002050020 := by decide

/-- The nested loops of 03_worzen_execution.md at 0x2014: the inner level returns to 0x2008, and when it ends the outer one to 0x2004. -/
theorem test_nested_loops :
    let a : Arch := { wG [] with ia := 0x2014, lsa := [(0, 0x2004), (1, 0x2008)], lea := [(0, 0x2014), (1, 0x2014)], lct := [(0, 3), (1, 4)], psw := 0x300003 }
    let b : Arch := { a with lct := [(0, 3), (1, 1)] }
    (after a a 4).ia = 0x2008 ∧ tget (after a a 4).lct 1 0 = 3 ∧ (after b b 4).ia = 0x2004 ∧ tget (after b b 4).lct 0 0 = 2 := by decide

/-- Overflow of an addition wraps and gives cc 3 (R119); the quotient of -7 by 2 truncates (R122). -/
theorem test_add_wraps :
    let m := wDo (.add ⟨0, 5, 1, 2⟩) (wAt (wG [(1, 0x7fffffffffffffff), (2, 1)]) [])
    (m.th 0).cur.gr 5 = 0x8000000000000000 ∧ (m.th 0).cur.cc = 3 := by decide
theorem test_div_truncates : ((wDo (.div ⟨0, 5, 1, 2⟩) (wAt (wG [(1, 0xfffffffffffffff9), (2, 2)]) [])).th 0).cur.gr 5 = 0xfffffffffffffffd := by decide

/-- A load reads its first byte as the most significant (R78); the line is the one that `wLd` holds. -/
theorem test_load_big_endian : ((wDo (.lh ⟨0, 5, 1, 2⟩) wLd).th 0).cur.gr 5 = 0x8384 := by decide +kernel

/-- svc at level F leaves from level F to the handler at 0x500 of its vector base, with the address after it saved (R104, R114). -/
theorem test_svc :
    let m := wDo (.svc ⟨0, 0, 0, 9⟩) (wAt { wG [] with ia := 0x1000, ivb := [(3, 0x10000)] } [])
    (m.th 0).cur.ia = 0x10500 ∧ tget (m.th 0).cur.sia 3 0 = 0x1004 ∧ tget (m.th 0).cur.eaddr 3 0 = 9 := by decide

/-- The pairing example of R52: 12, 11, 11 and 10 assignable cores form 21 pairs, with cores 22 and 34 left. -/
theorem test_pairs :
    let cs := (List.range 48).filter fun c => !([23, 35, 46, 47].contains c)
    let m := (List.range 4).foldl (fun m t => m.formPairs (cs.filter fun c => c / 12 == t)) Mach.reset
    m.get (R.core_state_pair 0) = 1 ∧ m.get (R.core_state_pair 21) = 20 ∧ m.get (R.core_state_lead 20) = 1 ∧ m.get (R.core_state_lead 22) = 0 := by decide +kernel

/-- Known answers from outside: the CRC-32C and CRC-32 of "123456789", SHA-256 of "abc" (FIPS 180-4), AES-128 (FIPS 197, appendix C.1). -/
theorem test_crc : crc32c [49, 50, 51, 52, 53, 54, 55, 56, 57] = 0xE3069283 ∧ crc32 [49, 50, 51, 52, 53, 54, 55, 56, 57] = 0xCBF43926 := by decide +kernel
theorem test_sha256 : ofBytes (sha256 [97, 98, 99]) = 0xba7816bf8f01cfea414140de5dae2223b00361a396177a9cb410ff61f20015ad := by decide +kernel
theorem test_aes128 : ofBytes (aesEnc (aesKeys (List.range 16)) (toBytes 16 0x00112233445566778899aabbccddeeff)) = 0x69c4e0d86a7b0430d8cdb78070b4c55a := by
  decide +kernel

/-- An idle step counts one nanosecond; a waiting command is taken from the front of the queue; a word spells no command. -/
theorem test_idle : (match step { State.reset with m := { Mach.reset with boot := { Mach.reset.boot with vao := true } } } with
    | .next t => t.m.tod
    | .fault _ => 0
    | .refused _ => 0) = Mach.reset.tod + 1 := by decide
theorem test_no_word : decodeTableWord 32 0x04 = none := rfl

/-- What is hard-wired: g0 reads 0 and keeps it. -/
theorem test_g0 : ((wDo (.addi ⟨0, 0, 1, 5⟩) wSmall).th 0).cur.gr 0 = 0 := by decide

/-- The walk of Table 7.14: 6 entry reads, then `a` is to be set in the level-2 leaf; stage 2 has a read-only leaf when `w` is false. -/
def wWalk (w : Bool) : Mach :=
  let a : Arch := { Arch.reset with psw := 0x10, ttr1 := 0x02A0000123400002, ttr2 := 0x0050000010000002 }
  let line := fun (k : Core) (x : Nat × Nat) =>
    k.setWay (16 * (x.1 / 256 % 1024)) ⟨x.1 / 256, .e, linePut 0 (x.1 % 256) 8 x.2, false, 0, false⟩
  { Mach.reset.sets [(R.aq_home_base 0, 0), (R.aq_home_size 0, 0x800), (R.aq_home_en 0, 1)] with
    thr := [(0, { wRun with cur := a, com := a })],
    cores := [(0, [(0x10000000, 0x10001003), (0x10001020, 0x40C0000000 + (if w then 0x18D else 0x185)), (0x10001100, 0x1234000018D), (0x40E34007F0, 0x123410003),
      (0x40E3410740, 0x123420003), (0x40E3420710, 0x800600025)].foldl line Core.init)] }

def wWalked (w : Bool) (acc : Acc) : Mach := wEnd (translate 0 0x7F3A1C456789 acc) (wWalk w)

theorem test_walk :
    let m := wWalked true .load
    (m.th 0).adWait = some (0x40E3420710, 0x800600025, 0x8006000A5) ∧ m.get (R.core_cstat0_hit 0) = 6 ∧ m.get (R.core_cstat0_miss 0) = 0 := by decide +kernel

/-- Without `w` the walk ends with code 0x0402 and a record of kind 6, s1lvl 2, lvl 3 and reason 9. -/
theorem test_walk_readOnly :
    (match translate 0 0x7F3A1C456789 .load (wWalk false) with | .error e _ => some e | .ok _ _ => none)
      = some (.exc 0x0402 0x123420710 true (some ⟨3, true, 6, 2, 9, 0x7F3A1C456789⟩)) := by decide +kernel

end Sys2Proof.Tests
end

section
/-! The reset values of the register arrays, and O57.  A register of an array is found in its block's table by its
offset, for every index at once: the descriptors listed before its own meet none of the array's offsets. -/

namespace Sys2Proof.Machine

/-! ### Where a register array meets an offset -/

/-- How far from its base the last element of a register array lies. -/
def dimsReach : List (Nat × Nat) → Nat
  | [] => 0
  | (c, st) :: r => st * (c - 1) + dimsReach r

theorem eq_zero_of_hitDims_nil (n : Nat) (ix : List Nat) (h : hitDims [] n = some ix) : n = 0 := by
  unfold hitDims at h
  split at h
  · assumption
  · contradiction

/-- A hit of an array of arrays: the outer index is in range and the rest of the distance hits the inner array. -/
theorem hitDims_cons_some (c st : Nat) (r : List (Nat × Nat)) (n : Nat) (ix : List Nat) (h : hitDims ((c, st) :: r) n = some ix) :
    n / st < c ∧ ∃ jx, hitDims r (n % st) = some jx := by
  simp only [hitDims, Option.ite_none_right_eq_some, Option.map_eq_some_iff] at h
  obtain ⟨hc, jx, hjx, -⟩ := h
  exact ⟨hc, jx, hjx⟩

theorem hitDims_le_reach (dims : List (Nat × Nat)) (n : Nat) (ix : List Nat) (h : hitDims dims n = some ix) : n ≤ dimsReach dims := by
  induction dims generalizing n ix with
  | nil => exact Nat.le_of_eq (eq_zero_of_hitDims_nil n ix h)
  | cons x r ih =>
    obtain ⟨c, st⟩ := x
    obtain ⟨hc, jx, hjx⟩ := hitDims_cons_some c st r n ix h
    calc n = st * (n / st) + n % st := (Nat.div_add_mod n st).symm
      _ ≤ st * (c - 1) + dimsReach r := Nat.add_le_add (Nat.mul_le_mul_left st (by omega)) (ih _ _ hjx)

theorem dvd_of_hitDims (g : Nat) (dims : List (Nat × Nat)) (n : Nat) (ix : List Nat) (hg : ∀ x ∈ dims, g ∣ x.2)
    (h : hitDims dims n = some ix) : g ∣ n := by
  induction dims generalizing n ix with
  | nil => exact eq_zero_of_hitDims_nil n ix h ▸ Nat.dvd_zero g
  | cons x r ih =>
    obtain ⟨c, st⟩ := x
    obtain ⟨-, jx, hjx⟩ := hitDims_cons_some c st r n ix h
    rw [← Nat.div_add_mod n st]
    have hst : g ∣ st := hg (c, st) List.mem_cons_self
    have hrest : g ∣ n % st := ih _ _ (fun y hy => hg y (List.mem_cons_of_mem _ hy)) hjx
    exact Nat.dvd_add (Nat.dvd_mul_right_of_dvd hst _) hrest

/-- The register `e` meets no element of the array of `c` elements of stride `st` from `base` on: it lies beyond the array's end,
it ends before the array begins, or it lies beside the array's elements in every stride. -/
def RDesc.clearOf (e : RDesc) (base c st : Nat) : Bool :=
  decide (base + st * (c - 1) < e.base) || decide (e.base + dimsReach e.dims < base) ||
    (decide (e.base ≤ base) && decide (¬ st ∣ base - e.base) && e.dims.all fun x => decide (st ∣ x.2))

theorem RDesc.hit_eq_none_of_clearOf (e : RDesc) (base c st i : Nat) (hi : i < c) (h : e.clearOf base c st = true) :
    e.hit (base + st * i) = none := by
  have hlast : st * i ≤ st * (c - 1) := Nat.mul_le_mul_left st (by omega)
  simp only [RDesc.clearOf, Bool.or_eq_true, Bool.and_eq_true, decide_eq_true_eq, List.all_eq_true] at h
  unfold RDesc.hit
  split
  · rfl
  · rename_i hbase
    cases hd : hitDims e.dims (base + st * i - e.base) with
    | none => rfl
    | some ix =>
      exfalso
      obtain (hbeyond | hbefore) | ⟨⟨hle, hphase⟩, hst⟩ := h
      · omega
      · have := hitDims_le_reach _ _ _ hd
        omega
      · have hdvd : st ∣ base + st * i - e.base := dvd_of_hitDims st _ _ _ hst hd
        rw [show base + st * i - e.base = (base - e.base) + st * i by omega] at hdvd
        exact hphase ((Nat.dvd_add_left (Nat.dvd_mul_right st i)).1 hdvd)

/-- The array `d` of `c` elements of stride `st` stands in a table, after registers that meet none of its elements. -/
def RDesc.leads (d : RDesc) (c st : Nat) : List RDesc → Bool
  | [] => false
  | e :: r => decide (e = d) || (e.clearOf d.base c st && d.leads c st r)

/-- `d` is an array of `c` elements of stride `st`, and the table of block `b` finds it at the offset of each of them. -/
structure RDesc.ArrayIn (d : RDesc) (b : Blk) (c st : Nat) : Prop where
  dims : d.dims = [(c, st)]
  stride_pos : 0 < st
  leads : d.leads c st (regTable b) = true

section
variable {d : RDesc} {b : Blk} {c st : Nat}

theorem RDesc.ArrayIn.hit_element (ha : d.ArrayIn b c st) {i : Nat} (hi : i < c) : d.hit (d.base + st * i) = some [i] := by
  simp [RDesc.hit, ha.dims, hitDims, Nat.mul_div_cancel_left i ha.stride_pos, hi]

theorem RDesc.ArrayIn.findSome_hit (ha : d.ArrayIn b c st) {i : Nat} (hi : i < c) (l : List RDesc) (hl : d.leads c st l = true) :
    (l.findSome? fun e => (e.hit (d.base + st * i)).map fun ix => (e, ix)) = some (d, [i]) := by
  induction l with
  | nil => simp [RDesc.leads] at hl
  | cons e r ih =>
    simp only [RDesc.leads, Bool.or_eq_true, Bool.and_eq_true, decide_eq_true_eq] at hl
    obtain rfl | ⟨hclear, hr⟩ := hl
    · simp [ha.hit_element hi]
    · simp [e.hit_eq_none_of_clearOf d.base c st i hi hclear, ih hr]

/-- The offset of an element of a register array names that element. -/
theorem RDesc.ArrayIn.regAt_element (ha : d.ArrayIn b c st) {i : Nat} (hi : i < c) : regAt b (d.base + st * i) = some (d, [i]) :=
  ha.findSome_hit hi (regTable b) ha.leads

end

/-! ### Reset values -/

/-- A register whose reset word depends on its index or on the configuration (log entries 3 and 4). -/
def RDesc.isFused (d : RDesc) : Bool := d.base == 0x1000000 || d.base == 0x410000 || d.base == 0x500028

/-- At reset no register is stored, so every field reads from its reset word (R12). -/
theorem Mach.get_reset (f : Fld) : Mach.reset.get f = bits (resetWord f.blk f.off) f.hi f.lo := by
  have hempty : Mach.reset.regs.tab f.blk = [] := by cases f.blk <;> rfl
  simp [Mach.get, Mach.word, hempty, tfind]

theorem resetWord_element {d : RDesc} {b : Blk} {c st : Nat} (ha : d.ArrayIn b c st) (hf : d.isFused = false) {i : Nat} (hi : i < c) :
    resetWord b (d.base + st * i) = d.resetVal := by
  simp only [RDesc.isFused, Bool.or_eq_false_iff, beq_eq_false_iff_ne] at hf
  obtain ⟨⟨hcore, hsrc⟩, hnonce⟩ := hf
  simp [resetWord, ha.regAt_element hi, hcore, hsrc, hnonce]

/-- Every element of a register array resets to the word of its field map. -/
theorem Mach.get_reset_element {d : RDesc} {b : Blk} {c st : Nat} (ha : d.ArrayIn b c st) (hf : d.isFused = false) (hi lo : Nat) {i : Nat}
    (h : i < c) : Mach.reset.get ⟨b, d.base + st * i, hi, lo⟩ = bits d.resetVal hi lo := by
  rw [Mach.get_reset, resetWord_element ha hf h]

/-! ### The tables of the module at reset -/

theorem pcie_p_stat_array : RT.pcie_p_stat.ArrayIn .pcie 32 0x80 := ⟨rfl, by decide, by decide⟩
theorem pcie_p_hp_array : RT.pcie_p_hp.ArrayIn .pcie 32 0x80 := ⟨rfl, by decide, by decide⟩
theorem chan_jl_stat_array : RT.chan_jl_stat.ArrayIn .chan 32 0x40 := ⟨rfl, by decide, by decide⟩
theorem cpl_p_stat_array : RT.cpl_p_stat.ArrayIn .cpl 18 0x40 := ⟨rfl, by decide, by decide⟩
theorem rill_r_base_array : RT.rill_r_base.ArrayIn .rill 4096 0x20 := ⟨rfl, by decide, by decide⟩
theorem dbell_grp_array : RT.dbell_grp.ArrayIn .dbell 4096 0x8 := ⟨rfl, by decide, by decide⟩
theorem casc_vp_ctl_array : RT.casc_vp_ctl.ArrayIn .casc 1024 0x20 := ⟨rfl, by decide, by decide⟩
theorem casc_vp_st_array : RT.casc_vp_st.ArrayIn .casc 1024 0x20 := ⟨rfl, by decide, by decide⟩
theorem spill_src_ctl_array : RT.spill_src_ctl.ArrayIn .spill 4096 0x20 := ⟨rfl, by decide, by decide⟩

theorem pcie_slot_reset (p : Nat) (hp : p < 32) :
    Mach.reset.get (R.pcie_p_stat_state p) = 4 ∧ Mach.reset.on (R.pcie_p_stat_pwr p) = false ∧ Mach.reset.on (R.pcie_p_hp_perst p) = true := by
  have hstate : Mach.reset.get (R.pcie_p_stat_state p) = 4 := Mach.get_reset_element pcie_p_stat_array rfl 3 0 hp
  have hpwr : Mach.reset.get (R.pcie_p_stat_pwr p) = 0 := Mach.get_reset_element pcie_p_stat_array rfl 17 17 hp
  have hperst : Mach.reset.get (R.pcie_p_hp_perst p) = 1 := Mach.get_reset_element pcie_p_hp_array rfl 12 12 hp
  exact ⟨hstate, by simp [Mach.on, hpwr], by simp [Mach.on, hperst]⟩

/-- Ports 0 to 31 are the channel subsystem's, 32 to 49 the coupling ports. -/
theorem jlState_reset (p : Nat) (hp : p < 50) : Mach.reset.jlState p = 0 := by
  unfold Mach.jlState jlStateF
  split
  next hchan => exact Mach.get_reset_element chan_jl_stat_array rfl 3 0 hchan
  next hcpl => exact Mach.get_reset_element cpl_p_stat_array rfl 3 0 (i := p - 32) (by omega)

theorem rill_base_reset (r : Nat) (hr : r < 4096) :
    Mach.reset.on (R.rill_r_base_en r) = false ∧ Mach.reset.get (R.rill_r_base_lsize r) = 6 := by
  have hen : Mach.reset.get (R.rill_r_base_en r) = 0 := Mach.get_reset_element rill_r_base_array rfl 63 63 hr
  have hlsize : Mach.reset.get (R.rill_r_base_lsize r) = 6 := Mach.get_reset_element rill_r_base_array rfl 4 0 hr
  exact ⟨by simp [Mach.on, hen], hlsize⟩

theorem dbell_grp_reset (g : Nat) (hg : g < 4096) : Mach.reset.get (R.dbell_grp_tlim g) = 2 ∧ Mach.reset.get (R.dbell_grp_climit g) = 1 :=
  ⟨Mach.get_reset_element dbell_grp_array rfl 26 16 hg, Mach.get_reset_element dbell_grp_array rfl 7 0 hg⟩

theorem vp_reset (v : Nat) (hv : v < 1024) :
    Mach.reset.vpSt v = 0 ∧ Mach.reset.get (R.casc_vp_ctl_weight v) = 16 ∧ Mach.reset.get (R.casc_vp_ctl_prio v) = 8 :=
  ⟨Mach.get_reset_element casc_vp_st_array rfl 3 0 hv, Mach.get_reset_element casc_vp_ctl_array rfl 47 40 hv,
    Mach.get_reset_element casc_vp_ctl_array rfl 51 48 hv⟩

/-- A Spillway source without a fixed minimum action resets to the word of the field map: the actions 2 and 1 that
the reset word puts in are the field map's own (R578). -/
theorem resetWord_spill_src_ctl (x : Nat) (hx : x < 4096) (hmin : minAction x = 0) :
    resetWord .spill (0x410000 + 0x20 * x) = RT.spill_src_ctl.resetVal := by
  have hat : regAt .spill (0x410000 + 0x20 * x) = some (RT.spill_src_ctl, [x]) := spill_src_ctl_array.regAt_element hx
  have hword : setBits (setBits (setBits RT.spill_src_ctl.resetVal 59 57 0) 10 8 2) 2 0 1 = RT.spill_src_ctl.resetVal := by decide
  rw [resetWord, hat]
  simpa [RT.spill_src_ctl, hmin] using hword

theorem spill_src_reset (x : Nat) (hx : x < 4096) (hmin : minAction x = 0) :
    Mach.reset.get (R.spill_src_ctl_ord x) = 1 ∧ Mach.reset.get (R.spill_src_ctl_sev x) = 2 ∧
      Mach.reset.get (R.spill_src_ctl_w x) = 1000 ∧ Mach.reset.get (R.spill_src_ctl_n x) = 16 := by
  simp only [Mach.get_reset, resetWord_spill_src_ctl x hx hmin]
  decide

/-! ### O57 -/

theorem scalar_registers_reset :
    Mach.reset.get R.mode_cur_cur = 0 ∧ Mach.reset.sealed = false ∧ Mach.reset.on R.spill_errn_asserted = false ∧
      Mach.reset.get R.id_part_vendor = 0x4E4B ∧ Mach.reset.get R.id_part_part = 0x25B0 ∧ Mach.reset.get R.weir_limit_watts = 2000 ∧
      Mach.reset.get R.mode_cfg_drain_lim = 100 := by decide

/-- Settles O57: the scalar registers one by one, each register array for every index at once.  That memory and the record of
emissions begin empty is the model's own choice (log entries 1 and 6), read off the literal. -/
theorem resetState : Obligations.ResetState := by
  unfold Obligations.ResetState
  obtain ⟨hmode, hseal, herrn, hvendor, hpart, hwatts, hdrain⟩ := scalar_registers_reset
  exact ⟨rfl, rfl, rfl, rfl, hmode, hseal, herrn, hvendor, hpart, hwatts, hdrain,
    pcie_slot_reset, jlState_reset, rill_base_reset, dbell_grp_reset, vp_reset, spill_src_reset⟩

end Sys2Proof.Machine
end

section
/-! What a software write does to a field of each access class (Table 1.17), and O55.  Every write of a field either
leaves the word under construction as it is or replaces the field's own bits in it; which value it puts there is said
once for each class. -/

namespace Sys2Proof.Machine

/-! ### The bits of a field -/

/-- A write of the whole word reaches every bit of a field within 64 bits. -/
theorem bits_wholeMask (hi lo : Nat) (h : hi < 64) : bits (2 ^ 64 - 1) hi lo = 2 ^ (hi + 1 - lo) - 1 := by
  apply Nat.eq_of_testBit_eq
  intro i
  rw [testBit_bits, Nat.testBit_two_pow_sub_one, Nat.testBit_two_pow_sub_one, ← Bool.decide_and, decide_eq_decide]
  omega

@[simp] theorem bits_zero (hi lo : Nat) : bits 0 hi lo = 0 := by simp [bits]

@[simp] theorem bits_mod_width (x hi lo : Nat) : bits x hi lo % 2 ^ (hi + 1 - lo) = bits x hi lo := Nat.mod_mod ..

theorem bits_setBits_bits (w x hi lo : Nat) (h : lo ≤ hi) : bits (setBits w hi lo (bits x hi lo)) hi lo = bits x hi lo := by
  rw [bits_setBits_same w hi lo _ h, bits_mod_width]

theorem testBit_bits_sub (x hi lo i : Nat) (hlo : lo ≤ i) (hhi : i ≤ hi) : (bits x hi lo).testBit (i - lo) = x.testBit i := by
  rw [testBit_bits, Nat.add_sub_cancel' hlo, decide_eq_true (by omega), Bool.true_and]

/-! ### A write of one field -/

namespace FDesc

variable {f : FDesc} {isSealed : Bool} {old val mask w : Nat}

variable (f isSealed old val mask w) in
/-- A write of a field replaces no bits but the field's own. -/
theorem apply_cases : f.apply isSealed old val mask w = w ∨ ∃ v, f.apply isSealed old val mask w = setBits w f.hi f.lo v := by
  unfold FDesc.apply
  cases f.cls with
  | rw | cnt | rsl =>
    dsimp only
    split
    · exact .inl rfl
    · exact .inr ⟨_, rfl⟩
  | w1c | w1s => exact .inr ⟨_, rfl⟩
  | ro | wo => exact .inl rfl

theorem bit_apply_outside (hf : f.lo ≤ f.hi) {i : Nat} (hi : i < f.lo ∨ f.hi < i) :
    bit (f.apply isSealed old val mask w) i = bit w i := by
  obtain h | ⟨v, h⟩ := f.apply_cases isSealed old val mask w
  · rw [h]
  · rw [h, bit, testBit_setBits w f.hi f.lo v i hf, if_neg (by omega), bit]

theorem apply_of_readOnly (h : f.cls = .ro ∨ f.cls = .wo) : f.apply isSealed old val mask w = w := by
  obtain h | h := h <;> simp [FDesc.apply, h]

theorem apply_of_sealed (h : f.cls = .rsl) : f.apply true old val mask w = w := by simp [FDesc.apply, h]

/-- A write that does not reach the field leaves the word as it is, or puts the old value of the field there. -/
theorem apply_of_unreached (hmask : bits mask f.hi f.lo = 0) :
    f.apply isSealed old val mask w = w ∨ f.apply isSealed old val mask w = setBits w f.hi f.lo (bits old f.hi f.lo) := by
  unfold FDesc.apply
  cases f.cls with
  | rw | cnt | rsl => exact .inl (by simp [hmask])
  | ro | wo => exact .inl rfl
  | w1c | w1s => exact .inr (by simp [hmask])

section
variable (hmask : bits mask f.hi f.lo = 2 ^ (f.hi + 1 - f.lo) - 1)
include hmask

/-- A write that reaches a whole field of a class that takes the written bits, with no clamp. -/
theorem apply_of_taken (hf : f.lo ≤ f.hi) (hlim : f.lim = none) (h : f.cls = .rw ∨ f.cls = .cnt ∨ f.cls = .rsl ∧ isSealed = false) :
    f.apply isSealed old val mask w = setBits w f.hi f.lo (bits val f.hi f.lo) := by
  have hfull : 2 ^ (f.hi + 1 - f.lo) - 1 ≠ 0 := Nat.sub_ne_zero_of_lt (Nat.one_lt_two_pow (by omega))
  obtain h | h | ⟨h, rfl⟩ := h <;> simp [FDesc.apply, h, hmask, hfull, FDesc.clamp, hlim]

theorem apply_of_w1c (h : f.cls = .w1c) : f.apply isSealed old val mask w =
    setBits w f.hi f.lo (bits old f.hi f.lo &&& (2 ^ (f.hi + 1 - f.lo) - 1 ^^^ bits val f.hi f.lo)) := by
  simp [FDesc.apply, h, hmask]

theorem apply_of_w1s (h : f.cls = .w1s) :
    f.apply isSealed old val mask w = setBits w f.hi f.lo (bits old f.hi f.lo ||| bits val f.hi f.lo) := by
  simp [FDesc.apply, h, hmask]

theorem bit_apply_of_w1c (h : f.cls = .w1c) {i : Nat} (hlo : f.lo ≤ i) (hhi : i ≤ f.hi) :
    bit (f.apply isSealed old val mask w) i = (bit old i && !bit val i) := by
  rw [apply_of_w1c hmask h, bit, testBit_setBits _ _ _ _ _ (Nat.le_trans hlo hhi), if_pos ⟨hlo, hhi⟩, Nat.testBit_and, Nat.testBit_xor,
    Nat.testBit_two_pow_sub_one, decide_eq_true (by omega), Bool.true_xor, testBit_bits_sub _ _ _ _ hlo hhi,
    testBit_bits_sub _ _ _ _ hlo hhi, bit, bit]

theorem bit_apply_of_w1s (h : f.cls = .w1s) {i : Nat} (hlo : f.lo ≤ i) (hhi : i ≤ f.hi) :
    bit (f.apply isSealed old val mask w) i = (bit old i || bit val i) := by
  rw [apply_of_w1s hmask h, bit, testBit_setBits _ _ _ _ _ (Nat.le_trans hlo hhi), if_pos ⟨hlo, hhi⟩, Nat.testBit_or,
    testBit_bits_sub _ _ _ _ hlo hhi, testBit_bits_sub _ _ _ _ hlo hhi, bit, bit]

end

/-- A write that does not reach the field keeps the field of a word that still holds its old value there. -/
theorem bits_apply_of_unreached (hf : f.lo ≤ f.hi) (hmask : bits mask f.hi f.lo = 0) (hold : bits old f.hi f.lo = bits w f.hi f.lo) :
    bits (f.apply isSealed old val mask w) f.hi f.lo = bits w f.hi f.lo := by
  obtain h | h := apply_of_unreached (isSealed := isSealed) (old := old) (val := val) (w := w) hmask
  · rw [h]
  · rw [h, bits_setBits_bits w old f.hi f.lo hf, hold]

end FDesc

/-! ### O55 -/

/-- Settles O55: one lemma for each class on a write that reaches the whole field, one on the bits outside the field, and
one on a write that does not reach it. -/
theorem accessClasses : Obligations.AccessClasses := by
  unfold Obligations.AccessClasses
  intro f isSealed old val w hf hhi hlim n fld
  have hmask := bits_wholeMask f.hi f.lo hhi
  have taken (h : f.cls = .rw ∨ f.cls = .cnt ∨ f.cls = .rsl ∧ isSealed = false) : fld n = fld val := by
    simp only [fld, n, FDesc.apply_of_taken hmask hf hlim h, bits_setBits_bits w val f.hi f.lo hf]
  refine ⟨fun h => taken ?_, FDesc.apply_of_readOnly, fun h i => FDesc.bit_apply_of_w1c hmask h, fun h i => FDesc.bit_apply_of_w1s hmask h,
    ?_, fun h hs => taken (.inr (.inr ⟨h, hs⟩)), fun i => FDesc.bit_apply_outside hf,
    FDesc.bits_apply_of_unreached hf (bits_zero f.hi f.lo)⟩
  · exact h.imp_right .inl
  · rintro h rfl
    exact FDesc.apply_of_sealed h

end Sys2Proof.Machine
end

section
/-! Accesses of the module control space, and O15.  A register of the identity or the Weir block stands in its block's
range of offsets, where no register whose write does more than hold a value stands, so a write of it stores the word that
its field map gives. -/

namespace Sys2Proof.Machine

open Sys2Proof.Safety

/-! ### The registers of the identity and Weir blocks -/

/-- An offset of the identity or the Weir block (Table 1.6), the blocks whose registers are all plain. -/
def PlainAt (b : Blk) (off : Nat) : Prop := (b = .id ∧ off < 0x10000) ∨ (b = .weir ∧ 0x310000 ≤ off ∧ off < 0x400000)

namespace PlainAt

variable {b : Blk} {off : Nat}

theorem ne (h : PlainAt b off) {o : Nat} (ho : 0x10000 ≤ o ∧ o < 0x310000 ∨ 0x400000 ≤ o) : off ≠ o := by
  unfold PlainAt at h
  omega

theorem blkOf_eq (h : PlainAt b off) : blkOf off = some b := by
  obtain ⟨rfl, hoff⟩ | ⟨rfl, hlo, hhi⟩ := h
  · simp [blkOf, hoff]
  · simp [blkOf, hhi, show ¬ off < 0x310000 by omega, show ¬ off < 0x300000 by omega, show ¬ off < 0x200000 by omega,
      show ¬ off < 0x100000 by omega, show ¬ off < 0x10000 by omega]

/-- The table of either block lists registers of that block alone. -/
theorem base_of_mem (h : PlainAt b off) {d : RDesc} (hd : d ∈ regTable b) : PlainAt b d.base := by
  obtain ⟨rfl, -⟩ | ⟨rfl, -⟩ := h
  · have hall : ∀ e ∈ regTable .id, e.base < 0x10000 := by decide
    exact .inl ⟨rfl, hall d hd⟩
  · have hall : ∀ e ∈ regTable .weir, 0x310000 ≤ e.base ∧ e.base < 0x400000 := by decide
    exact .inr ⟨rfl, hall d hd⟩

end PlainAt

theorem mem_regTable_of_regAt {b : Blk} {off : Nat} {d : RDesc} {ix : List Nat} (h : regAt b off = some (d, ix)) : d ∈ regTable b := by
  obtain ⟨e, he, hhit⟩ := List.exists_of_findSome?_eq_some h
  obtain ⟨_, _, heq⟩ := Option.map_eq_some_iff.1 hhit
  simp only [Prod.mk.injEq] at heq
  exact heq.1 ▸ he

/-! ### A write of a plain register -/

section
variable (m : Mach)

theorem Mach.plain_eq (x : RegW) : m.plain x =
    m.setWord x.f (x.d.apply m.sealed (m.word x.f) x.val (x.mask &&& (2 ^ 64 - 1 ^^^ x.d.bitsOf (· == .w1s)))) := by
  simp [Mach.plain, Mach.plainUnder]

theorem Mach.regWriteLow_of_plain {x : RegW} (h : PlainAt x.f.blk x.d.base) : m.regWriteLow x = some (m.plain x) := by
  simp [Mach.regWriteLow, h.ne]

theorem Mach.regWriteMid_of_plain {x : RegW} (h : PlainAt x.f.blk x.d.base) : m.regWriteMid x = m.plain x := by
  simp [Mach.regWriteMid, h.ne]

/-- Either way to a register of the two blocks, as a single register and as one of an array, ends in the plain write. -/
theorem Mach.regWrite_of_plain {x : RegW} (h : PlainAt x.f.blk x.d.base) : m.regWrite x = some (m.plain x) := by
  have hlow := m.regWriteLow_of_plain h
  have hmid := m.regWriteMid_of_plain h
  obtain ⟨hb, -⟩ | ⟨hb, -⟩ := h <;> simp [Mach.regWrite, hb, hlow, hmid]

variable {off part val : Nat} {b : Blk} {d : RDesc} {ix : List Nat} {th : Option Nat}

theorem Mach.regStore_of_plain (halign : off % 8 = 0) (hat : PlainAt b off) (hreg : regAt b off = some (d, ix))
    (hrsl : (m.sealed && d.hitsRsl (partMask part)) = false) :
    m.regStore off part val th = some (m.plain ⟨d, ix, ⟨b, off, 63, 0⟩, val, partMask part, th⟩) := by
  have hoff : off / 8 * 8 = off := by omega
  simp only [Mach.regStore, hoff, hat.blkOf_eq, hreg, hrsl]
  exact m.regWrite_of_plain (hat.base_of_mem (mem_regTable_of_regAt hreg))

theorem Mach.mcsWrite_of_plain (hfrozen : m.frozen = false) (halign : off % 8 = 0) (hat : PlainAt b off) (hreg : regAt b off = some (d, ix))
    (hrsl : (m.sealed && d.hitsRsl (partMask part)) = false) :
    m.mcsWrite off part val th = some (m.plain ⟨d, ix, ⟨b, off, 63, 0⟩, val, partMask part, th⟩) := by
  have hpage : ¬ (0x100000 ≤ off ∧ off < 0x1f0000) := fun h => hat.ne (.inl (by omega)) rfl
  rw [Mach.mcsWrite, hfrozen, if_neg Bool.false_ne_true, if_neg hpage, m.regStore_of_plain halign hat hreg hrsl]

end

/-! ### The commands -/

/-- A command whose meaning changes the machine by `f` for operands in range does what `f` does. -/
theorem does_of_ans {m : Mach} {c : Instr} {h : Prop} {P : Mach → Prop} (ok : Bool) (f : Mach → Mach) (hexec : ∀ s, exec c s = ans ok s f)
    (hok : c.wf = true → ok = true) (hP : h → P (f m)) : Does m c h P :=
  fun hwf hh q => ⟨f m, by rw [hexec, ans_ok ok _ f (hok hwf)], hP hh⟩

/-- The operands of an inbound access that its meaning looks at are in range. -/
theorem inboundMcsAccess_operands {who port rid tag off : Nat} {wr : Bool} (h : (Instr.inboundMcsAccess who port rid tag off wr).wf = true) :
    (decide (who < 3) && decide (port < 32) && decide (off < 0x2000000)) = true := by
  change (decide (who < 3) && decide (port < 32) && decide (rid < 65536) && decide (tag < 1024) && decide (off < 0x2000000)) = true at h
  simp only [Bool.and_eq_true] at h ⊢
  obtain ⟨⟨⟨⟨hwho, hport⟩, -⟩, -⟩, hoff⟩ := h
  exact ⟨⟨hwho, hport⟩, hoff⟩

section
variable (m : Mach) (off : Nat)

theorem does_mcsRegisterWrite_of_plain (part val : Nat) (b : Blk) (d : RDesc) (ix : List Nat) :
    Does m (.mcsRegisterWrite off part val)
      (m.frozen = false ∧ off % 8 = 0 ∧ PlainAt b off ∧ regAt b off = some (d, ix) ∧ (m.sealed && d.hitsRsl (partMask part)) = false)
      fun m' => m' = m.plain ⟨d, ix, ⟨b, off, 63, 0⟩, val, partMask part, none⟩ := by
  refine does_of_ans _ _ (execMcsRegisterWrite.eq_def off part val) id ?_
  rintro ⟨hfrozen, halign, hat, hreg, hrsl⟩
  have hod : off / 8 * 8 ≠ R.od_cmd.off := by
    rw [show off / 8 * 8 = off by omega]
    exact hat.ne (.inr (by decide))
  rw [if_neg hod, m.mcsWrite_of_plain hfrozen halign hat hreg hrsl, Option.getD_some]

theorem does_mcsReservedAccess_write :
    Does m (.mcsReservedAccess off true)
      (m.frozen = false ∧ ¬ (0x100000 ≤ off / 8 * 8 ∧ off / 8 * 8 < 0x1f0000) ∧ ((blkOf (off / 8 * 8)).bind fun b => regAt b (off / 8 * 8)) = none)
      fun m' => m' = m.raise 3632 (off / 8 * 8) := by
  refine does_of_ans _ _ (execMcsReservedAccess.eq_def off true) id ?_
  rintro ⟨hfrozen, hpage, hreg⟩
  dsimp only
  rw [← Bool.decide_and, decide_eq_false hpage, hreg, hfrozen]
  rfl

theorem does_mcsReservedAccess_read : Does m (.mcsReservedAccess off false) True fun m' => m' = m :=
  does_of_ans _ _ (execMcsReservedAccess.eq_def off false) id fun _ => by simp

theorem does_inboundMcsAccess_unit (who port rid tag : Nat) (wr : Bool) :
    Does m (.inboundMcsAccess who port rid tag off wr) (m.frozen = false ∧ who ≠ 0 ∧ ¬ (wr = true ∧ 0x100000 ≤ off ∧ off < 0x200000))
      fun m' => m' = m.raise 3632 off := by
  refine does_of_ans _ _ (execInboundMcsAccess.eq_def who port rid tag off wr) inboundMcsAccess_operands ?_
  rintro ⟨hfrozen, hwho, hpage⟩
  rw [if_neg (by simpa [hfrozen] using hpage), if_pos hwho]
  rfl

theorem does_inboundMcsAccess_rootPort (port rid tag : Nat) (wr : Bool) :
    Does m (.inboundMcsAccess 0 port rid tag off wr)
      (m.frozen = false ∧ m.isRoot port = true ∧ m.pcieUp port = true ∧ m.blkDown (80 + port) = false ∧
        ¬ (wr = true ∧ 0x100000 ≤ off ∧ off < 0x200000))
      fun m' => m' = (if wr then m.pcieError port 0xC5 (0x000fe00000000000 + off) rid
        else (m.pcieError port 0xC5 (0x000fe00000000000 + off) rid).sendCpl port tag 1 false []) := by
  refine does_of_ans _ _ (execInboundMcsAccess.eq_def 0 port rid tag off wr) inboundMcsAccess_operands ?_
  rintro ⟨hfrozen, hroot, hup, hblk, hpage⟩
  rw [if_neg (by simpa [hfrozen] using hpage), if_neg (fun h => h rfl), hroot, hup, hblk]
  rfl

end

/-! ### O15 -/

/-- Settles O15, command by command: what each does is said above, and the plain write stores the word of `Mach.plain_eq`. -/
theorem controlSpaceAccess : Obligations.ControlSpaceAccess := by
  unfold Obligations.ControlSpaceAccess
  intro m
  refine ⟨fun off part val b d ix => ?_, does_mcsReservedAccess_write m, does_mcsReservedAccess_read m,
    fun who port rid tag off => does_inboundMcsAccess_unit m off who port rid tag,
    fun port rid tag off => does_inboundMcsAccess_rootPort m off port rid tag⟩
  have h := does_mcsRegisterWrite_of_plain m off part val b d ix
  rwa [m.plain_eq] at h

end Sys2Proof.Machine
end

section
/-! A checkstopped module, and O59.  Every command outside `actsFrozen` asks for a checkstop before it changes anything:
most in their own meaning, the others in an operation that the lemmas of the first part speak of. -/

namespace Sys2Proof.Machine

/-! ### Operations that do nothing in a checkstop -/

namespace Mach

variable {m : Mach} (hfrozen : m.frozen = true)
include hfrozen

theorem executes_of_frozen (th : Nat) : m.executes th = false := by
  rw [executes, hfrozen]
  rfl

theorem interruptible_of_frozen (th : Nat) : m.interruptible th = false := by
  rw [interruptible, hfrozen]
  rfl

theorem jlMayTrain_of_frozen (q : Nat) : m.jlMayTrain q = false := by
  rw [jlMayTrain, hfrozen]
  rfl

/-- Neither the stop that waits for an instruction boundary nor the instruction itself happens. -/
theorem runInsn_of_frozen (th : Nat) (sh : Shape) (body : X Done) : m.runInsn th sh body = m := by
  rw [runInsn, if_pos hfrozen, executes_of_frozen hfrozen]
  rfl

theorem waitWake_of_frozen (th : Nat) : m.waitWake th = m := by
  rw [waitWake, hfrozen]
  rfl

theorem leave_of_frozen (th : Nat) : m.leave th = m := by
  unfold leave
  dsimp only
  split <;> simp [hfrozen]

theorem storePerform_of_frozen (th : Nat) : m.storePerform th = m := by
  unfold storePerform
  dsimp only
  split <;> simp [hfrozen]

theorem checkError_of_frozen (core th code : Nat) (cs : CsErr) : m.checkError core th code cs = m := by
  simp [checkError, hfrozen]

theorem mcsWrite_of_frozen (off part val : Nat) (th : Option Nat) : m.mcsWrite off part val th = some m := if_pos hfrozen

end Mach

/-! ### Commands that leave the machine as it is -/

section
variable {s t : State} {m' : Mach}

/-- A command whose meaning leaves the machine as it is leaves the state as it is. -/
theorem eq_of_next (h : (.next { s with m := m' } : Host.Outcome State Fault Refusal) = .next t) (hkept : m' = s.m) : t = s := by
  subst hkept
  cases h
  rfl

/-- As `eq_of_next`, for a command that faults when its operands are out of range. -/
theorem eq_of_answer {ok : Bool} (h : (if ok then .next { s with m := m' } else .fault .noSuchUnit : Host.Outcome State Fault Refusal) = .next t)
    (hkept : m' = s.m) : t = s := by
  cases ok with
  | true => exact eq_of_next h hkept
  | false => cases h

end

/-! ### O59 -/

/-- Settles O59, command by command: the meaning of each asks for a checkstop before it changes anything. -/
theorem checkstopHolds : Obligations.CheckstopHolds := by
  unfold Obligations.CheckstopHolds
  intro c s t hfrozen hacts hexec
  cases c with
  -- commands that act in a checkstop
  | concurrentRepairButton | hubLost | nmtStart | nmtStop | nmtEnterPreOperational | nmtResetNode | nmtResetCommunication | bootUpMessage
  | heartbeat | emcy | usdoRequest | usdoTimeout | tpdo1 | tpdo2 | canErrorPassive | busOffRecovery | imageWrite | activate | moduleResetObject
  | debugStop | debugResume | debugStep | debugRegisterAccess | debugMemoryAccess | readoutItem | powerOnReset | mainenAssert | pwrgdRise
  | pwrgdFall | resetNChange | referenceClockLoss | moduleReset | resetSequenceStart | pllLock | bootRomStart | bootAreaChecked | vAoLoss
  | faultIndicatorTimeout =>
    cases hacts
  -- instructions
  | add | addl | sub | subl | andI | orI | xorI | andc | sll | srl | sra | rotl | cmp | cmpl | mul | mulh | mulhu | div | divu | rem | remu | addi
  | addis | andi | ori | xori | cmpi | cmpli | lb | lh | lw | ld | lq | lbs | lhs | lws | stb | sth | stw | std | stq | lfs | lfd | stfs | stfd
  | indexedAccess | nonTemporalStore | br | brl | brc | bgr | loop | mfsr | mtsr | svc | hvc | fwc | rfi | fenceL | fenceS | fenceF | isync | wait
  | rdtod | brk | undefinedInstruction | lres | scond | cas8 | cas16 | lcpy | lcmp | lmap | dadd | dsub | dcmp | dmul | ddiv | dset | zdec | dzon
  | bcpy | bcmp | bmap | bxor | bfil | fadd | fsub | fmul | fdiv | fsqrt | fmadd | fmsub | fcmp | fcvtSD | fcvtDS | fcfi | fcti | fctiz | fmov
  | fneg | fabs | mffs | mtfs | fmgf | fmfg | ldtt | sttt | tlbiva | tlbiasid | tlbip1 | tlbigpa | tlbipart | tlbihva | tlbihall | tlbsync
  | genter | gexit | gdetach | gquery =>
    exact eq_of_answer hexec (Mach.runInsn_of_frozen hfrozen ..)
  -- commands that ask for a checkstop before anything else
  | modeRequest | modeCancel | domainCheckstop | plannedSwap | patchGo | combiningLineTimeout | rds | rdx | upg | own | wrf | wrm | evc | evd
  | mov | tlbi | prs | prx | pri | prw | ack | cmpGrant | done | pra | eva | evp | wra | tlba | err | dataMsg | dath | wdat | memRd | memWr
  | memCrd | memCwr | memRdd | memWra | memCra | memRerr | memPortDown | memPortUp | cmpSubmit | rotationSlot | cmpAbort | crySubmit | cryAbort
  | wrappingKeyLoad | instanceAssign | instanceEnable | instanceQuiesce | instanceResume | instanceReset | instanceRemove | instanceSave
  | instanceRestore | instanceRootWrite | subchannelDefine | subchannelEnable | subchannelDisable | subchannelQuery | varyOffline | varyOnline
  | subchannelUndefine | channelSubmit | exchangeTimeout | clear | jlPortDown | jlPortUp | reservoirAdopt | reservoirRelease | reservoirQuery
  | couplingSubmit | couplingRequestTimeout | mirrorRelease | couplingPortDown | couplingPortUp | doorbellRing | groupLimitWrite | rillEnable
  | rillPost | vpDefine | vpReady | vpStop | vpUndefine | vpTimerWrite | vpTimerExpiry | budgetInterval | powerSample | sensorReading
  | severeClear | blockResetRequest | faultInjection | odRead | odWrite | threadStart | fabricPortControlWrite =>
    exact eq_of_answer hexec (if_pos hfrozen)
  | cisternDiscard | cisternEvict | cisternQuery | watchdogKick | debugCertificate | debugEnablesClear | targetWrite | targetRead | rillWriterSlot
  | cascadeSelection | spillwayEvent | errnClear =>
    exact eq_of_next hexec (if_pos hfrozen)
  -- commands that ask for it with their other conditions
  | mcsReservedAccess | inboundMcsAccess | epochBoundary | qreq | qdrain | qpoll | qcommit | qabort | sluiceSlotForward | tod | live
  | missedLiveSlots | sluiceInputLost | chk | checkpointCommit | runAheadEnd | l2FlushComplete | spareWarmed | l2Eviction | holdExpiry
  | fabricFlit | fabricLaneFailure | fabricLanemap | fabricTrainingStart | fabricEqualisationEnd | fabricIdent | fabricCrdinit
  | memResponseTimeout | memLaneFailure | memLanemap | memIdent | memCrdinit | memReady | memTrainingStart | memEqualisationEnd | rebuildLine
  | patrolScrubLine | groupInit | groupInitComplete | entropyHealthFailure | entropyRestartEnd | instanceQuiesced | pathProbeInterval | rdata
  | endCmd | busy | free | halta | cleara | identr | rej | keep | jlCodeword | jlReplayTimeout | jlLaneFailure | jlLanemap | jlLinkDown
  | pcieCompletion | pcieCompletionTimeout | pcieInboundMemoryRead | pcieInboundMemoryWrite | pcieInboundAtomicop | pcieInboundUnsupported
  | pcieErrorMessage | attentionButtonPressed | presenceDetectChanged | mrlSensorChanged | powerFault | slotPowerOn | slotPowerOff
  | indicatorChange | perstRelease | noLinkTimeout | pcieLinkDown | containmentRelease | sreq | srsp | areq | arsp | rbusy | rrej | mupd | mack
  | mnak | cp2Stop | partnerSilent | groupTimeLimit | consumerWordRead | partitionStall | thermalPark | shallowPark | deepPark | coreUnpark
  | bucketUnitEnd | fenceLimit | blockResetComplete | blockResetTimeout | consequentialMarkExpiry | fabricRetrainAtX8Done | jlNarrowingDone
  | memoryLinkFlit | pcieLinkUp | pcieLinkError | sluiceReceiverLock =>
    exact eq_of_answer hexec (if_pos (by simp only [hfrozen, Bool.true_or]))
  | epochDrainStep2 | epochDrainStep3 | epochDrainStep4 | epochDrainStep5 | drainTimeout | sluiceSlotOriginate | mapScanComplete | grottoCreate
  | grottoAdd | grottoSeal | grottoTeardown | grottoQuery | watchdogExpiry | isolationComplete | isolationTimeout | imageVerified | directorySweep
  | directorySweepComplete | bootSeal | supplyExcursion =>
    exact eq_of_next hexec (if_pos (by simp only [hfrozen, Bool.true_or]))
  -- commands that look first for what they are about, and find nothing or ask for it then
  | quiesceBoundarySlot | capsuleRead | swapResumption | shootdownReceive | shootdownAck | prefetchRequest | probeTimeout | logCacheWriteback
  | identCmd | sliceEnd =>
    refine eq_of_answer hexec ?_
    dsimp only
    split <;> simp [hfrozen]
  | patchApplied | expansionComplete | expansionWaitEnd | pageEvictionComplete | mtuRemoval | recordConfirmed | holdExpired | deviceBusyWaitEnd
  | cmd | wdata | halt | close =>
    refine eq_of_next hexec ?_
    dsimp only
    split <;> simp [hfrozen]
  -- commands of threads and of Jalper training, which ask for it in an operation of their own
  | waitWake => exact eq_of_answer hexec (Mach.waitWake_of_frozen hfrozen _)
  | vpLeave => exact eq_of_answer hexec (Mach.leave_of_frozen hfrozen _)
  | storePerform => exact eq_of_answer hexec (Mach.storePerform_of_frozen hfrozen _)
  | coreCheckError =>
    refine eq_of_answer hexec ?_
    simp [Mach.checkError_of_frozen hfrozen]
  | mcsRegisterWrite =>
    refine eq_of_answer hexec ?_
    simp [hfrozen, Mach.mcsWrite_of_frozen hfrozen]
  | externalInterruption => exact eq_of_answer hexec (if_pos (by simp [Mach.interruptible_of_frozen hfrozen]))
  | machineCheck =>
    refine eq_of_answer hexec ?_
    simp [hfrozen, Mach.interruptible_of_frozen hfrozen]
  | hangTimerExpiry => exact eq_of_answer hexec (if_pos (by simp [Mach.executes_of_frozen hfrozen]))
  | runAheadEnter => exact eq_of_answer hexec (if_neg (by simp [Mach.executes_of_frozen hfrozen]))
  | adBitUpdate =>
    refine eq_of_answer hexec ?_
    dsimp only
    split
    · rfl
    · exact if_pos (by simp [Mach.executes_of_frozen hfrozen])
  | tlbsyncComplete | tlbShootdownTimeout => exact eq_of_answer hexec (if_neg (by simp [hfrozen]))
  | jlTrainingStart => exact eq_of_answer hexec (if_neg (by simp [Mach.jlMayTrain_of_frozen hfrozen]))
  | jlTs | jlEqualisationEnd | jlInit | cp2Init =>
    exact eq_of_answer hexec (if_pos (by simp [Mach.jlMayTrain_of_frozen hfrozen]))

end Sys2Proof.Machine
end

section
/-! Mode requests, the drain and the boundary, and O16.  A write of `mode.req` stores cause and target before it does
anything else, and the request reads them back; a drain that begins stands in step 1, whatever leaves the cores then. -/

namespace Sys2Proof.Machine

open Sys2Proof.Safety

/-! ### What leaves the modes as they are -/

theorem foldl_mode {α : Type} {f : Mach → α → Mach} (hf : ∀ m x, (f m x).mode = m.mode) (l : List α) (m : Mach) :
    (l.foldl f m).mode = m.mode := by
  induction l generalizing m with
  | nil => rfl
  | cons x l ih => exact (ih (f m x)).trans (hf m x)

namespace Mach

variable (m : Mach)

@[simp] theorem onVpX_mode (vp : Nat) (f : VpX → VpX) : (m.onVpX vp f).mode = m.mode := rfl
@[simp] theorem setFabP_mode (p : Nat) (k : LinkSt FabUnit) : (m.setFabP p k).mode = m.mode := rfl
@[simp] theorem setVp_mode (vp st reason : Nat) : (m.setVp vp st reason).mode = m.mode := by simp [setVp]

@[simp] theorem countCore_mode (c : Nat) (f : Fld) : (m.countCore c f).mode = m.mode := by
  rw [countCore, apply_ite mode, count_mode, ite_self]

@[simp] theorem dbgResult_mode (th r : Nat) : (m.dbgResult th r).mode = m.mode := by
  rw [dbgResult, apply_ite mode, ite_self]

@[simp] theorem endStop_mode (th result : Nat) : (m.endStop th result).mode = m.mode := by
  rw [endStop, apply_ite mode, dbgResult_mode, onTh_mode, ite_self]

@[simp] theorem beginLeave_mode (vp after reason : Nat) : (m.beginLeave vp after reason).mode = m.mode := by
  rw [beginLeave, setVp_mode, apply_ite mode, count_mode, onVpX_mode, ite_self]

@[simp] theorem fabSend_mode (p n : Nat) : (m.fabSend p n).mode = m.mode := by
  induction n generalizing m with
  | zero => rfl
  | succ n ih =>
    unfold fabSend
    dsimp only
    split
    · rfl
    · split
      · rfl
      · split
        · rfl
        · rw [ih, emit_mode, setFabP_mode]

@[simp] theorem route_mode (op : Nat) (x : Msg) : (m.route op x).mode = m.mode := by
  rw [route, apply_ite mode, fabSend_mode, setFabP_mode, ite_self]

@[simp] theorem send_mode (op : Nat) (x : Msg) : (m.send op x).mode = m.mode := by rw [send, route_mode, emit_mode]

@[simp] theorem homeWriteMsg_mode (c th line : Nat) (data : Line) (mask : Nat) (store : Bool) :
    (m.homeWriteMsg c th line data mask store).mode = m.mode := by
  rw [homeWriteMsg, send_mode, send_mode, onCore_mode]

@[simp] theorem combOut_mode (c : Nat) (x : CombLine) : (m.combOut c x).mode = m.mode := by
  unfold combOut
  split
  · rfl
  · dsimp only
    split
    · split <;> simp [apply_ite mode]
    · simp [apply_ite mode]

@[simp] theorem combFlush_mode (c : Nat) : (m.combFlush c).mode = m.mode := foldl_mode (fun m x => m.combOut_mode c x) _ m

end Mach

/-! ### The drain begins -/

/-- A virtual processor leaves its thread when a drain begins: a running one to be ready again, a waiting one to go on waiting (R60). -/
def Mach.leaveForDrain (m : Mach) (v : Nat) : Mach :=
  if m.vpSt v = 3 then m.beginLeave v 2 3 else if m.vpSt v = 4 ∧ (m.vpThread v).isSome then m.beginLeave v 4 0 else m

@[simp] theorem Mach.leaveForDrain_mode (m : Mach) (v : Nat) : (m.leaveForDrain v).mode = m.mode := by
  rw [Mach.leaveForDrain, apply_ite Mach.mode, apply_ite Mach.mode, Mach.beginLeave_mode, Mach.beginLeave_mode, ite_self, ite_self]

/-- What the debug stops, virtual processors and combining buffers do when a drain begins does not end its step 1 (R60). -/
theorem Mach.beginDrain_stage (m : Mach) (target cause : Nat) (dom : Bool) : (m.beginDrain target cause dom).mode.stage = 1 := by
  unfold Mach.beginDrain
  extract_lets modes latched shown stopped left
  have hleft : left = (List.range 1024).foldl Mach.leaveForDrain stopped := rfl
  have hstopped : stopped.mode = shown.mode := foldl_mode (fun m t => m.endStop_mode t 4) _ _
  rw [foldl_mode fun m c => m.combFlush_mode c, hleft, foldl_mode Mach.leaveForDrain_mode, hstopped, Mach.sets_mode]

/-! ### A write of `mode.req` -/

/-- The machine with cause and target of a write of `mode.req` stored (Table 2.8). -/
abbrev Mach.reqStored (m : Mach) (val : Nat) : Mach := (m.set R.mode_req_cause (bits val 6 4)).set R.mode_req_target (bits val 2 0)

section
variable (m : Mach) (val : Nat)

@[simp] theorem Mach.reqStored_target : (m.reqStored val).get R.mode_req_target = bits val 2 0 := by
  rw [Mach.reqStored, Mach.get_set_same _ _ _ (by decide) (by decide)]
  exact bits_mod_width val 2 0

@[simp] theorem Mach.reqStored_cause : (m.reqStored val).get R.mode_req_cause = bits val 6 4 := by
  rw [Mach.reqStored, Mach.get_set_beside _ R.mode_req_target R.mode_req_cause _ rfl rfl (by decide) (by decide) (.inr (by decide)),
    Mach.get_set_same _ _ _ (by decide) (by decide)]
  exact bits_mod_width val 6 4

/-- A write under the mask of the whole register puts the written bits into a field of three bits. -/
theorem written_of_wholeMask (old hi lo : Nat) (hhi : hi < 64) (hwidth : hi + 1 - lo = 3) :
    (old &&& (7 ^^^ bits (2 ^ 64 - 1) hi lo)) ||| bits val hi lo = bits val hi lo := by
  rw [bits_wholeMask hi lo hhi, hwidth, show 7 ^^^ (2 ^ 3 - 1) = 0 by decide, Nat.and_zero, Nat.zero_or]

theorem Mach.modeReqWrite_whole {m : Mach} {val : Nat} (hfrozen : m.frozen = false) (hval : val < 2 ^ 64) :
    m.modeReqWrite val (2 ^ 64 - 1) =
      if bit val 9 then
        (if bit val 8 then ((m.reqStored val).modeCancel 8).getD ((m.reqStored val).modeDone 8)
          else ((m.reqStored val).modeCancel 7).getD (m.reqStored val))
      else if bit val 8 then
        (let r := (m.reqStored val).modeRequest (bits val 2 0) (bits val 6 4)
         if r.2 = 0 ∧ r.1.mode.stage = 0 then r.1.set R.mode_req_go 1 else r.1)
      else m.reqStored val := by
  rw [Mach.modeReqWrite, hfrozen, if_neg Bool.false_ne_true]
  dsimp only
  simp only [Nat.and_two_pow_sub_one_eq_mod, Nat.mod_eq_of_lt hval, written_of_wholeMask val _ 6 4 (by decide) rfl,
    written_of_wholeMask val _ 2 0 (by decide) rfl, m.reqStored_target, m.reqStored_cause]

theorem setBits_lt (x : Nat) {hi lo v n : Nat} (hle : lo ≤ hi) (hhi : hi < n) (hx : x < 2 ^ n) : setBits x hi lo v < 2 ^ n := by
  refine Nat.lt_pow_two_of_testBit _ fun i hi' => ?_
  rw [testBit_setBits x hi lo v i hle, if_neg (by omega)]
  exact Nat.testBit_lt_two_pow (Nat.lt_of_lt_of_le hx (Nat.pow_le_pow_right (by decide) hi'))

theorem Mach.modeRequest_refused {m : Mach} {target cause : Nat} (h : m.reqCheck target cause ≠ 0) :
    m.modeRequest target cause =
      (m.sets [(R.mode_stat_result, m.reqCheck target cause), (R.mode_stat_done, 1)], m.reqCheck target cause) := by
  unfold Mach.modeRequest
  split
  · contradiction
  · rfl

theorem Mach.modeRequest_alone {m : Mach} {target cause : Nat} (h : m.reqCheck target cause = 0) (hdom : m.isDomain target cause = false) :
    m.modeRequest target cause = (m.beginDrain target cause false, 0) := by
  rw [Mach.modeRequest, h, hdom]
  rfl

/-- A cancel outside a domain request ends a drain in step 1, and does nothing else (R68). -/
theorem Mach.modeCancel_alone {m : Mach} (hquiesce : m.sl.quiesce = none) (result : Nat) :
    m.modeCancel result = if m.mode.stage = 1 then some (m.endDrain.modeDone result) else none := by
  rw [Mach.modeCancel, hquiesce]

/-- Setting the cancel bit of a written value changes no other bit. -/
theorem Mach.modeReqWrite_cancel {m : Mach} {val : Nat} (hfrozen : m.frozen = false) (hval : val < 2 ^ 64) (hgo : bit val 8 = false)
    (hquiesce : m.sl.quiesce = none) :
    m.modeReqWrite (setBits val 9 9 1) (2 ^ 64 - 1) =
      if m.mode.stage = 1 then (m.reqStored val).endDrain.modeDone 7 else m.reqStored val := by
  have hcancel : bit (setBits val 9 9 1) 9 = true := by rw [bit, testBit_setBits _ _ _ _ _ (Nat.le_refl 9)]; rfl
  have hnogo : bit (setBits val 9 9 1) 8 = false := by rw [← hgo, bit, testBit_setBits _ _ _ _ _ (Nat.le_refl 9)]; rfl
  have hmode : (m.reqStored val).mode = m.mode := rfl
  have hstored : m.reqStored (setBits val 9 9 1) = m.reqStored val := by
    rw [Mach.reqStored, bits_setBits_ne val 9 9 1 6 4 (Nat.le_refl 9) (.inl (by decide)), bits_setBits_ne val 9 9 1 2 0 (Nat.le_refl 9) (.inl (by decide))]
  rw [Mach.modeReqWrite_whole hfrozen (setBits_lt val (Nat.le_refl 9) (by decide) hval), if_pos hcancel, hnogo, if_neg Bool.false_ne_true,
    hstored, Mach.modeCancel_alone (by exact hquiesce), hmode]
  split <;> rfl

end

/-! ### The boundary and an abandoned drain -/

theorem Mach.takeBoundary_modeChange {m : Mach} (h : m.mode.cause = 1) (u : Nat) :
    m.takeBoundary u = (m.boundary m.mode.target (m.nextBase m.mode.target) 1 u).modeDone 1 := by
  rw [Mach.takeBoundary, if_pos h, if_pos h, h]

theorem Mach.takeBoundary_sameMode {m : Mach} (h : m.mode.cause ≠ 1) (u : Nat) :
    m.takeBoundary u = (m.boundary m.mode_ (m.get R.mode_cur_base) m.mode.cause u).modeDone 1 := by
  rw [Mach.takeBoundary, if_neg h, if_neg h]

theorem Mach.abandon_of_draining {m : Mach} (h : m.mode.stage ≠ 0) :
    m.abandon = (((m.endDrain.sets [(R.mode_stat_step, m.mode.stage)]).modeDone 6).raiseHub 2 m.mode.stage).countDeferred.chanResume :=
  if_neg h

/-! ### The commands -/

section
variable (m : Mach) (val : Nat)

theorem does_modeRequest_refused :
    Does m (.modeRequest val)
      (m.frozen = false ∧ bit val 8 = true ∧ bit val 9 = false ∧ (m.reqStored val).reqCheck (bits val 2 0) (bits val 6 4) ≠ 0)
      fun m' => m' = (m.reqStored val).sets [(R.mode_stat_result, (m.reqStored val).reqCheck (bits val 2 0) (bits val 6 4)), (R.mode_stat_done, 1)] := by
  refine fun hwf => does_of_ans _ _ (execModeRequest.eq_def val) id ?_ hwf
  rintro ⟨hfrozen, hgo, hcancel, hcheck⟩
  rw [Mach.modeReqWrite_whole hfrozen (of_decide_eq_true hwf), hcancel, hgo, if_neg Bool.false_ne_true, if_pos rfl,
    Mach.modeRequest_refused hcheck]
  exact if_neg fun h => hcheck h.1

theorem does_modeRequest_accepted :
    Does m (.modeRequest val)
      (m.frozen = false ∧ bit val 8 = true ∧ bit val 9 = false ∧ (m.reqStored val).reqCheck (bits val 2 0) (bits val 6 4) = 0 ∧
        (m.reqStored val).isDomain (bits val 2 0) (bits val 6 4) = false)
      fun m' => m' = (m.reqStored val).beginDrain (bits val 2 0) (bits val 6 4) false := by
  refine fun hwf => does_of_ans _ _ (execModeRequest.eq_def val) id ?_ hwf
  rintro ⟨hfrozen, hgo, hcancel, hcheck, hdom⟩
  rw [Mach.modeReqWrite_whole hfrozen (of_decide_eq_true hwf), hcancel, hgo, if_neg Bool.false_ne_true, if_pos rfl,
    Mach.modeRequest_alone hcheck hdom]
  simp [Mach.beginDrain_stage]

theorem does_modeCancel_step1 :
    Does m (.modeCancel val) (m.frozen = false ∧ bit val 8 = false ∧ m.sl.quiesce = none ∧ m.mode.stage = 1)
      fun m' => m' = (m.reqStored val).endDrain.modeDone 7 := by
  refine fun hwf => does_of_ans _ _ (execModeCancel.eq_def val) id ?_ hwf
  rintro ⟨hfrozen, hgo, hquiesce, hstage⟩
  rw [Mach.modeReqWrite_cancel hfrozen (of_decide_eq_true hwf) hgo hquiesce, if_pos hstage]

theorem does_modeCancel_otherwise :
    Does m (.modeCancel val) (m.frozen = false ∧ bit val 8 = false ∧ m.sl.quiesce = none ∧ m.mode.stage ≠ 1)
      fun m' => m' = m.reqStored val := by
  refine fun hwf => does_of_ans _ _ (execModeCancel.eq_def val) id ?_ hwf
  rintro ⟨hfrozen, hgo, hquiesce, hstage⟩
  rw [Mach.modeReqWrite_cancel hfrozen (of_decide_eq_true hwf) hgo hquiesce, if_neg hstage]

theorem does_epochDrainStep2 : Does m .epochDrainStep2 (m.frozen = false ∧ m.mode.stage = 1 ∧ m.step1Over = true) fun m' => m' = m.drainStep 2 := by
  refine does_of_ans _ _ execEpochDrainStep2.eq_def id ?_
  rintro ⟨hfrozen, hstage, hover⟩
  simp [hfrozen, hstage, hover]

theorem does_epochDrainStep3 : Does m .epochDrainStep3 (m.frozen = false ∧ m.mode.stage = 2 ∧ m.step2Over = true) fun m' => m' = m.drainStep 3 := by
  refine does_of_ans _ _ execEpochDrainStep3.eq_def id ?_
  rintro ⟨hfrozen, hstage, hover⟩
  simp [hfrozen, hstage, hover]

theorem does_epochDrainStep4 :
    Does m .epochDrainStep4 (m.frozen = false ∧ m.mode.stage = 3 ∧ m.step3Over = true) fun m' => m' = (m.drainStep 4).fireAll := by
  refine does_of_ans _ _ execEpochDrainStep4.eq_def id ?_
  rintro ⟨hfrozen, hstage, hover⟩
  simp [hfrozen, hstage, hover]

theorem does_epochDrainStep5 : Does m .epochDrainStep5 (m.frozen = false ∧ m.mode.stage = 4) fun m' => m' = m.drainStep 5 := by
  refine does_of_ans _ _ execEpochDrainStep5.eq_def id ?_
  rintro ⟨hfrozen, hstage⟩
  simp [hfrozen, hstage]

theorem does_epochBoundary (u : Nat) :
    Does m (.epochBoundary u) (m.frozen = false ∧ m.mode.dom = false ∧ m.drainOver = true) fun m' => m' = m.takeBoundary u := by
  refine does_of_ans _ _ (execEpochBoundary.eq_def u) id ?_
  rintro ⟨hfrozen, hdom, hover⟩
  simp [hfrozen, hdom, hover]

theorem does_drainTimeout : Does m .drainTimeout (m.frozen = false ∧ m.mode.stage ≠ 0 ∧ m.sl.quiesce = none) fun m' => m' = m.abandon := by
  refine does_of_ans _ _ execDrainTimeout.eq_def id ?_
  rintro ⟨hfrozen, hstage, hquiesce⟩
  simp [hfrozen, hstage, hquiesce]

/-- The button's own pin plays no part in the mode that a press requests. -/
theorem does_concurrentRepairButton_accepted :
    Does m (.concurrentRepairButton true)
      (m.frozen = false ∧ ((m.set R.mode_ind_crb 1).modeRequest (if m.mode_ = 6 then m.get R.mode_cur_base else 6) 1).2 = 0)
      fun m' => m' = ((m.set R.mode_ind_crb 1).modeRequest (if m.mode_ = 6 then m.get R.mode_cur_base else 6) 1).1 := by
  have hmode : (m.set R.mode_ind_crb 1).mode_ = m.mode_ := m.get_set_other _ _ 1 (.inr (by decide))
  have hbase : (m.set R.mode_ind_crb 1).get R.mode_cur_base = m.get R.mode_cur_base := m.get_set_other _ _ 1 (.inr (by decide))
  refine does_of_ans _ _ (execConcurrentRepairButton.eq_def true) id ?_
  rintro ⟨hfrozen, hresult⟩
  dsimp only [b2n]
  rw [if_pos rfl, hmode, hbase, Mach.set_frozen, hfrozen, if_neg (by decide), if_neg Bool.false_ne_true, if_pos hresult]

theorem does_concurrentRepairButton_checkstop :
    Does m (.concurrentRepairButton true) (m.frozen = true)
      fun m' => m' = ({ m.set R.mode_ind_crb 1 with mode := { m.mode with press := true } } : Mach).indShow := by
  refine does_of_ans _ _ (execConcurrentRepairButton.eq_def true) id fun hfrozen => ?_
  exact (if_neg (by decide)).trans (if_pos hfrozen)

end

/-! ### O16 -/

/-- Settles O16, command by command: the lemmas above say what each does, and the boundary and the abandoned drain are opened by theirs. -/
theorem modeChanges : Obligations.ModeChanges := by
  unfold Obligations.ModeChanges
  intro m
  refine ⟨does_modeRequest_refused m, does_modeRequest_accepted m, does_modeCancel_step1 m, does_modeCancel_otherwise m,
    does_epochDrainStep2 m, does_epochDrainStep3 m, does_epochDrainStep4 m, does_epochDrainStep5 m, fun u hwf h => ?_, fun u hwf h => ?_,
    fun hwf h => ?_, does_concurrentRepairButton_accepted m, does_concurrentRepairButton_checkstop m,
    does_of_ans _ _ (execConcurrentRepairButton.eq_def false) id fun _ => rfl, does_of_ans _ _ execFaultIndicatorTimeout.eq_def id fun _ => rfl⟩
  · obtain ⟨hfrozen, hdom, hover, hcause⟩ := h
    rw [← Mach.takeBoundary_modeChange hcause]
    exact does_epochBoundary m u hwf ⟨hfrozen, hdom, hover⟩
  · obtain ⟨hfrozen, hdom, hover, hcause⟩ := h
    rw [← Mach.takeBoundary_sameMode hcause]
    exact does_epochBoundary m u hwf ⟨hfrozen, hdom, hover⟩
  · have ⟨_, hstage, _⟩ := h
    rw [← Mach.abandon_of_draining hstage]
    exact does_drainTimeout m hwf h

end Sys2Proof.Machine
end

section
/-! How the body of an instruction runs, step by step, and what the thread is left with once it has run.  Every result of
an instruction is stated through `Mach.SetsCur`: the body has left other registers in its thread and nothing else. -/

namespace Sys2Proof.Machine

open Sys2Proof.Safety

/-! ### The steps of a body -/

/-- The machine with other current registers in one thread. -/
def Mach.putCur (m : Mach) (th : Nat) (b : Arch) : Mach := m.onTh th fun t => { t with cur := b }

namespace X

variable {α : Type} (m : Mach) (th : Nat)

@[simp] theorem pure_apply (a : α) : (pure a : X α) m = .ok a m := rfl

@[simp] theorem mach_bind (f : Mach → X α) : (X.mach >>= f) m = f m m := rfl

@[simp] theorem modify_bind (g : Mach → Mach) (f : Unit → X α) : (X.modify g >>= f) m = f () (g m) := rfl

@[simp] theorem regs_bind (f : Arch → X α) : (X.regs th >>= f) m = f (m.th th).cur m := rfl

@[simp] theorem upd_bind (g : Arch → Arch) (f : Unit → X α) :
    (X.upd th g >>= f) m = f () (m.putCur th (g (m.th th).cur)) := rfl

@[simp] theorem modify_map (g : Mach → Mach) (f : Unit → α) : (f <$> X.modify g) m = .ok (f ()) (g m) := rfl

@[simp] theorem upd_map (g : Arch → Arch) (f : Unit → α) : (f <$> X.upd th g) m = .ok (f ()) (m.putCur th (g (m.th th).cur)) := rfl

@[simp] theorem need_true (st : Stop) : X.need true st = pure () := rfl

@[simp] theorem spec_true (w : Nat) : X.spec w true = pure () := rfl

@[simp] theorem priv_true (w : Nat) : X.priv w true = pure () := rfl

end X

/-! ### A body that leaves other registers only -/

/-- `m'` is `m` with the current registers `b` in thread `th`. -/
structure Mach.SetsCur (m : Mach) (th : Nat) (b : Arch) (m' : Mach) : Prop where
  own : m'.th th = { m.th th with cur := b }
  others : ∀ u, u ≠ th → m'.th u = m.th u
  rest : { m' with thr := m.thr } = m

section
variable {m m' : Mach} {th : Nat} {b : Arch}

theorem Mach.setsCur_refl (h : (m.th th).cur = b) : m.SetsCur th b m where
  own := by subst h; rfl
  others _ _ := rfl
  rest := rfl

@[simp] theorem Mach.th_putCur (m : Mach) (th : Nat) (b : Arch) : (m.putCur th b).th th = { m.th th with cur := b } :=
  Mach.th_onTh_same ..

@[simp] theorem Mach.putCur_putCur (m : Mach) (th : Nat) (b c : Arch) : (m.putCur th b).putCur th c = m.putCur th c := by
  show Mach.setTh (m.putCur th b) th { (m.putCur th b).th th with cur := c } = _
  rw [Mach.th_putCur]
  show { m with thr := tset (tset m.thr th _) th _ } = _
  rw [tset_tset]
  rfl

theorem Mach.setsCur_putCur (m : Mach) (th : Nat) (b : Arch) : m.SetsCur th b (m.putCur th b) where
  own := m.th_putCur th b
  others _ hu := Mach.th_onTh_ne _ _ _ _ hu
  rest := rfl

/-- Whether the window takes an instruction does not depend on the current registers. -/
theorem Mach.SetsCur.takeIn (h : m.SetsCur th b m') (sh : Shape) : m'.takeIn th sh = m.takeIn th sh := by
  have hne : 2 * (th / 2) + 1 - th % 2 ≠ th := by omega
  have hpatch : m'.patchIn = m.patchIn := by rw [← h.rest]
  unfold Mach.takeIn Mach.share
  rw [h.own, h.others _ hne, hpatch]

/-- After its registers are set, a thread's instruction can still complete. -/
theorem Mach.SetsCur.served {sh : Shape} {a : Arch} (h : m.SetsCur th b m') (hv : Served m th sh a) : Served m' th sh b where
  noSync := by rw [h.own]; exact hv.noSync
  noDbg := by rw [h.own]; exact hv.noDbg
  room := by rw [h.takeIn]; exact hv.room
  keeps := by rw [h.own]

/-- What a completed instruction does to other threads and outside the threads, it does to the machine before its registers were set. -/
theorem Mach.SetsCur.frame {t : Mach} (h : m.SetsCur th b m') (ho : ∀ u, u ≠ th → t.th u = m'.th u) (hr : { t with thr := m'.thr } = m') :
    (∀ u, u ≠ th → t.th u = m.th u) ∧ { t with thr := m.thr } = m :=
  ⟨fun u hu => (ho u hu).trans (h.others u hu), (congrArg (fun x : Mach => { x with thr := m.thr }) hr).trans h.rest⟩

end

/-! ### An instruction that can be attempted -/

section
variable {m m1 : Mach} {th : Nat} {sh : Shape}

theorem served_of_ready (h : Ready m th sh m1) : Served m1 th sh (m.th th).cur := ⟨h.fresh, h.noDbg1, h.room1, h.keeps⟩

/-- The instruction word plays no part in whether it can be attempted. -/
theorem ready_word (w : Nat) (h : Ready m th sh m1) : Ready m th { sh with word := w } m1 :=
  ⟨h.runs, h.noDbg, h.noStep, h.room, h.fetch, h.sync, h.room1, h.fresh, h.keeps, h.noDbg1⟩

theorem ready_simple (w : Nat) (h : Word m th m1) : Ready m th (Shape.simple w) m1 := ready_word w h

theorem ready_alone (w : Nat) (h : WordAlone m th m1) : Ready m th (Shape.alone_ w) m1 := ready_word w h

theorem served_word {a : Arch} (w : Nat) (h : Served m th sh a) : Served m th { sh with word := w } a :=
  ⟨h.noSync, h.noDbg, h.room, h.keeps⟩

end

/-! ### What an instruction leaves -/

section
variable {i : Instr} {s : State} {th : Nat} {sh : Shape} {m0 m1 m2 m3 : Mach} {body : X Done} {a b : Arch} {st : List StoreE} {n : Nat}

/-- The command of an instruction runs it when its operands are in range. -/
theorem exec_run {ok : Bool} {F : Mach → Mach} (e : Host.Outcome State Fault Refusal) (hx : exec i s = e) (ha : e = ans ok s F)
    (hok : ok = true) (hF : F s.m = m0.runInsn th sh body) : exec i s = .next { s with m := m0.runInsn th sh body } := by
  rw [hx, ha, ans_ok _ _ _ hok, hF]

/-- An instruction of the machine `m0` whose accesses lead to `m2`, whose body then sets the registers `b` and that joins the window. -/
theorem leavesStores_of_run (he : exec i s = .next { s with m := m0.runInsn th sh body }) (hr : Ready m0 th sh m1) (hs : sh.sync = false)
    (hn : sh.len = n) (hv : Served m2 th sh a) (hb : body m1 = .ok ⟨.seq, st, none⟩ m3) (hc : m2.SetsCur th b m3) :
    LeavesStores i s th m2 (after (m0.th th).cur b n) (m2.th th).com st := by
  have hv3 := hc.served hv
  obtain ⟨m4, hcomp, hcur, hdbg, hcom, hst, ho, hrest⟩ :=
    complete_plain m3 th sh (m0.th th).cur .seq st hv3.noSync hs hr.noStep hv3.room
  rw [runInsn_ready hr hb hcomp, Mach.stepEnd_idle _ _ (hdbg.trans hv3.noDbg)] at he
  refine ⟨_, he, rfl, ?_, ?_, ?_, hc.frame ho hrest⟩
  · rw [hcur, hc.own, ← hn]; rfl
  · rw [hcom, hc.own]
  · rw [hst, hc.own]; rfl

/-- As `leavesStores_of_run`, for a transfer of control, which accesses no operand. -/
theorem leaves_of_jump {x : W64} (he : exec i s = .next { s with m := m0.runInsn th sh body }) (hr : Ready m0 th sh m1) (hs : sh.sync = false)
    (hb : body m1 = .ok ⟨.jump x, [], none⟩ m3) (hc : m1.SetsCur th b m3) : Leaves i s th m1 { b with ia := x } (m1.th th).com := by
  have hv3 := hc.served (served_of_ready hr)
  obtain ⟨m4, hcomp, hcur, hdbg, hcom, -, ho, hrest⟩ :=
    complete_plain m3 th sh (m0.th th).cur (.jump x) [] hv3.noSync hs hr.noStep hv3.room
  rw [runInsn_ready hr hb hcomp, Mach.stepEnd_idle _ _ (hdbg.trans hv3.noDbg)] at he
  refine ⟨_, he, rfl, ?_, ?_, hc.frame ho hrest⟩
  · rw [hcur, hc.own]
  · rw [hcom, hc.own]

/-- As `leavesStores_of_run`, for an instruction of R154 without window stores: it has committed. -/
theorem leaves_of_sync (he : exec i s = .next { s with m := m0.runInsn th sh body }) (hr : Ready m0 th sh m1) (hs : sh.sync = true) (hn : sh.len = n)
    (hv : Served m2 th sh a) (hw : (m2.th th).win = []) (hep : (m2.th th).ep = none) (hbuf : (m2.th th).sbuf.length ≤ 64)
    (hb : body m1 = .ok ⟨.seq, [], none⟩ m3) (hc : m2.SetsCur th b m3) :
    Leaves i s th m2 (after (m0.th th).cur b n) (after (m0.th th).cur b n) := by
  have hv3 := hc.served hv
  obtain ⟨m4, hcomp, hcur, hdbg, hcom, ho, hrest⟩ :=
    complete_sync m3 th sh (m0.th th).cur .seq hv3.noSync hs hr.noStep hv3.room (by rw [hc.own]; exact hw) (by rw [hc.own]; exact hep)
      (by rw [hc.own]; exact hbuf)
  rw [runInsn_ready hr hb hcomp, Mach.stepEnd_idle _ _ (hdbg.trans hv3.noDbg)] at he
  have hcur' : (m4.th th).cur = after (m0.th th).cur b n := by rw [hcur, hc.own, ← hn]; rfl
  exact ⟨_, he, rfl, hcur', hcom.trans hcur', hc.frame ho hrest⟩

theorem leaves_of_leavesStores {c : Arch} (h : LeavesStores i s th m2 b c st) : Leaves i s th m2 b c := by
  obtain ⟨t, he, hq, hcur, hcom, -, hframe⟩ := h
  exact ⟨t, he, hq, hcur, hcom, hframe⟩

/-- As `leavesStores_of_run`, for an instruction that stores nothing. -/
theorem leaves_of_run (he : exec i s = .next { s with m := m0.runInsn th sh body }) (hr : Ready m0 th sh m1) (hs : sh.sync = false)
    (hn : sh.len = n) (hv : Served m2 th sh a) (hb : body m1 = .ok Done.plain m3) (hc : m2.SetsCur th b m3) :
    Leaves i s th m2 (after (m0.th th).cur b n) (m2.th th).com :=
  leaves_of_leavesStores (leavesStores_of_run he hr hs hn hv hb hc)

/-- An instruction without accesses whose body sets the registers `b`. -/
theorem leaves_of_regs (he : exec i s = .next { s with m := s.m.runInsn th sh body }) (hr : Ready s.m th sh m1) (hs : sh.sync = false)
    (hn : sh.len = n) (hb : body m1 = .ok Done.plain (m1.putCur th b)) : Leaves i s th m1 (after (s.m.th th).cur b n) (m1.th th).com :=
  leaves_of_run he hr hs hn (served_of_ready hr) hb (m1.setsCur_putCur th b)

/-- An instruction whose body changes nothing. -/
theorem leaves_of_still (he : exec i s = .next { s with m := s.m.runInsn th sh body }) (hr : Ready s.m th sh m1) (hs : sh.sync = false)
    (hn : sh.len = n) (hb : body m1 = .ok Done.plain m1) : Leaves i s th m1 (after (s.m.th th).cur (s.m.th th).cur n) (m1.th th).com :=
  leaves_of_run he hr hs hn (served_of_ready hr) hb (Mach.setsCur_refl hr.keeps)

end

end Sys2Proof.Machine
end

section
/-! The zero register (O54) and the immediate instructions (O3). -/

namespace Sys2Proof.Machine

open Sys2Proof.Safety

/-! ### O54 -/

theorem Arch.gr_zero (a : Arch) : a.gr 0 = 0 := rfl

theorem Arch.gr_setG_same (a : Arch) {r : Nat} (v : W64) (h : r ≠ 0) : (a.setG r v).gr r = v := by
  simp [Arch.gr, Arch.setG, h]

theorem Arch.gr_setG_ne (a : Arch) {q r : Nat} (v : W64) (h : q ≠ r) : (a.setG r v).gr q = a.gr q := by
  unfold Arch.gr Arch.setG
  split
  · rfl
  · split
    · rfl
    · exact tget_tset_ne _ _ _ _ _ h

/-- Settles O54, from the rules of register reads and writes. -/
theorem zeroRegister : Obligations.ZeroRegister := by
  unfold Obligations.ZeroRegister
  intro a v r q disp sc
  refine ⟨a.gr_zero, rfl, a.gr_setG_same v, a.gr_setG_ne v, ?_, ?_, ?_⟩
  · simp [eaM, Arch.gr_zero]
  · simp [eaX, Arch.gr_zero]
  · simp [eaX, Arch.gr_zero]

/-! ### O3 -/

theorem immS_eq (o : FI) (h : o.imm < 65536) :
    BitVec.ofInt 64 (if o.imm < 32768 then (o.imm : Int) else o.imm - 65536) = immS o := by
  have hmod : o.imm % 65536 = o.imm := Nat.mod_eq_of_lt h
  simp [immS, sx, hmod]

theorem immZ_eq (o : FI) (h : o.imm < 65536) : BitVec.ofNat 64 o.imm = immZ o := by rw [immZ, Nat.mod_eq_of_lt h]

section
variable {i : Instr} {s : State} {o : FI} {m1 : Mach} {op : Nat}

theorem immInsn_eq (body : Nat → X Done) (hwf : o.wf = true) : immInsn o op body s =
    .next { s with m := s.m.runInsn o.th (Shape.simple (encI op o.t o.a o.imm)) (body (encI op o.t o.a o.imm)) } :=
  ans_ok _ _ _ hwf

theorem leaves_bodyRI {f : W64 → W64} (hi : exec i s = immInsn o op (fun _ => bodyRI o f) s) (hwf : o.wf = true) (hw : Word s.m o.th m1) :
    Leaves i s o.th m1 (after (s.m.th o.th).cur ((s.m.th o.th).cur.setG o.t (f ((s.m.th o.th).cur.gr o.a))) 4) (m1.th o.th).com := by
  refine leaves_of_regs (hi.trans (immInsn_eq _ hwf)) (ready_simple _ hw) rfl rfl ?_
  simp [bodyRI, hw.keeps]

theorem leaves_bodyCmpI {cc : W64 → Nat} (hi : exec i s = immInsn o op (fun w => bodyCmpI o w cc) s) (hwf : o.wf = true)
    (hw : Word s.m o.th m1) (ht : o.t = 0) :
    Leaves i s o.th m1 (after (s.m.th o.th).cur ((s.m.th o.th).cur.setCc (cc ((s.m.th o.th).cur.gr o.a))) 4) (m1.th o.th).com := by
  refine leaves_of_regs (hi.trans (immInsn_eq _ hwf)) (ready_simple _ hw) rfl rfl ?_
  simp [bodyCmpI, ht, hw.keeps]

end

/-- Settles O3: the two shapes of body that the immediate instructions have. -/
theorem immediateResults : Obligations.ImmediateResults := by
  unfold Obligations.ImmediateResults
  intro s o m1 hwf hw
  have himm : o.imm < 65536 := by
    simp only [FI.wf, Bool.and_eq_true, decide_eq_true_eq] at hwf
    exact hwf.2
  dsimp only
  rw [immS_eq o himm, immZ_eq o himm]
  exact ⟨leaves_bodyRI (f := (· + immS o)) rfl hwf hw, leaves_bodyRI (f := (· + (immS o <<< 16))) rfl hwf hw,
    leaves_bodyRI (f := (· &&& immZ o)) rfl hwf hw, leaves_bodyRI (f := (· ||| immZ o)) rfl hwf hw, leaves_bodyRI (f := (· ^^^ immZ o)) rfl hwf hw,
    leaves_bodyCmpI (cc := fun a => ccCmpS a (immS o)) rfl hwf hw, leaves_bodyCmpI (cc := fun a => ccCmpU a (immZ o)) rfl hwf hw⟩

end Sys2Proof.Machine
end

section
/-! Branches and the loop instruction, and O4. -/

namespace Sys2Proof.Machine

open Sys2Proof.Safety

section
variable {s : State} {th : Nat} {m1 : Mach} (hth : th < 96) (hw : Word s.m th m1)
include hth hw

theorem leaves_br {off : Nat} (hoff : off < 67108864) :
    Leaves (.br th off) s th m1 { (s.m.th th).cur with ia := (s.m.th th).cur.ia + wordOff 26 off } (m1.th th).com := by
  refine leaves_of_jump (exec_run (execBr th off s) rfl rfl (by simp [hth, hoff]) rfl) (ready_simple _ hw) rfl ?_ (Mach.setsCur_refl hw.keeps)
  simp [hw.keeps]

theorem leaves_brl {off : Nat} (hoff : off < 67108864) :
    Leaves (.brl th off) s th m1
      { (s.m.th th).cur.setG 31 ((s.m.th th).cur.ia + 4) with ia := (s.m.th th).cur.ia + wordOff 26 off } (m1.th th).com := by
  refine leaves_of_jump (exec_run (execBrl th off s) rfl rfl (by simp [hth, hoff]) rfl) (ready_simple _ hw) rfl ?_ (m1.setsCur_putCur th _)
  simp [hw.keeps]

/-- `bc` on a condition that R87 defines: `holds` is the predicate over cc or the register test. -/
theorem leaves_brc {cond r off : Nat} {holds : Bool} (hc : cond < 32) (hr : r < 32) (hoff : off < 65536)
    (hdef : (if cond < 16 then r == 0 && decide (cond < 12) else decide (cond % 16 < 6)) = true)
    (hholds : (if cond < 16 then ccPred cond (s.m.th th).cur.cc else regTest (cond % 16) ((s.m.th th).cur.gr r)) = holds) :
    Leaves (.brc th cond r off) s th m1
      (if holds then { (s.m.th th).cur with ia := (s.m.th th).cur.ia + wordOff 16 off } else after (s.m.th th).cur (s.m.th th).cur 4)
      (m1.th th).com := by
  cases holds with
  | true =>
    refine leaves_of_jump (exec_run (execBrc th cond r off s) rfl rfl (by simp [hth, hc, hr, hoff]) rfl) (ready_simple _ hw) rfl ?_
      (Mach.setsCur_refl hw.keeps)
    split at hdef
    · rename_i h16
      simp [h16, hw.keeps, hdef, if_pos h16 ▸ hholds]
    · rename_i h16
      simp [h16, hw.keeps, hdef, if_neg h16 ▸ hholds]
  | false =>
    refine leaves_of_still (exec_run (execBrc th cond r off s) rfl rfl (by simp [hth, hc, hr, hoff]) rfl) (ready_simple _ hw) rfl rfl ?_
    split at hdef
    · rename_i h16
      simp [h16, hw.keeps, hdef, if_pos h16 ▸ hholds]
    · rename_i h16
      simp [h16, hw.keeps, hdef, if_neg h16 ▸ hholds]

theorem leaves_bgr {t r imm : Nat} (ht : t < 32) (hr : r < 32) (himm : imm < 65536)
    (halign : ((s.m.th th).cur.gr r + BitVec.ofInt 64 (sx 16 imm)).toNat % 4 = 0) :
    Leaves (.bgr ⟨th, t, r, imm⟩) s th m1
      { (s.m.th th).cur.setG t ((s.m.th th).cur.ia + 4) with ia := (s.m.th th).cur.gr r + BitVec.ofInt 64 (sx 16 imm) } (m1.th th).com := by
  refine leaves_of_jump (exec_run (execBgr ⟨th, t, r, imm⟩ s) rfl rfl (by simp [FI.wf, hth, ht, hr, himm]) rfl) (ready_simple _ hw) rfl ?_
    (m1.setsCur_putCur th _)
  simp only [X.regs_bind, hw.keeps, halign, BEq.rfl, X.need_true, pure_bind, X.upd_bind, X.pure_apply]

end

/-- Level `n` as the loop instruction at `a.ia` leaves it: start, end, count and the active bit (R96). -/
def Arch.setLoop (a : Arch) (n : Nat) (lea cnt : W64) (active : Nat) : Arch :=
  ({ a with lsa := tset a.lsa n (a.ia + 4), lea := tset a.lea n lea, lct := tset a.lct n cnt } : Arch).setPsw (20 + n) (20 + n) active

section
variable {s : State} {th : Nat} {m1 : Mach} (hth : th < 96) (hw : Word s.m th m1)
include hth hw

theorem leaves_loop {n r off : Nat} {a : Arch} {lea : W64} (ha : (s.m.th th).cur = a) (hlea : a.ia + BitVec.ofNat 64 (4 * off) = lea)
    (hn : n < 4) (hr : r < 32) (hpos : 0 < off) (hoff : off < 65536) :
    Leaves (.loop th n 0 r off) s th m1
      (if a.gr r = 0 then (a.setLoop n lea (a.gr r) 0).stepLoops lea (lea + 4) n else { a.setLoop n lea (a.gr r) 1 with ia := a.ia + 4 })
      (m1.th th).com := by
  have hkeeps : (m1.th th).cur = a := hw.keeps.trans ha
  have hspec : ((0 : Nat) == 0 && off != 0) = true := by simp; omega
  have he : exec (.loop th n 0 r off) s = .next { s with m := s.m.runInsn th (Shape.simple (encL 0x28 n 0 r off)) _ } :=
    exec_run (execLoop th n 0 r off s) rfl rfl (by simp [hth, hn, hr, hoff]) rfl
  split
  · rename_i hzero
    refine leaves_of_jump (b := (a.setLoop n lea (a.gr r) 0).stepLoops lea (lea + 4) n) he (ready_simple _ hw) rfl ?_ (m1.setsCur_putCur th _)
    simp only [hspec, X.spec_true, pure_bind, X.regs_bind, X.upd_bind, hkeeps, hlea, hzero, if_true, Mach.putCur_putCur]
    simp [Arch.setLoop]
  · rename_i hnonzero
    refine leaves_of_jump he (ready_simple _ hw) rfl ?_ (m1.setsCur_putCur th _)
    simp only [hspec, X.spec_true, pure_bind, X.regs_bind, X.upd_bind, hkeeps, hlea, hnonzero, if_false]
    rfl

end

/-- Settles O4, one lemma for each instruction; `bc` has one for both kinds of condition. -/
theorem branchTargets : Obligations.BranchTargets := by
  unfold Obligations.BranchTargets
  intro s th m1 hth hw
  refine ⟨fun off hoff => leaves_br hth hw hoff, fun off hoff => leaves_brl hth hw hoff, fun cond off hc hoff => ?_,
    fun cond r off hc hr hoff => ?_, fun t r imm ht hr himm ha => leaves_bgr hth hw ht hr himm ha,
    fun n r off hn hr hpos hoff => leaves_loop hth hw rfl rfl hn hr hpos hoff⟩
  · have h16 : cond < 16 := by omega
    exact leaves_brc hth hw (by omega) (by decide) hoff (by simp [h16, hc]) (if_pos h16)
  · have h16 : ¬ 16 + cond < 16 := by omega
    have hmod : (16 + cond) % 16 = cond := by omega
    exact leaves_brc hth hw (by omega) hr hoff (by simp [hmod, hc]) (by rw [if_neg h16, hmod])

end Sys2Proof.Machine
end

section
/-! Loads and stores, and O5, O6 and O7.  A form M and a form X access of the same opcode have one body, `memAccess`; what it loads
and stores is said once, and O5 and O6 read it off for each opcode. -/

namespace Sys2Proof.Machine

open Sys2Proof.Safety

/-! ### Stores into cacheable memory -/

section
variable {m : Mach} {th : Nat} {ps : List Piece} (hp : Plain m th ps)
include hp

theorem find_mcsOff_of_plain : (ps.find? fun p => (m.mcsOff p.pa).isSome) = none := by
  rw [List.find?_eq_none]
  intro p hmem
  rw [(hp p hmem).1]
  decide

theorem mcsRefuse_of_plain (n : Nat) (wr : Bool) : mcsRefuse ps n wr m = .ok () m := by
  unfold mcsRefuse
  rw [X.mach_bind, find_mcsOff_of_plain hp]
  rfl

/-- Stores to cacheable memory wait in the window, and the machine stays as it is. -/
theorem storeAll_of_plain (n v : Nat) (nt : Bool) : storeAll th ps n v nt m = .ok (mkStores ps n v nt) m := by
  have hfar : ∀ p ∈ ps, ((m.pcieWin p.pa).isSome || m.inScratch th p.pa) = false := by
    intro p hmem
    obtain ⟨-, hpcie, hscratch⟩ := hp p hmem
    rw [hpcie, hscratch]
    rfl
  have hpcie : (ps.any fun p => (m.pcieWin p.pa).isSome) = false := by
    rw [List.any_eq_false]
    intro p hmem
    rw [(hp p hmem).2.1]
    decide
  have hnone : (ps.filter fun p => (m.pcieWin p.pa).isSome || m.inScratch th p.pa) = [] := by
    rw [List.filter_eq_nil_iff]
    intro p hmem
    rw [hfar p hmem]
    decide
  have hall : (ps.filter fun p => !((m.pcieWin p.pa).isSome || m.inScratch th p.pa)) = ps := by
    rw [List.filter_eq_self]
    intro p hmem
    rw [hfar p hmem]
    rfl
  unfold storeAll
  simp only [X.mach_bind, hpcie, Bool.false_eq_true, if_false, hnone, hall, X.modify_bind, List.foldl_nil, X.pure_apply]

end

theorem storeN_of_plain {m1 m : Mach} {th n v : Nat} {va : W64} {nt : Bool} {h : McsStore} {ps : List Piece}
    (hacc : access th va n .store m1 = .ok ps m) (hp : Plain m th ps) :
    storeN h th va n v nt m1 = .ok (mkStores ps n v nt) m := by
  have hhead : (ps.head?.bind fun p => (m.mcsOff p.pa).map fun x => (p.pa, x)) = none := by
    cases ps with
    | nil => rfl
    | cons p r =>
      rw [List.head?_cons, Option.bind_some, (hp p List.mem_cons_self).1]
      rfl
  unfold storeN
  rw [bind_ok _ _ _ _ _ hacc, bind_ok _ _ _ _ _ (mcsRefuse_of_plain hp n true), X.mach_bind, hhead]
  exact storeAll_of_plain hp n v nt

/-! ### One access -/

section
variable {i : Instr} {s : State} {th op t : Nat} {ea : W64} {m0 m1 m2 : Mach} {body : X Done} {w n : Nat} {nt : Bool}

theorem ready_memShape (hr : Ready m0 th (memShape 0 n ea) m1) : Ready m0 th (memShape w n ea) m1 := ready_word w hr

theorem served_memShape {a : Arch} (hv : Served m2 th (memShape 0 n ea) a) : Served m2 th (memShape w n ea) a := served_word w hv

/-- A load of form M or X: the register of its opcode takes the value read. -/
theorem leaves_memAccess_load {v : Nat} (he : exec i s = .next { s with m := s.m.runInsn th (memShape w (opBytes op) ea) body })
    (hbody : body m1 = memAccess th op t ea nt m1) (hop : opStores op = false) (hr : Ready s.m th (memShape 0 (opBytes op) ea) m1)
    (hload : loadN th ea (opBytes op) .load false m1 = .ok v m2) (hv : Served m2 th (memShape 0 (opBytes op) ea) (s.m.th th).cur) :
    Leaves i s th m2 (after (s.m.th th).cur ((s.m.th th).cur.putLoad op t v) 4) (m2.th th).com := by
  refine leaves_of_run he (ready_memShape hr) rfl rfl (served_memShape hv) ?_ (m2.setsCur_putCur th _)
  rw [hbody, memAccess, if_neg (by simp [hop]), bind_ok _ _ _ _ _ hload, X.upd_bind, hv.keeps]
  rfl

/-- A store of form M or X to cacheable memory: its bytes join the stores of the thread. -/
theorem leaves_memAccess_store {ps : List Piece} (he : exec i s = .next { s with m := s.m.runInsn th (memShape w (opBytes op) ea) body })
    (hbody : body m1 = memAccess th op t ea nt m1) (hop : opStores op = true) (hr : Ready s.m th (memShape 0 (opBytes op) ea) m1)
    (hacc : access th ea (opBytes op) .store m1 = .ok ps m2) (hp : Plain m2 th ps)
    (hv : Served m2 th (memShape 0 (opBytes op) ea) (s.m.th th).cur) :
    LeavesStores i s th m2 (after (s.m.th th).cur (s.m.th th).cur 4) (m2.th th).com
      (mkStores ps (opBytes op) ((s.m.th th).cur.storeVal op t) nt) := by
  refine leavesStores_of_run he (ready_memShape hr) rfl rfl (served_memShape hv) ?_ (Mach.setsCur_refl hv.keeps)
  rw [hbody, memAccess, if_pos hop, X.regs_bind, bind_ok _ _ _ _ _ (storeN_of_plain hacc hp), hr.keeps]
  rfl

end

/-! ### Form M -/

section
variable {i : Instr} {s : State} {o : FM} {op n : Nat} {m1 m2 : Mach}

theorem memInsn_eq (hwf : o.wf = true) : memInsn op o s =
    .next { s with m := s.m.runInsn o.th (memShape (mWord op o) (opBytes op) (eaM (s.m.th o.th).cur o.a o.disp)) (do
      X.spec (mWord op o) (!opQuad op || o.t % 2 == 0)
      let a ← X.regs o.th
      memAccess o.th op o.t (eaM a o.a o.disp) false) } :=
  ans_ok _ _ _ hwf

theorem memInsn_body (hq : (!opQuad op || o.t % 2 == 0) = true) (hk : (m1.th o.th).cur = (s.m.th o.th).cur) :
    (do
      X.spec (mWord op o) (!opQuad op || o.t % 2 == 0)
      let a ← X.regs o.th
      memAccess o.th op o.t (eaM a o.a o.disp) false : X Done) m1 =
    memAccess o.th op o.t (eaM (s.m.th o.th).cur o.a o.disp) false m1 := by
  rw [hq, X.spec_true, pure_bind, X.regs_bind, hk]

/-- A load of form M on an operand of `n` bytes, the bytes of its opcode. -/
theorem leaves_memInsn_load {v : Nat} (hi : exec i s = memInsn op o s) (hwf : o.wf = true) (hq : (!opQuad op || o.t % 2 == 0) = true)
    (hop : opStores op = false) (hn : opBytes op = n)
    (h : let ea := (s.m.th o.th).cur.gr o.a + BitVec.ofInt 64 (sx 16 o.disp)
      Ready s.m o.th (memShape 0 n ea) m1 ∧ loadN o.th ea n .load false m1 = .ok v m2 ∧ Served m2 o.th (memShape 0 n ea) (s.m.th o.th).cur) :
    Leaves i s o.th m2 (after (s.m.th o.th).cur ((s.m.th o.th).cur.putLoad op o.t v) 4) (m2.th o.th).com := by
  subst hn
  obtain ⟨hr, hload, hv⟩ := h
  exact leaves_memAccess_load (hi.trans (memInsn_eq hwf)) (memInsn_body hq hr.keeps) hop hr hload hv

/-- A store of form M. -/
theorem leaves_memInsn_store {ps : List Piece} (hi : exec i s = memInsn op o s) (hwf : o.wf = true) (hq : (!opQuad op || o.t % 2 == 0) = true)
    (hop : opStores op = true) (hn : opBytes op = n)
    (h : let ea := (s.m.th o.th).cur.gr o.a + BitVec.ofInt 64 (sx 16 o.disp)
      Ready s.m o.th (memShape 0 n ea) m1 ∧ access o.th ea n .store m1 = .ok ps m2 ∧ Plain m2 o.th ps ∧
        Served m2 o.th (memShape 0 n ea) (s.m.th o.th).cur) :
    LeavesStores i s o.th m2 (after (s.m.th o.th).cur (s.m.th o.th).cur 4) (m2.th o.th).com
      (mkStores ps n ((s.m.th o.th).cur.storeVal op o.t) false) := by
  subst hn
  obtain ⟨hr, hacc, hp, hv⟩ := h
  exact leaves_memAccess_store (hi.trans (memInsn_eq hwf)) (memInsn_body hq hr.keeps) hop hr hacc hp hv

end

/-- Settles O5: the register of each opcode is the one that `putLoad` writes. -/
theorem loadResults : Obligations.LoadResults := by
  unfold Obligations.LoadResults
  intro s o m1 m2 v hwf
  exact ⟨leaves_memInsn_load (op := 0x10) rfl hwf rfl rfl rfl, leaves_memInsn_load (op := 0x11) rfl hwf rfl rfl rfl,
    leaves_memInsn_load (op := 0x12) rfl hwf rfl rfl rfl, leaves_memInsn_load (op := 0x13) rfl hwf rfl rfl rfl,
    fun heven => leaves_memInsn_load (op := 0x14) rfl hwf (by simp [heven]) rfl rfl, leaves_memInsn_load (op := 0x15) rfl hwf rfl rfl rfl,
    leaves_memInsn_load (op := 0x16) rfl hwf rfl rfl rfl, leaves_memInsn_load (op := 0x17) rfl hwf rfl rfl rfl,
    leaves_memInsn_load (op := 0x0C) rfl hwf rfl rfl rfl, leaves_memInsn_load (op := 0x0D) rfl hwf rfl rfl rfl⟩

/-- Settles O6: the bytes of each opcode are those that `storeVal` takes. -/
theorem storeResults : Obligations.StoreResults := by
  unfold Obligations.StoreResults
  intro s o m1 m2 ps hwf
  exact ⟨leaves_memInsn_store (op := 0x18) rfl hwf rfl rfl rfl, leaves_memInsn_store (op := 0x19) rfl hwf rfl rfl rfl,
    leaves_memInsn_store (op := 0x1A) rfl hwf rfl rfl rfl, leaves_memInsn_store (op := 0x1B) rfl hwf rfl rfl rfl,
    fun heven => leaves_memInsn_store (op := 0x1C) rfl hwf (by simp [heven]) rfl rfl, leaves_memInsn_store (op := 0x0E) rfl hwf rfl rfl rfl,
    leaves_memInsn_store (op := 0x0F) rfl hwf rfl rfl rfl⟩

end Sys2Proof.Machine
end

section
/-! Form X: base plus shifted index, and O7. -/

namespace Sys2Proof.Machine

open Sys2Proof.Safety

/-! ### The fields of an fn (R86) -/

theorem fn_opcode (fn : Nat) : bits fn 5 0 = fn % 64 := by simp [bits]

theorem fn_unused {fn : Nat} (h : fn / 128 = 0) : bits fn 8 7 = 0 := by simp [bits, Nat.shiftRight_eq_div_pow, h]

theorem fn_nonTemporal (fn : Nat) : bit fn 6 = (fn / 64 % 2 == 1) := by
  simp [bit, Nat.testBit_eq_decide_div_mod_eq, Bool.beq_eq_decide_eq]

/-- What R86 asks of an fn, in the words of its fields. -/
theorem xFnOk_of_fields {fn op : Nat} (hop : bits fn 5 0 = op) (hlo : 0x0C ≤ op) (hhi : op ≤ 0x1C) (hunused : bits fn 8 7 = 0)
    (hnt : bit fn 6 = false ∨ opStores op = true) : xFnOk fn = true := by
  have hnt' : (!bit fn 6 || opStores op) = true := by obtain h | h := hnt <;> simp [h]
  simp only [xFnOk, hop, hunused, hlo, hhi, hnt', decide_true, BEq.rfl, Bool.and_self]

theorem xInsn_eq {s : State} {o : FX} (fn : Nat) (hwf : o.wf = true) : xInsn o fn s =
    .next { s with m := s.m.runInsn o.th (memShape (xWord o fn) (opBytes (bits fn 5 0)) (eaX (s.m.th o.th).cur o.a o.b o.sc)) (do
      X.spec (xWord o fn) (xFnOk fn && (!opQuad (bits fn 5 0) || o.t % 2 == 0))
      let a ← X.regs o.th
      memAccess o.th (bits fn 5 0) o.t (eaX a o.a o.b o.sc) (bit fn 6)) } := by
  simp only [xInsn, ans_ok _ _ _ hwf]

section
variable {i : Instr} {s : State} {o : FX} {fn op : Nat} {m1 m2 : Mach} (hi : exec i s = xInsn o fn s) (hwf : o.wf = true)
  (hop : bits fn 5 0 = op) (hok : (xFnOk fn && (!opQuad op || o.t % 2 == 0)) = true)
include hi hwf hop hok

theorem xInsn_run {ea : W64} (hea : (s.m.th o.th).cur.gr o.a + ((s.m.th o.th).cur.gr o.b <<< o.sc) = ea)
    (hr : Ready s.m o.th (memShape 0 (opBytes op) ea) m1) : ∃ body : X Done,
      exec i s = .next { s with m := s.m.runInsn o.th (memShape (xWord o fn) (opBytes op) ea) body } ∧
      body m1 = memAccess o.th op o.t ea (bit fn 6) m1 := by
  subst hop hea
  refine ⟨_, hi.trans (xInsn_eq fn hwf), ?_⟩
  simp only [hok, X.spec_true, pure_bind, X.regs_bind, hr.keeps]
  rfl

theorem leaves_xInsn_load {v : Nat} {ea : W64} (hea : (s.m.th o.th).cur.gr o.a + ((s.m.th o.th).cur.gr o.b <<< o.sc) = ea)
    (hld : opStores op = false) (hr : Ready s.m o.th (memShape 0 (opBytes op) ea) m1)
    (hload : loadN o.th ea (opBytes op) .load false m1 = .ok v m2) (hv : Served m2 o.th (memShape 0 (opBytes op) ea) (s.m.th o.th).cur) :
    Leaves i s o.th m2 (after (s.m.th o.th).cur ((s.m.th o.th).cur.putLoad op o.t v) 4) (m2.th o.th).com := by
  obtain ⟨body, he, hbody⟩ := xInsn_run hi hwf hop hok hea hr
  exact leaves_memAccess_load he hbody hld hr hload hv

theorem leaves_xInsn_store {ps : List Piece} {ea : W64} (hea : (s.m.th o.th).cur.gr o.a + ((s.m.th o.th).cur.gr o.b <<< o.sc) = ea)
    (hst : opStores op = true) (hr : Ready s.m o.th (memShape 0 (opBytes op) ea) m1)
    (hacc : access o.th ea (opBytes op) .store m1 = .ok ps m2) (hp : Plain m2 o.th ps)
    (hv : Served m2 o.th (memShape 0 (opBytes op) ea) (s.m.th o.th).cur) :
    LeavesStores i s o.th m2 (after (s.m.th o.th).cur (s.m.th o.th).cur 4) (m2.th o.th).com
      (mkStores ps (opBytes op) ((s.m.th o.th).cur.storeVal op o.t) (bit fn 6)) := by
  obtain ⟨body, he, hbody⟩ := xInsn_run hi hwf hop hok hea hr
  exact leaves_memAccess_store he hbody hst hr hacc hp hv

end

/-- Settles O7: NON_TEMPORAL_STORE is the store of the fn with bit 6 set, whose other fields are those of the operand. -/
theorem indexedAndNonTemporal : Obligations.IndexedAndNonTemporal := by
  unfold Obligations.IndexedAndNonTemporal
  intro s o m1 m2 hwf
  have hquad {op : Nat} (h : opQuad op = true → o.t % 2 = 0) : (!opQuad op || o.t % 2 == 0) = true := by
    cases hq : opQuad op with
    | false => rfl
    | true => simp [h hq]
  refine ⟨fun v hok hld hfn hr hload hv => ?_, fun ps hok hst hr hacc hp hv => ?_⟩
  · obtain ⟨hlo, hhi, hunused, heven⟩ := hok
    have hnt : bit o.fn 6 = false := by
      rw [fn_nonTemporal, hfn, Nat.div_eq_of_lt (Nat.mod_lt _ (by decide))]
      rfl
    have hfnOk := xFnOk_of_fields (fn_opcode o.fn) hlo hhi (fn_unused hunused) (.inl hnt)
    exact leaves_xInsn_load (fn := o.fn) rfl hwf (fn_opcode o.fn) (by rw [hfnOk, hquad heven]; rfl) rfl hld hr hload hv
  · obtain ⟨hlo, hhi, hunused, heven⟩ := hok
    constructor
    · have hfnOk := xFnOk_of_fields (fn_opcode o.fn) hlo hhi (fn_unused hunused) (.inr hst)
      rw [← fn_nonTemporal]
      exact leaves_xInsn_store (fn := o.fn) rfl hwf (fn_opcode o.fn) (by rw [hfnOk, hquad heven]; rfl) rfl hst hr hacc hp hv
    · have hop : bits (setBits o.fn 6 6 1) 5 0 = o.fn % 64 := by rw [bits_setBits_ne _ _ _ _ _ _ (by decide) (by decide), fn_opcode]
      have hunused' : bits (setBits o.fn 6 6 1) 8 7 = 0 := by
        rw [bits_setBits_ne _ _ _ _ _ _ (by decide) (by decide), fn_unused hunused]
      have hnt : bit (setBits o.fn 6 6 1) 6 = true := testBit_setBits o.fn 6 6 1 6 (by decide)
      have hfnOk := xFnOk_of_fields hop hlo hhi hunused' (.inr hst)
      have hstore := leaves_xInsn_store (i := .nonTemporalStore o) rfl hwf hop (by rw [hfnOk, hquad heven]; rfl) rfl hst hr hacc hp hv
      rwa [hnt] at hstore

end Sys2Proof.Machine
end

section
/-! System functions: the special registers (O8), the calls (O9), and the return, the fences and `wait` (O10). -/

namespace Sys2Proof.Machine

open Sys2Proof.Safety

/-- The command of a system function runs it when its operands are in range. -/
theorem exec_sysInsn {i : Instr} {s : State} {o : FS} {sh : Shape} {body : X Done} (e : Host.Outcome State Fault Refusal) (hx : exec i s = e)
    (he : e = sysInsn o sh body s) (hwf : o.wf = true) : exec i s = .next { s with m := s.m.runInsn o.th sh body } := by
  rw [hx, he]
  exact ans_ok _ _ _ hwf

/-! ### Special registers -/

section
variable {s : State} {o : FS} {m1 : Mach} {l : Nat} (hwf : o.wf = true) (hsr : srLevel o.sr = some l) (hl : l ≤ (s.m.th o.th).cur.pl)
include hwf hsr hl

theorem leaves_mfsr (hw : Word s.m o.th m1) (ha : o.a = 0) :
    Leaves (.mfsr o) s o.th m1 (after (s.m.th o.th).cur ((s.m.th o.th).cur.setG o.t (m1.srRead (s.m.th o.th).cur o.sr)) 4) (m1.th o.th).com := by
  refine leaves_of_regs (exec_sysInsn (execMfsr o s) rfl rfl hwf) (ready_simple _ hw) rfl rfl ?_
  simp [hw.keeps, hsr, hl, ha]

/-- `mtsr` when R94 does not refuse it: `psw` takes its writable bits, another register what `srWrite` says. -/
theorem leaves_mtsr (hw : WordAlone s.m o.th m1) (ht : o.t = 0)
    (hd : o.sr = 0 → pswDenied (s.m.th o.th).cur.pl (s.m.th o.th).cur.psw ((s.m.th o.th).cur.gr o.a) = false) :
    Leaves (.mtsr o) s o.th m1 (after (s.m.th o.th).cur
      (if o.sr = 0 then { (s.m.th o.th).cur with psw := pswNew (s.m.th o.th).cur.psw ((s.m.th o.th).cur.gr o.a) }
        else (s.m.th o.th).cur.srWrite o.sr ((s.m.th o.th).cur.gr o.a)) 4) (m1.th o.th).com := by
  refine leaves_of_regs (exec_sysInsn (execMtsr o s) rfl rfl hwf) (ready_alone _ hw) rfl rfl ?_
  have hpriv : (decide ((srLevel o.sr).getD 0 ≤ (s.m.th o.th).cur.pl) &&
      !(o.sr == 0 && pswDenied (s.m.th o.th).cur.pl (s.m.th o.th).cur.psw ((s.m.th o.th).cur.gr o.a))) = true := by
    rw [hsr, Option.getD_some, decide_eq_true hl, Bool.true_and]
    by_cases hzero : o.sr = 0
    · simp [hd hzero]
    · simp [hzero]
  have hspec : (o.t == 0 && (srLevel o.sr).isSome) = true := by simp [ht, hsr]
  simp only [X.regs_bind, hw.keeps, hpriv, hspec, X.priv_true, X.spec_true, pure_bind, X.upd_bind, X.pure_apply]

end

/-- Settles O8: `leaves_mtsr` for every register, and what `srWrite` does to each kind. -/
theorem specialRegisterMoves : Obligations.SpecialRegisterMoves := by
  unfold Obligations.SpecialRegisterMoves
  intro s o m1 l hwf hsr a v hl leaves L
  refine ⟨leaves_mfsr hwf hsr hl, fun hw ht => ?_⟩
  have hother {b : Arch} (hne : o.sr ≠ 0) (hb : a.srWrite o.sr v = b) : leaves (.mtsr o) b := by
    have h := leaves_mtsr hwf hsr hl hw ht (fun h => absurd h hne)
    rwa [if_neg hne, hb] at h
  refine ⟨fun hzero hd => ?_, fun hlo hhi => hother (by omega) ?_, fun hlo hhi => hother (by omega) ?_, fun hlo hhi => hother (by omega) ?_,
    fun hlo hhi => hother (by omega) ?_, fun h40 hk => hother (by omega) ?_, fun h40 hk => hother (by omega) ?_,
    fun h40 hk => hother (by omega) ?_, fun h40 hk => hother (by omega) ?_, fun h40 hk => hother (by omega) ?_,
    fun h40 hk => hother (by omega) ?_, fun h40 hk => hother (by omega) ?_⟩
  · have h := leaves_mtsr hwf hsr hl hw ht (fun _ => hd)
    rwa [if_pos hzero] at h
  · rw [Arch.srWrite, if_pos hhi]
  · rw [Arch.srWrite, if_neg (by omega), if_pos hhi]
    rfl
  · rw [Arch.srWrite, if_neg (by omega), if_neg (by omega), if_pos hhi]
    rfl
  · rw [Arch.srWrite, if_neg (by omega), if_neg (by omega), if_neg (by omega), if_pos hhi]
  all_goals
    rw [Arch.srWrite, if_neg (by omega), if_neg (by omega), if_neg (by omega), if_neg (by omega), hk]
    rfl

end Sys2Proof.Machine
end

section
/-! Calls and the undefined word (O9): a trap taken after the instruction, and a fault taken before it. -/

namespace Sys2Proof.Machine

open Sys2Proof.Safety

theorem sysCheck_ok {m : Mach} {o : FS} {fn lvl : Nat} {ok : Bool} (hl : lvl ≤ (m.th o.th).cur.pl) (hok : ok = true) :
    sysCheck o fn lvl ok m = .ok () m := by
  simp [sysCheck, hl, hok]

section
variable {i : Instr} {s : State} {o : FS} {m1 : Mach} {fn lvl code : Nat} (hw : WordAlone s.m o.th m1) (hcl : Clear m1 o.th)
  (hcode : code < 2 ^ 16) (hmck : code ≠ 1)
include hw hcl hcode hmck

/-- A system function that completes with a trap. -/
theorem enters_of_trap {body : X Done} (he : exec i s = .next { s with m := s.m.runInsn o.th (Shape.alone_ (sysWord o fn)) body })
    (hb : body m1 = .ok ⟨.seq, [], some (code, o.sr)⟩ m1) :
    let b := after (s.m.th o.th).cur (s.m.th o.th).cur 4
    Enters i s o.th m1 b (max (classOf code false) b.pl) code (BitVec.ofNat 64 o.sr) b.ia := by
  have hr := ready_alone (sysWord o fn) hw
  have h := enters_trap he hr hb hr.fresh hr.noDbg1 hr.room1 hcl hcode hmck (by show 4 / 4 < 4; decide)
  rwa [hr.keeps] at h

theorem enters_callInsn (hwf : o.wf = true) (ht : o.t = 0) (ha : o.a = 0) (e : Host.Outcome State Fault Refusal) (hx : exec i s = e)
    (hcall : e = callInsn o fn lvl code s) (hl : lvl ≤ (s.m.th o.th).cur.pl) :
    let b := after (s.m.th o.th).cur (s.m.th o.th).cur 4
    Enters i s o.th m1 b (max (classOf code false) b.pl) code (BitVec.ofNat 64 o.sr) b.ia := by
  refine enters_of_trap (fn := fn) hw hcl hcode hmck (exec_sysInsn (callInsn o fn lvl code s) (hx.trans hcall) rfl hwf) ?_
  rw [bind_ok _ _ _ _ _ (sysCheck_ok (by rw [hw.keeps]; exact hl) (by simp [ht, ha]))]
  rfl

end

/-- Settles O9: three calls of one shape, `brk` outside an enclave, and the fault of a word that is no instruction. -/
theorem callsTakeTheirTrap : Obligations.CallsTakeTheirTrap := by
  unfold Obligations.CallsTakeTheirTrap
  intro s o m1 hwf ht ha hw hcl
  refine ⟨enters_callInsn hw hcl (by decide) (by decide) hwf ht ha (execSvc o s) rfl rfl (Nat.zero_le _),
    fun hl => enters_callInsn hw hcl (by decide) (by decide) hwf ht ha (execHvc o s) rfl rfl hl,
    fun hl => enters_callInsn hw hcl (by decide) (by decide) hwf ht ha (execFwc o s) rfl rfl hl, ?_, fun word hword hw' => ?_⟩
  · refine enters_of_trap (i := .brk o) (code := 0x0801) (fn := 0x0C) hw hcl (by decide) (by decide)
      (exec_sysInsn (execBrk o s) rfl rfl hwf) ?_
    obtain ⟨-, -, hencl, -⟩ := hcl
    rw [bind_ok _ _ _ _ _ (sysCheck_ok (Nat.zero_le _) (by simp [ht, ha])), X.mach_bind, Mach.debugTraps, hencl]
    rfl
  · have hth : o.th < 96 := by
      simp only [FS.wf, Bool.and_eq_true, decide_eq_true_eq] at hwf
      obtain ⟨⟨⟨hth, -⟩, -⟩, -⟩ := hwf
      exact hth
    have he : exec (.undefinedInstruction o.th word) s = .next { s with m := s.m.runInsn o.th (Shape.simple word) _ } :=
      exec_run (execUndefinedInstruction o.th word s) rfl rfl (by rw [decide_eq_true hth, decide_eq_true hword]; rfl) rfl
    exact enters_fault he (ready_simple word hw') rfl hcl (by decide) (by decide) (by show 4 / 4 < 4; decide)

end Sys2Proof.Machine
end

section
/-! The return from an interruption, the fences and `wait` (O10). -/

namespace Sys2Proof.Machine

open Sys2Proof.Safety

/-- The saved status that R113 accepts: no higher level, no enclave, and machine checks masked at level F only. -/
theorem rfi_accepts {sp pl : Nat} (hlevel : sp % 4 ≤ pl) (hencl : sp / 4 % 2 = 0) (hmck : sp / 128 % 2 = 1 → pl = 3) :
    (decide (bits sp 1 0 ≤ pl) && !bit sp 2 && !(bit sp 7 && decide (pl < 3))) = true := by
  have hb : bits sp 1 0 ≤ pl := by simpa [bits] using hlevel
  have h2 : bit sp 2 = false := by simp [bit, Nat.testBit_eq_decide_div_mod_eq, hencl]
  have h7 : (bit sp 7 && decide (pl < 3)) = false := by
    rw [bit, Nat.testBit_eq_decide_div_mod_eq, ← Bool.decide_and, decide_eq_false_iff_not]
    rintro ⟨hbit, hlt⟩
    have := hmck hbit
    omega
  rw [h2, h7, decide_eq_true hb]
  rfl

theorem drainStores_ok {m1 : Mach} {th : Nat} (hcomb : (m1.core (th / 2)).comb = []) (hdone : m1.storesDone th = true)
    (hpend : (m1.core (th / 2)).wpend = []) :
    drainStores th m1 = .ok () m1 := by
  have hflush : m1.combFlush (th / 2) = m1 := by rw [Mach.combFlush, hcomb]; rfl
  rw [drainStores, X.modify_bind, hflush, X.mach_bind, hdone, hpend]
  rfl

theorem fenceInsn_eq {s : State} {o : FS} (fn : Nat) (hwf : o.wf = true) : fenceInsn o fn s =
    .next { s with m := s.m.runInsn o.th (if s.m.modeM5 then Shape.simple (sysWord o fn) else Shape.sync_ (sysWord o fn)) (do
      sysCheck o fn 0 (o.t == 0 && o.a == 0 && o.sr == 0)
      let m ← X.mach
      if m.modeM5 then pure Done.plain
      else do
        drainStores o.th
        pure Done.plain) } :=
  ans_ok _ s _ hwf

section
variable {s : State} {o : FS} {m1 : Mach} (hwf : o.wf = true) (ha : o.a = 0) (hsr : o.sr = 0)
include hwf ha hsr

/-- `rfi` to a saved status that R113 accepts and an aligned address. -/
theorem leaves_rfi {a : Arch} (hcur : (s.m.th o.th).cur = a) (ht : o.t = 0) (hw : WordAlone s.m o.th m1) (hpl : 1 ≤ a.pl)
    (hlevel : (tget a.spsw a.pl 0).toNat % 4 ≤ a.pl) (hencl : (tget a.spsw a.pl 0).toNat / 4 % 2 = 0)
    (hmck : (tget a.spsw a.pl 0).toNat / 128 % 2 = 1 → a.pl = 3) (hsia : (tget a.sia a.pl 0).toNat % 4 = 0) :
    Leaves (.rfi o) s o.th m1
      { a with psw := BitVec.ofNat 64 ((tget a.spsw a.pl 0).toNat &&& spswMask), ia := tget a.sia a.pl 0 } (m1.th o.th).com := by
  have hkeeps : (m1.th o.th).cur = a := hw.keeps.trans hcur
  have hpriv := rfi_accepts hlevel hencl hmck
  refine leaves_of_jump (i := .rfi o) (b := { a with psw := BitVec.ofNat 64 ((tget a.spsw a.pl 0).toNat &&& spswMask) })
    (exec_sysInsn (execRfi o s) rfl rfl hwf) (ready_alone _ hw) rfl ?_ (m1.setsCur_putCur o.th _)
  rw [bind_ok _ _ _ _ _ (sysCheck_ok (by rw [hkeeps]; exact hpl) (by simp [ht, ha, hsr]))]
  simp only [X.regs_bind, hkeeps, hpriv, hsia, BEq.rfl, X.priv_true, X.need_true, pure_bind, X.upd_bind, X.pure_apply]

theorem leaves_isync (ht : o.t = 0) (hw : WordAlone s.m o.th m1) :
    Leaves (.isync o) s o.th m1 (after (s.m.th o.th).cur (s.m.th o.th).cur 4) (m1.th o.th).com := by
  refine leaves_of_still (exec_sysInsn (execIsync o s) rfl rfl hwf) (ready_alone _ hw) rfl rfl ?_
  rw [bind_ok _ _ _ _ _ (sysCheck_ok (Nat.zero_le _) (by simp [ht, ha, hsr])), X.pure_apply]

theorem leaves_fenceL (ht : o.t = 0) (hw : Word s.m o.th m1) :
    Leaves (.fenceL o) s o.th m1 (after (s.m.th o.th).cur (s.m.th o.th).cur 4) (m1.th o.th).com := by
  refine leaves_of_still (exec_sysInsn (execFenceL o s) rfl rfl hwf) (ready_simple _ hw) rfl rfl ?_
  rw [bind_ok _ _ _ _ _ (sysCheck_ok (Nat.zero_le _) (by simp [ht, ha, hsr])), X.pure_apply]

theorem leaves_rdtod (hw : Word s.m o.th m1) :
    Leaves (.rdtod o) s o.th m1 (after (s.m.th o.th).cur ((s.m.th o.th).cur.setG o.t (BitVec.ofNat 64 m1.tod)) 4) (m1.th o.th).com := by
  refine leaves_of_regs (exec_sysInsn (execRdtod o s) rfl rfl hwf) (ready_simple _ hw) rfl rfl ?_
  rw [bind_ok _ _ _ _ _ (sysCheck_ok (Nat.zero_le _) (by simp [ha, hsr])), X.mach_bind, X.upd_bind, hw.keeps, X.pure_apply]

/-! ### Fences over stores -/

section
variable {i : Instr} {fn : Nat} (hi : exec i s = fenceInsn o fn s) (ht : o.t = 0)
include hi ht

/-- In M5 every store is already in order, and the fence does nothing. -/
theorem leaves_fence_inM5 (hs : s.m.modeM5 = true) (h1 : m1.modeM5 = true) (hw : Word s.m o.th m1) :
    Leaves i s o.th m1 (after (s.m.th o.th).cur (s.m.th o.th).cur 4) (m1.th o.th).com := by
  have he := hi.trans (fenceInsn_eq fn hwf)
  rw [if_pos hs] at he
  refine leaves_of_still he (ready_simple _ hw) rfl rfl ?_
  rw [bind_ok _ _ _ _ _ (sysCheck_ok (Nat.zero_le _) (by simp [ht, ha, hsr])), X.mach_bind, if_pos h1, X.pure_apply]

/-- Outside M5 the fence waits for the stores before it; with none outstanding it completes at once, and commits. -/
theorem leaves_fence (hs : s.m.modeM5 = false) (h1 : m1.modeM5 = false) (hr : Ready s.m o.th (Shape.sync_ 0) m1)
    (hcomb : (m1.core (o.th / 2)).comb = []) (hdone : m1.storesDone o.th = true) (hpend : (m1.core (o.th / 2)).wpend = []) :
    Leaves i s o.th m1 (after (s.m.th o.th).cur (s.m.th o.th).cur 4) (after (s.m.th o.th).cur (s.m.th o.th).cur 4) := by
  have he := hi.trans (fenceInsn_eq fn hwf)
  rw [if_neg (by rw [hs]; decide)] at he
  have hr' : Ready s.m o.th (Shape.sync_ (sysWord o fn)) m1 := ready_word _ hr
  obtain ⟨-, hwin, hep, hbuf⟩ := hr.sync rfl
  refine leaves_of_sync he hr' rfl rfl (served_of_ready hr') hwin hep hbuf ?_ (Mach.setsCur_refl hr.keeps)
  rw [bind_ok _ _ _ _ _ (sysCheck_ok (Nat.zero_le _) (by simp [ht, ha, hsr])), X.mach_bind, if_neg (by rw [h1]; decide),
    bind_ok _ _ _ _ _ (drainStores_ok hcomb hdone hpend)]
  rfl

end

end

/-! ### Waiting -/

/-- Outside the registers of its block, nothing changes with the reported state of a virtual processor. -/
theorem Mach.th_vpState (m : Mach) (th st u : Nat) : (m.vpState th st).th u = m.th u := by
  unfold Mach.vpState
  split <;> rfl

/-- After the fetch the body runs. -/
theorem run_after_fetch {m m1 : Mach} {th len : Nat} {ia : W64} (body : X Done) (h : fetchWords th ia len m = .ok () m1) :
    (do
      fetchCheck th ia.toNat
      if len = 8 then fetchCheck th (ia + 4).toNat
      body : X Done) m = body m1 := by
  have hassoc : (do
      fetchCheck th ia.toNat
      if len = 8 then fetchCheck th (ia + 4).toNat
      body : X Done) = fetchWords th ia len >>= fun _ => body := by
    unfold fetchWords
    split <;> simp
  rw [hassoc, bind_ok _ _ _ _ _ h]

/-- An instruction that has to wait: its thread keeps its registers. -/
theorem runInsn_wait {m m1 m2 : Mach} {th : Nat} {sh : Shape} {body : X Done} (hr : Ready m th sh m1) (hs : sh.sync = false)
    (hb : body m1 = .error .wait m2) : m.runInsn th sh body = m2.onTh th fun t => { t with cur := (m.th th).cur, nowSync := false } := by
  have hstop : (if m.frozen = true then m else m.tryStop th) = m := by
    rw [Mach.tryStop_idle _ _ hr.noDbg, ite_self]
  have hroom : (m.takeIn th sh).isNone = false := by rw [← Option.not_isSome, hr.room]; rfl
  have hprog := (run_after_fetch body hr.fetch).trans hb
  unfold Mach.runInsn
  simp only [hstop, hr.runs, hs, hroom, Bool.not_true, Bool.false_eq_true, if_false]
  rw [hprog]

section
variable {s : State} {o : FS} {m1 : Mach} (ht : o.t = 0) (ha : o.a = 0) (hsr : o.sr = 0)
include ht ha hsr

/-- `wait` by what it finds (R116). -/
theorem waitBody_run (hpl : 1 ≤ (m1.th o.th).cur.pl) : waitBody o m1 =
    if (m1.th o.th).cur.pswF 5 5 = 0 then .ok Done.plain (m1.putCur o.th ((m1.th o.th).cur.setCc 3))
    else if m1.deliverable o.th then .ok Done.plain m1
    else .error .wait ((m1.onTh o.th fun t => { t with wait := .waitInsn }).vpState o.th 4) := by
  rw [waitBody, bind_ok _ _ _ _ _ (sysCheck_ok hpl (by simp [ht, ha, hsr])), X.regs_bind, X.mach_bind]
  split
  · rfl
  · split <;> rfl

end

/-- Settles O10, one lemma for each instruction; `waitBody_run` gives the three outcomes of `wait`. -/
theorem returnAndFences : Obligations.ReturnAndFences := by
  unfold Obligations.ReturnAndFences
  intro s o m1 hwf ha hsr
  refine ⟨leaves_rfi hwf ha hsr rfl, leaves_isync hwf ha hsr, leaves_fenceL hwf ha hsr, leaves_rdtod hwf ha hsr,
    fun ht hs h1 hw => ⟨leaves_fence_inM5 hwf ha hsr (fn := 0x07) rfl ht hs h1 hw, leaves_fence_inM5 hwf ha hsr (fn := 0x08) rfl ht hs h1 hw⟩,
    fun ht hs h1 hr hcomb hdone hpend => ⟨leaves_fence hwf ha hsr (fn := 0x07) rfl ht hs h1 hr hcomb hdone hpend,
      leaves_fence hwf ha hsr (fn := 0x08) rfl ht hs h1 hr hcomb hdone hpend⟩, fun ht hw hpl => ?_⟩
  have he := exec_sysInsn (i := .wait o) (execWait o s) rfl rfl hwf
  have hr := ready_alone (sysWord o 0x0A) hw
  have hrun := waitBody_run ht ha hsr (by rw [hw.keeps]; exact hpl)
  rw [hw.keeps] at hrun
  refine ⟨fun hoff => ?_, fun hon hd => ?_, fun hon hd => ?_⟩
  · rw [if_pos hoff] at hrun
    exact leaves_of_regs he hr rfl rfl hrun
  · rw [if_neg (by rw [hon]; decide), if_pos hd] at hrun
    exact leaves_of_still he hr rfl rfl hrun
  · rw [if_neg (by rw [hon]; decide), if_neg (by rw [hd]; decide)] at hrun
    refine ⟨_, he, rfl, ?_⟩
    rw [runInsn_wait hr rfl hrun, Mach.th_onTh_same, Mach.th_vpState, Mach.th_onTh_same]
    exact ⟨rfl, rfl⟩

end Sys2Proof.Machine
end

section
/-! Floating-point instructions, and O11.  Every result goes through `fpRaise`, which with no enabled exception marks the flags
and passes. -/

namespace Sys2Proof.Machine

open Sys2Proof.Safety

/-- The registers with sticky flags set in `fpsr` (R133). -/
def Arch.markFp (a : Arch) (flags : Nat) : Arch := { a with fpsr := a.fpsr ||| BitVec.ofNat 64 flags }

/-- None of the exceptions raised is enabled. -/
def Arch.FpQuiet (a : Arch) (flags : Nat) : Prop := flags &&& (a.fpsr.toNat >>> 8) &&& 31 = 0

theorem Arch.fpQuiet_zero (a : Arch) : a.FpQuiet 0 := by simp [Arch.FpQuiet]

theorem Arch.markFp_zero (a : Arch) : a.markFp 0 = a := by simp [Arch.markFp]

theorem fpRaise_quiet {m : Mach} {th flags : Nat} (h : (m.th th).cur.FpQuiet flags) :
    fpRaise th flags m = .ok () (m.putCur th ((m.th th).cur.markFp flags)) := by
  have hnone : (flags &&& ((m.th th).cur.fpsr.toNat >>> 8) &&& 31 == 0) = true := beq_iff_eq.2 h
  rw [fpRaise, X.regs_bind, hnone, X.need_true, pure_bind]
  rfl

section
variable {i : Instr} {s : State} {o : FA} {m1 : Mach} {sp : Bool} {fn : Nat} {a : Arch} (hwf : o.wf = true) (hw : Word s.m o.th m1)
  (hcur : (s.m.th o.th).cur = a)
include hwf hw hcur

/-- A floating instruction whose body sets the registers `b`. -/
theorem leaves_fpInsn {w : Nat} {body : X Done} {b : Arch} (e : Host.Outcome State Fault Refusal) (hx : exec i s = e)
    (he : e = fpInsn o w body s) (hb : body m1 = .ok Done.plain (m1.putCur o.th b)) :
    Leaves i s o.th m1 (after a b 4) (m1.th o.th).com := by
  subst hcur
  exact leaves_of_regs (exec_run e hx he hwf rfl) (ready_simple w hw) rfl rfl hb

/-- An operation with a floating result `r`: its bits and the flags that it raises. -/
theorem leaves_fpOp {ok : Bool} {f : Arch → Nat × Nat} {r : Nat × Nat} (e : Host.Outcome State Fault Refusal) (hx : exec i s = e)
    (he : e = fpOp o fn sp ok f s) (hok : ok = true) (hf : f a = r) (hq : a.FpQuiet r.2) :
    Leaves i s o.th m1 (after a ((a.markFp r.2).setF o.t (BitVec.ofNat 64 r.1)) 4) (m1.th o.th).com := by
  refine leaves_fpInsn hwf hw hcur (fpOp o fn sp ok f s) (hx.trans he) rfl ?_
  have hkeeps : (m1.th o.th).cur = a := hw.keeps.trans hcur
  rw [hok, X.spec_true, pure_bind, X.regs_bind, hkeeps, hf, bind_ok _ _ _ _ _ (fpRaise_quiet (by rw [hkeeps]; exact hq)), hkeeps]
  simp

/-- An operation that copies bits raises nothing. -/
theorem leaves_fpOp_copy {ok : Bool} {f : Arch → Nat × Nat} {x : Nat} (e : Host.Outcome State Fault Refusal) (hx : exec i s = e)
    (he : e = fpOp o fn sp ok f s) (hok : ok = true) (hf : f a = (x, 0)) :
    Leaves i s o.th m1 (after a (a.setF o.t (BitVec.ofNat 64 x)) 4) (m1.th o.th).com := by
  have h := leaves_fpOp hwf hw hcur e hx he hok hf a.fpQuiet_zero
  rwa [Arch.markFp_zero] at h

theorem leaves_fcmp (ht : o.t = 0) (hq : a.FpQuiet (cmpV (a.fop sp o.a) (a.fop sp o.b)).2) :
    Leaves (.fcmp o sp) s o.th m1 (after a ((a.markFp (cmpV (a.fop sp o.a) (a.fop sp o.b)).2).setCc (cmpV (a.fop sp o.a) (a.fop sp o.b)).1) 4)
      (m1.th o.th).com := by
  refine leaves_fpInsn hwf hw hcur (execFcmp o sp s) rfl rfl ?_
  have hkeeps : (m1.th o.th).cur = a := hw.keeps.trans hcur
  rw [ht, BEq.rfl, X.spec_true, pure_bind, X.regs_bind, hkeeps, bind_ok _ _ _ _ _ (fpRaise_quiet (by rw [hkeeps]; exact hq)), hkeeps]
  simp

/-- A conversion to an integer `r`, with the flags that it raises. -/
theorem leaves_fcti {rm : Arch → Nat} {r : W64 × Nat} (e : Host.Outcome State Fault Refusal) (hx : exec i s = e) (he : e = fctiInsn o fn sp rm s)
    (hb : o.b = 0) (hr : toInt64 (rm a) (a.fop sp o.a) = r) (hq : a.FpQuiet r.2) :
    Leaves i s o.th m1 (after a ((a.markFp r.2).setG o.t r.1) 4) (m1.th o.th).com := by
  refine leaves_fpInsn hwf hw hcur (fctiInsn o fn sp rm s) (hx.trans he) rfl ?_
  have hkeeps : (m1.th o.th).cur = a := hw.keeps.trans hcur
  rw [hb, BEq.rfl, X.spec_true, pure_bind, X.regs_bind, hkeeps]
  simp only [hr]
  rw [bind_ok _ _ _ _ _ (fpRaise_quiet (by rw [hkeeps]; exact hq)), hkeeps]
  simp

theorem leaves_fmfg (hb : o.b = 0) : Leaves (.fmfg o) s o.th m1 (after a (a.setG o.t (a.fr o.a)) 4) (m1.th o.th).com := by
  refine leaves_fpInsn hwf hw hcur (execFmfg o s) rfl rfl ?_
  rw [hb, BEq.rfl, X.spec_true, pure_bind, X.regs_bind, hw.keeps.trans hcur, X.upd_bind, hw.keeps.trans hcur, X.pure_apply]

theorem leaves_mffs (ha : o.a = 0) (hb : o.b = 0) : Leaves (.mffs o) s o.th m1 (after a (a.setG o.t a.fpsr) 4) (m1.th o.th).com := by
  refine leaves_fpInsn hwf hw hcur (execMffs o s) rfl rfl ?_
  rw [ha, hb, BEq.rfl, Bool.and_self, X.spec_true, pure_bind, X.regs_bind, hw.keeps.trans hcur, X.upd_bind, hw.keeps.trans hcur, X.pure_apply]

end

theorem leaves_mtfs {s : State} {o : FA} {m1 : Mach} {a : Arch} (hwf : o.wf = true) (hw : WordAlone s.m o.th m1)
    (hcur : (s.m.th o.th).cur = a) (ht : o.t = 0) (hb : o.b = 0) :
    Leaves (.mtfs o) s o.th m1 (after a { a with fpsr := a.gr o.a &&& 0x31F1F#64 } 4) (m1.th o.th).com := by
  subst hcur
  refine leaves_of_regs (exec_run (execMtfs o s) rfl rfl hwf rfl) (ready_alone _ hw) rfl rfl ?_
  rw [ht, hb, BEq.rfl, Bool.and_self, X.spec_true, pure_bind, X.upd_bind, hw.keeps]
  rfl

/-- Settles O11: the shapes above, with the arithmetic function of each instruction. -/
theorem floatResults : Obligations.FloatResults := by
  unfold Obligations.FloatResults
  intro s o sp m1 hwf hw
  refine ⟨leaves_fpOp hwf hw rfl (execFadd o sp s) rfl rfl rfl rfl, leaves_fpOp hwf hw rfl (execFsub o sp s) rfl rfl rfl rfl,
    leaves_fpOp hwf hw rfl (execFmul o sp s) rfl rfl rfl rfl, leaves_fpOp hwf hw rfl (execFdiv o sp s) rfl rfl rfl rfl,
    fun hb => leaves_fpOp hwf hw rfl (execFsqrt o sp s) rfl rfl (beq_iff_eq.2 hb) rfl, leaves_fpOp hwf hw rfl (execFmadd o sp s) rfl rfl rfl rfl,
    leaves_fpOp hwf hw rfl (execFmsub o sp s) rfl rfl rfl rfl, leaves_fcmp hwf hw rfl, fun hb => ?_, leaves_mffs hwf hw rfl,
    fun ht hb hw' => leaves_mtfs hwf hw' rfl ht hb⟩
  have hb' : (o.b == 0) = true := beq_iff_eq.2 hb
  refine ⟨leaves_fpOp hwf hw rfl (execFcvtSD o s) rfl rfl hb' rfl, leaves_fpOp hwf hw rfl (execFcvtDS o s) rfl rfl hb' rfl,
    leaves_fpOp hwf hw rfl (execFcfi o sp s) rfl rfl hb' rfl, leaves_fcti hwf hw rfl (execFcti o sp s) rfl rfl hb rfl,
    leaves_fcti hwf hw rfl (execFctiz o sp s) rfl rfl hb rfl, leaves_fpOp_copy hwf hw rfl (execFmov o sp s) rfl rfl hb' rfl,
    leaves_fpOp_copy hwf hw rfl (execFneg o sp s) rfl rfl hb' rfl, leaves_fpOp_copy hwf hw rfl (execFabs o sp s) rfl rfl hb' rfl, ?_,
    leaves_fmfg hwf hw rfl hb⟩
  have h := leaves_fpOp_copy (i := .fmgf o) hwf hw rfl (execFmgf o s) rfl rfl hb' rfl
  rwa [BitVec.ofNat_toNat, BitVec.setWidth_eq] at h

end Sys2Proof.Machine
end

section
/-! The atomics, and O12.  Each of them checks its address, uses the line, and writes registers, and a line, as it completes. -/

namespace Sys2Proof.Machine

open Sys2Proof.Safety

/-! ### A store of an atomic -/

/-- What loses a line is the reservation only. -/
theorem Thread.lose_runs (t : Thread) (line : Nat) : (t.lose line).runs = t.runs := rfl

section
variable {m : Mach} {th line : Nat} {f : Line → Line}

theorem Mach.l2Store_th : (m.l2Store th line f).th th = m.th th := by
  have hne : th ≠ 2 * (th / 2) + 1 - th % 2 := by omega
  unfold Mach.l2Store
  split
  · rfl
  · rw [Mach.th_onTh_ne _ _ _ _ hne]
    rfl

theorem Mach.l2Store_takeIn (sh : Shape) : (m.l2Store th line f).takeIn th sh = m.takeIn th sh := by
  have hshare : (m.l2Store th line f).share th = m.share th := by
    unfold Mach.share Mach.l2Store
    split
    · rfl
    · rw [Mach.th_onTh_same, Thread.lose_runs]
      rfl
  have hpatch : (m.l2Store th line f).patchIn = m.patchIn := by
    unfold Mach.l2Store
    split <;> rfl
  unfold Mach.takeIn
  rw [hshare, hpatch, Mach.l2Store_th]

theorem Mach.l2Store_served {sh : Shape} {a : Arch} (hv : Served m th sh a) : Served (m.l2Store th line f) th sh a where
  noSync := by rw [Mach.l2Store_th]; exact hv.noSync
  noDbg := by rw [Mach.l2Store_th]; exact hv.noDbg
  room := by rw [Mach.l2Store_takeIn]; exact hv.room
  keeps := by rw [Mach.l2Store_th]; exact hv.keeps

end

/-! ### The count of failed conditional stores -/

/-- A conditional store that fails is counted, and a count that wraps shows its overflow. -/
def Mach.countScFail (m : Mach) (c : Nat) : Mach :=
  let m := m.countCore c (R.core_cstat2_scfail c)
  if m.get (R.core_cstat2_scfail c) = 0 && !m.coreFrozen c then m.set (R.core_cstat2_ovf_sc c) 1 else m

/-- Counting changes registers only. -/
theorem Mach.countScFail_regs (m : Mach) (c : Nat) : SameButRegs m (m.countScFail c) := by
  unfold Mach.countScFail Mach.countCore SameButRegs
  dsimp only
  split <;> split <;> rfl

theorem th_of_sameButRegs {m m' : Mach} (h : SameButRegs m m') (u : Nat) : m'.th u = m.th u := by
  rw [← h]
  rfl

theorem Mach.countScFail_th (m : Mach) (c u : Nat) : (m.countScFail c).th u = m.th u := th_of_sameButRegs (m.countScFail_regs c) u

theorem served_of_sameButRegs {m m' : Mach} {th : Nat} {sh : Shape} {a : Arch} (h : SameButRegs m m') (hv : Served m th sh a) :
    Served m' th sh a := by
  rw [← h] at hv
  exact ⟨hv.noSync, hv.noDbg, hv.room, hv.keeps⟩

/-! ### The address -/

theorem atAddr_ok {o : FA} {fn n : Nat} {acc : Acc} {m1 m2 : Mach} {p : Piece} (halign : ((m1.th o.th).cur.gr o.a).toNat % n = 0)
    (hacc : access o.th ((m1.th o.th).cur.gr o.a) n acc m1 = .ok [p] m2) (hc : (p.xl.nc || m2.uncached p.pa) = false) :
    atAddr o fn n acc m1 = .ok p.pa m2 := by
  unfold atAddr
  simp only [X.regs_bind, halign, BEq.rfl, X.need_true, pure_bind]
  rw [bind_ok _ _ _ _ _ hacc, X.mach_bind]
  simp only [hc, Bool.not_false, X.spec_true, pure_bind, X.pure_apply]

theorem atDrained_ok {m : Mach} {th : Nat} (h : m.storesDone th = true) : atDrained th m = .ok () m := by
  rw [atDrained, X.mach_bind, if_pos h, X.pure_apply]

/-- An atomic of `n` bytes at `p` has reached the line of `p`, and `w` is the line's way. -/
structure AtomicReach (s : State) (o : FA) (m1 m2 m3 : Mach) (p : Piece) (w : L2Way) (n uops : Nat) (acc : Acc) (u : LineUse) : Prop where
  ready : Ready s.m o.th (Shape.atomic 0 uops) m1
  aligned : ((s.m.th o.th).cur.gr o.a).toNat % n = 0
  piece : access o.th ((s.m.th o.th).cur.gr o.a) n acc m1 = .ok [p] m2
  cacheable : (p.xl.nc || m2.uncached p.pa) = false
  use : useBy u o.th (p.pa / 256) true .demand m2 = .ok w m3
  served : Served m3 o.th (Shape.atomic 0 uops) (s.m.th o.th).cur
  win : (m3.th o.th).win = []
  ep : (m3.th o.th).ep = none
  sbuf : (m3.th o.th).sbuf.length ≤ 64

section
variable {i : Instr} {s : State} {o : FA} {m1 m2 m3 m4 m5 : Mach} {p : Piece} {w : L2Way} {n uops word : Nat} {acc : Acc} {u : LineUse}
  {a b : Arch} {body : X Done} (h : AtomicReach s o m1 m2 m3 p w n uops acc u)
include h

theorem AtomicReach.addr (fn : Nat) : atAddr o fn n acc m1 = .ok p.pa m2 :=
  atAddr_ok (by rw [h.ready.keeps]; exact h.aligned) (by rw [h.ready.keeps]; exact h.piece) h.cacheable

theorem AtomicReach.line (hu : u = .l2 (256 * (p.pa / 256))) : useLine o.th (p.pa / 256) true .demand m2 = .ok w m3 := by
  subst hu
  exact h.use

theorem AtomicReach.leaves (he : exec i s = .next { s with m := s.m.runInsn o.th (Shape.atomic word uops) body })
    (hb : body m1 = .ok Done.plain m5) (hc : m3.SetsCur o.th b m5) :
    Leaves i s o.th m3 (after (s.m.th o.th).cur b 4) (after (s.m.th o.th).cur b 4) :=
  leaves_of_sync he (ready_word word h.ready) rfl rfl (served_word word h.served) h.win h.ep h.sbuf hb hc

/-- As `AtomicReach.leaves`, when the line has been written before the registers. -/
theorem AtomicReach.leaves_store {f : Line → Line} (he : exec i s = .next { s with m := s.m.runInsn o.th (Shape.atomic word uops) body })
    (hb : body m1 = .ok Done.plain m5) (hc : (m3.l2Store o.th (p.pa / 256) f).SetsCur o.th b m5) :
    Leaves i s o.th (m3.l2Store o.th (p.pa / 256) f) (after (s.m.th o.th).cur b 4) (after (s.m.th o.th).cur b 4) :=
  leaves_of_sync he (ready_word word h.ready) rfl rfl (Mach.l2Store_served (served_word word h.served))
    (by rw [Mach.l2Store_th]; exact h.win) (by rw [Mach.l2Store_th]; exact h.ep) (by rw [Mach.l2Store_th]; exact h.sbuf) hb hc

end

/-! ### The instructions -/

section
variable {s : State} {o : FA} {m1 m2 m3 : Mach} {p : Piece} {w : L2Way} {a : Arch} (hwf : o.wf = true) (hcur : (s.m.th o.th).cur = a)
include hwf hcur

theorem leaves_lres (h : AtomicReach s o m1 m2 m3 p w 8 1 .load (.load (a.gr o.a).toNat p.pa)) (hb : o.b = 0)
    (hst : ((m3.th o.th).stores.any fun e => overlaps e p.pa 8) = false) :
    let c := after a { a.setG o.t (BitVec.ofNat 64 (lineGet w.data (p.pa % 256) 8)) with resv := some (p.pa / 256) } 4
    Leaves (.lres o) s o.th m3 c c := by
  subst hcur
  have hnone : ((m3.th o.th).stores.filter fun e => overlaps e p.pa 8) = [] := by
    rw [List.filter_eq_nil_iff]
    intro e he
    exact List.any_eq_false.1 hst e he
  refine h.leaves (exec_run (execLres o s) rfl rfl hwf rfl) ?_ (m3.setsCur_putCur o.th _)
  rw [hb, BEq.rfl, X.spec_true, pure_bind, X.regs_bind, bind_ok _ _ _ _ _ (h.addr _), h.ready.keeps, bind_ok _ _ _ _ _ h.use, X.mach_bind, hnone]
  simp [h.served.keeps]

theorem leaves_scond (h : AtomicReach s o m1 m2 m3 p w 8 1 .rmw (.l2 (256 * (p.pa / 256)))) (hd : m2.storesDone o.th = true)
    (hres : a.resv = some (p.pa / 256)) :
    let c := after a { a.setG o.t 0 with resv := none } 4
    Leaves (.scond o) s o.th (m3.l2Store o.th (p.pa / 256) fun d => linePut d (p.pa % 256) 8 (a.gr o.b).toNat) c c := by
  subst hcur
  refine h.leaves_store (exec_run (execScond o s) rfl rfl hwf rfl) ?_ (Mach.setsCur_putCur _ o.th _)
  rw [bind_ok _ _ _ _ _ (h.addr _), bind_ok _ _ _ _ _ (atDrained_ok hd), bind_ok _ _ _ _ _ (h.line rfl)]
  simp only [X.regs_bind, h.served.keeps, if_pos hres, X.modify_bind, X.upd_bind, Mach.l2Store_th, X.pure_apply]

theorem leaves_scond_fails (h : AtomicReach s o m1 m2 m3 p w 8 1 .rmw (.l2 (256 * (p.pa / 256)))) (hd : m2.storesDone o.th = true)
    (hres : a.resv ≠ some (p.pa / 256)) :
    let c := after a { a.setG o.t 1 with resv := none } 4
    Leaves (.scond o) s o.th (m3.countScFail (o.th / 2)) c c := by
  subst hcur
  refine leaves_of_sync (exec_run (execScond o s) rfl rfl hwf rfl) (ready_word _ h.ready) rfl rfl
    (served_of_sameButRegs (m3.countScFail_regs _) (served_word _ h.served)) ?_ ?_ ?_ ?_ (Mach.setsCur_putCur _ o.th _)
  · rw [Mach.countScFail_th]; exact h.win
  · rw [Mach.countScFail_th]; exact h.ep
  · rw [Mach.countScFail_th]; exact h.sbuf
  rw [bind_ok _ _ _ _ _ (h.addr _), bind_ok _ _ _ _ _ (atDrained_ok hd), bind_ok _ _ _ _ _ (h.line rfl)]
  simp only [X.regs_bind, h.served.keeps, if_neg hres, X.modify_bind, X.upd_bind, X.pure_apply]
  rw [← h.served.keeps, ← Mach.countScFail_th m3 (o.th / 2)]
  rfl

/-- A compare and swap of `n` bytes: the value found, and the line written when it is the one that was expected. -/
theorem leaves_casInsn {i : Instr} {fn n : Nat} {ok : Bool} {old new : Arch → Nat} {put : Nat → Arch → Arch}
    (e : Host.Outcome State Fault Refusal) (hx : exec i s = e) (he : e = casInsn o fn n ok old new put s) (hok : ok = true)
    (h : AtomicReach s o m1 m2 m3 p w n (n / 8) .rmw (.l2 (256 * (p.pa / 256)))) (hd : m2.storesDone o.th = true) :
    let v := lineGet w.data (p.pa % 256) n
    (v = old a → Leaves i s o.th (m3.l2Store o.th (p.pa / 256) fun d => linePut d (p.pa % 256) n (new a))
      (after a ((put v a).setCc 0) 4) (after a ((put v a).setCc 0) 4)) ∧
    (v ≠ old a → Leaves i s o.th m3 (after a ((put v a).setCc 1) 4) (after a ((put v a).setCc 1) 4)) := by
  subst hcur
  have hrun := exec_run e hx he hwf rfl
  refine ⟨fun hv => h.leaves_store hrun ?_ (Mach.setsCur_putCur _ o.th _), fun hv => h.leaves hrun ?_ (Mach.setsCur_putCur _ o.th _)⟩
  · rw [hok, X.spec_true, pure_bind, bind_ok _ _ _ _ _ (h.addr _), bind_ok _ _ _ _ _ (atDrained_ok hd), bind_ok _ _ _ _ _ (h.line rfl)]
    simp only [X.regs_bind, h.served.keeps, if_pos hv, X.modify_bind, X.upd_bind, Mach.l2Store_th, X.pure_apply]
  · rw [hok, X.spec_true, pure_bind, bind_ok _ _ _ _ _ (h.addr _), bind_ok _ _ _ _ _ (atDrained_ok hd), bind_ok _ _ _ _ _ (h.line rfl)]
    simp only [X.regs_bind, h.served.keeps, if_neg hv, X.upd_bind, X.pure_apply]

end

/-- Settles O12: the four instructions on the line that the hypotheses reach. -/
theorem atomicResults : Obligations.AtomicResults := by
  unfold Obligations.AtomicResults
  intro s o m1 m2 m3 p w hwf a va line old done reach
  have hreach {n uops : Nat} {acc : Acc} {u : LineUse} (h : reach n uops acc u) : AtomicReach s o m1 m2 m3 p w n uops acc u := by
    obtain ⟨hready, halign, hpiece, hcache, huse, hserved, hwin, hep, hbuf⟩ := h
    exact ⟨hready, halign, hpiece, hcache, huse, hserved, hwin, hep, hbuf⟩
  refine ⟨fun hb h hst => leaves_lres hwf rfl (hreach h) hb hst, fun h hd => ⟨leaves_scond hwf rfl (hreach h) hd, fun hres => ?_⟩,
    fun h hd => leaves_casInsn hwf rfl (execCas8 o s) rfl rfl rfl (hreach h) hd,
    fun ht hb h hd => leaves_casInsn hwf rfl (execCas16 o s) rfl rfl (by simp [ht, hb]) (hreach h) hd⟩
  obtain ⟨t, he, hq, hcur, hcom, -, hrest⟩ := leaves_scond_fails hwf rfl (hreach h) hd hres
  have hregs : { t.m with thr := m3.thr, regs := m3.regs } = m3 :=
    (congrArg (fun x : Mach => { x with thr := m3.thr, regs := m3.regs }) hrest).trans
      (congrArg (fun x : Mach => { x with thr := m3.thr }) (m3.countScFail_regs (o.th / 2)))
  rw [← hregs]
  exact ⟨t, he, hq, hcur, hcom.trans hcur.symm, rfl, rfl, rfl⟩

end Sys2Proof.Machine
end

section
/-! Packed and zoned decimal instructions, and O13.  Each opens its operands, reads them as numbers, and stores one result. -/

namespace Sys2Proof.Machine

open Sys2Proof.Safety

/-! ### Form W -/

/-- The operands of a form W instruction are open: `n1` bytes of operand 1 in cacheable memory in pieces `p1`, `n2` bytes of
operand 2 in pieces `p2`, and after the accesses to them the machine `m4` lets the instruction complete. -/
structure OpensW (s : State) (o : FW) (m1 m2 m4 : Mach) (p1 p2 : List Piece) (n1 n2 : Nat) (wr : Bool) : Prop where
  ready : Ready s.m o.th (Shape.wform 0) m1
  operands : wOperands o n1 n2 wr m1 = .ok (p1, p2) m2
  plain : Plain m4 o.th p1
  served : Served m4 o.th (Shape.wform 0) (s.m.th o.th).cur

/-- What an open form W instruction leaves, by what its body does. -/
theorem OpensW.leavesStores {s : State} {o : FW} {m1 m2 m4 m5 : Mach} {p1 p2 : List Piece} {n1 n2 fn : Nat} {wr : Bool} {i : Instr} {body : X Done}
    {b : Arch} {st : List StoreE} (h : OpensW s o m1 m2 m4 p1 p2 n1 n2 wr) (e : Host.Outcome State Fault Refusal) (hx : exec i s = e)
    (he : e = wInsn o fn body s) (hwf : o.wf = true) (hb : body m1 = .ok ⟨.seq, st, none⟩ m5) (hc : m4.SetsCur o.th b m5) :
    LeavesStores i s o.th m4 (after (s.m.th o.th).cur b 8) (m4.th o.th).com st :=
  leavesStores_of_run (exec_run e hx he hwf rfl) (ready_word _ h.ready) rfl rfl (served_word _ h.served) hb hc

/-! ### Decimal results -/

theorem ccDec_eq_three {v : Int} {k : Nat} (h : ccDec v k = 3) : decOvf v k = true := by
  unfold ccDec at h
  split at h
  · assumption
  · split at h
    · cases h
    · split at h <;> cases h

/-- A result is stored with its cc; with the decimal-overflow trap off no value traps. -/
theorem decStore_ok {o : FW} {m : Mach} {p1 : List Piece} {n val k : Nat} {v : Int} {a : Arch} (hcur : (m.th o.th).cur = a)
    (hp : Plain m o.th p1) (ht : decOvf v k = true → a.pswF 30 30 = 0) :
    decStore o p1 n val (ccDec v k) m = .ok ⟨.seq, mkStores p1 n val false, none⟩ (m.putCur o.th (a.setCc (ccDec v k))) := by
  have hquiet : ¬ ((ccDec v k == 3 && a.pswF 30 30 == 1) = true) := by
    rw [Bool.and_eq_true, beq_iff_eq, beq_iff_eq]
    rintro ⟨hthree, hon⟩
    rw [ht (ccDec_eq_three hthree)] at hon
    cases hon
  rw [decStore, X.regs_bind, hcur, bind_ok _ _ _ _ _ (storeAll_of_plain hp n val false), X.upd_bind, hcur, if_neg hquiet, X.pure_apply]

/-- The lengths that R89 asks of a decimal operation. -/
def DecLensOk (o : FW) : Prop := 1 ≤ wL1 o ∧ wL1 o ≤ 16 ∧ 1 ≤ wL2 o ∧ wL2 o ≤ 16

theorem decLens_ok {o : FW} (fn : Nat) {shorter : Bool} (hl : DecLensOk o) (hs : (!shorter || decide (wL2 o < wL1 o)) = true) :
    decLens o fn shorter = pure () := by
  obtain ⟨h1, h2, h3, h4⟩ := hl
  rw [decLens, hs, decide_eq_true h1, decide_eq_true h2, decide_eq_true h3, decide_eq_true h4]
  rfl

section
variable {i : Instr} {s : State} {o : FW} {m1 m2 m3 m4 : Mach} {p1 p2 : List Piece} {x y : Nat} {V W : Int} {wr : Bool} {fn : Nat}

/-- Both operands are read, as the packed values `V` and `W`. -/
structure ReadsTwo (s : State) (o : FW) (m1 m2 m3 m4 : Mach) (p1 p2 : List Piece) (x y : Nat) (V W : Int) (wr : Bool) : Prop where
  opened : OpensW s o m1 m2 m4 p1 p2 (wL1 o) (wL2 o) wr
  first : loadAll o.th false p1 m2 = .ok x m3
  second : loadAll o.th false p2 m3 = .ok y m4
  value1 : unpack (toBytes (wL1 o) x) = some V
  value2 : unpack (toBytes (wL2 o) y) = some W

/-- Reading both packed operands, whatever then happens with their values. -/
theorem ReadsTwo.run {shorter : Bool} (h : ReadsTwo s o m1 m2 m3 m4 p1 p2 x y V W wr) (hl : DecLensOk o)
    (hs : (!shorter || decide (wL2 o < wL1 o)) = true) (k : List Piece → Int → Int → X Done) :
    (do
      decLens o fn shorter
      let r ← X.regs o.th
      let (p1, p2) ← wOperands o (wL1 o) (wL2 o) wr
      let a ← loadAll o.th false p1
      let b ← loadAll o.th false p2
      let x ← needDec (unpack (toBytes (wL1 o) a)) (eaM r o.b1 o.d1)
      let y ← needDec (unpack (toBytes (wL2 o) b)) (eaM r o.b2 o.d2)
      k p1 x y : X Done) m1 = k p1 V W m4 := by
  rw [decLens_ok fn hl hs, pure_bind, X.regs_bind, bind_ok _ _ _ _ _ h.opened.operands]
  dsimp only
  rw [bind_ok _ _ _ _ _ h.first, bind_ok _ _ _ _ _ h.second, h.value1, h.value2]
  rfl

/-- `dadd`, `dsub` and `dmul`. -/
theorem leavesStores_decArith {f : Int → Int → Int} {shorter : Bool} (e : Host.Outcome State Fault Refusal) (hx : exec i s = e)
    (he : e = decArith o fn shorter f s) (hwf : o.wf = true) (hl : DecLensOk o) (hs : (!shorter || decide (wL2 o < wL1 o)) = true)
    (h : ReadsTwo s o m1 m2 m3 m4 p1 p2 x y V W true)
    (ht : decOvf (f V W) (2 * (wL1 o) - 1) = true → (s.m.th o.th).cur.pswF 30 30 = 0) :
    LeavesStores i s o.th m4 (after (s.m.th o.th).cur ((s.m.th o.th).cur.setCc (ccDec (f V W) (2 * (wL1 o) - 1))) 8) (m4.th o.th).com
      (mkStores p1 (wL1 o) (packed (wL1 o) (f V W)) false) :=
  h.opened.leavesStores (decArith o fn shorter f s) (hx.trans he) rfl hwf
    ((h.run hl hs fun p1 x y => decStore o p1 (wL1 o) (packed (wL1 o) (f x y)) (ccDec (f x y) (2 * wL1 o - 1))).trans
      (decStore_ok h.opened.served.keeps h.opened.plain ht))
    (m4.setsCur_putCur o.th _)

theorem leavesStores_dcmp (hwf : o.wf = true) (hl : DecLensOk o) (h : ReadsTwo s o m1 m2 m3 m4 p1 p2 x y V W false) :
    LeavesStores (.dcmp o) s o.th m4 (after (s.m.th o.th).cur ((s.m.th o.th).cur.setCc (if V = W then 0 else if V < W then 1 else 2)) 8)
      (m4.th o.th).com [] := by
  refine h.opened.leavesStores (execDcmp o s) rfl rfl hwf ((h.run (shorter := false) hl rfl fun _ x y => do
    X.upd o.th (·.setCc (if x = y then 0 else if x < y then 1 else 2))
    pure Done.plain).trans ?_) (m4.setsCur_putCur o.th _)
  rw [X.upd_bind, h.opened.served.keeps]
  rfl

theorem leavesStores_ddiv (hwf : o.wf = true) (hl : DecLensOk o) (hs : wL2 o < wL1 o) (h : ReadsTwo s o m1 m2 m3 m4 p1 p2 x y V W true)
    (hW : W ≠ 0) (hfit : decOvf (V.tdiv W) (2 * (wL1 o - wL2 o) - 1) = false) :
    LeavesStores (.ddiv o) s o.th m4 (after (s.m.th o.th).cur (s.m.th o.th).cur 8) (m4.th o.th).com
      (mkStores p1 (wL1 o) (packed (wL1 o - wL2 o) (V.tdiv W) * 2 ^ (8 * (wL2 o)) + packed (wL2 o) (V.tmod W)) false) := by
  refine h.opened.leavesStores (execDdiv o s) rfl rfl hwf ((h.run (shorter := true) hl (decide_eq_true hs) fun p1 x y => do
    X.need (y != 0 && !decOvf (x.tdiv y) (2 * (wL1 o - wL2 o) - 1)) (.exc 0x020B 0 false none)
    let st ← storeAll o.th p1 (wL1 o) (packed (wL1 o - wL2 o) (x.tdiv y) * 2 ^ (8 * wL2 o) + packed (wL2 o) (x.tmod y)) false
    pure ⟨.seq, st, none⟩).trans ?_) (Mach.setsCur_refl h.opened.served.keeps)
  have hok : (W != 0 && !decOvf (V.tdiv W) (2 * (wL1 o - wL2 o) - 1)) = true := by
    rw [hfit, bne_iff_ne.2 hW]
    rfl
  rw [hok, X.need_true, pure_bind, bind_ok _ _ _ _ _ (storeAll_of_plain h.opened.plain _ _ false)]
  rfl

/-- `dset`, `zdec` and `dzon`, which only read operand 2. -/
theorem leavesStores_decFrom {rd : List Nat → Option Int} {put : Nat → Int → Nat} {k : Nat} (e : Host.Outcome State Fault Refusal)
    (hx : exec i s = e) (he : e = decFrom o fn rd put k s) (hwf : o.wf = true) (hl : DecLensOk o)
    (h : OpensW s o m1 m2 m4 p1 p2 (wL1 o) (wL2 o) true) (hload : loadAll o.th false p2 m2 = .ok y m4)
    (hy : rd (toBytes (wL2 o) y) = some W) (ht : decOvf W k = true → (s.m.th o.th).cur.pswF 30 30 = 0) :
    LeavesStores i s o.th m4 (after (s.m.th o.th).cur ((s.m.th o.th).cur.setCc (ccDec W k)) 8) (m4.th o.th).com
      (mkStores p1 (wL1 o) (put (wL1 o) W) false) := by
  refine h.leavesStores (decFrom o fn rd put k s) (hx.trans he) rfl hwf ?_ (m4.setsCur_putCur o.th _)
  rw [decLens_ok fn (shorter := false) hl rfl, pure_bind, X.regs_bind, bind_ok _ _ _ _ _ h.operands]
  dsimp only
  rw [bind_ok _ _ _ _ _ hload, hy]
  exact decStore_ok h.served.keeps h.plain ht

end

/-- Settles O13, by the three shapes of body, `dcmp` and `ddiv`. -/
theorem decimalResults : Obligations.DecimalResults := by
  unfold Obligations.DecimalResults
  intro s o m1 m2 m3 m4 p1 p2 x y V W hwf a L1 L2 lens opens both one trapOff stores
  have hopen {wr : Bool} (h : opens wr) : OpensW s o m1 m2 m4 p1 p2 L1 L2 wr := by
    obtain ⟨hready, hoperands, hplain, hserved⟩ := h
    exact ⟨hready, hoperands, hplain, hserved⟩
  have htwo {wr : Bool} (h : both wr) : ReadsTwo s o m1 m2 m3 m4 p1 p2 x y V W wr := by
    obtain ⟨ho, hfirst, hsecond, hv1, hv2⟩ := h
    exact ⟨hopen ho, hfirst, hsecond, hv1, hv2⟩
  refine ⟨fun hl h ht => leavesStores_decArith (f := (· + ·)) (execDadd o s) rfl rfl hwf hl rfl (htwo h) ht,
    fun hl h ht => leavesStores_decArith (f := (· - ·)) (execDsub o s) rfl rfl hwf hl rfl (htwo h) ht,
    fun hl hs h ht => leavesStores_decArith (f := (· * ·)) (execDmul o s) rfl rfl hwf hl (decide_eq_true hs) (htwo h) ht,
    fun hl h => leavesStores_dcmp hwf hl (htwo h), fun hl hs h hW hfit => leavesStores_ddiv hwf hl hs (htwo h) hW hfit,
    fun hl ⟨ho, hload, hy⟩ ht => ?_, fun hl ⟨ho, hload, hy⟩ ht => ?_, fun hl ⟨ho, hload, hy⟩ ht => ?_⟩
  · exact leavesStores_decFrom (put := packed) (execDset o s) rfl rfl hwf hl (hopen ho) hload hy ht
  · exact leavesStores_decFrom (put := packed) (execZdec o s) rfl rfl hwf hl (hopen ho) hload hy ht
  · exact leavesStores_decFrom (put := zoned) (execDzon o s) rfl rfl hwf hl (hopen ho) hload hy ht

end Sys2Proof.Machine
end

section
/-! Byte strings, and O14: the form W instructions on up to 1023 bytes, and one unit of the interruptible ones. -/

namespace Sys2Proof.Machine

open Sys2Proof.Safety

/-! ### Form W -/

/-- How a byte-string operation ends once it has read its operands: it stores `v`, if anything, and sets `cc`, if it does. -/
def byteStrEnd (o : FW) (p1 : List Piece) (v cc : Option Nat) : X Done := do
  let st ← match v with
    | some v => storeAll o.th p1 o.x v false
    | none => pure []
  match cc with
  | some c => X.upd o.th (·.setCc c)
  | none => pure ()
  pure ⟨.seq, st, none⟩

theorem byteStrEnd_ok {o : FW} {m : Mach} {p1 : List Piece} (hp : Plain m o.th p1) (v cc : Option Nat) :
    ∃ m', byteStrEnd o p1 v cc m = .ok ⟨.seq, v.elim [] fun v => mkStores p1 o.x v false, none⟩ m' ∧
      m.SetsCur o.th (cc.elim (m.th o.th).cur (m.th o.th).cur.setCc) m' := by
  cases cc with
  | none =>
    refine ⟨m, ?_, Mach.setsCur_refl rfl⟩
    cases v with
    | none => rfl
    | some v => exact bind_ok _ _ _ _ _ (storeAll_of_plain hp o.x v false)
  | some c =>
    refine ⟨m.putCur o.th ((m.th o.th).cur.setCc c), ?_, m.setsCur_putCur o.th _⟩
    cases v with
    | none => rfl
    | some v => exact bind_ok _ _ _ _ _ (storeAll_of_plain hp o.x v false)

/-- A byte-string operation: `v` is what it stores of operand 1, and `cc` the condition code it sets, if it does. -/
theorem leavesStores_byteStr {i : Instr} {s : State} {o : FW} {m1 m2 m3 m4 : Mach} {p1 p2 : List Piece} {n2 fn A B : Nat} {wr rd1 : Bool}
    {f : Nat → Nat → Option Nat × Option Nat} {v cc : Option Nat} (e : Host.Outcome State Fault Refusal) (hx : exec i s = e)
    (he : e = byteStr o fn n2 wr rd1 f s) (hwf : o.wf = true) (hn : o.x ≠ 0) (h : OpensW s o m1 m2 m4 p1 p2 o.x n2 wr)
    (hA : (if rd1 then loadAll o.th false p1 else pure 0) m2 = .ok A m3) (hB : loadAll o.th false p2 m3 = .ok B m4) (hf : f A B = (v, cc)) :
    LeavesStores i s o.th m4 (after (s.m.th o.th).cur (cc.elim (s.m.th o.th).cur (s.m.th o.th).cur.setCc) 8) (m4.th o.th).com
      (v.elim [] fun v => mkStores p1 o.x v false) := by
  obtain ⟨m5, hend, hc⟩ := byteStrEnd_ok (o := o) h.plain v cc
  rw [h.served.keeps] at hc
  refine h.leavesStores (byteStr o fn n2 wr rd1 f s) (hx.trans he) rfl hwf ?_ hc
  rw [bne_iff_ne.2 hn, X.spec_true, pure_bind, bind_ok _ _ _ _ _ h.operands, ← hend]
  dsimp only
  cases rd1 with
  | true =>
    rw [if_pos rfl] at hA
    rw [if_pos rfl, bind_ok _ _ _ _ _ hA, bind_ok _ _ _ _ _ hB, hf]
    rfl
  | false =>
    cases hA
    rw [if_neg Bool.false_ne_true, pure_bind, bind_ok _ _ _ _ _ hB, hf]
    rfl

/-! ### The interruptible forms -/

/-- Three different registers, none of them g0 (R90). -/
def StrRegsOk (q : FA) : Prop := q.t ≠ 0 ∧ q.a ≠ 0 ∧ q.b ≠ 0 ∧ q.t ≠ q.a ∧ q.t ≠ q.b ∧ q.a ≠ q.b

theorem strCheck_ok {q : FA} (fn : Nat) {ok : Bool} (h : StrRegsOk q) (hok : ok = true) : strCheck q fn ok = pure () := by
  obtain ⟨ht, ha, hb, hta, htb, hab⟩ := h
  rw [strCheck, hok, bne_iff_ne.2 ht, bne_iff_ne.2 ha, bne_iff_ne.2 hb, bne_iff_ne.2 hta, bne_iff_ne.2 htb, bne_iff_ne.2 hab]
  rfl

/-- The operands of one unit are open: `u` bytes of operand 1 in pieces `p1` and `n2` bytes of operand 2 in pieces `p2`. -/
structure OpensStr (s : State) (q : FA) (m1 m2 m3 m4 : Mach) (p1 p2 : List Piece) (acc : Acc) (u n2 : Nat) : Prop where
  regs : StrRegsOk q
  ready : Ready s.m q.th (Shape.string 0) m1
  piece1 : strAccess q.th ((s.m.th q.th).cur.gr q.t) u acc m1 = .ok p1 m2
  piece2 : strAccess q.th ((s.m.th q.th).cur.gr q.a) n2 .load m2 = .ok p2 m3
  served : Served m4 q.th (Shape.string 0) (s.m.th q.th).cur

section
variable {s : State} {q : FA} {m1 m2 m3 mx m4 : Mach} {p1 p2 : List Piece} {A B l1 l2 n : Nat} {a : Arch}

theorem OpensStr.leavesStores {i : Instr} {fn u n2 : Nat} {acc : Acc} {body : X Done} {b : Arch} {st : List StoreE}
    (h : OpensStr s q m1 m2 m3 m4 p1 p2 acc u n2) (e : Host.Outcome State Fault Refusal) (hx : exec i s = e)
    (he : e = strInsn q fn body s) (hwf : q.wf = true) (hb : body m1 = .ok ⟨.seq, st, none⟩ (m4.putCur q.th b)) :
    LeavesStores i s q.th m4 (after (s.m.th q.th).cur b 4) (m4.th q.th).com st :=
  leavesStores_of_run (exec_run e hx he hwf rfl) (ready_word _ h.ready) rfl rfl (served_word _ h.served) hb (m4.setsCur_putCur q.th b)

section
variable (hwf : q.wf = true) (hcur : (s.m.th q.th).cur = a) (hl1 : bits (a.gr q.b).toNat 63 32 = l1) (hl2 : bits (a.gr q.b).toNat 31 0 = l2)
include hwf hcur hl1 hl2

/-- `lcpy` of at most one unit, with no destructive overlap. -/
theorem leavesStores_lcpy (h : OpensStr s q m1 m2 m3 m4 p1 p2 .rmw (min l1 l2) (min l1 l2)) (hn : min l1 l2 ≤ 256)
    (hov : ¬ ((a.gr q.a).toNat < (a.gr q.t).toNat ∧ (a.gr q.t).toNat < (a.gr q.a).toNat + min l1 l2))
    (hB : loadAll q.th false p2 m3 = .ok B m4) (hp : Plain m4 q.th p1) :
    LeavesStores (.lcpy q) s q.th m4
      (after a ((strAdvance q true (min l1 l2) a).setCc (if l1 = l2 then 0 else if l1 < l2 then 1 else 2)) 4) (m4.th q.th).com
      (mkStores p1 (min l1 l2) B false) := by
  subst hcur
  have hu : min 256 (min l1 l2) = min l1 l2 := Nat.min_eq_right hn
  refine h.leavesStores (execLcpy q s) rfl rfl hwf ?_
  rw [strCheck_ok _ h.regs rfl, pure_bind, X.regs_bind, h.ready.keeps]
  simp only [hl1, hl2, hu, if_neg hov, if_true]
  rw [bind_ok _ _ _ _ _ h.piece1, bind_ok _ _ _ _ _ h.piece2, bind_ok _ _ _ _ _ hB, bind_ok _ _ _ _ _ (storeAll_of_plain hp _ B false),
    X.upd_bind, X.upd_bind, Mach.putCur_putCur, Mach.th_putCur, h.served.keeps, X.pure_apply]

/-- `lcmp` of one unit that is all there is, when its bytes are equal. -/
theorem leavesStores_lcmp_equal (h : OpensStr s q m1 m2 m3 m4 p1 p2 .load (min l1 l2) (min l1 l2)) (hn : min l1 l2 ≤ 256)
    (hA : loadAll q.th false p1 m3 = .ok A mx) (hB : loadAll q.th false p2 mx = .ok B m4)
    (heq : firstDiff (toBytes (min l1 l2) A) (toBytes (min l1 l2) B) = none) :
    LeavesStores (.lcmp q) s q.th m4
      (after a ((strAdvance q true (min l1 l2) a).setCc (if l1 = l2 then 0 else if l1 < l2 then 1 else 2)) 4) (m4.th q.th).com [] := by
  subst hcur
  have hu : min 256 (min l1 l2) = min l1 l2 := Nat.min_eq_right hn
  refine h.leavesStores (execLcmp q s) rfl rfl hwf ?_
  rw [strCheck_ok _ h.regs rfl, pure_bind, X.regs_bind, h.ready.keeps]
  simp only [hl1, hl2, hu, if_true]
  rw [bind_ok _ _ _ _ _ h.piece1, bind_ok _ _ _ _ _ h.piece2, bind_ok _ _ _ _ _ hA, bind_ok _ _ _ _ _ hB]
  simp only [heq]
  rw [X.upd_bind, X.upd_bind, Mach.putCur_putCur, Mach.th_putCur, h.served.keeps]
  rfl

/-- `lcmp` of one unit, up to its first difference. -/
theorem leavesStores_lcmp_differ {j : Nat} (h : OpensStr s q m1 m2 m3 m4 p1 p2 .load (min l1 l2) (min l1 l2)) (hn : min l1 l2 ≤ 256)
    (hA : loadAll q.th false p1 m3 = .ok A mx) (hB : loadAll q.th false p2 mx = .ok B m4)
    (hj : firstDiff (toBytes (min l1 l2) A) (toBytes (min l1 l2) B) = some j) :
    LeavesStores (.lcmp q) s q.th m4 (after a ((strAdvance q true j a).setCc
      (if (toBytes (min l1 l2) A).getD j 0 < (toBytes (min l1 l2) B).getD j 0 then 1 else 2)) 4) (m4.th q.th).com [] := by
  subst hcur
  have hu : min 256 (min l1 l2) = min l1 l2 := Nat.min_eq_right hn
  refine h.leavesStores (execLcmp q s) rfl rfl hwf ?_
  rw [strCheck_ok _ h.regs rfl, pure_bind, X.regs_bind, h.ready.keeps]
  simp only [hl1, hl2, hu]
  rw [bind_ok _ _ _ _ _ h.piece1, bind_ok _ _ _ _ _ h.piece2, bind_ok _ _ _ _ _ hA, bind_ok _ _ _ _ _ hB]
  simp only [hj]
  rw [X.upd_bind, h.served.keeps]
  rfl

/-- `lmap` of at most one unit. -/
theorem leavesStores_lmap (hzero : l2 = 0) (hpos : 0 < l1) (hn : l1 ≤ 256) (h : OpensStr s q m1 m2 m3 m4 p1 p2 .rmw l1 256)
    (hA : loadAll q.th false p1 m3 = .ok A mx) (hB : loadAll q.th false p2 mx = .ok B m4) (hp : Plain m4 q.th p1) :
    LeavesStores (.lmap q) s q.th m4 (after a (strAdvance q false l1 a) 4) (m4.th q.th).com (mkStores p1 l1 (mapBytes l1 A B) false) := by
  subst hcur
  have hu : min 256 l1 = l1 := Nat.min_eq_right hn
  have hne : ¬ l1 = 0 := by omega
  refine h.leavesStores (execLmap q s) rfl rfl hwf ?_
  rw [X.regs_bind, h.ready.keeps, hl2, strCheck_ok _ h.regs (beq_iff_eq.2 hzero), pure_bind]
  simp only [hl1, hu, if_neg hne, if_true]
  rw [bind_ok _ _ _ _ _ h.piece1, bind_ok _ _ _ _ _ h.piece2, bind_ok _ _ _ _ _ hA, bind_ok _ _ _ _ _ hB,
    bind_ok _ _ _ _ _ (storeAll_of_plain hp _ _ false), X.upd_bind, h.served.keeps]
  rfl

end

end

/-- Settles O14: one lemma for the form W instructions, and one for each outcome of the interruptible ones. -/
theorem byteStringResults : Obligations.ByteStringResults := by
  unfold Obligations.ByteStringResults
  intro s o q m1 m2 m3 m4 p1 p2 A B hwf hqwf
  constructor
  · intro a n opens two one leaves
    have hopen {n2 : Nat} {wr : Bool} (h : opens n2 wr) : o.x ≠ 0 ∧ OpensW s o m1 m2 m4 p1 p2 o.x n2 wr := by
      obtain ⟨hn, hready, hoperands, hplain, hserved⟩ := h
      exact ⟨hn, hready, hoperands, hplain, hserved⟩
    refine ⟨fun ⟨ho, hB⟩ => ?_, fun ⟨ho, hA, hB⟩ => ?_, fun ⟨ho, hA, hB⟩ => ?_, fun ⟨ho, hA, hB⟩ => ?_, fun ⟨ho, hB⟩ => ?_⟩
    all_goals obtain ⟨hn, ho⟩ := hopen ho
    · exact leavesStores_byteStr (A := 0) (v := some B) (cc := none) (execBcpy o s) rfl rfl hwf hn ho rfl hB rfl
    · exact leavesStores_byteStr (v := none) (cc := some _) (execBcmp o s) rfl rfl hwf hn ho hA hB rfl
    · exact leavesStores_byteStr (v := some (mapBytes o.x A B)) (cc := none) (execBmap o s) rfl rfl hwf hn ho hA hB rfl
    · exact leavesStores_byteStr (v := some (A ^^^ B)) (cc := some _) (execBxor o s) rfl rfl hwf hn ho hA hB rfl
    · exact leavesStores_byteStr (A := 0) (v := some _) (cc := none) (execBfil o s) rfl rfl hwf hn ho rfl hB rfl
  · intro a l1 l2 sh regsOk opens leaves
    have hopen {acc : Acc} {u n2 : Nat} (h : opens acc u n2) (hv : Served m4 q.th sh a) : OpensStr s q m1 m2 m3 m4 p1 p2 acc u n2 := by
      obtain ⟨hregs, hready, hpiece1, hpiece2⟩ := h
      exact ⟨hregs, hready, hpiece1, hpiece2, hv⟩
    refine ⟨fun h hn hov hB hp hv => leavesStores_lcpy hqwf rfl rfl rfl (hopen h hv) hn hov hB hp, fun h hn ⟨mx, hA, hB⟩ hv => ?_,
      fun hzero hpos hn h ⟨mx, hA, hB⟩ hp hv => ?_⟩
    · exact ⟨fun heq => leavesStores_lcmp_equal hqwf rfl rfl rfl (hopen h hv) hn hA hB heq,
        fun j hj => leavesStores_lcmp_differ hqwf rfl rfl rfl (hopen h hv) hn hA hB hj⟩
    · exact leavesStores_lmap hqwf rfl rfl rfl hzero hpos hn (hopen h hv) hA hB hp

end Sys2Proof.Machine
end

section
/-! Interruptions taken between instructions, and O21: external ones, machine checks, and the end of a wait. -/

namespace Sys2Proof.Machine

open Sys2Proof.Safety

theorem Mach.toBoundary_of_empty {m : Mach} {th : Nat} (h : (m.th th).win = []) : m.toBoundary th = some m := by
  unfold Mach.toBoundary
  rw [h]

/-! ### External interruptions -/

/-- Taking the mark away leaves the registers of the thread and its enclave. -/
theorem Mach.clearExt_keeps (m : Mach) (th code : Nat) (phys : Bool) :
    ((m.clearExt th code phys).th th).cur = (m.th th).cur ∧ ((m.clearExt th code phys).th th).encl = (m.th th).encl := by
  unfold Mach.clearExt
  cases phys with
  | true =>
    rw [if_pos rfl, Mach.th_onTh_same]
    exact ⟨rfl, rfl⟩
  | false =>
    rw [if_neg Bool.false_ne_true]
    split <;> exact ⟨rfl, rfl⟩

/-- What can be pending, and the level that takes it: 2 for the physical thread, 1 for a virtual processor. -/
theorem Mach.pendingExt_cases {m : Mach} {th code : Nat} {phys : Bool} (h : m.pendingExt th = some (code, phys)) :
    (code = 0x0901 ∨ code = 0x0902) ∧ classOf code phys = if phys then 2 else 1 := by
  unfold Mach.pendingExt at h
  dsimp only at h
  split at h
  · cases h
    exact ⟨.inl rfl, rfl⟩
  · split at h
    · cases h
    · split at h
      · cases h
        exact ⟨.inl rfl, rfl⟩
      · split at h
        · cases h
          exact ⟨.inr rfl, rfl⟩
        · cases h

theorem exec_externalInterruption {s : State} {th code : Nat} {phys : Bool} (hth : th < 96) (hi : s.m.interruptible th = true)
    (hwin : (s.m.th th).win = []) (h : s.m.pendingExt th = some (code, phys)) :
    exec (.externalInterruption th) s = .next { s with
      m := (s.m.clearExt th code phys).interrupt th ⟨code, 0, (s.m.th th).cur.ia, 0, false, true, phys, none⟩ } := by
  show execExternalInterruption th s = _
  unfold execExternalInterruption
  rw [ans_ok _ _ _ (decide_eq_true hth)]
  simp only [hi, Mach.toBoundary_of_empty hwin, h, Bool.not_true, Bool.false_eq_true, if_false]

theorem enters_external {s : State} {th code : Nat} {phys : Bool} (hth : th < 96) (hi : s.m.interruptible th = true) (hcl : Clear s.m th)
    (h : s.m.pendingExt th = some (code, phys)) :
    Enters (.externalInterruption th) s th (s.m.clearExt th code phys) (s.m.th th).cur (max (if phys then 2 else 1) (s.m.th th).cur.pl) code 0
      (s.m.th th).cur.ia := by
  obtain ⟨hwin, -, hencl, -⟩ := hcl
  obtain ⟨hcode, hclass⟩ := Mach.pendingExt_cases h
  have hrange : code < 2 ^ 16 ∧ code ≠ 1 := by omega
  obtain ⟨hcur, hencl'⟩ := s.m.clearExt_keeps th code phys
  obtain ⟨hent, hcom, hwin', -, ho, hrest⟩ := interrupt_entered (s.m.clearExt th code phys) th
    ⟨code, 0, (s.m.th th).cur.ia, 0, false, true, phys, none⟩ (hencl'.trans hencl) rfl hrange.1 hrange.2 (Nat.zero_lt_succ 3)
  rw [hcur, hclass] at hent
  exact ⟨_, exec_externalInterruption hth hi hwin h, rfl, hent, hcom, hwin', ho, hrest⟩

/-! ### Machine checks -/

/-- Another event code, and machine checks masked, change nothing else that R104 names. -/
theorem entered_mask {b c : Arch} {L code : Nat} {eaddr sia ec : W64} {t : Tab W64} (h : Entered b c L 0 eaddr sia)
    (h2 : bits ec.toNat 15 0 = code) (h3 : bits ec.toNat 30 29 = b.pl) (hv : code / 256 = 0) :
    Entered b { c.setPsw 7 7 1 with ecode := tset t L ec } L code eaddr sia := by
  have hpsw {hi lo : Nat} (hlt : hi < 64) (hd : hi < 7 ∨ 7 < lo) :
      Arch.pswF { c.setPsw 7 7 1 with ecode := tset t L ec } hi lo = c.pswF hi lo := pswF_setPsw_ne c 7 7 1 hi lo (by decide) hlt hd
  obtain ⟨hcc, htraps⟩ := h.kept
  exact {
    spsw := h.spsw
    sia := h.sia
    event := by rw [tget_tset_same]; exact h2
    fromLevel := by rw [tget_tset_same]; exact h3
    eaddr := h.eaddr
    level := (hpsw (by decide) (by decide)).trans h.level
    noEncl := (hpsw (by decide) (by decide)).trans h.noEncl
    tr := (hpsw (by decide) (by decide)).trans h.tr
    off := (hpsw (by decide) (by decide)).trans h.off
    loops := (hpsw (by decide) (by decide)).trans h.loops
    ia := by rw [hv]; exact h.ia
    resv := h.resv
    kept := ⟨(hpsw (by decide) (by decide)).trans hcc, (hpsw (by decide) (by decide)).trans htraps⟩
    regs := h.regs }

/-- The entry of a machine check (R104), from the entry that differs from it in code and mask only. -/
theorem enter_entered_machineCheck (b : Arch) (eaddr : Nat) (sia ec : W64) (h2 : bits ec.toNat 15 0 = 1) (h3 : bits ec.toNat 30 29 = b.pl) :
    Entered b (b.enter 3 1 eaddr sia ec) 3 1 (BitVec.ofNat 64 eaddr) sia := by
  obtain ⟨hcode, hpl⟩ := ecodeWord_fields 0 b.pl 0 0 0 0 0 0 (by decide) (pl_lt b) (by decide) (by decide) (by decide) (by decide) (by decide)
    (by decide)
  exact entered_mask (enter_entered b 3 0 eaddr sia _ (by decide) (by decide) hcode hpl) h2 h3 (by decide)

section
variable {m : Mach} {th src ilen : Nat} {prec : Bool} (hdbg : (m.th th).dbg = 0)
include hdbg

theorem machineCheck_of_unmasked (hoff : (m.th th).cur.pswF 7 7 = 0) :
    m.machineCheck th src prec ilen = m.interrupt th ⟨0x0001, src, (m.th th).cur.ia, ilen, false, prec, false, none⟩ := by
  have hstop : ¬ ((m.th th).dbg = 1 ∨ (m.th th).dbg = 2) := by omega
  simp [Mach.machineCheck, hstop, hoff]

theorem machineCheck_of_masked (hon : (m.th th).cur.pswF 7 7 = 1) :
    m.machineCheck th src prec ilen = (m.onTh th fun t => { t.discard with run := .stopped }).raiseCore (th / 2) 27 0 (some th) := by
  have hstop : ¬ ((m.th th).dbg = 1 ∨ (m.th th).dbg = 2) := by omega
  simp [Mach.machineCheck, hstop, hon]

end

theorem Mach.th_raiseCore (m : Mach) (c k err : Nat) (t : Option Nat) (u : Nat) : (m.raiseCore c k err t).th u = m.th u := rfl

/-- What taking a machine check leaves, outside an enclave. -/
theorem interrupt_machineCheck_entered (m : Mach) (th src ilen : Nat) (sia : W64) (prec : Bool) (he : (m.th th).encl = none) (hl : ilen < 4) :
    let m' := m.interrupt th ⟨0x0001, src, sia, ilen, false, prec, false, none⟩
    Entered (m.th th).cur (m'.th th).cur 3 0x0001 (BitVec.ofNat 64 src) sia ∧ (m'.th th).com = (m'.th th).cur ∧ (m'.th th).win = [] ∧
      (∀ u, u ≠ th → m'.th u = m.th u) ∧ { m' with thr := m.thr } = m := by
  intro m'
  have hprec : b2n prec < 2 := by cases prec <;> decide
  obtain ⟨hcode, hpl⟩ := ecodeWord_fields 1 (m.th th).cur.pl 0 0 ilen 0 0 (b2n prec) (by decide) (pl_lt _) (by decide) (by decide) hl
    (by decide) (by decide) hprec
  have hmax : max (classOf 1 false) (m.th th).cur.pl = 3 := Nat.max_eq_left (Nat.le_of_lt_succ (pl_lt _))
  have hm' : m' = _ := interrupt_plain m th ⟨0x0001, src, sia, ilen, false, prec, false, none⟩ he rfl
  rw [hm']
  refine ⟨?_, by rw [Mach.th_onTh_same], by rw [Mach.th_onTh_same], fun u hu => Mach.th_onTh_ne _ _ _ _ hu, rfl⟩
  rw [Mach.th_onTh_same]
  dsimp only
  rw [hmax]
  exact enter_entered_machineCheck _ _ _ _ hcode hpl

theorem exec_machineCheck {s : State} {th src : Nat} {prec : Bool} (hth : th < 96) (hi : s.m.interruptible th = true)
    (hwin : (s.m.th th).win = []) (hdbg : (s.m.th th).dbg = 0) (h : (s.m.th th).pendMck = some (src, prec)) :
    exec (.machineCheck th) s = .next { s with m := (s.m.onTh th fun t => { t with pendMck := none }).machineCheck th src prec } := by
  show execMachineCheck th s = _
  unfold execMachineCheck
  rw [ans_ok _ _ _ (decide_eq_true hth)]
  simp [hi, Mach.toBoundary_of_empty hwin, h, hdbg]

section
variable {s : State} {th src : Nat} {prec : Bool} (hth : th < 96) (hi : s.m.interruptible th = true) (hcl : Clear s.m th)
  (hdbg : (s.m.th th).dbg = 0) (h : (s.m.th th).pendMck = some (src, prec))
include hth hi hcl hdbg h

/-- With no machine check active, a pending one enters level F with its source as event address. -/
theorem enters_machineCheck (hoff : (s.m.th th).cur.pswF 7 7 = 0) :
    Enters (.machineCheck th) s th s.m (s.m.th th).cur 3 0x0001 (BitVec.ofNat 64 src) (s.m.th th).cur.ia := by
  obtain ⟨hwin, -, hencl, -⟩ := hcl
  have he := exec_machineCheck hth hi hwin hdbg h
  have hth' := Mach.th_onTh_same s.m th fun t => { t with pendMck := none }
  rw [machineCheck_of_unmasked (by rw [hth']; exact hdbg) (by rw [hth']; exact hoff)] at he
  obtain ⟨hent, hcom, hwin', ho, hrest⟩ := interrupt_machineCheck_entered (s.m.onTh th fun t => { t with pendMck := none }) th src 0
    (s.m.th th).cur.ia prec (by rw [hth']; exact hencl) (by decide)
  rw [hth'] at he hent
  exact ⟨_, he, rfl, hent, hcom, hwin', fun u hu => (ho u hu).trans (Mach.th_onTh_ne _ _ _ _ hu),
    congrArg (fun x : Mach => { x with thr := s.m.thr }) hrest⟩

/-- With a machine check active, the thread stops and raises the source of R112. -/
theorem machineCheck_stops (hon : (s.m.th th).cur.pswF 7 7 = 1) : ∃ u, exec (.machineCheck th) s = .next u ∧ u.pending = s.pending ∧
    (u.m.th th).run = .stopped ∧ (u.m.th th).pendMck = none ∧ { u.m with thr := s.m.thr } = s.m.raiseCore (th / 2) 27 0 (some th) := by
  obtain ⟨hwin, -, -, -⟩ := hcl
  have he := exec_machineCheck hth hi hwin hdbg h
  have hth' := Mach.th_onTh_same s.m th fun t => { t with pendMck := none }
  rw [machineCheck_of_masked (by rw [hth']; exact hdbg) (by rw [hth']; exact hon)] at he
  refine ⟨_, he, rfl, ?_, ?_, rfl⟩
  · rw [Mach.th_raiseCore, Mach.th_onTh_same]
  · rw [Mach.th_raiseCore, Mach.th_onTh_same, hth']
    rfl

end

/-! ### The end of a wait -/

theorem leaves_waitWake {s : State} {th : Nat} {m1 : Mach} (hth : th < 96) (hf : s.m.frozen = false) (hwait : (s.m.th th).wait = .waitInsn)
    (hdbg : (s.m.th th).dbg = 0) (hdel : s.m.deliverable th = true) (hpl : 1 ≤ (s.m.th th).cur.pl) (hon : (s.m.th th).cur.pswF 5 5 = 1)
    (hr : Ready ((s.m.onTh th fun t => { t with wait := .none }).vpState th 3) th (Shape.alone_ 0) m1) (hdel1 : m1.deliverable th = true) :
    Leaves (.waitWake th) s th m1 (after (s.m.th th).cur (s.m.th th).cur 4) (m1.th th).com := by
  have hcur0 : (((s.m.onTh th fun t => { t with wait := .none }).vpState th 3).th th).cur = (s.m.th th).cur := by
    rw [Mach.th_vpState, Mach.th_onTh_same]
  have hcur1 : (m1.th th).cur = (s.m.th th).cur := hr.keeps.trans hcur0
  have hwake : s.m.waitWake th = ((s.m.onTh th fun t => { t with wait := .none }).vpState th 3).runInsn th
      (Shape.alone_ (sysWord ⟨th, 0, 0, 0⟩ 0x0A)) (waitBody ⟨th, 0, 0, 0⟩) := by
    unfold Mach.waitWake
    rw [hf, hwait, hdel, hdbg]
    rfl
  have he := exec_run (i := .waitWake th) (execWaitWake th s) rfl rfl (decide_eq_true hth) hwake
  have hrun := waitBody_run (o := ⟨th, 0, 0, 0⟩) (m1 := m1) rfl rfl rfl (by rw [hcur1]; exact hpl)
  rw [hcur1, if_neg (by rw [hon]; decide), if_pos hdel1] at hrun
  have h := leaves_of_run he (ready_word _ hr) rfl rfl (served_word _ (served_of_ready hr)) hrun (Mach.setsCur_refl hcur1)
  rwa [hcur0] at h

/-- Settles O21: the external interruption, the machine check with none and with one active, and the wake. -/
theorem interruptionsTaken : Obligations.InterruptionsTaken := by
  unfold Obligations.InterruptionsTaken
  intro s th hth
  refine ⟨fun hi hcl hdbg => ⟨fun code phys h => enters_external hth hi hcl h, fun src prec h _ hoff => enters_machineCheck hth hi hcl hdbg h ?_,
    fun src prec h hon => machineCheck_stops hth hi hcl hdbg h ?_⟩, fun m1 hf hwait hdbg hdel hpl hon hr hdel1 =>
    leaves_waitWake hth hf hwait hdbg hdel hpl ?_ hr hdel1⟩
  · simpa [Arch.pswF, bits, Nat.shiftRight_eq_div_pow] using hoff
  · simpa [Arch.pswF, bits, Nat.shiftRight_eq_div_pow] using hon
  · simpa [Arch.pswF, bits, Nat.shiftRight_eq_div_pow] using hon

end Sys2Proof.Machine
end

section
/-! The integer instructions of op 0x01: O2, O52 and O53.  Each runs one of five bodies; an overflow that `psw.iom` asks for is a
trap taken after the result is written, which `EndsWithOverflow` states with the quiet end of the same instruction. -/

namespace Sys2Proof.Machine

open Sys2Proof.Safety

/-! ### The end of an instruction that can overflow (R120) -/

/-- The registers play no part in whether a thread has nothing in flight. -/
theorem Mach.SetsCur.clear {m m' : Mach} {th : Nat} {b : Arch} (h : m.SetsCur th b m') (hcl : Clear m th) : Clear m' th := by
  unfold Clear
  rw [h.own]
  exact hcl

/-- An interruption taken after a body that set registers only changes nothing else of the machine before that body. -/
theorem Mach.SetsCur.enters {i : Instr} {s : State} {th L code : Nat} {m m' : Mach} {b c : Arch} {eaddr sia : W64}
    (h : m.SetsCur th b m') (he : Enters i s th m' c L code eaddr sia) : Enters i s th m c L code eaddr sia := by
  obtain ⟨t, hx, hq, hent, hcom, hwin, ho, hrest⟩ := he
  exact ⟨t, hx, hq, hent, hcom, hwin, h.frame ho hrest⟩

theorem ovfTrap_quiet {a : Arch} {ovf : Bool} (h : ¬ (ovf = true ∧ a.pswF 29 29 = 1)) : ovfTrap a ovf = none :=
  if_neg (by simpa using h)

theorem ovfTrap_taken {a : Arch} {ovf : Bool} (h : ovf = true ∧ a.pswF 29 29 = 1) : ovfTrap a ovf = some (0x0207, 0) :=
  if_pos (by simpa using h)

/-- The instruction `i` on the registers `a` leaves the registers `b`, and where `ovf` holds its result is an overflow: with `psw.iom` 1
it then enters the integer-overflow trap, with `b` committed. -/
structure EndsWithOverflow (i : Instr) (s : State) (th : Nat) (m1 : Mach) (a b : Arch) (ovf : Prop) : Prop where
  leaves : ¬ (ovf ∧ a.pswF 29 29 = 1) → Leaves i s th m1 (after a b 4) (m1.th th).com
  traps : Clear m1 th → ovf ∧ a.pswF 29 29 = 1 → Enters i s th m1 (after a b 4) (max 1 (after a b 4).pl) 0x0207 0 (after a b 4).ia

namespace EndsWithOverflow
variable {i : Instr} {s : State} {th : Nat} {m1 : Mach} {a b : Arch} {ovf ovf' : Prop}

theorem leaves_of_masked (h : EndsWithOverflow i s th m1 a b ovf) (hq : ovf → a.pswF 29 29 = 0) :
    Leaves i s th m1 (after a b 4) (m1.th th).com :=
  h.leaves fun ⟨hovf, hon⟩ => absurd ((hq hovf).symm.trans hon) (by decide)

theorem ends (h : EndsWithOverflow i s th m1 a b ovf) (hcl : Clear m1 th) (hovf : ovf ↔ ovf') :
    (¬ (ovf' ∧ a.pswF 29 29 = 1) → Leaves i s th m1 (after a b 4) (m1.th th).com) ∧
      (ovf' ∧ a.pswF 29 29 = 1 → Enters i s th m1 (after a b 4) (max 1 (after a b 4).pl) 0x0207 0 (after a b 4).ia) :=
  propext hovf ▸ ⟨h.leaves, h.traps hcl⟩

end EndsWithOverflow

/-! ### The five bodies -/

theorem intInsn_eq {s : State} {o : FA} {fn : Nat} (body : Nat → X Done) (hwf : o.wf = true) : intInsn o fn body s =
    .next { s with m := s.m.runInsn o.th (Shape.simple (encA 0x01 o.t o.a o.b fn)) (body (encA 0x01 o.t o.a o.b fn)) } :=
  ans_ok _ _ _ hwf

section
variable {i : Instr} {s : State} {o : FA} {m1 : Mach} {a : Arch} {fn : Nat} (hwf : o.wf = true) (hw : Word s.m o.th m1)
  (ha : (s.m.th o.th).cur = a)
include hwf hw ha

theorem leaves_intInsn {body : Nat → X Done} {b : Arch} (hi : exec i s = intInsn o fn body s)
    (hb : body (encA 0x01 o.t o.a o.b fn) m1 = .ok Done.plain (m1.putCur o.th b)) :
    Leaves i s o.th m1 (after a b 4) (m1.th o.th).com := by
  subst ha
  exact leaves_of_regs (hi.trans (intInsn_eq _ hwf)) (ready_simple _ hw) rfl rfl hb

theorem leaves_bodyRR {f : W64 → W64 → W64} (hi : exec i s = intInsn o fn (fun _ => bodyRR o f) s) :
    Leaves i s o.th m1 (after a (a.setG o.t (f (a.gr o.a) (a.gr o.b))) 4) (m1.th o.th).com :=
  leaves_intInsn hwf hw ha hi (by simp [bodyRR, hw.keeps, ha])

theorem leaves_bodyCc {f : W64 → W64 → W64} {cc : W64 → W64 → Nat} (hi : exec i s = intInsn o fn (fun _ => bodyCc o f cc) s) :
    Leaves i s o.th m1 (after a ((a.setG o.t (f (a.gr o.a) (a.gr o.b))).setCc (cc (a.gr o.a) (a.gr o.b))) 4) (m1.th o.th).com :=
  leaves_intInsn hwf hw ha hi (by simp [bodyCc, hw.keeps, ha])

theorem leaves_bodyCmp {cc : W64 → W64 → Nat} (hi : exec i s = intInsn o fn (fun w => bodyCmp o w cc) s) (ht : o.t = 0) :
    Leaves i s o.th m1 (after a (a.setCc (cc (a.gr o.a) (a.gr o.b))) 4) (m1.th o.th).com :=
  leaves_intInsn hwf hw ha hi (by simp [bodyCmp, ht, hw.keeps, ha])

theorem endsWithOverflow_intInsn {body : Nat → X Done} {b : Arch} {c : Bool} {ovf : Prop} (hi : exec i s = intInsn o fn body s)
    (hb : body (encA 0x01 o.t o.a o.b fn) m1 = .ok ⟨.seq, [], ovfTrap a c⟩ (m1.putCur o.th b)) (hc : c = true ↔ ovf) :
    EndsWithOverflow i s o.th m1 a b ovf := by
  subst ha
  rw [← hc]
  have he := hi.trans (intInsn_eq _ hwf)
  have hr := ready_simple (encA 0x01 o.t o.a o.b fn) hw
  have hset := m1.setsCur_putCur o.th b
  have hv := hset.served (served_of_ready hr)
  constructor
  · intro hquiet
    rw [ovfTrap_quiet hquiet] at hb
    exact leaves_of_regs he hr rfl rfl hb
  · intro hcl htaken
    rw [ovfTrap_taken htaken] at hb
    have h := enters_trap he hr hb hv.noSync hv.noDbg hv.room (hset.clear hcl) (by decide) (by decide) (by show 4 / 4 < 4; decide)
    rw [hv.keeps] at h
    exact hset.enters h

theorem endsWithOverflow_bodySigned {f : W64 → W64 → W64} {exact : Int → Int → Int}
    (hi : exec i s = intInsn o fn (fun _ => bodySigned o f exact) s) :
    EndsWithOverflow i s o.th m1 a
      ((a.setG o.t (f (a.gr o.a) (a.gr o.b))).setCc (ccSigned (exact (a.gr o.a).toInt (a.gr o.b).toInt)))
      (ccSigned (exact (a.gr o.a).toInt (a.gr o.b).toInt) = 3) :=
  endsWithOverflow_intInsn hwf hw ha hi (by simp [bodySigned, hw.keeps, ha, sgn]) beq_iff_eq

theorem endsWithOverflow_bodyDiv {f : W64 → W64 → W64} {c : W64 → W64 → Bool} {ovf : Prop}
    (hi : exec i s = intInsn o fn (fun _ => bodyDiv o f c) s) (hy : a.gr o.b ≠ 0) (hc : c (a.gr o.a) (a.gr o.b) = true ↔ ovf) :
    EndsWithOverflow i s o.th m1 a (a.setG o.t (f (a.gr o.a) (a.gr o.b))) ovf :=
  endsWithOverflow_intInsn hwf hw ha hi (by
    simp only [bodyDiv, X.regs_bind, hw.keeps, ha, bne_iff_ne.mpr hy]
    simp [hw.keeps, ha]) hc

/-- Of the divides and remainders, only `div` can overflow (R122). -/
theorem leaves_bodyDiv {f : W64 → W64 → W64} (hi : exec i s = intInsn o fn (fun _ => bodyDiv o f fun _ _ => false) s) (hy : a.gr o.b ≠ 0) :
    Leaves i s o.th m1 (after a (a.setG o.t (f (a.gr o.a) (a.gr o.b))) 4) (m1.th o.th).com :=
  (endsWithOverflow_bodyDiv (ovf := False) hwf hw ha hi hy (by simp)).leaves_of_masked False.elim

/-- Every divide and remainder faults on a zero divisor, before it writes a register (R122). -/
theorem enters_bodyDiv_zero {f : W64 → W64 → W64} {c : W64 → W64 → Bool} (hi : exec i s = intInsn o fn (fun _ => bodyDiv o f c) s)
    (hcl : Clear m1 o.th) (hy : a.gr o.b = 0) : Enters i s o.th m1 a (max 1 a.pl) 0x0208 0 a.ia := by
  have hb : bodyDiv o f c m1 = .error (.exc 0x0208 0 false none) m1 := by
    simp only [bodyDiv, X.regs_bind, hw.keeps, ha, hy]
    rfl
  subst ha
  exact enters_fault (hi.trans (intInsn_eq _ hwf)) (ready_simple _ hw) hb hcl (by decide) (by decide) (by show 4 / 4 < 4; decide)

end

theorem divOvf_iff (x y : W64) : divOvf x y = true ↔ x = 0x8000000000000000 ∧ y = 0xffffffffffffffff := by
  simp [divOvf]

theorem ccSigned_eq_three_iff (e : Int) : ccSigned e = 3 ↔ e < -2 ^ 63 ∨ 2 ^ 63 ≤ e := by
  unfold ccSigned
  split
  · simp_all
  · rename_i h
    simp only [h, iff_false]
    split
    · decide
    · split <;> decide

/-! ### O2 -/

/-- Settles O2, body by body. -/
theorem integerResults : Obligations.IntegerResults := by
  unfold Obligations.IntegerResults
  intro s o m1 hwf hw
  dsimp only
  exact ⟨(endsWithOverflow_bodySigned (f := (· + ·)) (exact := (· + ·)) hwf hw rfl rfl).leaves_of_masked,
    leaves_bodyCc (f := (· + ·)) (cc := ccAddl) hwf hw rfl rfl,
    (endsWithOverflow_bodySigned (f := (· - ·)) (exact := (· - ·)) hwf hw rfl rfl).leaves_of_masked,
    leaves_bodyCc (f := (· - ·)) (cc := ccSubl) hwf hw rfl rfl,
    leaves_bodyRR (f := (· &&& ·)) hwf hw rfl rfl,
    leaves_bodyRR (f := (· ||| ·)) hwf hw rfl rfl,
    leaves_bodyRR (f := (· ^^^ ·)) hwf hw rfl rfl,
    leaves_bodyRR (f := fun a b => a &&& ~~~b) hwf hw rfl rfl,
    leaves_bodyRR (f := fun a b => a <<< shAmt b) hwf hw rfl rfl,
    leaves_bodyRR (f := fun a b => a >>> shAmt b) hwf hw rfl rfl,
    leaves_bodyRR (f := fun a b => a.sshiftRight (shAmt b)) hwf hw rfl rfl,
    leaves_bodyRR (f := fun a b => a.rotateLeft (shAmt b)) hwf hw rfl rfl,
    leaves_bodyCmp (cc := ccCmpS) hwf hw rfl rfl,
    leaves_bodyCmp (cc := ccCmpU) hwf hw rfl rfl,
    (endsWithOverflow_bodySigned (f := (· * ·)) (exact := (· * ·)) hwf hw rfl rfl).leaves_of_masked,
    leaves_bodyRR (f := mulhS) hwf hw rfl rfl,
    leaves_bodyRR (f := mulhU) hwf hw rfl rfl,
    fun hy => (endsWithOverflow_bodyDiv (f := divS) hwf hw rfl rfl hy (divOvf_iff _ _)).leaves_of_masked,
    leaves_bodyDiv (f := divU) hwf hw rfl rfl,
    leaves_bodyDiv (f := remS) hwf hw rfl rfl,
    leaves_bodyDiv (f := remU) hwf hw rfl rfl⟩

/-! ### O52 -/

theorem divS_corner : divS 0x8000000000000000 0xffffffffffffffff = 0x8000000000000000 := by decide

theorem remS_corner : remS 0x8000000000000000 0xffffffffffffffff = 0 := by decide

/-- Settles O52: `add`, `sub` and `mul` have one body, `div` and `rem` are taken apart at the corner, and a zero divisor faults alike. -/
theorem integerOverflow : Obligations.IntegerOverflow := by
  unfold Obligations.IntegerOverflow
  intro s o m1 hwf hw hcl
  dsimp only
  refine ⟨(endsWithOverflow_bodySigned (f := (· + ·)) (exact := (· + ·)) hwf hw rfl rfl).ends hcl (ccSigned_eq_three_iff _),
    (endsWithOverflow_bodySigned (f := (· - ·)) (exact := (· - ·)) hwf hw rfl rfl).ends hcl (ccSigned_eq_three_iff _),
    (endsWithOverflow_bodySigned (f := (· * ·)) (exact := (· * ·)) hwf hw rfl rfl).ends hcl (ccSigned_eq_three_iff _),
    fun hy hcorner => ?_, fun ⟨hx, hy⟩ => ?_, fun ⟨hx, hy⟩ => ?_,
    fun hy => ⟨enters_bodyDiv_zero hwf hw rfl rfl hcl hy, enters_bodyDiv_zero hwf hw rfl rfl hcl hy, enters_bodyDiv_zero hwf hw rfl rfl hcl hy,
      enters_bodyDiv_zero hwf hw rfl rfl hcl hy⟩⟩
  · exact (endsWithOverflow_bodyDiv (f := divS) hwf hw rfl rfl hy (divOvf_iff _ _)).ends hcl (iff_false_intro hcorner)
  · have h := endsWithOverflow_bodyDiv (i := .div o) hwf hw rfl rfl (by rw [hy]; decide) (divOvf_iff _ _)
    rw [hx, hy, divS_corner] at h
    exact h.ends hcl (by simp)
  · have h := endsWithOverflow_bodyDiv (i := .rem o) (ovf := False) hwf hw rfl rfl (by rw [hy]; decide) (by simp)
    rw [hx, hy, remS_corner] at h
    exact h.ends hcl Iff.rfl

/-! ### O53 -/

section
variable (x : W64)

theorem shiftLeft_eq_ofNat (k : Nat) : x <<< k = BitVec.ofNat 64 (x.toNat * 2 ^ k) := by
  apply BitVec.eq_of_toNat_eq
  simp [Nat.shiftLeft_eq]

theorem ushiftRight_eq_ofNat (k : Nat) : x >>> k = BitVec.ofNat 64 (x.toNat / 2 ^ k) := by
  rw [← Nat.shiftRight_eq_div_pow, ← BitVec.toNat_ushiftRight, BitVec.ofNat_toNat, BitVec.setWidth_eq]

theorem sshiftRight_eq_ofInt (k : Nat) : x.sshiftRight k = BitVec.ofInt 64 (x.toInt / 2 ^ k) := by
  rw [BitVec.sshiftRight, Int.shiftRight_eq_div_pow]
  norm_cast

/-- The bits that a rotate brings in from the top fill the place that the shift left leaves empty. -/
theorem rotateLeft_eq_ofNat {k : Nat} (hk : k < 64) :
    x.rotateLeft k = BitVec.ofNat 64 (x.toNat * 2 ^ k + x.toNat / 2 ^ (64 - k)) := by
  have hpow : 2 ^ (64 - k) * 2 ^ k = 2 ^ 64 := by rw [← Nat.pow_add, Nat.sub_add_cancel (Nat.le_of_lt hk)]
  have htop : x.toNat / 2 ^ (64 - k) < 2 ^ k := Nat.div_lt_of_lt_mul (hpow ▸ x.isLt)
  have hlow : x.toNat * 2 ^ k % 2 ^ 64 = (x.toNat % 2 ^ (64 - k)) <<< k := by
    rw [Nat.shiftLeft_eq, ← hpow, Nat.mul_mod_mul_right]
  have hrot : (x.rotateLeft k).toNat = x.toNat * 2 ^ k % 2 ^ 64 + x.toNat / 2 ^ (64 - k) := by
    rw [BitVec.toNat_rotateLeft, Nat.mod_eq_of_lt hk, Nat.shiftLeft_eq, Nat.shiftRight_eq_div_pow, hlow, ← Nat.shiftLeft_add_eq_or_of_lt htop]
  have hlt := (x.rotateLeft k).isLt
  apply BitVec.eq_of_toNat_eq
  rw [BitVec.toNat_ofNat]
  omega

theorem rotateLeft_zero : x.rotateLeft 0 = x := by simp [rotateLeft_eq_ofNat, Nat.div_eq_of_lt x.isLt]

end

/-- Settles O53: the shifts and the rotate as arithmetic on their amount, which is 0 in the last clause. -/
theorem shiftAmounts : Obligations.ShiftAmounts := by
  unfold Obligations.ShiftAmounts
  intro s o m1 hwf hw
  have hsll := leaves_bodyRR (i := .sll o) hwf hw rfl rfl
  have hsrl := leaves_bodyRR (i := .srl o) hwf hw rfl rfl
  have hsra := leaves_bodyRR (i := .sra o) hwf hw rfl rfl
  have hrotl := leaves_bodyRR (i := .rotl o) hwf hw rfl rfl
  dsimp only [shAmt] at hsll hsrl hsra hrotl
  refine ⟨fun k hk hamt => ?_, fun hamt => ?_⟩
  · rw [hamt] at hsll hsrl hsra hrotl
    rw [shiftLeft_eq_ofNat] at hsll
    rw [ushiftRight_eq_ofNat] at hsrl
    rw [sshiftRight_eq_ofInt] at hsra
    rw [rotateLeft_eq_ofNat _ hk] at hrotl
    exact ⟨hsll, hsrl, hsra, hrotl⟩
  · rw [hamt] at hsll hsrl hsra hrotl
    rw [BitVec.shiftLeft_zero] at hsll
    rw [BitVec.ushiftRight_zero] at hsrl
    rw [BitVec.sshiftRight_zero] at hsra
    rw [rotateLeft_zero] at hrotl
    exact ⟨hsll, hsrl, hsra, hrotl⟩

end Sys2Proof.Machine
end

section
/-! Patch images (R199 to R201), and O19.  A write of `mode.patch` is taken apart by what the module is doing: an image
is being applied, the boot seal is set, or neither. -/

namespace Sys2Proof.Machine

open Sys2Proof.Safety

/-! ### A write of `mode.patch` -/

/-- `m` after it has taken the address of the image from a write of `mode.patch`. -/
abbrev Mach.patchStored (m : Mach) (val : Nat) : Mach := m.set R.mode_patch_addr (bits val 51 3)

section
variable {m : Mach} {val : Nat}

/-- Before the boot seal, with no image being applied, the address is kept whether or not `go` is set. -/
theorem Mach.patchGo_open (hfrozen : m.frozen = false) (hsealed : m.sealed = false) (hidle : m.patchIn = none) :
    m.patchGo val = if bit val 0 then
        Sum.elim (fun r => (m.patchStored val).sets [(R.mode_patchst_result, r), (R.mode_patchst_done, 1)])
          (fun p => ({ m.patchStored val with patchIn := some p } : Mach).set R.mode_patch_go 1)
          ((m.patchStored val).checkPatch ((m.patchStored val).get R.mode_patch_addr * 8))
      else m.patchStored val := by
  have hkept : ¬ (m.sealed = true ∨ m.patchIn.isSome = true) := by simp [hsealed, hidle]
  have hsealed' : (m.patchStored val).sealed = false := by
    rwa [Mach.sealed, m.get_set_other _ _ _ (.inr (by decide))]
  rw [Mach.patchGo, hfrozen, if_neg Bool.false_ne_true, if_neg hkept]
  cases hgo : bit val 0 with
  | false => rfl
  | true =>
    dsimp only
    rw [Mach.set_patchIn, hidle, hsealed', if_neg (by decide), if_neg (by decide), if_neg (by decide), if_pos rfl]
    cases (m.patchStored val).checkPatch ((m.patchStored val).get R.mode_patch_addr * 8) <;> rfl

theorem Mach.patchGo_busy (hfrozen : m.frozen = false) (hbusy : m.patchIn ≠ none) (hgo : bit val 0 = true) :
    m.patchGo val = m.sets [(R.mode_patchst_result, 2), (R.mode_patchst_done, 1)] := by
  have hbusy' : m.patchIn.isSome = true := Option.isSome_iff_ne_none.mpr hbusy
  simp [Mach.patchGo, hfrozen, hbusy', hgo]

theorem Mach.patchGo_sealed (hfrozen : m.frozen = false) (hidle : m.patchIn = none) (hsealed : m.sealed = true) (hgo : bit val 0 = true) :
    m.patchGo val = m.sets [(R.mode_patchst_result, 3), (R.mode_patchst_done, 1)] := by
  simp [Mach.patchGo, hfrozen, hidle, hsealed, hgo]

end

/-! ### The commands -/

section
variable {m : Mach}

/-- On operands in range the command is the write of the register. -/
theorem does_patchGo {val : Nat} {h : Prop} {P : Mach → Prop} (hP : h → P (m.patchGo val)) : Does m (.patchGo val) h P :=
  does_of_ans _ _ (execPatchGo.eq_def val) id hP

theorem does_patchApplied (p : PatchIn) :
    Does m .patchApplied (m.frozen = false ∧ m.patchIn = some p) fun m' =>
      m' = ({ m with patch := some p.patch, patchIn := none } : Mach).sets [(R.mode_patch_go, 0), (R.mode_patchst_level, p.level),
        (R.mode_patchst_applied, 1), (R.mode_patchst_done, 1), (R.mode_patchst_result, 1)] := by
  refine does_of_ans _ _ execPatchApplied.eq_def id ?_
  rintro ⟨hfrozen, himage⟩
  simp [hfrozen, himage]

end

/-! ### O19 -/

/-- Settles O19: the write of `mode.patch` in each of its cases, and the end of an application. -/
theorem controlStorePatches : Obligations.ControlStorePatches := by
  unfold Obligations.ControlStorePatches
  intro m
  refine ⟨fun val => does_patchGo ?_, fun val => does_patchGo ?_, fun val => does_patchGo ?_, fun val => does_patchGo ?_,
    does_patchApplied⟩
  · rintro ⟨hfrozen, hsealed, hidle, hgo⟩
    rw [Mach.patchGo_open hfrozen hsealed hidle, hgo, if_neg Bool.false_ne_true]
  · rintro ⟨hfrozen, hsealed, hidle, hgo⟩
    rw [Mach.patchGo_open hfrozen hsealed hidle, hgo, if_pos rfl]
  · rintro ⟨hfrozen, hbusy, hgo⟩
    exact Mach.patchGo_busy hfrozen hbusy hgo
  · rintro ⟨hfrozen, hidle, hsealed, hgo⟩
    exact Mach.patchGo_sealed hfrozen hidle hsealed hgo

end Sys2Proof.Machine
end

section
/-! TLB maintenance (R222 to R225), and O20.  An instruction of `ldtt`'s shape is performed alone and commits with its checkpoint; a
removal changes translation caches, the other thread of the core and what is sent, and leaves its own thread's window as it was. -/

namespace Sys2Proof.Machine

open Sys2Proof.Safety

/-! ### Sending (R288) -/

/-- `m'` is `m` but for its fabric ports and what it has sent. -/
abbrev SameButSent (m m' : Mach) : Prop := { m' with fab := m.fab, sent := m.sent } = m

theorem SameButSent.trans {m m1 m2 : Mach} (h : SameButSent m m1) (h1 : SameButSent m1 m2) : SameButSent m m2 :=
  (congrArg (fun x : Mach => { x with fab := m.fab, sent := m.sent }) h1).trans h

theorem Mach.fabSend_same (m : Mach) (p n : Nat) : SameButSent m (m.fabSend p n) := by
  induction n generalizing m with
  | zero => rfl
  | succ n ih =>
    unfold Mach.fabSend
    dsimp only
    split
    · rfl
    · split
      · rfl
      · split
        · rfl
        · refine SameButSent.trans ?_ (ih _)
          rfl

theorem Mach.send_same (m : Mach) (op : Nat) (x : Msg) : SameButSent m (m.send op x) := by
  unfold Mach.send Mach.route
  dsimp only
  split
  · rfl
  · refine SameButSent.trans ?_ (Mach.fabSend_same _ _ _)
    rfl

@[simp] theorem Mach.send_thr (m : Mach) (op : Nat) (x : Msg) : (m.send op x).thr = m.thr := (congrArg Mach.thr (m.send_same op x) :)

@[simp] theorem Mach.send_patchIn (m : Mach) (op : Nat) (x : Msg) : (m.send op x).patchIn = m.patchIn :=
  (congrArg Mach.patchIn (m.send_same op x) :)

/-- What each step of a fold leaves as it is, the fold leaves. -/
theorem foldl_keeps {α β : Type} {f : Mach → α → Mach} (g : Mach → β) (hf : ∀ m x, g (f m x) = g m) (l : List α) (m : Mach) :
    g (l.foldl f m) = g m := by
  induction l generalizing m with
  | nil => rfl
  | cons x l ih => exact (ih (f m x)).trans (hf m x)

/-! ### What a removal does -/

/-- A core without the entries that a removal takes: the translations that it matches and the walk steps of its regime (R222). -/
def Core.purge (k : Core) (r : Removal) : Core := { k with
  tlb := k.tlb.filter fun e => !r.hits e, walk1 := k.walk1.filter fun e => e.tag != r.tag, walk2 := k.walk2.filter fun e => e.tag != r.tag }

/-- A thread whose unretired work is discarded, the update that it waits for included (R221, R224). -/
def Thread.restart (t : Thread) : Thread := { t.discard with adWait := none }

/-- The removal of a thread as it waits for its acknowledgements. -/
def Mach.issued (m : Mach) (c : Nat) (r : Removal) : Removal := { r with id := m.shoot.next, waits := m.receivers c }

section
variable (m : Mach) (c th v u : Nat) (r : Removal)

theorem Mach.applyRemoval_one : m.applyRemoval c r [v] = (m.onCore c (·.purge r)).onTh v Thread.restart := rfl

/-- Of the threads, sending a removal changes the one that sends it. -/
theorem Mach.sendRemoval_thr : (m.sendRemoval th r).thr =
    (m.onTh th fun t => { t with removals := t.removals ++ [m.issued (th / 2) r] }).thr := by
  unfold Mach.sendRemoval
  dsimp only
  rw [foldl_keeps Mach.thr fun m d => m.send_thr _ _, foldl_keeps Mach.thr fun m d => m.onCore_thr _ _]
  rfl

theorem Mach.th_sendRemoval : (m.sendRemoval th r).th u =
    (m.onTh th fun t => { t with removals := t.removals ++ [m.issued (th / 2) r] }).th u := by
  rw [Mach.th, m.sendRemoval_thr, Mach.th]

@[simp] theorem Mach.sendRemoval_patchIn : (m.sendRemoval th r).patchIn = m.patchIn := by
  unfold Mach.sendRemoval
  dsimp only
  rw [foldl_keeps Mach.patchIn fun m d => m.send_patchIn _ _, foldl_keeps Mach.patchIn fun m d => m.onCore_patchIn _ _]
  rfl

end

/-- Thread `th` of `m2` is that of `m1` but for its unacknowledged removals, and can take in an instruction as it could. -/
structure Mach.Removes (m1 m2 : Mach) (th : Nat) : Prop where
  own : m2.th th = { m1.th th with removals := (m2.th th).removals }
  runs : (m2.th (2 * (th / 2) + 1 - th % 2)).runs = (m1.th (2 * (th / 2) + 1 - th % 2)).runs
  patch : m2.patchIn = m1.patchIn

section
variable {m m1 m2 : Mach} {th : Nat} {r : Removal}

theorem Mach.removes_applyRemoval : m.Removes (m.applyRemoval (th / 2) r [2 * (th / 2) + 1 - th % 2]) th where
  own := by
    rw [m.applyRemoval_one, Mach.th_onTh_ne _ _ _ _ (by omega)]
    rfl
  runs := by
    rw [m.applyRemoval_one, Mach.th_onTh_same]
    rfl
  patch := rfl

theorem Mach.removes_sendRemoval : m.Removes (m.sendRemoval th r) th where
  own := by rw [m.th_sendRemoval, Mach.th_onTh_same]
  runs := by rw [m.th_sendRemoval, Mach.th_onTh_ne _ _ _ _ (by omega)]
  patch := m.sendRemoval_patchIn th r

theorem Mach.Removes.trans (h : m.Removes m1 th) (h1 : m1.Removes m2 th) : m.Removes m2 th where
  own := by rw [h1.own, h.own]
  runs := h1.runs.trans h.runs
  patch := h1.patch.trans h.patch

theorem Mach.Removes.takeIn (h : m1.Removes m2 th) (sh : Shape) : m2.takeIn th sh = m1.takeIn th sh := by
  unfold Mach.takeIn Mach.share
  rw [h.own, h.runs, h.patch]

theorem Mach.Removes.served {sh : Shape} {a : Arch} (h : m1.Removes m2 th) (hv : Served m1 th sh a) : Served m2 th sh a where
  noSync := by rw [h.own]; exact hv.noSync
  noDbg := by rw [h.own]; exact hv.noDbg
  room := by rw [h.takeIn]; exact hv.room
  keeps := by rw [h.own]; exact hv.keeps

end

/-! ### An instruction of `ldtt`'s shape -/

/-- The later of two writes of one thread stands. -/
theorem Mach.setTh_setTh (m : Mach) (th : Nat) (x y : Thread) : (m.setTh th x).setTh th y = m.setTh th y := by
  unfold Mach.setTh
  rw [tset_tset]

/-- `complete_sync` as an equation: of its thread, an instruction of R154 changes the registers, the commit copy and what an attempt keeps. -/
theorem complete_sync_eq {m : Mach} {th : Nat} {sh : Shape} {a0 : Arch} (hfresh : (m.th th).nowSync = false) (hs : sh.sync = true)
    (hstep : a0.pswF 6 6 = 0) (hroom : (m.takeIn th sh).isSome = true) (hwin : (m.th th).win = []) (hep : (m.th th).ep = none)
    (hbuf : (m.th th).sbuf.length ≤ 64) :
    m.complete th sh a0 Done.plain = some (m.setTh th { m.th th with
      nowSync := false, got := [], seen := [], cur := after a0 (m.th th).cur sh.len, com := after a0 (m.th th).cur sh.len, win := [] }) := by
  obtain ⟨⟨k, older⟩, htake⟩ := Option.isSome_iff_exists.1 hroom
  have hfirst : k = none ∧ older = [] := by
    simp only [Mach.takeIn, hwin, List.getLast?_nil] at htake
    split at htake
    · cases htake
    · split at htake
      · cases htake
        exact ⟨rfl, rfl⟩
      · cases htake
  obtain ⟨rfl, rfl⟩ := hfirst
  unfold Mach.complete
  simp only [hfresh, hstep, htake, hs, Done.plain, Bool.false_eq_true, if_false, if_true, List.nil_append]
  rw [if_neg (by simp), commitAll_one _ _ _ (by rw [Mach.th_setTh_same]) (by rw [Mach.th_setTh_same]; exact hep) rfl
    (by rw [Mach.th_setTh_same]; exact hbuf), Mach.th_setTh_same, Mach.setTh_setTh]
  rfl

section
variable {i : Instr} {s : State} {th w : Nat} {m0 m1 m2 : Mach} {body : X Done} {b : Arch}

/-- An instruction of `ldtt`'s shape whose body sets the registers `b`. -/
theorem leaves_micro (he : exec i s = .next { s with m := m0.runInsn th (Shape.micro_ w) body }) (hr : Ready m0 th (Shape.micro_ 0) m1)
    (hb : body m1 = .ok Done.plain m2) (hc : m1.SetsCur th b m2) :
    Leaves i s th m1 (after (m0.th th).cur b 4) (after (m0.th th).cur b 4) := by
  have hr' : Ready m0 th (Shape.micro_ w) m1 := ready_word w hr
  obtain ⟨-, hwin, hep, hbuf⟩ := hr.sync rfl
  exact leaves_of_sync he hr' rfl rfl (served_of_ready hr') hwin hep hbuf hb hc

/-- As `leaves_micro`, for a body after which the thread has other unacknowledged removals. -/
theorem leavesRemoving_micro (he : exec i s = .next { s with m := m0.runInsn th (Shape.micro_ w) body }) (hr : Ready m0 th (Shape.micro_ 0) m1)
    (hb : body m1 = .ok Done.plain m2) (hm : m1.Removes m2 th) : LeavesRemoving i s th m2 (after (m0.th th).cur (m0.th th).cur 4) := by
  have hr' : Ready m0 th (Shape.micro_ w) m1 := ready_word w hr
  have hv := hm.served (served_of_ready hr')
  obtain ⟨-, hwin, hep, hbuf⟩ := hr.sync rfl
  have hcomp := complete_sync_eq (th := th) hv.noSync (sh := Shape.micro_ w) rfl hr.noStep hv.room (by rw [hm.own]; exact hwin)
    (by rw [hm.own]; exact hep) (by rw [hm.own]; exact hbuf)
  rw [hv.keeps] at hcomp
  rw [runInsn_ready hr' hb hcomp, Mach.stepEnd_idle _ _ (by rw [Mach.th_setTh_same]; exact hv.noDbg)] at he
  refine ⟨_, he, rfl, ?_, ?_, ?_, fun u hu => Mach.th_setTh_ne _ _ _ _ hu, rfl⟩ <;> rw [Mach.th_setTh_same] <;> rfl

/-- An instruction of R154 that has to wait: its thread keeps its registers. -/
theorem runInsn_micro_wait (hr : Ready m0 th (Shape.micro_ 0) m1) (hb : body m1 = .error .wait m2) :
    m0.runInsn th (Shape.micro_ w) body = m2.onTh th fun t => { t with cur := (m0.th th).cur, nowSync := false } := by
  have hr' : Ready m0 th (Shape.micro_ w) m1 := ready_word w hr
  have hstop : (if m0.frozen = true then m0 else m0.tryStop th) = m0 := by rw [Mach.tryStop_idle _ _ hr.noDbg, ite_self]
  have hall : m0.commitAll th 40 = some m0 := if_pos (hr.sync rfl).1
  have hroom : (m0.takeIn th (Shape.micro_ w)).isNone = false := by rw [← Option.not_isSome, hr'.room]; rfl
  have hprog := (run_after_fetch body hr'.fetch).trans hb
  unfold Mach.runInsn
  simp only [hstop, hr.runs, hall, show (Shape.micro_ w).sync = true from rfl, hroom, Bool.not_true, Bool.false_eq_true, if_false, if_true]
  rw [hprog]

end

/-! ### Root registers (R207) -/

theorem ofNat_and_toNat (x : W64) (n : Nat) : BitVec.ofNat 64 (x.toNat &&& n) = x &&& BitVec.ofNat 64 n := by
  rw [BitVec.ofNat_and, BitVec.ofNat_toNat, BitVec.setWidth_eq]

/-- The registers after `ldtt` has put the defined bits of `v` into root register `sr`. -/
def Arch.setRoot (a : Arch) (sr : Nat) (v : W64) : Arch :=
  if sr = 0 then { a with ttr1 := v &&& 0xFFFFFFFFFFFFF003#64 }
  else if sr = 1 then { a with ttr2 := v &&& 0x03FFFFFFFFFFF003#64 }
  else { a with ttrh := v &&& 0x000FFFFFFFFFF003#64 }

/-- Root register `sr`. -/
def Arch.root (a : Arch) (sr : Nat) : W64 := if sr = 0 then a.ttr1 else if sr = 1 then a.ttr2 else a.ttrh

section
variable {s : State} {o : FS} {m1 : Mach} {a : Arch} {k : Nat} (hwf : o.wf = true) (hr : Ready s.m o.th (Shape.micro_ 0) m1)
  (hcur : (s.m.th o.th).cur = a) (hsr : o.sr = k) (hk : k ≤ 2) (hpl : rootLevel k ≤ a.pl)
include hwf hr hcur hsr hk hpl

theorem leaves_ldtt {b : Arch} (ht : o.t = 0) (hlv : m1.acceptsLv ((a.gr o.a).toNat % 4) = true) (hb : a.setRoot k (a.gr o.a) = b) :
    Leaves (.ldtt o) s o.th m1 (after a b 4) (after a b 4) := by
  subst hcur hsr hb
  have hlv' : m1.acceptsLv (bits ((s.m.th o.th).cur.gr o.a).toNat 1 0) = true := hlv
  refine leaves_micro (exec_sysInsn (execLdtt o s) rfl rfl hwf) hr ?_ (m1.setsCur_putCur o.th _)
  simp only [X.regs_bind, hr.keeps, if_pos hk, decide_eq_true hpl, X.priv_true, ht, BEq.rfl, decide_eq_true hk, Bool.and_self, X.spec_true,
    pure_bind, X.mach_bind, hlv', X.need_true, X.upd_bind, X.pure_apply, ofNat_and_toNat]
  rfl

theorem leaves_sttt {v : W64} (ha : o.a = 0) (hv : a.root k = v) :
    Leaves (.sttt o) s o.th m1 (after a (a.setG o.t v) 4) (after a (a.setG o.t v) 4) := by
  subst hcur hsr hv
  refine leaves_micro (exec_sysInsn (execSttt o s) rfl rfl hwf) hr ?_ (m1.setsCur_putCur o.th _)
  simp only [X.regs_bind, hr.keeps, if_pos hk, decide_eq_true hpl, X.priv_true, ha, BEq.rfl, decide_eq_true hk, Bool.and_self, X.spec_true,
    pure_bind, X.upd_bind, X.pure_apply]
  rfl

end

/-! ### Removals (Table 7.9) -/

theorem curPart_eq (a : Arch) : curPart a = if a.ttr2.toNat % 4 = 0 then 64 else a.ttr2.toNat / 2 ^ 52 % 64 := by
  simp [curPart, bits, Nat.shiftRight_eq_div_pow]

/-- A removal instruction of core scope, and of domain scope with fewer than eight removals unacknowledged (R222 to R225). -/
theorem leavesRemoving_removeInsn {i : Instr} {s : State} {o : FS} {m1 : Mach} {a : Arch} {fn lvl : Nat} {used : Bool} {mk : Arch → Removal}
    {r : Removal} (hwf : o.wf = true) (hr : Ready s.m o.th (Shape.micro_ 0) m1) (hcur : (s.m.th o.th).cur = a)
    (e : Host.Outcome State Fault Refusal) (hx : exec i s = e) (he : e = removeInsn o fn lvl used mk s) (hpl : lvl ≤ a.pl)
    (hused : used = true) (hmk : mk a = r) :
    let m2 := m1.applyRemoval (o.th / 2) r [2 * (o.th / 2) + 1 - o.th % 2]
    (o.sr = 0 → LeavesRemoving i s o.th m2 (after a a 4)) ∧
      (o.sr = 1 → (m1.th o.th).removals.length < 8 → LeavesRemoving i s o.th (m2.sendRemoval o.th r) (after a a 4)) := by
  intro m2
  subst hcur hmk
  have hrun := exec_sysInsn (removeInsn o fn lvl used mk s) (hx.trans he) rfl hwf
  have hkeeps := hr.keeps
  have hcheck (hsr : o.sr ≤ 1) : sysCheck o fn lvl (used && decide (o.sr ≤ 1)) m1 = .ok () m1 :=
    sysCheck_ok (by rw [hkeeps]; exact hpl) (by rw [hused, decide_eq_true hsr]; rfl)
  refine ⟨fun hsr => leavesRemoving_micro hrun hr ?_ Mach.removes_applyRemoval,
    fun hsr hfew => leavesRemoving_micro hrun hr ?_ (Mach.removes_applyRemoval.trans Mach.removes_sendRemoval)⟩
  · have hscope : ¬ (o.sr = 1 ∧ 8 ≤ (m1.th o.th).removals.length) := by omega
    rw [bind_ok _ _ _ _ _ (hcheck (by omega)), X.regs_bind, X.mach_bind, if_neg hscope, X.modify_bind, if_neg (by omega), hkeeps]
    rfl
  · have hscope : ¬ (o.sr = 1 ∧ 8 ≤ (m1.th o.th).removals.length) := by omega
    rw [bind_ok _ _ _ _ _ (hcheck (by omega)), X.regs_bind, X.mach_bind, if_neg hscope, X.modify_bind, if_pos hsr, hkeeps]
    rfl

/-! ### `tlbsync` (R225) -/

/-- `tlbsync` by what its thread has outstanding. -/
theorem tlbsyncBody_run {o : FS} {m1 : Mach} (ht : o.t = 0) (ha : o.a = 0) (hsr : o.sr = 0) (hpl : 1 ≤ (m1.th o.th).cur.pl) :
    tlbsyncBody o m1 = if (m1.th o.th).removals = [] then .ok Done.plain m1
      else .error .wait (m1.onTh o.th fun t => { t with wait := .tlbsync }) := by
  rw [tlbsyncBody, bind_ok _ _ _ _ _ (sysCheck_ok hpl (by simp [ht, ha, hsr])), X.mach_bind]
  split <;> rfl

section
variable {s : State} {o : FS} {m1 : Mach} {a : Arch} (hwf : o.wf = true) (hcur : (s.m.th o.th).cur = a)
  (hr : Ready s.m o.th (Shape.micro_ 0) m1) (hpl : 1 ≤ a.pl)
include hwf hcur hr hpl

theorem leaves_tlbsync (ht : o.t = 0) (ha : o.a = 0) (hsr : o.sr = 0) (hnone : (m1.th o.th).removals = []) :
    Leaves (.tlbsync o) s o.th m1 (after a a 4) (after a a 4) := by
  subst hcur
  have hrun := tlbsyncBody_run ht ha hsr (by rw [hr.keeps]; exact hpl)
  rw [if_pos hnone] at hrun
  exact leaves_micro (exec_sysInsn (execTlbsync o s) rfl rfl hwf) hr hrun (Mach.setsCur_refl hr.keeps)

theorem tlbsync_waits (ht : o.t = 0) (ha : o.a = 0) (hsr : o.sr = 0) (hsome : (m1.th o.th).removals ≠ []) :
    ∃ t, exec (.tlbsync o) s = .next t ∧ t.pending = s.pending ∧ (t.m.th o.th).wait = .tlbsync ∧ (t.m.th o.th).cur = a ∧
      (∀ u, u ≠ o.th → t.m.th u = m1.th u) ∧ { t.m with thr := m1.thr } = m1 := by
  have hrun := tlbsyncBody_run ht ha hsr (by rw [hr.keeps, hcur]; exact hpl)
  rw [if_neg hsome] at hrun
  refine ⟨_, exec_sysInsn (execTlbsync o s) rfl rfl hwf, rfl, ?_⟩
  rw [runInsn_micro_wait hr hrun, Mach.th_onTh_same, Mach.th_onTh_same]
  exact ⟨rfl, hcur, fun u hu => (Mach.th_onTh_ne _ _ _ _ hu).trans (Mach.th_onTh_ne _ _ _ _ hu), rfl⟩

end

/-- The end of the wait of a `tlbsync`: `s` is `s0` with its thread waiting no more, and there the instruction is performed. -/
theorem leaves_tlbsyncComplete {s s0 : State} {th : Nat} {m1 : Mach} {a : Arch} (hth : th < 96)
    (hs : s = { s0 with m := s0.m.onTh th fun t => { t with wait := .none } }) (hcur : (s.m.th th).cur = a) (hr : Ready s.m th (Shape.micro_ 0) m1)
    (hfrozen : s0.m.frozen = false) (hwait : (s0.m.th th).wait = .tlbsync) (hdone : (s0.m.th th).removals = []) (hpl : 1 ≤ a.pl)
    (hnone : (m1.th th).removals = []) : Leaves (.tlbsyncComplete th) s0 th m1 (after a a 4) (after a a 4) := by
  subst hs hcur
  have hrun := tlbsyncBody_run (o := ⟨th, 0, 0, 0⟩) rfl rfl rfl (by rw [hr.keeps]; exact hpl)
  rw [if_pos hnone] at hrun
  exact leaves_micro (exec_run (execTlbsyncComplete th s0) rfl rfl (decide_eq_true hth) (if_pos (by rw [hfrozen, hwait, hdone]; rfl))) hr hrun
    (Mach.setsCur_refl hr.keeps)

/-! ### O20 -/

theorem FS.th_lt {o : FS} (hwf : o.wf = true) : o.th < 96 := by
  simp only [FS.wf, Bool.and_eq_true, decide_eq_true_eq] at hwf
  obtain ⟨⟨⟨hth, -⟩, -⟩, -⟩ := hwf
  exact hth

/-- Settles O20: the root registers by the register that `sr` names, each removal as its row of Table 7.9, and `tlbsync` in each of its cases. -/
theorem translationRegistersAndTlb : Obligations.TranslationRegistersAndTlb := by
  unfold Obligations.TranslationRegistersAndTlb
  intro s o m1 hwf hr
  dsimp only
  rw [← curPart_eq]
  exact ⟨fun ht hlv => ⟨fun hsr hpl => leaves_ldtt hwf hr rfl hsr (by decide) hpl ht hlv rfl,
      fun hsr hpl => leaves_ldtt hwf hr rfl hsr (by decide) hpl ht hlv rfl, fun hsr hpl => leaves_ldtt hwf hr rfl hsr (by decide) hpl ht hlv rfl⟩,
    fun ha => ⟨fun hsr hpl => leaves_sttt hwf hr rfl hsr (by decide) hpl ha rfl, fun hsr hpl => leaves_sttt hwf hr rfl hsr (by decide) hpl ha rfl,
      fun hsr hpl => leaves_sttt hwf hr rfl hsr (by decide) hpl ha rfl⟩,
    fun hpl => leavesRemoving_removeInsn hwf hr rfl (execTlbiva o s) rfl rfl hpl rfl rfl,
    fun hpl ht => leavesRemoving_removeInsn hwf hr rfl (execTlbiasid o s) rfl rfl hpl (by simp [ht]) rfl,
    fun hpl ht ha => leavesRemoving_removeInsn hwf hr rfl (execTlbip1 o s) rfl rfl hpl (by simp [ht, ha]) rfl,
    fun hpl => leavesRemoving_removeInsn hwf hr rfl (execTlbigpa o s) rfl rfl hpl rfl rfl,
    fun hpl ht => leavesRemoving_removeInsn hwf hr rfl (execTlbipart o s) rfl rfl hpl (by simp [ht]) rfl,
    fun hpl ht => leavesRemoving_removeInsn hwf hr rfl (execTlbihva o s) rfl rfl hpl (by simp [ht]) rfl,
    fun hpl ht ha => leavesRemoving_removeInsn hwf hr rfl (execTlbihall o s) rfl rfl hpl (by simp [ht, ha]) rfl,
    fun hpl ht ha hsr => leaves_tlbsync hwf rfl hr hpl ht ha hsr, fun hpl ht ha hsr => tlbsync_waits hwf rfl hr hpl ht ha hsr,
    fun _ hs hfrozen hwait hdone hpl hnone => leaves_tlbsyncComplete (FS.th_lt hwf) hs rfl hr hfrozen hwait hdone hpl hnone⟩

end Sys2Proof.Machine
end

section
/-! A removal at its receivers, its acknowledgement and its time-out, the update of accessed and dirty bits (R216, R217, R224 to R226), and O22. -/

namespace Sys2Proof.Machine

open Sys2Proof.Safety

/-! ### A removal at its receivers -/

section
variable (m : Mach) (c : Nat) (r : Removal)

theorem Mach.applyRemoval_two (v w : Nat) :
    m.applyRemoval c r [v, w] = ((m.onCore c (·.purge r)).onTh v Thread.restart).onTh w Thread.restart := rfl

theorem Mach.core_applyRemoval_two (v w : Nat) : (m.applyRemoval c r [v, w]).core c = (m.core c).purge r :=
  m.core_onCore_same c (·.purge r)

theorem Mach.th_applyRemoval_first {v w : Nat} (h : v ≠ w) : (m.applyRemoval c r [v, w]).th v = (m.th v).restart := by
  rw [m.applyRemoval_two, Mach.th_onTh_ne _ _ _ _ h, Mach.th_onTh_same]
  rfl

theorem Mach.th_applyRemoval_second {v w : Nat} (h : w ≠ v) : (m.applyRemoval c r [v, w]).th w = (m.th w).restart := by
  rw [m.applyRemoval_two, Mach.th_onTh_same, Mach.th_onTh_ne _ _ _ _ h]
  rfl

/-- The machine after core `c` has applied the removal `r` at the front of its queue, before it notes what is left to perform. -/
def Mach.applyFront (m : Mach) (c : Nat) (r : Removal) (rest : List Removal) : Mach :=
  (m.onCore c fun k => { k with shoot := rest }).applyRemoval c r [2 * c, 2 * c + 1]

/-- What core `c` has to perform before it acknowledges removal `id`: the stores that its threads have retired and its open combining lines. -/
def Mach.owed (m : Mach) (c id : Nat) : ShootDone :=
  ⟨id, c, (m.th (2 * c)).sbuf.length, (m.th (2 * c + 1)).sbuf.length, (m.core c).comb.map CombLine.line⟩

def Mach.noteOwed (m : Mach) (c id : Nat) : Mach :=
  { m with shoot := { m.shoot with done := tset m.shoot.done c (tget m.shoot.done c [] ++ [m.owed c id]) } }

end

theorem takeFirst_cons {α : Type} {p : α → Bool} {x : α} {l l' : List α} (hl : l' = x :: l) (h : p x = true) : takeFirst p l' = some (x, l) := by
  rw [hl]
  exact if_pos h

section
variable {m : Mach}

theorem exec_shootdownReceive {core : Nat} {r : Removal} {rest : List Removal} (hcore : core < 48) (hfrozen : m.frozen = false)
    (hfront : (m.core core).shoot = r :: rest) (q : List Instr) :
    exec (.shootdownReceive core r.id) ⟨q, m⟩ = .next ⟨q, (m.applyFront core r rest).noteOwed core r.id⟩ := by
  have hfirst : takeFirst (fun x : Removal => x.id == r.id) (m.core core).shoot = some (r, rest) := takeFirst_cons hfront BEq.rfl
  have hact : ¬ ((m.core core).shoot.head? ≠ some r ∨ m.frozen = true) := by simp [hfront, hfrozen]
  show execShootdownReceive core r.id ⟨q, m⟩ = _
  unfold execShootdownReceive
  rw [ans_ok _ _ _ (decide_eq_true hcore)]
  simp only [hfirst, if_neg hact]
  rfl

theorem does_shootdownReceive (core id : Nat) (r : Removal) (rest : List Removal) :
    Does m (.shootdownReceive core id) (m.frozen = false ∧ (m.core core).shoot = r :: rest ∧ r.id = id) fun m' =>
      (m'.core core).shoot = rest ∧ (m'.core core).tlb = (m.core core).tlb.filter (fun e => !r.hits e) ∧
      (m'.core core).walk1 = (m.core core).walk1.filter (fun (e : WalkE) => e.tag != r.tag) ∧
      (m'.core core).walk2 = (m.core core).walk2.filter (fun (e : WalkE) => e.tag != r.tag) ∧
      (m'.th (2 * core)).cur = (m.th (2 * core)).com ∧ (m'.th (2 * core)).win = [] ∧
      (m'.th (2 * core + 1)).cur = (m.th (2 * core + 1)).com ∧ (m'.th (2 * core + 1)).win = [] ∧
      (tget m'.shoot.done core []) = tget m.shoot.done core [] ++ [m.owed core id] := by
  rintro hwf ⟨hfrozen, hfront, rfl⟩ q
  refine ⟨_, exec_shootdownReceive (of_decide_eq_true hwf) hfrozen hfront q, ?_⟩
  have hcore : (m.applyFront core r rest).core core = ({ m.core core with shoot := rest } : Core).purge r := by
    rw [Mach.applyFront, Mach.core_applyRemoval_two, Mach.core_onCore_same]
  have hfirst : (m.applyFront core r rest).th (2 * core) = (m.th (2 * core)).restart := Mach.th_applyRemoval_first _ _ _ (by omega)
  have hsecond : (m.applyFront core r rest).th (2 * core + 1) = (m.th (2 * core + 1)).restart := Mach.th_applyRemoval_second _ _ _ (by omega)
  have howed : (m.applyFront core r rest).owed core r.id = m.owed core r.id := by
    rw [Mach.owed, hcore, hfirst, hsecond]
    rfl
  refine ⟨congrArg Core.shoot hcore, congrArg Core.tlb hcore, congrArg Core.walk1 hcore, congrArg Core.walk2 hcore, congrArg Thread.cur hfirst,
    congrArg Thread.win hfirst, congrArg Thread.cur hsecond, congrArg Thread.win hsecond, ?_⟩
  rw [Mach.noteOwed, howed, tget_tset_same]
  rfl

/-! ### Acknowledgement and time-out -/

theorem does_shootdownAck (core id : Nat) (d : ShootDone) (rest : List ShootDone) :
    Does m (.shootdownAck core id) (m.frozen = false ∧ (m.core core).swap = none ∧ tget m.shoot.done core [] = d :: rest ∧ d.id = id ∧
        d.who = core ∧ d.n0 = 0 ∧ d.n1 = 0 ∧ ((m.core core).comb.any fun x => d.comb.contains x.line) = false) fun m' =>
      m' = ({ m with shoot := { m.shoot with done := tset m.shoot.done core rest } } : Mach).ackRemoval id core := by
  refine does_of_ans _ _ (execShootdownAck.eq_def core id) (fun hwf => hwf) ?_
  rintro ⟨hfrozen, hswap, hdone, hid, hwho, hn0, hn1, hcomb⟩
  have hd : (d.id == id && d.who == core) = true := by simp [hid, hwho]
  have hhere : ((tget m.shoot.done core []).any fun d => d.id == id && d.who == core) = true := by rw [hdone, List.any_cons, hd, Bool.true_or]
  have hfirst : takeFirst (fun d : ShootDone => d.id == id && d.who == core) (tget m.shoot.done core []) = some (d, rest) := takeFirst_cons hdone hd
  simp only [if_pos hhere, hfirst, hfrozen, hswap, hn0, hn1, hcomb]
  rfl

theorem does_tlbShootdownTimeout (th core : Nat) :
    Does m (.tlbShootdownTimeout th core) (m.frozen = false ∧ ((m.th th).removals.any fun r => r.waits.contains core) = true) fun m' =>
      m' = m.raise (32 * core + 29) 0 (some th) := by
  refine does_of_ans _ _ (execTlbShootdownTimeout.eq_def th core) id ?_
  rintro ⟨hfrozen, hwaits⟩
  rw [hfrozen, hwaits]
  rfl

end

/-! ### The line of a translation entry -/

section
variable {k k' : Core} {line key : Nat} {w x : L2Way}

/-- The way that holds a line. -/
theorem Core.line_of_find (h : k.find line = some (key, w)) : w.line = line := by
  obtain ⟨i, -, hi⟩ := List.exists_of_findSome?_eq_some h
  split at hi
  · split at hi
    · cases hi
      assumption
    · cases hi
  · cases hi

/-- A line is found in the way that it was found in, when that way is written with the same line. -/
theorem Core.find_of_tset (h : k.find line = some (key, w)) (hput : k'.l2 = tset k.l2 key x) (hx : x.line = line) :
    k'.find line = some (key, x) := by
  obtain ⟨before, i, behind, hrange, hi, hbefore⟩ := List.findSome?_eq_some_iff.1 h
  have hkey : 16 * (line % 1024) + i = key := by
    split at hi
    · split at hi
      · cases hi
        rfl
      · cases hi
    · cases hi
  refine List.findSome?_eq_some_iff.2 ⟨before, i, behind, hrange, ?_, fun j hj => ?_⟩
  · rw [hput, hkey, tfind_tset_same]
    exact if_pos hx
  · have hne : j ≠ i := by
      rintro rfl
      rw [hbefore j hj] at hi
      cases hi
    rw [hput, tfind_tset_ne _ _ _ _ (by omega)]
    exact hbefore j hj

end

section
variable {m : Mach} {th line key : Nat} {w : L2Way}

theorem Mach.l2Store_of_find (f : Line → Line) (h : (m.core (th / 2)).find line = some (key, w)) :
    tfind ((m.l2Store th line f).core (th / 2)).l2 key = some { w with st := .m, data := f w.data, age := 0, pf := false } := by
  unfold Mach.l2Store
  rw [h]
  dsimp only
  rw [Mach.core, Mach.onTh_cores]
  exact (congrArg (fun k : Core => tfind k.l2 key) (Mach.core_onCore_same ..)).trans (tfind_tset_same ..)

theorem Mach.l2Store_mem (f : Line → Line) : (m.l2Store th line f).mem = m.mem := by
  unfold Mach.l2Store
  split <;> rfl

/-- A hit that is counted changes registers and what its thread has counted. -/
theorem Mach.countHit_same (m : Mach) (th u : Nat) : { m.countHit th u with regs := m.regs, thr := m.thr } = m := by
  unfold Mach.countHit Mach.countCore
  split
  · rfl
  · split <;> rfl

/-- The machine after a demand hit of the L2 alone on the way `key` (R234, R250). -/
def Mach.hitWay (m : Mach) (th line key : Nat) (w : L2Way) : Mach :=
  (m.onCore (th / 2) fun k => (if w.pf then k.pfHit line else k).setWay key { w with age := 0, pf := false }).countHit th
    (LineUse.l2 (256 * line)).key

theorem Mach.hitWay_mem : (m.hitWay th line key w).mem = m.mem := (congrArg Mach.mem (Mach.countHit_same ..) :)

/-- The way of a hit is the newest, and no longer a prefetched one. -/
theorem Mach.find_hitWay (h : (m.core (th / 2)).find line = some (key, w)) :
    ((m.hitWay th line key w).core (th / 2)).find line = some (key, { w with age := 0, pf := false }) := by
  have hline : w.line = line := Core.line_of_find h
  refine Core.find_of_tset h ?_ hline
  have hcore (n : Mach) (u : Nat) : (n.countHit th u).core (th / 2) = n.core (th / 2) :=
    (congrArg (fun x : Mach => x.core (th / 2)) (n.countHit_same th u) :)
  rw [Mach.hitWay, hcore, Mach.core_onCore_same]
  cases w.pf <;> rfl

/-- The use of a line that the core holds exclusively, with no write to a home outstanding (R213, R235). -/
theorem useLine_of_held (hcomb : (m.core (th / 2)).comb = []) (hpend : (m.core (th / 2)).wpend = []) (hhome : (m.homeOf (256 * line)).isSome = true)
    (hfind : (m.core (th / 2)).find line = some (key, w)) (hst : w.st ≠ .s) (hpsn : w.psn = false) :
    useLine th line true .demand m = .ok w (m.hitWay th line key w) := by
  have htouch : m.combTouch (th / 2) line = m := by
    rw [Mach.combTouch, hcomb]
    rfl
  have hhome' : m.homeOf (256 * line) ≠ none := Option.isSome_iff_ne_none.1 hhome
  have hexcl : ¬ ((true && w.st == .s) = true) := by simpa using hst
  have hpsn' : ¬ (w.psn = true) := by simp [hpsn]
  unfold useLine useBy
  simp only [X.modify_bind, htouch, X.mach_bind, if_neg hhome', hpend, hfind, if_neg hexcl, if_neg hpsn']
  rfl

end

/-! ### The update of accessed and dirty bits -/

section
variable {m : Mach} {th pa old new key : Nat} {w : L2Way}

/-- An entry that is still as the walk read it passes the comparison outside the bits to be set. -/
theorem unchanged_outside (old set : Nat) : bits ((old ^^^ old) &&& (2 ^ 64 - 1 - set)) 63 0 = 0 := by
  rw [Nat.xor_self, Nat.zero_and]
  rfl

/-- The machine after the update of an unchanged entry, whose line was in the way `key` (R217). -/
def Mach.adUpdated (m : Mach) (th pa old new key : Nat) (w : L2Way) : Mach :=
  ((m.hitWay th (pa / 256) key w).l2Store th (pa / 256) fun d => linePut d (pa % 256) 8 (old ||| (new ^^^ old))).onTh th
    fun t => { t with adWait := none }

theorem exec_adBitUpdate (hth : th < 96) (hrun : m.executes th = true) (hdemand : m.isDemand th = true)
    (hwait : (m.th th).adWait = some (pa, old, new)) (hpatch : m.patchIn = none)
    (huse : useLine th (pa / 256) true .demand m = .ok w (m.hitWay th (pa / 256) key w)) (hold : lineGet w.data (pa % 256) 8 = old)
    (q : List Instr) : exec (.adBitUpdate th) ⟨q, m⟩ = .next ⟨q, m.adUpdated th pa old new key w⟩ := by
  have hgo : ¬ ((!m.executes th || !m.isDemand th || m.patchIn.isSome) = true) := by simp [hrun, hdemand, hpatch]
  show execAdBitUpdate th ⟨q, m⟩ = _
  unfold execAdBitUpdate
  rw [ans_ok _ _ _ (decide_eq_true hth)]
  simp only [hwait, if_neg hgo]
  rw [bind_ok _ _ _ _ _ huse]
  simp only [hold, if_pos (unchanged_outside old (new ^^^ old)), X.modify_bind]
  rfl

theorem does_adBitUpdate :
    Does m (.adBitUpdate th) (m.executes th = true ∧ m.isDemand th = true ∧ (m.th th).adWait = some (pa, old, new) ∧ m.patchIn = none ∧
        (m.core (th / 2)).comb = [] ∧ (m.core (th / 2)).wpend = [] ∧ (m.homeOf (256 * (pa / 256))).isSome = true ∧
        (m.core (th / 2)).find (pa / 256) = some (key, w) ∧ w.st ≠ .s ∧ w.psn = false ∧ lineGet w.data (pa % 256) 8 = old) fun m' =>
      (m'.th th).adWait = none ∧
      tfind (m'.core (th / 2)).l2 key =
        some { w with st := .m, data := linePut w.data (pa % 256) 8 (old ||| (new ^^^ old)), age := 0, pf := false } ∧ m'.mem = m.mem := by
  rintro hwf ⟨hrun, hdemand, hwait, hpatch, hcomb, hpend, hhome, hfind, hst, hpsn, hold⟩ q
  refine ⟨_, exec_adBitUpdate (of_decide_eq_true hwf) hrun hdemand hwait hpatch (useLine_of_held hcomb hpend hhome hfind hst hpsn) hold q, ?_⟩
  refine ⟨by rw [Mach.adUpdated, Mach.th_onTh_same], Mach.l2Store_of_find (w := { w with age := 0, pf := false }) _ (Mach.find_hitWay hfind), ?_⟩
  exact (Mach.l2Store_mem _).trans Mach.hitWay_mem

end

/-! ### O22 -/

/-- Settles O22, command by command: each has its own lemma above, and the machine that it leaves is read off there. -/
theorem shootdownAndUpdates : Obligations.ShootdownAndUpdates := by
  unfold Obligations.ShootdownAndUpdates
  intro m
  exact ⟨does_shootdownReceive, does_shootdownAck, does_tlbShootdownTimeout, fun _ _ _ _ _ _ => does_adBitUpdate⟩

end Sys2Proof.Machine
end

section
/-! The Sluice ring's time of day (R296), a coherence grant that meets a full combining line (R248, R276), and the refutations of O17 and O24. -/

namespace Sys2Proof.Machine

open Sys2Proof.Safety

/-- A command leaves one machine: two statements of what it does agree wherever the conditions of both hold. -/
theorem eq_of_does {m a b : Mach} {c : Instr} {h h' : Prop} (ha : Does m c h (· = a)) (hb : Does m c h' (· = b)) (hwf : c.wf = true)
    (hh : h) (hh' : h') : a = b := by
  obtain ⟨_, hexec, rfl⟩ := ha hwf hh []
  obtain ⟨_, hexec', rfl⟩ := hb hwf hh' []
  rw [hexec] at hexec'
  cases hexec'
  rfl

/-! ### The time of day of a receiver that agrees with its ring -/

section
variable {m : Mach}

theorem sx_difference_self (t : Nat) : sx 48 (t + 2 ^ 48 - t % 2 ^ 48) = 0 := by
  have hmod : (t + 2 ^ 48 - t % 2 ^ 48) % 2 ^ 48 = 0 := by omega
  rw [sx, hmod]
  rfl

@[simp] theorem Mach.passOn_tod (m : Mach) (ring num kind orig vote pay : Nat) : (m.passOn ring num kind orig vote pay).tod = m.tod :=
  apply_ite Mach.tod .. |>.trans (ite_self _)

/-- A count that is already the payload plus the delay takes a step of 0, and is cut to its 64 bits (R296). -/
theorem Mach.todSlot_agreed {ring num pay : Nat} (hmod : m.modNo ≠ 0) (hlocked : (if ring = 0 then m.sl.lockA else m.sl.lockB) = true)
    (htod : m.tod = pay + (if ring = 0 then m.sl.delayA else m.sl.delayB)) :
    m.todSlot ring num pay = (({ m with tod := m.tod % 2 ^ 64 } : Mach).set R.aq_sl_stat_tod_step 0).passOn ring num 1 0 0 pay := by
  have hcount : (((m.tod : Int) + 0) % 2 ^ 64).toNat = m.tod % 2 ^ 64 := by omega
  unfold Mach.todSlot
  simp only [if_neg hmod, hlocked, ← htod, sx_difference_self, hcount]
  rfl

/-- The operands that a slot of kind TOD leaves open are 0, so its own are all that have to be in range. -/
theorem tod_operands {ring num pay : Nat} (h : (Instr.tod ring num pay).wf = true) :
    (decide (ring < 2) && decide (num < 256) && decide (0 < 4) && decide (0 < 16) && decide (pay < 2 ^ 48)) = true := by
  change (decide (ring < 2) && decide (num < 256) && decide (pay < 2 ^ 48)) = true at h
  simpa using h

theorem does_tod (ring num pay : Nat) :
    Does m (.tod ring num pay) (m.frozen = false ∧ m.sluiceUsed = true ∧ m.modNo ≠ 0 ∧ (if ring = 0 then m.sl.lockA else m.sl.lockB) = true ∧
        m.tod = pay + (if ring = 0 then m.sl.delayA else m.sl.delayB)) fun m' =>
      m' = (({ m with tod := m.tod % 2 ^ 64 } : Mach).set R.aq_sl_stat_tod_step 0).passOn ring num 1 0 0 pay := by
  refine does_of_ans _ _ (execTod.eq_def ring num pay) tod_operands ?_
  rintro ⟨hfrozen, hused, hmod, hlocked, htod⟩
  rw [← Mach.todSlot_agreed hmod hlocked htod, if_neg (by simp [hfrozen, hused])]

end

/-! ### O17 -/

/-- Module 1 of two, locked to ring A, at a time of day of 2^64: more than its 64 bits hold, as no step of the module leaves it. -/
def overflownReceiver : Mach :=
  { Mach.reset.sets [(R.id_place_dsize, 2), (R.id_place_module, 1), (R.aq_sl_ctl_en, 1)] with
    tod := 2 ^ 64, sl := { Mach.reset.sl with lockA := true, delayA := 2 ^ 64 } }

theorem overflownReceiver_used : overflownReceiver.sluiceUsed = true ∧ overflownReceiver.modNo ≠ 0 := by decide

/-- Refutes O17: its clause on TOD bounds neither the time of day nor the measured delay.  Where the two agree at 2^64, which 64 bits do not
hold (no step leads there), the slot takes the count to 0, while the clause says that the count stays. -/
theorem not_sluiceRing : ¬ Obligations.SluiceRing := by
  unfold Obligations.SluiceRing
  intro h
  obtain ⟨-, -, -, -, -, -, -, -, -, htod, -⟩ := h overflownReceiver
  have hcond : overflownReceiver.frozen = false ∧ overflownReceiver.sluiceUsed = true ∧ overflownReceiver.modNo ≠ 0 ∧
      overflownReceiver.sl.lockA = true ∧ overflownReceiver.tod = 0 + overflownReceiver.sl.delayA :=
    ⟨rfl, overflownReceiver_used.1, overflownReceiver_used.2, rfl, rfl⟩
  have heq := eq_of_does (does_tod 0 0 0) (htod 0 0 0) (by decide) hcond hcond
  have hcount := congrArg Mach.tod heq
  simp only [Mach.passOn_tod, Mach.set_tod] at hcount
  exact absurd hcount (by decide)

end Sys2Proof.Machine
end

section
/-! The home's answer to a request for a line that is not busy (Table 9.5), and O23.  At a quiet home a request is accepted at once; it either
begins a transaction that has something to await, or, as an eviction that is answered EVA, ends the one it began. -/

namespace Sys2Proof.Machine

open Sys2Proof.Safety

/-! ### What the home's answers leave of its waiting messages -/

section
variable (m : Mach) (x : Msg)

@[simp] theorem Mach.homeSend_home (op dst : Nat) (y : Msg) : (m.homeSend op dst y).home = m.home :=
  (congrArg Mach.home (m.send_same op _) :)

@[simp] theorem Mach.probeAll_home (op : Nat) (l : List Nat) : (m.probeAll op x l).home = m.home :=
  foldl_keeps Mach.home (fun m a => m.homeSend_home op a _) l m

@[simp] theorem Mach.countBsn_home (s : Nat) (f : Fld) : (m.countBsn s f).home = m.home := by
  rw [Mach.countBsn, apply_ite Mach.home, Mach.count_home, ite_self]

theorem Mach.bsnEvict_early (k : Nat) : (m.bsnEvict k).home.early = m.home.early := by
  unfold Mach.bsnEvict
  split
  · rfl
  · dsimp only
    split <;> rfl

theorem Mach.bsnVictim_early (base n : Nat) : (m.bsnVictim base n).1.home.early = m.home.early := by
  induction n generalizing m with
  | zero => rfl
  | succ n ih =>
    unfold Mach.bsnVictim
    dsimp only
    split
    · rfl
    · split
      · rfl
      · split
        · rfl
        · exact ih _

/-- A clean line enters the Basin: no message that waits at the home is touched. -/
theorem Mach.bsnFill_clean_early (line : Nat) (d : Line) (psn : Bool) (age : Nat) :
    (m.bsnFill line d psn false age).home.early = m.home.early := by
  unfold Mach.bsnFill
  split
  · split <;> rfl
  · split
    · rfl
    · have hvictim := m.bsnVictim_early (basinBase line) 5
      split
      · next m1 k heq =>
        rw [heq] at hvictim
        exact (m1.bsnEvict_early k).trans hvictim
      · next m1 heq =>
        rw [heq] at hvictim
        exact hvictim

theorem Mach.homeSupply_early (line age : Nat) : (m.homeSupply line age).1.home.early = m.home.early := by
  unfold Mach.homeSupply
  dsimp only
  split
  · dsimp only
    rw [Mach.countBsn_home]
    rfl
  · dsimp only
    rw [Mach.bsnFill_clean_early, Mach.countBsn_home]

theorem Mach.supplyRds_early : (m.supplyRds x).home.early = m.home.early :=
  (congrArg HomeSt.early (Mach.homeSend_home ..)).trans (m.homeSupply_early x.line (m.supplyAge x))

theorem Mach.supplyRdx_early (n : Nat) : (m.supplyRdx x n).home.early = m.home.early :=
  (congrArg HomeSt.early (Mach.homeSend_home ..)).trans (m.homeSupply_early x.line 1)

theorem Mach.setDir_early (line : Nat) (e : DirE) : (m.setDir line e).home.early = m.home.early := rfl
theorem Mach.setDir_txn (line : Nat) (e : DirE) : (m.setDir line e).home.txn = m.home.txn := rfl
theorem Mach.setDir_waitq (line : Nat) (e : DirE) : (m.setDir line e).home.waitq = m.home.waitq := rfl

end

/-! ### A request at a quiet home -/

section
variable {m M : Mach} {x : Msg} {t : HomeTxn} {op line : Nat}

theorem Mach.joinEarly_of_none (h : m.home.early = []) : m.joinEarly op x = m := by
  unfold Mach.joinEarly
  rw [h]
  rfl

theorem Mach.homeServe_busy (htxn : tfind m.home.txn line = some t) (hwaits : t.complete = false) (n : Nat) : m.homeServe line n = m := by
  cases n with
  | zero => rfl
  | succ n =>
    unfold Mach.homeServe
    simp only [htxn, hwaits]
    rfl

theorem Mach.homeServe_ends (htxn : tfind m.home.txn line = some t) (hcomplete : t.complete = true) (n : Nat) :
    m.homeServe line (n + 1) = (m.homeEnd line t).homeServe line n := by
  rw [Mach.homeServe]
  simp only [htxn, hcomplete, if_true]

theorem Mach.homeServe_idle (htxn : tfind m.home.txn line = none) (hwaitq : m.home.waitq = []) (n : Nat) : m.homeServe line n = m := by
  cases n with
  | zero => rfl
  | succ n =>
    unfold Mach.homeServe
    simp only [htxn, hwaitq]
    rfl

/-- The home accepts the first request that waits for a line that is not busy and lies in no aperture. -/
theorem Mach.homeServe_accepts {y : Nat × Msg} {rest : List (Nat × Msg)} (htxn : tfind m.home.txn line = none)
    (hnext : takeFirst (fun y => y.2.line == line) m.home.waitq = some (y, rest)) (hsweep : m.home.sweeping = false)
    (hap : m.apLine line = false) (n : Nat) : m.homeServe line (n + 1) =
      ((({ m with home := { m.home with waitq := rest } } : Mach).homeStart y.1 y.2).joinEarly y.1 y.2).homeServe line n := by
  have hpage : m.pageWait line = false := by rw [Mach.pageWait, hap, Bool.false_and]
  have htouch : ({ m with home := { m.home with waitq := rest } } : Mach).touchPage line = { m with home := { m.home with waitq := rest } } :=
    if_neg (Bool.eq_false_iff.1 hap)
  rw [Mach.homeServe]
  simp only [htxn, hnext]
  rw [if_neg (Bool.eq_false_iff.1 hsweep), if_neg (Bool.eq_false_iff.1 hpage), htouch]

theorem Mach.with_waitq_nil (h : m.home.waitq = []) : ({ m with home := { m.home with waitq := [] } } : Mach) = m := by rw [← h]

/-- A quiet home accepts a request as it arrives. -/
theorem Mach.homeRequest_quiet (h : Quiet m x) (op : Nat) :
    m.homeRequest op x = ((m.homeStart op x).joinEarly op x).homeServe x.line 5 := by
  obtain ⟨hfrozen, -, hhome, hsweep, htxn, hwaitq, -, hap⟩ := h
  have hfirst : takeFirst (fun y : Nat × Msg => y.2.line == x.line) [(op, x)] = some ((op, x), []) := if_pos BEq.rfl
  unfold Mach.homeRequest
  rw [if_neg (by simp [hfrozen]), if_neg (by simp [hhome]), hwaitq]
  refine (Mach.homeServe_accepts (by exact htxn) (by exact hfirst) (by exact hsweep) (by exact hap) 5).trans ?_
  exact congrArg (fun m : Mach => ((m.homeStart op x).joinEarly op x).homeServe x.line 5) (Mach.with_waitq_nil hwaitq)

/-- The home starts a request of kind `op`: the machine `M`, its waiting messages as they were, with a transaction that awaits something. -/
structure Mach.Begins (m : Mach) (op : Nat) (x : Msg) (M : Mach) (t : HomeTxn) : Prop where
  start : m.homeStart op x = M.setTxn x.line t
  early : M.home.early = m.home.early
  waits : t.complete = false

theorem Mach.Begins.homeRequest (h : m.Begins op x M t) (hquiet : Quiet m x) : m.homeRequest op x = M.setTxn x.line t := by
  have ⟨_, _, _, _, _, _, hearly, _⟩ := hquiet
  have hnone : (M.setTxn x.line t).home.early = [] := h.early.trans hearly
  rw [Mach.homeRequest_quiet hquiet, h.start, Mach.joinEarly_of_none hnone]
  exact Mach.homeServe_busy (tfind_tset_same ..) h.waits 5

theorem tdel_tset {α : Type} {l : Tab α} {k : Nat} {v : α} (h : tfind l k = none) : tdel (tset l k v) k = l := by
  induction l with
  | nil => exact if_pos rfl
  | cons y r ih =>
    obtain ⟨k', w⟩ := y
    have hne : ¬ k' = k := fun he => by simp [tfind, he] at h
    have hrest : tfind r k = none := (if_neg hne).symm.trans h
    unfold tset
    split
    · exact if_pos rfl
    · rw [if_neg (Ne.symm hne)]
      exact (if_neg (Ne.symm hne)).trans (congrArg _ (ih hrest))

/-- The transaction of an eviction that has been answered EVA. -/
abbrev evaSent (x : Msg) : HomeTxn := { newTxn 0x07 x [] with done := true }

/-- An eviction whose answer is EVA leaves no transaction: the one it begins is complete. -/
theorem Mach.homeRequest_evaSent (hstart : m.homeStart 0x07 x = M.setTxn x.line (evaSent x)) (hkept : M.home.txn = m.home.txn)
    (hwaitq : M.home.waitq = m.home.waitq) (hearly : M.home.early = m.home.early) (hquiet : Quiet m x) : m.homeRequest 0x07 x = M := by
  have ⟨_, _, _, _, htxn, hnowaitq, hnoearly, _⟩ := hquiet
  have hnone : (M.setTxn x.line (evaSent x)).home.early = [] := hearly.trans hnoearly
  have hended : (M.setTxn x.line (evaSent x)).homeEnd x.line (evaSent x) = M := by
    show { M with home := { M.home with txn := tdel (tset M.home.txn x.line (evaSent x)) x.line } } = M
    rw [tdel_tset (hkept ▸ htxn)]
  rw [Mach.homeRequest_quiet hquiet, hstart, Mach.joinEarly_of_none hnone, Mach.homeServe_ends (tfind_tset_same ..) rfl, hended]
  exact Mach.homeServe_idle (hkept ▸ htxn) (hwaitq.trans hnowaitq) 4

end

/-! ### The commands -/

section
variable {m M : Mach} {x : Msg} {t : HomeTxn} {op : Nat} {c : Instr} {h : Prop}

/-- No armed checker: the look-up finds nothing, and the request goes on (R270, R271). -/
theorem Mach.homeLookup_unarmed (hfrozen : m.frozen = false) (h : Unarmed m x) : m.homeLookup op x 0 0 = m.homeRequest op x := by
  have hcheck : m.bsnCheck x.line 0 = m := by
    unfold Mach.bsnCheck
    split <;> rfl
  unfold Mach.homeLookup
  rw [if_neg (by simp [hfrozen]), h.1]
  dsimp only
  rw [h.2]
  dsimp only
  rw [hcheck, if_neg (by decide), if_neg (by decide)]

/-- A command that puts a request to a home does what the request does there. -/
theorem does_of_homeRequest {f : Mach → Mach} (hexec : ∀ s, exec c s = msgTo Mach.toHome x f s) (hwf : c.wf = true → x.wf = true)
    (hquiet : h → Quiet m x) (hf : h → f m = m.homeRequest op x) (hdoes : h → m.homeRequest op x = M) : Does m c h (· = M) := by
  refine does_of_ans x.wf _ hexec hwf fun hh => ?_
  have ⟨hfrozen, hhome, _⟩ := hquiet hh
  rw [if_neg (by simp [hfrozen]), if_pos hhome, hf hh, hdoes hh]

theorem does_of_begins (hexec : ∀ s, exec c s = msgTo Mach.toHome x (·.homeRequest op x) s) (hwf : c.wf = true → x.wf = true)
    (hquiet : h → Quiet m x) (hbegins : h → m.Begins op x M t) : Does m c h (· = M.setTxn x.line t) :=
  does_of_homeRequest hexec hwf hquiet (fun _ => rfl) fun hh => (hbegins hh).homeRequest (hquiet hh)

theorem does_of_lookup_begins (hexec : ∀ s, exec c s = msgTo Mach.toHome x (·.homeLookup op x 0 0) s) (hwf : c.wf = true → x.wf = true)
    (hbegins : h → m.Begins op x M t) : Does m c (Quiet m x ∧ Unarmed m x ∧ h) (· = M.setTxn x.line t) :=
  does_of_homeRequest hexec hwf And.left (fun ⟨hquiet, hunarmed, _⟩ => Mach.homeLookup_unarmed hquiet.1 hunarmed)
    fun ⟨hquiet, _, hh⟩ => (hbegins hh).homeRequest hquiet

/-- A request other than an eviction is not complete as it begins: it awaits DONE, or the data of a write. -/
theorem newTxn_waits {l : List Nat} (h : op ≠ 7 ∧ op ≠ 8) : (newTxn op x l).complete = false := by
  obtain ⟨h7, h8⟩ := h
  simp only [HomeTxn.complete, newTxn, h7, h8]
  split <;> simp

end

section
variable {m : Mach} {x : Msg} {o : Nat}

/-- The look-ups of an RDS or RDX play no part in whether its message is well formed. -/
theorem request_wf (h : (x.wf && decide (0 < 6) && decide (0 < 5)) = true) : x.wf = true := by simpa using h

theorem headD_of_head? {l : List Nat} {a : Nat} (h : l.head? = some o) : l.headD a = o := by rw [List.headD_eq_head?_getD, h]; rfl

theorem begins_rds (hst : (m.dirE x.line).st ≠ .x) :
    m.Begins 0x01 x ((m.supplyRds x).setDir x.line { ((m.dirE x.line).add x.src) with st := .s }) (newTxn 0x01 x []) where
  start := if_neg fun h => hst h.1
  early := by rw [Mach.setDir_early, Mach.supplyRds_early]
  waits := newTxn_waits (by decide)

theorem begins_rds_owned (hst : (m.dirE x.line).st = .x) (hhead : (m.dirE x.line).agents.head? = some o) (hother : o ≠ x.src) :
    m.Begins 0x01 x ((m.homeSend 0x11 o { noMsg with line := x.line, tag := x.tag, req := x.src }).setDir x.line
      { ((m.dirE x.line).add x.src) with st := .s }) (newTxn 0x01 x [o]) where
  start := by
    show ite _ _ _ = _
    rw [headD_of_head? hhead, if_pos ⟨hst, hother⟩]
  early := by rw [Mach.setDir_early, Mach.homeSend_home]
  waits := newTxn_waits (by decide)

theorem begins_rdx (hst : (m.dirE x.line).st ≠ .x) :
    m.Begins 0x02 x (((m.probeAll 0x13 x ((m.dirE x.line).agents.filter (· != x.src))).supplyRdx x
      ((m.dirE x.line).agents.filter (· != x.src)).length).setDir x.line { m.dirE x.line with st := .x, vec := 2 ^ x.src }) (newTxn 0x02 x []) where
  start := by
    show m.homeRdx x = _
    unfold Mach.homeRdx
    dsimp only
    split
    · contradiction
    · rfl
  early := by rw [Mach.setDir_early, Mach.supplyRdx_early, Mach.probeAll_home]
  waits := newTxn_waits (by decide)

theorem begins_rdx_owned (hst : (m.dirE x.line).st = .x) (hhead : (m.dirE x.line).agents.head? = some o) (hother : o ≠ x.src) :
    m.Begins 0x02 x ((m.homeSend 0x12 o { noMsg with line := x.line, tag := x.tag, req := x.src }).setDir x.line
      { m.dirE x.line with st := .x, vec := 2 ^ x.src }) (newTxn 0x02 x [o]) where
  start := by
    show m.homeRdx x = _
    unfold Mach.homeRdx
    simp only [hst, headD_of_head? hhead, if_neg hother]
  early := by rw [Mach.setDir_early, Mach.homeSend_home]
  waits := newTxn_waits (by decide)

theorem begins_upg (hst : (m.dirE x.line).st = .s) (hhas : (m.dirE x.line).has x.src = true) :
    m.Begins 0x03 x (((m.probeAll 0x13 x ((m.dirE x.line).agents.filter (· != x.src))).homeSend 0x22 x.src
      { noMsg with line := x.line, tag := x.tag, acks := ((m.dirE x.line).agents.filter (· != x.src)).length, st := 2 }).setDir x.line
        { m.dirE x.line with st := .x, vec := 2 ^ x.src }) (newTxn 0x03 x []) where
  start := if_pos ⟨hst, hhas⟩
  early := by rw [Mach.setDir_early, Mach.homeSend_home, Mach.probeAll_home]
  waits := newTxn_waits (by decide)

theorem begins_own :
    m.Begins 0x04 x (((m.probeAll 0x13 x ((m.dirE x.line).agents.filter (· != x.src))).homeSend 0x22 x.src
      { noMsg with line := x.line, tag := x.tag, acks := ((m.dirE x.line).agents.filter (· != x.src)).length, st := 3 }).setDir x.line
        { m.dirE x.line with st := .x, vec := 2 ^ x.src, psn := false }) (newTxn 0x04 x []) where
  start := rfl
  early := by rw [Mach.setDir_early, Mach.homeSend_home, Mach.probeAll_home]
  waits := newTxn_waits (by decide)

/-- WRF and WRM probe every holder and await them. -/
theorem begins_write {op : Nat} (hop : op = 0x05 ∨ op = 0x06) :
    m.Begins op x (m.probeAll 0x14 x (m.dirE x.line).agents) (newTxn op x (m.dirE x.line).agents) where
  start := by obtain rfl | rfl := hop <;> rfl
  early := by rw [Mach.probeAll_home]
  waits := newTxn_waits (by omega)

theorem begins_evd : m.Begins 0x08 x m { newTxn 0x08 x [] with dath := 1 } := ⟨rfl, rfl, rfl⟩

theorem does_evc_unnamed :
    Does m (.evc x) (Quiet m x ∧ (m.dirE x.line).has x.src = false) fun m' =>
      m' = m.homeSend 0x25 x.src { noMsg with line := x.line, tag := x.tag } := by
  refine does_of_homeRequest (execEvc.eq_def x) id And.left (fun _ => rfl) fun ⟨hquiet, hhas⟩ => ?_
  have hstart : m.homeStart 0x07 x = (m.homeSend 0x25 x.src { noMsg with line := x.line, tag := x.tag }).setTxn x.line (evaSent x) :=
    if_pos (by rw [hhas]; rfl)
  exact Mach.homeRequest_evaSent hstart (by rw [Mach.homeSend_home]) (by rw [Mach.homeSend_home]) (by rw [Mach.homeSend_home]) hquiet

theorem does_evc_inBasin :
    Does m (.evc x) (Quiet m x ∧ (m.dirE x.line).has x.src = true ∧ (m.bsnFind x.line).isSome = true) fun m' =>
      m' = (m.homeSend 0x25 x.src { noMsg with line := x.line, tag := x.tag }).setDir x.line ((m.dirE x.line).del x.src).norm := by
  refine does_of_homeRequest (execEvc.eq_def x) id And.left (fun _ => rfl) fun ⟨hquiet, hhas, hbasin⟩ => ?_
  have hstart : m.homeStart 0x07 x = ((m.homeSend 0x25 x.src { noMsg with line := x.line, tag := x.tag }).setDir x.line
      ((m.dirE x.line).del x.src).norm).setTxn x.line (evaSent x) :=
    (if_neg (by rw [hhas]; decide)).trans (if_pos hbasin)
  exact Mach.homeRequest_evaSent hstart (by rw [Mach.setDir_txn, Mach.homeSend_home]) (by rw [Mach.setDir_waitq, Mach.homeSend_home])
    (by rw [Mach.setDir_early, Mach.homeSend_home]) hquiet

theorem does_mov {t : HomeTxn} :
    Does m (.mov x) (m.frozen = false ∧ m.toHome x = true ∧ tfind m.home.txn x.line = some t ∧ t.agent = x.req ∧ t.req.tag = x.tag ∧
        m.home.waitq = []) fun m' =>
      m' = m.setTxn x.line { t with agent := x.aux % 256 } := by
  refine does_of_ans _ _ (execMov.eq_def x) id ?_
  rintro ⟨hfrozen, hhome, htxn, hagent, htag, hwaitq⟩
  rw [if_neg (by simp [hfrozen]), if_pos hhome]
  refine (if_neg (by simp [hfrozen])).trans ?_
  unfold Mach.homeMov
  simp only [htxn]
  rw [if_pos ⟨hagent, htag⟩]
  have hnone : (m.setTxn x.line { t with agent := x.aux % 256 }).home.waitq = [] := hwaitq
  rw [hnone]
  exact Mach.with_waitq_nil hnone

end

/-! ### O23 -/

/-- Settles O23, request by request: each begins its transaction as its lemma says, and the evictions answered EVA end theirs. -/
theorem homeRequests : Obligations.HomeRequests := by
  unfold Obligations.HomeRequests
  intro m
  refine ⟨fun x => ?rds, fun x o => ?rdsOwned, fun x => ?rdx, fun x o => ?rdxOwned, fun x => ?upg, fun x => ?own, fun x => ?wrf, fun x => ?wrm,
    fun _ => does_evc_unnamed, fun _ => does_evc_inBasin, fun x => ?evd, fun _ _ => does_mov⟩
  case rds => exact does_of_lookup_begins (execRds.eq_def x 0 0) request_wf begins_rds
  case rdsOwned =>
    exact does_of_lookup_begins (execRds.eq_def x 0 0) request_wf fun ⟨hst, hhead, hother⟩ => begins_rds_owned hst hhead hother
  case rdx => exact does_of_lookup_begins (execRdx.eq_def x 0 0) request_wf begins_rdx
  case rdxOwned =>
    exact does_of_lookup_begins (execRdx.eq_def x 0 0) request_wf fun ⟨hst, hhead, hother⟩ => begins_rdx_owned hst hhead hother
  case upg => exact does_of_begins (execUpg.eq_def x) id And.left fun ⟨_, hst, hhas⟩ => begins_upg hst hhas
  case own => exact does_of_begins (execOwn.eq_def x) id id fun _ => begins_own
  case wrf => exact does_of_begins (execWrf.eq_def x) id id fun _ => begins_write (.inl rfl)
  case wrm => exact does_of_begins (execWrm.eq_def x) id id fun _ => begins_write (.inr rfl)
  case evd => exact does_of_begins (execEvd.eq_def x) id id fun _ => begins_evd

end Sys2Proof.Machine
end

section
/-! A grant with data at a core that has an open combining line (R248, R276), and the refutation of O24. -/

namespace Sys2Proof.Machine

open Sys2Proof.Safety

/-! ### A line of the combining buffer goes out -/

@[simp] theorem Mach.send_cores (m : Mach) (op : Nat) (x : Msg) : (m.send op x).cores = m.cores := (congrArg Mach.cores (m.send_same op x) :)

@[simp] theorem Mach.countCore_cores (m : Mach) (c : Nat) (f : Fld) : (m.countCore c f).cores = m.cores := by
  rw [Mach.countCore, apply_ite Mach.cores, Mach.count_cores, ite_self]

theorem Mach.core_congr {m n : Mach} (h : n.cores = m.cores) (c : Nat) : n.core c = m.core c := by rw [Mach.core, h, Mach.core]

theorem Mach.homeWriteMsg_comb (m : Mach) (c th line : Nat) (data : Line) (mask : Nat) (store : Bool) :
    ((m.homeWriteMsg c th line data mask store).core c).comb = (m.core c).comb := by
  unfold Mach.homeWriteMsg
  rw [Mach.core_congr (Mach.send_cores ..), Mach.core_congr (Mach.send_cores ..), Mach.core_onCore_same]

/-- A combining line leaves the buffer when no earlier request or home write of its line is outstanding (R248). -/
theorem Mach.combOut_comb {m : Mach} {c : Nat} {x : CombLine} (h : (m.core c).asks x.line = false) :
    ((m.combOut c x).core c).comb = (m.core c).comb.filter fun y => y.line != x.line := by
  unfold Mach.combOut
  rw [if_neg (by simp [h])]
  extract_lets left full counted shown
  have hshown : (shown.core c).comb = (m.core c).comb.filter fun y => y.line != x.line := by
    have hcores : shown.cores = left.cores := by
      simp only [shown, counted, apply_ite Mach.cores, Mach.set_cores, Mach.countCore_cores, ite_self]
    rw [Mach.core_congr hcores, Mach.core_onCore_same]
  split
  · split
    · dsimp only
      rw [Mach.core_congr (Mach.onTh_cores ..), Mach.core_onCore_same]
      exact hshown
    · rw [Mach.homeWriteMsg_comb, hshown]
  · rw [Mach.homeWriteMsg_comb, hshown]

theorem Mach.combNext_of_full {m : Mach} {c line : Nat} {y : CombLine} (hfind : ((m.core c).comb.find? fun y => y.line == line) = some y)
    (hfull : y.mask = 2 ^ 256 - 1) : m.combNext c line = m.combOut c y := by
  simp only [Mach.combNext, hfind, hfull, BEq.rfl, Bool.true_or, if_true]

/-! ### A grant with data -/

section
variable {m m1 : Mach} {x : Msg} {y : Miss}

/-- The only outstanding request of a core, a demand for a shared line, whose data and acknowledgements are all here: the L2 is filled, the
request ends, DONE goes to the home, and the combining line that waited for the request may go out (R248, R276). -/
theorem Mach.finishMiss_demand {c n : Nat} {st : LSt} {d : Line} {p : Bool} (hgrant : y.grant = some (st, some (d, p))) (hacks : y.acks = some n)
    (hgot : n ≤ y.got) (hshared : y.excl = false) (hwhy : y.why = .demand) (hfill : m.fill c y.line st d p 0 false = some m1) :
    m.finishMiss c y = ((m1.onCore c fun k => { k with miss := k.miss.filter fun z => z.tag != y.tag }).send 0x23
      { noMsg with src := m1.agentOf c, dst := m1.homeAgent y.line, tag := y.tag, line := y.line }).combNext c y.line := by
  have hfilled : m.fill c y.line st d p (if MissFor.demand = MissFor.prefetch then 3 else 0) (MissFor.demand == MissFor.prefetch) = some m1 := hfill
  have hhold : m1.winDemand y = false := by rw [Mach.winDemand, hshared, Bool.false_and]
  unfold Mach.finishMiss
  simp only [hgrant, hacks, if_neg (Nat.not_lt.2 hgot), hwhy, hfilled, hhold]
  rfl

/-- The miss of the core that takes the data of message `x` for its one request `y`. -/
abbrev granted (x : Msg) (y : Miss) : Miss := { y with acks := some x.acks, grant := some (stOf x.st, some (x.data, x.psn)) }

theorem Mach.onCore_congr {m : Mach} {c : Nat} {f g : Core → Core} (h : f (m.core c) = g (m.core c)) : m.onCore c f = m.onCore c g := by
  rw [Mach.onCore, h, Mach.onCore]

theorem does_dataMsg :
    Does m (.dataMsg x) (m.frozen = false ∧ m.toCore x = true ∧ (m.core (x.dst % 64)).miss = [y] ∧ y.line = x.line ∧ y.tag = x.tag ∧
        y.excl = false ∧ y.why = .demand ∧ x.acks ≤ y.got ∧
        (m.onCore (x.dst % 64) fun k => { k with miss := [granted x y] }).fill (x.dst % 64) x.line (stOf x.st) x.data x.psn 0 false = some m1)
      fun m' =>
      m' = ((m1.onCore (x.dst % 64) fun k => { k with miss := k.miss.filter fun z => z.tag != y.tag }).send 0x23
        { noMsg with src := m1.agentOf (x.dst % 64), dst := m1.homeAgent x.line, tag := x.tag, line := x.line }).combNext (x.dst % 64) x.line := by
  refine does_of_ans _ _ (execDataMsg.eq_def x) id ?_
  rintro ⟨hfrozen, hcore, hmiss, hline, htag, hshared, hwhy, hgot, hfill⟩
  have hfind : ((m.core (x.dst % 64)).miss.find? fun y => y.line == x.line && (false || y.tag == x.tag)) = some y := by
    simp [hmiss, hline, htag]
  have hgrant : (m.onCore (x.dst % 64) fun k => { k with miss := updWhere (fun z => z.tag == y.tag) (granted x) k.miss }) =
      m.onCore (x.dst % 64) fun k => { k with miss := [granted x y] } :=
    Mach.onCore_congr (by simp [hmiss, updWhere])
  rw [if_neg (by simp [hfrozen]), if_pos hcore]
  unfold Mach.onMiss
  simp only [hfind, hfrozen]
  rw [← hline, ← htag]
  rw [← hline] at hfill
  exact (congrArg (Mach.finishMiss · _ (granted x y)) hgrant).trans (Mach.finishMiss_demand rfl rfl hgot hshared hwhy hfill)

end

/-! ### O24 -/

/-- A demand load of line 0, outstanding. -/
def loadMiss : Miss := ⟨0, 0, false, .demand, 0, none, 0, none⟩

/-- A combining line for line 0 that non-temporal stores have covered whole. -/
def fullLine : CombLine := ⟨0, 0, 2 ^ 256 - 1, 0⟩

/-- Core 0 waits for line 0 after a demand load, and has a full combining line of it, which stays until that request ends: an agent has one
request outstanding for a line (R248, R276). -/
def combWaiting : Mach := { Mach.reset with cores := [(0, { Core.init with miss := [loadMiss], comb := [fullLine] })] }

/-- `combWaiting` with the granted line in its L2, its request still there. -/
def combFilled : Mach :=
  (combWaiting.onCore 0 fun k => { k with miss := [granted noMsg loadMiss] }).onCore 0 (·.setWay 0 ⟨0, .s, 0, false, 0, false⟩)

/-- The machine that O24 says a DATA for line 0 leaves of `combWaiting`. -/
def combClaimed : Mach :=
  (combFilled.onCore 0 fun k => { k with miss := k.miss.filter fun z => z.tag != loadMiss.tag }).send 0x23
    { noMsg with src := combFilled.agentOf 0, dst := combFilled.homeAgent 0, tag := 0, line := 0 }

/-- Refutes O24: its clause on DATA leaves out the combining line that waited for the request.  That line goes out when the request ends
(R248): in `combClaimed` it still stands, while the model's core has sent it. -/
theorem not_homeAnswers : ¬ Obligations.HomeAnswers := by
  unfold Obligations.HomeAnswers
  intro h
  obtain ⟨-, -, -, -, -, -, -, -, -, -, -, -, -, -, hdata, -⟩ := h combWaiting
  have hcond : combWaiting.frozen = false ∧ combWaiting.toCore noMsg = true ∧ (combWaiting.core 0).miss = [loadMiss] ∧
      loadMiss.line = noMsg.line ∧ loadMiss.tag = noMsg.tag ∧ loadMiss.excl = false ∧ loadMiss.why = .demand ∧
      noMsg.acks ≤ loadMiss.got ∧
      (combWaiting.onCore 0 fun k => { k with miss := [granted noMsg loadMiss] }).fill 0 0 .s 0 false 0 false = some combFilled :=
    ⟨rfl, by decide, rfl, rfl, rfl, rfl, rfl, by decide, rfl⟩
  have heq : combClaimed.combNext 0 0 = combClaimed :=
    eq_of_does (does_dataMsg (x := noMsg) (y := loadMiss) (m1 := combFilled)) (hdata noMsg loadMiss combFilled) (by decide) hcond hcond
  have hcomb : (combClaimed.core 0).comb = [fullLine] := by
    rw [combClaimed, Mach.core_congr (Mach.send_cores ..)]
    rfl
  have hasks : (combClaimed.core 0).asks 0 = false := by
    rw [combClaimed, Mach.core_congr (Mach.send_cores ..)]
    rfl
  rw [Mach.combNext_of_full (y := fullLine) (by rw [hcomb]; rfl) rfl] at heq
  have hgone : (combClaimed.core 0).comb = [] := by
    rw [← heq, Mach.combOut_comb hasks, hcomb]
    rfl
  rw [hcomb] at hgone
  cases hgone

end Sys2Proof.Machine
end

section
/-! Fabric ports (R288 to R293), and O26.  What an up port does with a flit is said once, by what the flit is; a failed lane and a write of
the control register read their fields past the field that they have just written. -/

namespace Sys2Proof.Machine

open Sys2Proof.Safety

/-! ### Flits -/

/-- The machine after port `p` has taken in the message flit that it expects: its sequence number and received slots advance, the header's
acknowledgement and credits apply, the freed slots' credits go back, and the messages that are whole are delivered (R290). -/
def Mach.fabAccept (m : Mach) (p : Nat) (bytes : List Nat) : Mach :=
  let k := m.fabP p
  let rx := k.rx ++ flitSlots bytes
  (((m.setFabP p { k with rxSeq := (k.rxSeq + 1) % 1024, rx := rx }).fabHeader p (flitHead bytes)).fabAck p false
    ((m.slotVcs (rx.length + 1) rx).zipWith (· - ·) (m.slotVcs (k.rx.length + 1) k.rx))).assemble p rx.length

section
variable {m : Mach} {port : Nat} {bytes : List Nat}

/-- What an up port does with a flit that needed no correction: nak, acknowledgement and credits, or a message flit. -/
theorem Mach.fabFlit_up (hfrozen : m.frozen = false) (hup : m.get (R.aq_fab_stat_state port) = 6) : m.fabFlit port bytes false =
    if bytes.length ≠ 128 ∨ crc32c (bytes.take 124) ≠ ofBytes (bytes.drop 124) ∨ bits (flitHead bytes) 95 94 = 3 ∨
        (bits (flitHead bytes) 95 94 = 0 ∧ bits (flitHead bytes) 93 84 ≠ (m.fabP port).rxSeq) then m.fabAck port true []
    else if bits (flitHead bytes) 95 94 ≠ 0 then m.fabHeader port (flitHead bytes)
    else m.fabAccept port bytes := by
  rw [Mach.fabFlit, if_neg (by simp [hfrozen, hup])]
  rfl

theorem fabricFlit_port {fixed : Bool} (h : (Instr.fabricFlit port bytes fixed).wf = true) : decide (port < 12) = true :=
  (Bool.and_eq_true_iff.1 h).1

theorem does_fabricFlit_badCrc :
    Does m (.fabricFlit port bytes false) (m.frozen = false ∧ m.get (R.aq_fab_stat_state port) = 6 ∧ bytes.length = 128 ∧
        crc32c (bytes.take 124) ≠ ofBytes (bytes.drop 124)) fun m' =>
      m' = m.fabAck port true [] := by
  refine does_of_ans _ _ (execFabricFlit.eq_def port bytes false) fabricFlit_port ?_
  rintro ⟨hfrozen, hup, -, hcrc⟩
  rw [Mach.fabFlit_up hfrozen hup, if_pos (.inr (.inl hcrc))]

theorem does_fabricFlit_header :
    Does m (.fabricFlit port bytes false) (m.frozen = false ∧ m.get (R.aq_fab_stat_state port) = 6 ∧ flitGood bytes ∧
        (bits (flitHead bytes) 95 94 = 1 ∨ bits (flitHead bytes) 95 94 = 2)) fun m' =>
      m' = m.fabHeader port (flitHead bytes) := by
  refine does_of_ans _ _ (execFabricFlit.eq_def port bytes false) fabricFlit_port ?_
  rintro ⟨hfrozen, hup, ⟨hlen, hcrc⟩, hkind⟩
  have hacks : bits (flitHead bytes) 95 94 ≠ 3 ∧ bits (flitHead bytes) 95 94 ≠ 0 := by omega
  rw [Mach.fabFlit_up hfrozen hup, if_neg (by simp [hlen, hcrc, hacks]), if_pos hacks.2]

theorem does_fabricFlit_message :
    Does m (.fabricFlit port bytes false) (m.frozen = false ∧ m.get (R.aq_fab_stat_state port) = 6 ∧ flitGood bytes ∧
        bits (flitHead bytes) 95 94 = 0 ∧ bits (flitHead bytes) 93 84 = (m.fabP port).rxSeq) fun m' =>
      m' = m.fabAccept port bytes := by
  refine does_of_ans _ _ (execFabricFlit.eq_def port bytes false) fabricFlit_port ?_
  rintro ⟨hfrozen, hup, ⟨hlen, hcrc⟩, hkind, hseq⟩
  rw [Mach.fabFlit_up hfrozen hup, if_neg (by simp [hlen, hcrc, hkind, hseq]), if_neg (fun h => h hkind)]

/-! ### Lanes -/

section
variable {lane : Nat}

theorem testBit_two_pow_of_lt {n : Nat} (h : lane < n) : bit (2 ^ lane) n = false := by
  rw [bit, Nat.testBit_two_pow, decide_eq_false (Nat.ne_of_lt h)]

section
variable (m port) (v : Nat)

/-- The fields of the port's state register that lie below the failed lanes keep their values when those are written. -/
theorem Mach.get_setFailed {f : Fld} (hblk : f.blk = .aq) (hoff : f.off = 0xa01008 + 0x20 * port) (hbelow : f.hi < 12) :
    (m.set (R.aq_fab_stat_failed port) v).get f = m.get f :=
  have hle : 12 ≤ 28 := by decide
  m.get_set_beside _ f v hblk hoff hle (Nat.lt_trans hbelow (by decide)) (.inl hbelow)

theorem Mach.on_setFailed_spareUsed : (m.set (R.aq_fab_stat_failed port) v).on (R.aq_fab_stat_spare_used port) =
    m.on (R.aq_fab_stat_spare_used port) :=
  congrArg (· != 0) (m.get_setFailed port v rfl rfl (Nat.le_of_ble_eq_true rfl))

theorem Mach.get_setFailed_spareFor : (m.set (R.aq_fab_stat_failed port) v).get (R.aq_fab_stat_spare_for port) =
    m.get (R.aq_fab_stat_spare_for port) :=
  m.get_setFailed port v rfl rfl (Nat.le_of_ble_eq_true rfl)

theorem Mach.get_setFailed_width : (m.set (R.aq_fab_stat_failed port) v).get (R.aq_fab_stat_width port) = m.get (R.aq_fab_stat_width port) :=
  m.get_setFailed port v rfl rfl (Nat.le_of_ble_eq_true rfl)

theorem Mach.on_setFailed_spareEn : (m.set (R.aq_fab_stat_failed port) v).on (R.aq_fab_ctl_spare_en port) =
    m.on (R.aq_fab_ctl_spare_en port) :=
  congrArg (· != 0) (m.get_set_other _ _ v (.inr (by show 0xa01000 + 0x20 * port ≠ 0xa01008 + 0x20 * port; omega)))

end

theorem does_fabricLaneFailure_spare :
    Does m (.fabricLaneFailure port lane) (m.frozen = false ∧ m.get (R.aq_fab_stat_state port) = 6 ∧ m.get (R.aq_fab_stat_width port) = 2 ∧
        m.get (R.aq_fab_stat_failed port) = 0 ∧ m.on (R.aq_fab_stat_spare_used port) = false ∧ m.on (R.aq_fab_ctl_spare_en port) = true ∧
        lane < 16) fun m' =>
      m' = (((m.set (R.aq_fab_stat_failed port) (2 ^ lane)).sets [(R.aq_fab_stat_spare_used port, 1), (R.aq_fab_stat_spare_for port, lane)]).aqError
        0x41 port 0).emit (.frame 3 port [lane]) := by
  refine does_of_ans _ _ (execFabricLaneFailure.eq_def port lane) id ?_
  rintro ⟨hfrozen, hup, hwidth, hfailed, hused, hspare, hlane⟩
  unfold Mach.fabLaneFail
  rw [if_neg (by simp [hfrozen, hup, hfailed, bit])]
  simp only [hfailed, Nat.zero_or, Mach.on_setFailed_spareUsed, Mach.on_setFailed_spareEn, Mach.get_setFailed_width, hused, hspare, hwidth,
    testBit_two_pow_of_lt hlane]
  exact (if_neg (by omega)).trans (if_pos rfl)

/-- At x8 with the spare in use, another failed lane of the half that carries the port takes it down. -/
theorem does_fabricLaneFailure_down :
    Does m (.fabricLaneFailure port lane) (m.frozen = false ∧ m.get (R.aq_fab_stat_state port) = 6 ∧ lane < 16 ∧
        bit (m.get (R.aq_fab_stat_failed port)) lane = false ∧ m.on (R.aq_fab_stat_spare_used port) = true ∧
        m.get (R.aq_fab_stat_width port) = 1 ∧ lane / 8 = m.get (R.aq_fab_stat_spare_for port) / 8) fun m' =>
      m' = (m.set (R.aq_fab_stat_failed port) (m.get (R.aq_fab_stat_failed port) ||| 2 ^ lane)).fabDown port 9 0x43 := by
  refine does_of_ans _ _ (execFabricLaneFailure.eq_def port lane) id ?_
  rintro ⟨hfrozen, hup, hlane, hnew, hused, hwidth, hhalf⟩
  unfold Mach.fabLaneFail
  rw [if_neg (by simp [hfrozen, hup, hnew])]
  simp only [Mach.on_setFailed_spareUsed, Mach.get_setFailed_spareFor, Mach.get_setFailed_width, Mach.halfUsed, hused, hwidth, hhalf]
  rw [if_neg (by simp), if_neg (by simp), if_neg (by simp)]

theorem does_fabricLanemap :
    Does m (.fabricLanemap port lane) (m.frozen = false ∧ m.get (R.aq_fab_stat_state port) = 6) fun m' =>
      m' = m.sets [(R.aq_fab_stat_failed port, m.get (R.aq_fab_stat_failed port) ||| 2 ^ lane), (R.aq_fab_stat_spare_used port, 1),
        (R.aq_fab_stat_spare_for port, lane)] := by
  refine does_of_ans _ _ (execFabricLanemap.eq_def port lane) id ?_
  rintro ⟨hfrozen, hup⟩
  rw [if_neg (by simp [hfrozen, hup])]

end

/-! ### Training (Table 9.8) -/

theorem does_fabricRetrainAtX8Done :
    Does m (.fabricRetrainAtX8Done port) (m.frozen = false ∧ m.get (R.aq_fab_stat_state port) = 3 ∧ m.get (R.aq_fab_stat_width port) = 1 ∧
        bit (m.get R.id_ports_fab) port = true ∧ (m.fabP port).replay = [] ∧ (m.fabP port).waiting = []) fun m' =>
      m' = m.set (R.aq_fab_stat_state port) 6 := by
  refine does_of_ans _ _ (execFabricRetrainAtX8Done.eq_def port) id ?_
  rintro ⟨hfrozen, hstate, hwidth, hfab, hreplay, hwaiting⟩
  have hport : (m.set (R.aq_fab_stat_state port) 6).fabP port = m.fabP port := rfl
  rw [if_neg (by simp [hfrozen, hstate, hwidth, hfab])]
  simp only [hport, hreplay, List.foldl_nil, hwaiting, List.length_nil]
  rfl

theorem does_fabricTrainingStart :
    Does m (.fabricTrainingStart port) (m.frozen = false ∧ m.on (R.aq_fab_ctl_en port) = true ∧ m.get (R.aq_fab_stat_state port) ≠ 6) fun m' =>
      m' = m.fabTrain port := by
  refine does_of_ans _ _ (execFabricTrainingStart.eq_def port) id ?_
  rintro ⟨hfrozen, hen, hdown⟩
  rw [if_neg (by simp [hfrozen, hen, hdown])]

/-- Every lane has locked: alignment begins at x16. -/
theorem does_fabricEqualisationEnd {locked : Nat} :
    Does m (.fabricEqualisationEnd port locked) (m.frozen = false ∧ (m.get (R.aq_fab_stat_state port) = 1 ∨ m.get (R.aq_fab_stat_state port) = 2) ∧
        locked % 2 ^ 17 = 2 ^ 17 - 1) fun m' =>
      m' = (m.set (R.aq_fab_stat_failed port) 0).sets [(R.aq_fab_stat_width port, 2), (R.aq_fab_stat_state port, 3)] := by
  refine does_of_ans _ _ (execFabricEqualisationEnd.eq_def port locked) (fun h => (Bool.and_eq_true_iff.1 h).1) ?_
  rintro ⟨hfrozen, hstate, hlocked⟩
  have hnone : failedIn 0 0 + failedIn 0 8 = 0 := by decide
  have hbegun : (m.get (R.aq_fab_stat_state port) == 1 || m.get (R.aq_fab_stat_state port) == 2) = true := by
    obtain h | h := hstate <;> rw [h] <;> rfl
  dsimp only
  rw [if_neg (by rw [hfrozen, hbegun]; decide), hlocked, Nat.xor_self, if_pos hnone]

section
variable {md far size : Nat}

theorem fabricIdent_port (h : (Instr.fabricIdent port md far size).wf = true) : decide (port < 12) = true :=
  (Bool.and_eq_true_iff.1 (Bool.and_eq_true_iff.1 (Bool.and_eq_true_iff.1 h).1).1).1

theorem does_fabricIdent_expected :
    Does m (.fabricIdent port md far size) (m.frozen = false ∧ m.get (R.aq_fab_stat_state port) = 3 ∧ bit (m.get R.id_ports_fab) port = false ∧
        md = (m.modNo + port % 3 + 1) % 4 ∧ far = 3 * (port / 3) + (2 - port % 3) ∧ size = m.dsize) fun m' =>
      m' = m.sets [(R.aq_fab_stat_state port, 4), (R.aq_fab_stat_peer_mod port, md), (R.aq_fab_stat_peer_port port, far)] := by
  refine does_of_ans _ _ (execFabricIdent.eq_def port md far size) fabricIdent_port ?_
  rintro ⟨hfrozen, hstate, hfab, hexpected⟩
  rw [if_neg (by simp [hfrozen, hstate, hfab]), if_pos hexpected]

theorem does_fabricIdent_refused :
    Does m (.fabricIdent port md far size) (m.frozen = false ∧ m.get (R.aq_fab_stat_state port) = 3 ∧ bit (m.get R.id_ports_fab) port = false ∧
        md ≠ (m.modNo + port % 3 + 1) % 4) fun m' =>
      m' = (m.set (R.aq_fab_stat_state port) 8).aqError 0x45 port 0 := by
  refine does_of_ans _ _ (execFabricIdent.eq_def port md far size) fabricIdent_port ?_
  rintro ⟨hfrozen, hstate, hfab, hother⟩
  rw [if_neg (by simp [hfrozen, hstate, hfab]), if_neg (fun h => hother h.1)]

end

theorem does_fabricCrdinit :
    Does m (.fabricCrdinit port) (m.frozen = false ∧ m.get (R.aq_fab_stat_state port) = 4 ∧ (m.fabP port).replay = [] ∧
        (m.fabP port).waiting = []) fun m' =>
      m' = (m.setFabP port ⟨0, 0, [], [], [256, 256, 512, 2176], false, []⟩).sets
        [(R.aq_fab_stat_state port, 6), (R.id_ports_fab, m.get R.id_ports_fab ||| 2 ^ port), (R.aq_fab_ctl_retrain port, 0)] := by
  refine does_of_ans _ _ (execFabricCrdinit.eq_def port) id ?_
  rintro ⟨hfrozen, hstate, hreplay, hwaiting⟩
  rw [if_neg (by simp [hfrozen, hstate])]
  simp only [hreplay, hwaiting, List.map_nil, List.append_nil, List.length_nil]
  rfl

/-! ### A write of the control register -/

section
variable {val : Nat}

theorem does_fabricPortControlWrite_enable :
    Does m (.fabricPortControlWrite port val) (m.frozen = false ∧ m.on (R.aq_fab_ctl_en port) = false ∧ bit val 0 = true) fun m' =>
      m' = ((m.sets [(R.aq_fab_ctl_lthr port, bits val 23 8), (R.aq_fab_ctl_spare_en port, bits val 1 1)]).set (R.aq_fab_ctl_en port) 1).fabTrain
        port := by
  refine does_of_ans _ _ (execFabricPortControlWrite.eq_def port val) (fun h => (Bool.and_eq_true_iff.1 h).1) ?_
  rintro ⟨hfrozen, hoff, hset⟩
  unfold Mach.fabCtl
  simp only [hfrozen, hoff, hset]
  rfl

/-- Outside M6 a port stays enabled (R53). -/
theorem does_fabricPortControlWrite_kept :
    Does m (.fabricPortControlWrite port val) (m.frozen = false ∧ m.on (R.aq_fab_ctl_en port) = true ∧ bit val 0 = false ∧ m.mode_ ≠ 6) fun m' =>
      m' = m.sets [(R.aq_fab_ctl_lthr port, bits val 23 8), (R.aq_fab_ctl_spare_en port, bits val 1 1)] := by
  refine does_of_ans _ _ (execFabricPortControlWrite.eq_def port val) (fun h => (Bool.and_eq_true_iff.1 h).1) ?_
  rintro ⟨hfrozen, hon, hclear, hmode⟩
  unfold Mach.fabCtl
  simp only [hfrozen, hon, hclear, beq_eq_false_iff_ne.2 hmode]
  rfl

end

end

/-! ### O26 -/

/-- Settles O26, command by command: the lemmas above say what each does in the case that its clause names. -/
theorem fabricPorts : Obligations.FabricPorts := by
  unfold Obligations.FabricPorts
  intro m
  exact ⟨fun _ _ => does_fabricFlit_badCrc, fun _ _ => does_fabricFlit_header, fun _ _ => does_fabricFlit_message,
    fun _ _ => does_fabricLaneFailure_spare, fun _ _ => does_fabricLaneFailure_down, fun _ _ => does_fabricLanemap,
    fun _ => does_fabricRetrainAtX8Done, fun _ => does_fabricTrainingStart, fun _ _ => does_fabricEqualisationEnd,
    fun _ _ _ _ => does_fabricIdent_expected, fun _ _ _ _ => does_fabricIdent_refused, fun _ => does_fabricCrdinit,
    fun _ _ => does_fabricPortControlWrite_enable, fun _ _ => does_fabricPortControlWrite_kept⟩

end Sys2Proof.Machine
end

section
/-! Memory ports (R305 to R312, R317 to R320), and O27.  Issuing a command touches the ports and what is sent, nothing else; a response takes its
command out of those outstanding; what the link, the lanes, the training and the requests of a port do is said command by command. -/

namespace Sys2Proof.Machine

open Sys2Proof.Safety

/-! ### What issuing a command leaves -/

/-- `m'` is `m` but for its memory ports and what it has sent. -/
abbrev SameButPorts (m m' : Mach) : Prop := { m' with memp := { m'.memp with ports := m.memp.ports }, sent := m.sent } = m

theorem SameButPorts.trans {m m1 m2 : Mach} (h : SameButPorts m m1) (h1 : SameButPorts m1 m2) : SameButPorts m m2 :=
  (congrArg (fun x : Mach => { x with memp := { x.memp with ports := m.memp.ports }, sent := m.sent }) h1).trans h

section
variable (m : Mach) (p op addr : Nat) (slots : Nat → List Nat)

theorem Mach.memSend_same (n : Nat) : SameButPorts m (m.memSend p n) := by
  induction n generalizing m with
  | zero => rfl
  | succ n ih =>
    unfold Mach.memSend
    dsimp only
    split
    · rfl
    · split
      · rfl
      · refine SameButPorts.trans ?_ (ih _)
        rfl

theorem Mach.memIssue_same : SameButPorts m (m.memIssue p op addr slots) := by
  unfold Mach.memIssue
  dsimp only
  split
  · rfl
  · split
    · rfl
    · refine SameButPorts.trans ?_ (Mach.memSend_same _ _ _)
      rfl

theorem Mach.memIssue_frozenThread : (m.memIssue p op addr slots).frozenThread = m.frozenThread :=
  (congrArg Mach.frozenThread (m.memIssue_same p op addr slots) :)

end

/-! ### Commands (Table 10.6) -/

/-- The first operand of a command is in range when all are. -/
theorem left_of_and {a b : Bool} (h : (a && b) = true) : a = true := (Bool.and_eq_true_iff.1 h).1

/-- A command that does nothing in a checkstop, and otherwise changes the machine by `f` for operands in range. -/
theorem does_of_unlessFrozen {m : Mach} {c : Instr} {h : Prop} {P : Mach → Prop} (ok : Bool) (f : Mach → Mach)
    (hexec : ∀ s, exec c s = ans ok s fun m => if m.frozen then m else f m) (hok : c.wf = true → ok = true) (hP : h → P (f m)) :
    Does m c (m.frozen = false ∧ h) P :=
  does_of_ans ok _ hexec hok fun ⟨hfrozen, hh⟩ => by
    rw [hfrozen, if_neg Bool.false_ne_true]
    exact hP hh

section
variable {m : Mach} {port : Nat}

theorem does_memRd {addr : Nat} :
    Does m (.memRd port addr) (m.frozen = false) fun m' => m' = m.memIssue port 1 addr fun t => [memHead 1 t addr 0 0 0] := by
  refine does_of_ans _ _ (execMemRd.eq_def port addr) left_of_and fun hfrozen => ?_
  rw [hfrozen, if_neg Bool.false_ne_true]
  rfl

/-- The write of a piece carries the piece and its check word (R305), and is counted. -/
theorem does_memWr {addr : Nat} :
    Does m (.memWr port addr) (m.frozen = false ∧ (List.range 96).any m.frozenThread = false) fun m' =>
      m' = (m.memIssue port 2 addr fun t => memHead 2 t addr (pieceCrc port addr (piece (m.mem.rdLine (m.lineAt port addr)) (pieceOn port addr)))
          (b2n (m.dirE (m.lineAt port addr)).psn) 1 :: (List.range 4).map fun i =>
            (piece (m.mem.rdLine (m.lineAt port addr)) (pieceOn port addr) >>> (128 * (3 - i))) % 2 ^ 128).count (R.mem_port_perf_wr port) := by
  refine does_of_unlessFrozen _ _ (execMemWr.eq_def port addr) left_of_and fun hcounts => ?_
  unfold Mach.memWr Mach.countMem
  dsimp only
  rw [Mach.memIssue_frozenThread, hcounts, if_neg Bool.false_ne_true]

theorem does_memCrd {reg : Nat} :
    Does m (.memCrd port reg) (m.frozen = false) fun m' => m' = m.memIssue port 3 reg fun t => [memHead 3 t reg 0 0 0] := by
  refine does_of_ans _ _ (execMemCrd.eq_def port reg) left_of_and fun hfrozen => ?_
  rw [hfrozen, if_neg Bool.false_ne_true]

theorem does_memCwr {reg val : Nat} :
    Does m (.memCwr port reg val) (m.frozen = false) fun m' => m' = m.memIssue port 4 reg fun t => [memHead 4 t reg val 0 0] := by
  refine does_of_ans _ _ (execMemCwr.eq_def port reg val) (fun h => left_of_and (left_of_and h)) fun hfrozen => ?_
  rw [hfrozen, if_neg Bool.false_ne_true]

/-! ### Responses (R306, R319) -/

section
variable {tag : Nat} {c : MemCmd} {rest : List MemCmd}

/-- A response for `tag` finds the command `c` of one of `ops` outstanding at a port, and `rest` beside it. -/
abbrev Mach.Answers (m : Mach) (port tag : Nat) (ops : List Nat) (c : MemCmd) (rest : List MemCmd) : Prop :=
  takeFirst (fun (c : MemCmd) => c.tag == tag && ops.contains c.op) (m.memP port).out = some (c, rest)

theorem Mach.memAnswer_of_answers {ops : List Nat} (h : m.Answers port tag ops c rest) :
    m.memAnswer port tag ops = some (c, m.onMemP port fun y => { y with out := rest }) := by
  rw [Mach.memAnswer, h]
  rfl

section
variable {pc crc ver : Nat} {psn : Bool}

theorem memRdd_port (h : (Instr.memRdd port tag pc crc psn ver).wf = true) : decide (port < 20) = true :=
  left_of_and (left_of_and (left_of_and (left_of_and h)))

theorem does_memRdd_good :
    Does m (.memRdd port tag pc crc psn ver) (m.frozen = false ∧ m.Answers port tag [1] c rest ∧ crc = pieceCrc port c.addr pc ∧ ver = 1) fun m' =>
      m' = ((m.onMemP port fun y => { y with out := rest }).pieceIn port c.addr (some (pc, psn))).countMem (R.mem_port_perf_rd port) := by
  refine does_of_unlessFrozen _ _ (execMemRdd.eq_def port tag pc crc psn ver) memRdd_port ?_
  rintro ⟨hanswers, hgood⟩
  rw [Mach.memAnswer_of_answers hanswers]
  dsimp only
  rw [if_pos hgood]

theorem does_memRdd_bad :
    Does m (.memRdd port tag pc crc psn ver) (m.frozen = false ∧ m.Answers port tag [1] c rest ∧ crc ≠ pieceCrc port c.addr pc) fun m' =>
      m' = ((m.onMemP port fun y => { y with out := rest }).pieceIn port c.addr none).countMem (R.mem_port_perf_rd port) := by
  refine does_of_unlessFrozen _ _ (execMemRdd.eq_def port tag pc crc psn ver) memRdd_port ?_
  rintro ⟨hanswers, hbad⟩
  rw [Mach.memAnswer_of_answers hanswers]
  dsimp only
  rw [if_neg fun h => hbad h.1]

end

theorem does_memRerr :
    Does m (.memRerr port tag) (m.frozen = false ∧ m.Answers port tag [1] c rest) fun m' =>
      m' = (m.onMemP port fun y => { y with out := rest }).pieceIn port c.addr none := by
  refine does_of_unlessFrozen _ _ (execMemRerr.eq_def port tag) left_of_and fun hanswers => ?_
  rw [Mach.memAnswer_of_answers hanswers]

theorem does_memWra :
    Does m (.memWra port tag) (m.frozen = false ∧ m.Answers port tag [2, 4] c rest) fun m' =>
      m' = m.onMemP port fun y => { y with out := rest } := by
  refine does_of_unlessFrozen _ _ (execMemWra.eq_def port tag) left_of_and fun hanswers => ?_
  rw [Mach.memAnswer_of_answers hanswers]
  rfl

theorem does_memCra {val : Nat} :
    Does m (.memCra port tag val) (m.frozen = false ∧ m.Answers port tag [3] c rest) fun m' =>
      m' = (m.onMemP port fun y => { y with out := rest }).onMemP port fun x => { x with cra := some (c.addr, val) } := by
  refine does_of_unlessFrozen _ _ (execMemCra.eq_def port tag val) (fun h => left_of_and (left_of_and h)) fun hanswers => ?_
  rw [Mach.memAnswer_of_answers hanswers]

theorem does_memResponseTimeout :
    Does m (.memResponseTimeout port tag) (m.frozen = false ∧ ((m.memP port).out.any fun c => c.tag == tag) = true) fun m' =>
      m' = m.losePort port 7 0x66 := by
  refine does_of_ans _ _ (execMemResponseTimeout.eq_def port tag) left_of_and ?_
  rintro ⟨hfrozen, hout⟩
  rw [hfrozen, hout, if_neg (by decide)]

end

/-! ### The link (R317, R290) -/

section
variable {bytes : List Nat}

theorem does_memoryLinkFlit_badCrc :
    Does m (.memoryLinkFlit port bytes) (m.frozen = false ∧ m.get (R.mem_port_stat_state port) = 6 ∧ bytes.length = 128 ∧
        crc32c (bytes.take 124) ≠ ofBytes (bytes.drop 124)) fun m' =>
      m' = m.emit (.frame 5 port [((m.memP port).link.rxSeq + 1023) % 1024, 1]) := by
  refine does_of_ans _ _ (execMemoryLinkFlit.eq_def port bytes) left_of_and ?_
  rintro ⟨hfrozen, hup, -, hcrc⟩
  rw [Mach.memFlit, if_neg (by simp [hfrozen, hup])]
  exact if_pos (.inr (.inl hcrc))

/-- The machine after port `p` has taken in the message flit that it expects, one without an acknowledgement: the credits apply, the flit is
acknowledged, its slots join those received, and the complete responses among them are delivered (R290, R319). -/
def Mach.memAccept (m : Mach) (p : Nat) (bytes : List Nat) : Mach :=
  ((m.onMemP p fun x => { x with link := { x.link with
      rxSeq := (x.link.rxSeq + 1) % 1024, rx := x.link.rx ++ flitSlots bytes,
      credits := [x.link.credits.getD 0 0 + bits (flitHead bytes) 71 64, x.link.credits.getD 1 0 + bits (flitHead bytes) 47 40] } }).emit
    (.frame 5 p [(m.memP p).link.rxSeq, 0])).memDeliver p ((m.memP p).link.rx.length + (flitSlots bytes).length)

theorem does_memoryLinkFlit_message :
    Does m (.memoryLinkFlit port bytes) (m.frozen = false ∧ m.get (R.mem_port_stat_state port) = 6 ∧ flitGood bytes ∧
        bits (flitHead bytes) 95 94 = 0 ∧ bits (flitHead bytes) 93 84 = (m.memP port).link.rxSeq ∧ bit (flitHead bytes) 73 = false ∧
        bit (flitHead bytes) 72 = false ∧ (m.memP port).link.waiting = []) fun m' =>
      m' = m.memAccept port bytes := by
  refine does_of_ans _ _ (execMemoryLinkFlit.eq_def port bytes) left_of_and ?_
  rintro ⟨hfrozen, hup, ⟨hlen, hcrc⟩, hkind, hseq, hack, hresend, hwaiting⟩
  have hsend : (m.memP port).link.waiting.length = 0 := congrArg List.length hwaiting
  rw [Mach.memFlit, if_neg (by simp [hfrozen, hup])]
  refine (if_neg (by simp [hlen, hcrc, hkind, hseq])).trans ?_
  simp only [hkind, hack, hresend, Bool.false_eq_true, if_false, Bool.false_and, ne_eq, not_true, hsend]
  rfl

end

/-! ### Lanes (R320) -/

section
variable {lane : Nat}

theorem does_memLaneFailure_spare :
    Does m (.memLaneFailure port lane) (m.frozen = false ∧ m.get (R.mem_port_stat_state port) = 6 ∧ m.get (R.mem_port_stat_failed port) = 0 ∧
        lane < 8) fun m' =>
      m' = (((m.set (R.mem_port_stat_failed port) (2 ^ lane)).sets [(R.mem_port_stat_spare_used port, 1), (R.mem_port_stat_spare_for port, lane)]).memError
        0x63 port 0).emit (.frame 6 port [lane]) := by
  refine does_of_ans _ _ (execMemLaneFailure.eq_def port lane) id ?_
  rintro ⟨hfrozen, hup, hfailed, hlane⟩
  rw [if_neg (by simp [hfrozen, hup, hfailed, bit])]
  dsimp only
  rw [hfailed, Nat.zero_or, if_neg (fun h => h rfl), if_neg (Nat.ne_of_lt hlane)]

theorem does_memLaneFailure_lost :
    Does m (.memLaneFailure port lane) (m.frozen = false ∧ m.get (R.mem_port_stat_state port) = 6 ∧ m.get (R.mem_port_stat_failed port) ≠ 0 ∧
        bit (m.get (R.mem_port_stat_failed port)) lane = false) fun m' =>
      m' = (m.set (R.mem_port_stat_failed port) (m.get (R.mem_port_stat_failed port) ||| 2 ^ lane)).losePort port 7 0 := by
  refine does_of_ans _ _ (execMemLaneFailure.eq_def port lane) id ?_
  rintro ⟨hfrozen, hup, hfailed, hnew⟩
  rw [if_neg (by simp [hfrozen, hup, hnew])]
  exact if_pos hfailed

theorem does_memLanemap :
    Does m (.memLanemap port lane) (m.frozen = false ∧ m.get (R.mem_port_stat_state port) = 6) fun m' =>
      m' = m.sets [(R.mem_port_stat_failed port, m.get (R.mem_port_stat_failed port) ||| 2 ^ lane), (R.mem_port_stat_spare_used port, 1),
        (R.mem_port_stat_spare_for port, lane)] := by
  refine does_of_ans _ _ (execMemLanemap.eq_def port lane) id ?_
  rintro ⟨hfrozen, hup⟩
  rw [if_neg (by simp [hfrozen, hup])]

end

/-! ### Training (Table 10.7) -/

theorem does_memTrainingStart :
    Does m (.memTrainingStart port) (m.frozen = false ∧ m.get (R.mem_port_stat_state port) = 0) fun m' => m' = m.memTrain port := by
  refine does_of_ans _ _ (execMemTrainingStart.eq_def port) id ?_
  rintro ⟨hfrozen, hstate⟩
  rw [if_neg (by simp [hfrozen, hstate])]

/-- Every lane has locked: none has failed. -/
theorem does_memEqualisationEnd {locked : Nat} :
    Does m (.memEqualisationEnd port locked) (m.frozen = false ∧ (m.get (R.mem_port_stat_state port) = 1 ∨ m.get (R.mem_port_stat_state port) = 2) ∧
        locked % 512 = 511) fun m' =>
      m' = (m.set (R.mem_port_stat_failed port) 0).set (R.mem_port_stat_state port) 3 := by
  refine does_of_ans _ _ (execMemEqualisationEnd.eq_def port locked) left_of_and ?_
  rintro ⟨hfrozen, hstate, hlocked⟩
  have hnone : ((List.range 9).filter fun i => bit 0 i) = [] := by decide
  have hbegun : (m.get (R.mem_port_stat_state port) == 1 || m.get (R.mem_port_stat_state port) == 2) = true := by
    obtain h | h := hstate <;> rw [h] <;> rfl
  dsimp only
  rw [if_neg (by rw [hfrozen, hbegun]; decide), hlocked, Nat.xor_self, hnone]

theorem does_memIdent {vendor part cap : Nat} :
    Does m (.memIdent port vendor part cap) (m.frozen = false ∧ m.get (R.mem_port_stat_state port) = 3 ∧ cap = 6 + m.get R.mem_cfg_cap) fun m' =>
      m' = (m.set (R.mem_port_stat_cap port) (cap - 6)).set (R.mem_port_stat_state port) 4 := by
  refine does_of_ans _ _ (execMemIdent.eq_def port vendor part cap) left_of_and ?_
  rintro ⟨hfrozen, hstate, hcap⟩
  have hconfig : (m.set (R.mem_port_stat_cap port) (cap - 6)).get R.mem_cfg_cap = m.get R.mem_cfg_cap :=
    m.get_set_other _ _ _ (.inr (by show 0x900000 ≠ 0x900408 + 0x20 * port; omega))
  rw [if_neg (by simp [hfrozen, hstate])]
  dsimp only
  rw [hconfig, if_pos hcap]

theorem does_memCrdinit :
    Does m (.memCrdinit port) (m.frozen = false ∧ m.get (R.mem_port_stat_state port) = 4) fun m' =>
      m' = (m.onMemP port fun x => { x with link := ⟨0, 0, [], [], [128, 512], false, []⟩ }).set (R.mem_port_stat_state port) 5 := by
  refine does_of_ans _ _ (execMemCrdinit.eq_def port) id ?_
  rintro ⟨hfrozen, hstate⟩
  rw [if_neg (by simp [hfrozen, hstate])]

/-- The machine with port `p` up, its buffer's contents kept or not. -/
def Mach.memPortUp (m : Mach) (p : Nat) (kept : Bool) : Mach :=
  ((m.onMemP p fun x => { x with kept := kept }).set (R.mem_port_stat_state p) 6).memBit p true

theorem Mach.get_memPortUp_groupState (kept : Bool) :
    (m.memPortUp port kept).get (R.mem_grp_stat_state (port / 5)) = m.get (R.mem_grp_stat_state (port / 5)) := by
  unfold Mach.memPortUp Mach.memBit
  rw [Mach.get_set_other _ _ _ _ (.inl Blk.noConfusion),
    Mach.get_set_other _ _ _ _ (.inr (by show 0x900208 + 0x20 * (port / 5) ≠ 0x900408 + 0x20 * port; omega))]
  rfl

theorem Mach.with_upReq_nil {p : Nat → Bool} (h : m.memp.upReq = []) :
    ({ m with memp := { m.memp with upReq := m.memp.upReq.filter p } } : Mach) = m := by
  rw [h, List.filter_nil, ← h]

/-- A port that trained without an `up` request, in a group that is not degraded: the group may leave state 0 (R621). -/
theorem does_memReady {kept : Bool} :
    Does m (.memReady port kept) (m.frozen = false ∧ m.get (R.mem_port_stat_state port) = 5 ∧ m.memp.upReq = [] ∧
        m.get (R.mem_grp_stat_state (port / 5)) ≠ 3) fun m' =>
      m' = (m.memPortUp port kept).settle (port / 5) := by
  refine does_of_ans _ _ (execMemReady.eq_def port kept) id ?_
  rintro ⟨hfrozen, hstate, hnone, hgroup⟩
  have hreq : (m.memPortUp port kept).memp.upReq = [] := hnone
  rw [← Mach.get_memPortUp_groupState kept] at hgroup
  rw [if_neg (by simp [hfrozen, hstate])]
  extract_lets g up was requests cleared shown
  have hwas : was = false := by
    show m.memp.upReq.contains port = false
    rw [hnone]
    rfl
  have hshown : shown = cleared := if_neg (by rw [hwas]; decide)
  have hcleared : cleared = m.memPortUp port kept := Mach.with_upReq_nil hreq
  rw [hshown, hcleared]
  exact if_neg fun h => hgroup h.1

/-! ### Requests (R312) -/

/-- A request is refused with result 5 only while the port's `up` is pending or its block is down. -/
theorem Mach.memRequest_open (hup : m.memp.upReq.contains port = false) (hblk : m.blkDown (48 + port) = false) :
    ¬ (m.memp.upReq.contains port = true ∨ m.blkDown (48 + port) = true) := by
  rw [hup, hblk]
  decide

theorem does_memPortDown_refused :
    Does m (.memPortDown port) (m.frozen = false ∧ m.memp.upReq.contains port = false ∧ m.blkDown (48 + port) = false ∧ m.mode_ ≠ 6) fun m' =>
      m' = m.set (R.mem_port_stat_res port) 2 := by
  refine does_of_unlessFrozen _ _ (execMemPortDown.eq_def port) id ?_
  rintro ⟨hup, hblk, hmode⟩
  unfold Mach.memDown
  dsimp only
  rw [if_neg (Mach.memRequest_open hup hblk), if_pos hmode, Mach.memRes]

theorem does_memPortDown_taken :
    Does m (.memPortDown port) (m.frozen = false ∧ m.memp.upReq.contains port = false ∧ m.blkDown (48 + port) = false ∧ m.mode_ = 6 ∧
        m.get (R.mem_grp_stat_state (port / 5)) ≠ 3 ∧ m.get (R.mem_grp_stat_state (port / 5)) ≠ 4 ∧ (m.memP port).out = []) fun m' =>
      m' = (m.losePort port 10 0).set (R.mem_port_stat_res port) 1 := by
  refine does_of_unlessFrozen _ _ (execMemPortDown.eq_def port) id ?_
  rintro ⟨hup, hblk, hmode, hlost, hrebuild, hout⟩
  unfold Mach.memDown
  dsimp only
  rw [if_neg (Mach.memRequest_open hup hblk), if_neg (fun h => h hmode), if_neg (fun h => h.elim hlost hrebuild), if_pos hout, Mach.memRes]

theorem does_memPortUp :
    Does m (.memPortUp port) (m.frozen = false ∧ m.memp.upReq.contains port = false ∧ m.blkDown (48 + port) = false ∧ m.mode_ = 6 ∧
        7 ≤ m.get (R.mem_port_stat_state port) ∧ m.get (R.mem_port_stat_state port) ≤ 10) fun m' =>
      m' = (({ m with memp := { m.memp with upReq := m.memp.upReq ++ [port] } } : Mach).memTrain port).set (R.mem_port_ctl_up port) 1 := by
  refine does_of_unlessFrozen _ _ (execMemPortUp.eq_def port) id ?_
  rintro ⟨hup, hblk, hmode, hlo, hhi⟩
  unfold Mach.memUp
  dsimp only
  rw [if_neg (Mach.memRequest_open hup hblk), if_neg (fun h => h hmode), if_pos (by omega)]

end

/-! ### O27 -/

/-- Settles O27, command by command: the lemmas above say what each does in the case that its clause names. -/
theorem memoryPorts : Obligations.MemoryPorts := by
  unfold Obligations.MemoryPorts
  intro m
  exact ⟨fun _ _ => does_memRd, fun _ _ => does_memWr, fun _ _ => does_memCrd, fun _ _ _ => does_memCwr,
    fun _ _ _ _ _ _ _ _ => does_memRdd_good, fun _ _ _ _ _ _ _ _ => does_memRdd_bad, fun _ _ _ _ => does_memRerr, fun _ _ _ _ => does_memWra,
    fun _ _ _ _ _ => does_memCra, fun _ _ => does_memResponseTimeout, fun _ _ => does_memoryLinkFlit_badCrc,
    fun _ _ => does_memoryLinkFlit_message, fun _ _ => does_memLaneFailure_spare, fun _ _ => does_memLaneFailure_lost,
    fun _ _ => does_memLanemap, fun _ => does_memTrainingStart, fun _ _ => does_memEqualisationEnd, fun _ _ _ _ => does_memIdent,
    fun _ => does_memCrdinit, fun _ _ => does_memReady, fun _ => does_memPortDown_refused, fun _ => does_memPortDown_taken,
    fun _ => does_memPortUp⟩

end Sys2Proof.Machine
end

section
/-! Redundancy groups (R306, R313 to R315), and O28.  The write of a piece leaves memory and the scrub positions; an error recorded reads back. -/

namespace Sys2Proof.Machine

open Sys2Proof.Safety

/-! ### What the write of a piece leaves, and the record of an error -/

section
variable (m : Mach) (p addr : Nat)

@[simp] theorem Mach.countMem_mem (f : Fld) : (m.countMem f).mem = m.mem := by
  rw [Mach.countMem, apply_ite Mach.mem, Mach.count_mem, ite_self]

@[simp] theorem Mach.countMem_memp (f : Fld) : (m.countMem f).memp = m.memp := by
  rw [Mach.countMem, apply_ite Mach.memp, Mach.count_memp, ite_self]

theorem Mach.memIssue_mem (op : Nat) (slots : Nat → List Nat) : (m.memIssue p op addr slots).mem = m.mem :=
  (congrArg Mach.mem (m.memIssue_same p op addr slots) :)

theorem Mach.memIssue_scrub (op : Nat) (slots : Nat → List Nat) : (m.memIssue p op addr slots).memp.scrub = m.memp.scrub :=
  (congrArg (fun x : Mach => x.memp.scrub) (m.memIssue_same p op addr slots) :)

@[simp] theorem Mach.memWr_mem : (m.memWr p addr).mem = m.mem := by
  rw [Mach.memWr, Mach.countMem_mem, Mach.memIssue_mem]

@[simp] theorem Mach.memWr_scrub : (m.memWr p addr).memp.scrub = m.memp.scrub := by
  rw [Mach.memWr, Mach.countMem_memp, Mach.memIssue_scrub]

variable (code port line : Nat)

@[simp] theorem Mach.memError_mem : (m.memError code port line).mem = m.mem := by simp [Mach.memError]

@[simp] theorem Mach.memError_memp : (m.memError code port line).memp = m.memp := by simp [Mach.memError]

theorem Mach.get_memError_code : (m.memError code port line).get R.mem_err_code = code % 256 :=
  Mach.get_set_same _ R.mem_err_code _ (by decide) (by decide)

theorem Mach.get_memError_port : (m.memError code port line).get R.mem_err_port = port % 32 :=
  (Mach.get_set_beside _ R.mem_err_code R.mem_err_port _ rfl rfl (by decide) (by decide) (.inr (by decide))).trans
    (Mach.get_set_same _ R.mem_err_port _ (by decide) (by decide))

end

/-- The ports of the four groups are numbered below 20. -/
theorem portOf_lt {g i k : Nat} (hg : g < 4) : portOf g i k < 20 := by
  unfold portOf
  split <;> omega

section
variable {m : Mach} {g : Nat}

/-! ### Rebuild (R313) -/

theorem does_rebuildLine :
    Does m (.rebuildLine g) (m.frozen = false ∧ m.get (R.mem_grp_stat_state g) = 4 ∧ m.lineBusy (m.lineOf g (m.get (R.mem_grp_rb_ptr g))) = false ∧
        m.memFree (5 * g + m.get (R.mem_grp_stat_lost g)) (m.get (R.mem_grp_rb_ptr g)) = true ∧
        m.get (R.mem_grp_rb_ptr g) + 1 ≠ (m.memWr (5 * g + m.get (R.mem_grp_stat_lost g)) (m.get (R.mem_grp_rb_ptr g))).groupLines) fun m' =>
      m' = (m.memWr (5 * g + m.get (R.mem_grp_stat_lost g)) (m.get (R.mem_grp_rb_ptr g))).set (R.mem_grp_rb_ptr g)
        (m.get (R.mem_grp_rb_ptr g) + 1) := by
  refine does_of_ans _ _ (execRebuildLine.eq_def g) id ?_
  rintro ⟨hfrozen, hstate, hbusy, hfree, hmore⟩
  dsimp only
  rw [if_neg (by simp [hfrozen, hstate, hbusy, hfree]), if_neg hmore]

/-! ### Patrol scrub (R314) -/

/-- The line at which the scrub of a group stands. -/
abbrev Mach.scrubAt (m : Mach) (g : Nat) : Nat := tget m.memp.scrub g 0

/-- The scrub of a group moves on by one line. -/
def Mach.scrubOn (m : Mach) (g : Nat) : Mach :=
  { m with memp := { m.memp with scrub := tset m.memp.scrub g ((m.scrubAt g + 1) % m.groupLines) } }

/-- The one bad piece of a scrubbed line is written anew, and the correction is counted and recorded. -/
def Mach.scrubRepair (m : Mach) (g i k : Nat) : Mach :=
  ((m.memWr (portOf g i k) i).count (R.mem_port_cnt_corr (portOf g i k))).memError 0x60 (portOf g i k) (m.lineOf g i)

theorem lostPieces_nil {i : Nat} (h : ((List.range 5).all fun k => !m.pieceLost (portOf g i k) i) = true) :
    ((List.range 5).filter fun k => m.pieceLost (portOf g i k) i) = [] := by
  simpa using h

theorem does_patrolScrubLine_oneBad {k : Nat} :
    Does m (.patrolScrubLine g [k] false) (m.frozen = false ∧ m.get (R.mem_grp_stat_state g) = 2 ∧ m.get R.mem_cfg_scrub_h ≠ 0 ∧
        m.lineBusy (m.lineOf g (m.scrubAt g)) = false ∧
        ((List.range 5).all fun k => !m.pieceLost (portOf g (m.scrubAt g) k) (m.scrubAt g)) = true) fun m' =>
      m' = (m.scrubOn g).scrubRepair g (m.scrubAt g) k := by
  refine does_of_ans _ _ (execPatrolScrubLine.eq_def g [k] false) left_of_and ?_
  rintro ⟨hfrozen, hstate, hrate, hbusy, hwhole⟩
  extract_lets i line gs requests moved lost bad
  have hlost : lost = [] := lostPieces_nil (m := m) hwhole
  have hbad : bad = [k] := by
    show ([k].eraseDups.filter fun k => !lost.contains k) = [k]
    rw [hlost]
    rfl
  rw [if_neg (by simp [gs, line, i, hfrozen, hstate, hrate, hbusy]), hbad]
  exact if_neg (by rw [hlost]; decide)

theorem does_patrolScrubLine {k : Nat} :
    Does m (.patrolScrubLine g [k] false) (m.frozen = false ∧ m.get (R.mem_grp_stat_state g) = 2 ∧ m.get R.mem_cfg_scrub_h ≠ 0 ∧
        m.lineBusy (m.lineOf g (m.scrubAt g)) = false ∧
        ((List.range 5).all fun k => !m.pieceLost (portOf g (m.scrubAt g) k) (m.scrubAt g)) = true ∧ k < 5) fun m' =>
      m'.scrubAt g = (m.scrubAt g + 1) % m.groupLines ∧ m'.mem = m.mem ∧ m'.get R.mem_err_code = 0x60 ∧
        m'.get R.mem_err_port = portOf g (m.scrubAt g) k := by
  rintro hwf ⟨hfrozen, hstate, hrate, hbusy, hwhole, -⟩ q
  obtain ⟨_, hexec, rfl⟩ := does_patrolScrubLine_oneBad hwf ⟨hfrozen, hstate, hrate, hbusy, hwhole⟩ q
  have hport : portOf g (m.scrubAt g) k < 20 := portOf_lt (of_decide_eq_true (left_of_and hwf))
  refine ⟨_, hexec, ?_, ?_, Mach.get_memError_code .., (Mach.get_memError_port ..).trans (Nat.mod_eq_of_lt (by omega))⟩
  · simp [Mach.scrubAt, Mach.scrubRepair, Mach.scrubOn]
  · simp [Mach.scrubRepair, Mach.scrubOn]

/-! ### Initialisation (R315, R622) -/

theorem does_groupInit :
    Does m (.groupInit g) (m.frozen = false ∧ m.mode_ = 0 ∧ m.sealed = false ∧
        (m.get (R.mem_grp_stat_state g) = 0 ∨ m.get (R.mem_grp_stat_state g) = 2)) fun m' =>
      m' = m.sets [(R.mem_grp_ctl_init g, 1), (R.mem_grp_stat_state g, 1)] := by
  refine does_of_ans _ _ (execGroupInit.eq_def g) id ?_
  rintro ⟨hfrozen, hmode, hsealed, hstate⟩
  have hmay : (m.get (R.mem_grp_stat_state g) == 0 || m.get (R.mem_grp_stat_state g) == 2) = true := by
    obtain h | h := hstate <;> rw [h] <;> rfl
  unfold Mach.groupInit
  dsimp only
  rw [if_neg (by rw [hfrozen, hmode, hsealed, hmay]; decide)]

/-- Group `g` is zero: the listed bytes of its lines are gone, with the directory entries that lie in it (R315). -/
def Mach.groupZeroed (m : Mach) (g : Nat) : Mach :=
  { m.set (R.mem_grp_ctl_init g) 0 with
    mem := m.mem.filter fun c => !(decide (m.myBase ≤ c.1) && decide (c.1 < m.myBase + m.mySize) && homeSlice c.1 == g)
    home := { m.home with dir := m.home.dir.filter fun e =>
      !(decide (m.myBase ≤ 256 * e.1) && decide (256 * e.1 < m.myBase + m.mySize) && (m.set (R.mem_grp_ctl_init g) 0).dirIn g e.1) }
    memp := { m.memp with inited := g :: m.memp.inited.filter (· != g) } }

/-- Group `g` is full, and lacks no port. -/
abbrev Mach.groupFull (m : Mach) (g : Nat) : Mach := m.sets [(R.mem_grp_stat_state g, 2), (R.mem_grp_stat_lost g, 7)]

/-- Once every group has been initialised, no sweep is needed (R622). -/
def Mach.noteSwept (m : Mach) : Mach :=
  if m.groupsReady && (List.range 4).all fun k => m.memp.inited.contains k then m.set R.mode_boot_sweep 1 else m

theorem Mach.get_noteSwept {f : Fld} (h : f.blk = .mem) : m.noteSwept.get f = m.get f := by
  unfold Mach.noteSwept
  split
  · exact m.get_set_other _ _ _ (.inl (by rw [h]; decide))
  · rfl

theorem Mach.noteSwept_mem : m.noteSwept.mem = m.mem := by
  rw [Mach.noteSwept, apply_ite Mach.mem, Mach.set_mem, ite_self]

/-- With every port of the group up, its initialisation leaves it full. -/
theorem does_groupInitComplete_up :
    Does m (.groupInitComplete g) (m.frozen = false ∧ m.on (R.mem_grp_ctl_init g) = true ∧
        ((List.range 5).all fun p => m.get (R.mem_port_stat_state (5 * g + p)) == 6) = true) fun m' =>
      m' = ((m.groupZeroed g).groupFull g).noteSwept := by
  refine does_of_ans _ _ (execGroupInitComplete.eq_def g) id ?_
  rintro ⟨hfrozen, hinit, hup⟩
  have hdown : ((List.range 5).filter fun p => m.get (R.mem_port_stat_state (5 * g + p)) != 6) = [] := by simpa using hup
  rw [if_neg (by simp [hfrozen, hinit])]
  dsimp only
  rw [hdown, if_neg (by simp)]
  rfl

section
variable (m g)

theorem Mach.get_groupFull_lost : (m.groupFull g).get (R.mem_grp_stat_lost g) = 7 :=
  Mach.get_set_same _ (R.mem_grp_stat_lost g) 7 (Nat.le_of_ble_eq_true rfl) (Nat.le_of_ble_eq_true rfl)

theorem Mach.get_groupFull_state : (m.groupFull g).get (R.mem_grp_stat_state g) = 2 :=
  (Mach.get_set_beside _ (R.mem_grp_stat_lost g) (R.mem_grp_stat_state g) 7 rfl rfl (Nat.le_of_ble_eq_true rfl) (Nat.le_of_ble_eq_true rfl)
    (.inl (Nat.le_of_ble_eq_true rfl))).trans
    (m.get_set_same (R.mem_grp_stat_state g) 2 (Nat.le_of_ble_eq_true rfl) (Nat.le_of_ble_eq_true rfl))

theorem Mach.get_groupFull_init : (m.groupFull g).get (R.mem_grp_ctl_init g) = m.get (R.mem_grp_ctl_init g) :=
  have hoff : 0x900200 + 0x20 * g ≠ 0x900208 + 0x20 * g := by omega
  (Mach.get_set_other _ (R.mem_grp_stat_lost g) (R.mem_grp_ctl_init g) 7 (.inr hoff)).trans
    (m.get_set_other (R.mem_grp_stat_state g) _ 2 (.inr hoff))

theorem Mach.get_groupZeroed_init : (m.groupZeroed g).get (R.mem_grp_ctl_init g) = 0 :=
  m.get_set_same (R.mem_grp_ctl_init g) 0 (Nat.le_refl 0) (Nat.le_of_ble_eq_true rfl)

end

theorem does_groupInitComplete :
    Does m (.groupInitComplete g) (m.frozen = false ∧ m.on (R.mem_grp_ctl_init g) = true ∧
        ((List.range 5).all fun p => m.get (R.mem_port_stat_state (5 * g + p)) == 6) = true) fun m' =>
      m'.mem = m.mem.filter (fun (c : Host.Cell) => !(decide (m.myBase ≤ c.1) && decide (c.1 < m.myBase + m.mySize) && homeSlice c.1 == g)) ∧
        m'.get (R.mem_grp_stat_state g) = 2 ∧ m'.get (R.mem_grp_stat_lost g) = 7 ∧ m'.get (R.mem_grp_ctl_init g) = 0 := by
  intro hwf hcond q
  obtain ⟨_, hexec, rfl⟩ := does_groupInitComplete_up hwf hcond q
  refine ⟨_, hexec, Mach.noteSwept_mem.trans (Mach.sets_mem ..), ?_⟩
  rw [Mach.get_noteSwept rfl, Mach.get_noteSwept rfl, Mach.get_noteSwept rfl, Mach.get_groupFull_init]
  exact ⟨Mach.get_groupFull_state .., Mach.get_groupFull_lost .., Mach.get_groupZeroed_init ..⟩

end

/-! ### O28 -/

/-- Settles O28, command by command: a scrubbed line and an initialised group are read off the machine that the command leaves. -/
theorem redundancyGroups : Obligations.RedundancyGroups := by
  unfold Obligations.RedundancyGroups
  intro m
  exact ⟨fun _ => does_rebuildLine, fun _ _ => does_patrolScrubLine, fun _ => does_groupInit, fun _ => does_groupInitComplete⟩

end Sys2Proof.Machine
end

section
/-! A block reset that passes its limit (R585), and the refutation of O47. -/

namespace Sys2Proof.Machine

open Sys2Proof.Safety

/-- The limit of a reset does not act on a block that is fenced for a concurrent-repair power-down (R312, R584). -/
theorem does_blockResetTimeout_repair {m : Mach} {block : Nat} :
    Does m (.blockResetTimeout block) (((tfind m.spill.blks block).map (·.repair)).getD false = true) fun m' => m' = m := by
  refine does_of_ans _ _ (execBlockResetTimeout.eq_def block) id fun hrepair => ?_
  exact if_pos (by rw [hrepair, Bool.or_true])

/-! ### O47 -/

/-- The compression unit of block 131 is under reset, and bears the mark of a power-down for concurrent repair.  Only a memory port's `down`
request sets that mark, so no step leads here. -/
def unitMarkedForRepair : Mach := (Mach.reset.setBlk 131 ⟨false, [], true⟩).set (R.spill_blk_state 131) 2

theorem unitMarkedForRepair_state : unitMarkedForRepair.get (R.spill_blk_state 131) = 2 := by decide

/-- Refutes O47: its clause on a reset that passes its limit leaves room for a block that is marked for a power-down.  The limit changes nothing
there, while the clause says that the block has failed (state 4). -/
theorem not_blockResets : ¬ Obligations.BlockResets := by
  unfold Obligations.BlockResets
  intro h
  obtain ⟨-, -, -, -, -, -, -, -, htimeout, -⟩ := h unitMarkedForRepair
  have hcond : unitMarkedForRepair.frozen = false ∧ 130 ≤ 131 ∧ 131 < 134 ∧ unitMarkedForRepair.get (R.spill_blk_state 131) = 2 :=
    ⟨rfl, by decide, by decide, unitMarkedForRepair_state⟩
  obtain ⟨m', hexec, hfailed, -⟩ := htimeout 131 (by decide) hcond []
  obtain ⟨_, hexec', rfl⟩ := does_blockResetTimeout_repair (m := unitMarkedForRepair) (block := 131) (by decide) (by decide) []
  rw [hexec] at hexec'
  cases hexec'
  rw [unitMarkedForRepair_state] at hfailed
  exact absurd hfailed (by decide)

end Sys2Proof.Machine
end

section
/-! The Cistern (R331, R344 to R346, R349, R352), and O29.  A command that is taken writes `mem.cis.cmd` alone, so the aperture and the page map
that it finds are those it was given. -/

namespace Sys2Proof.Machine

open Sys2Proof.Safety

/-! ### What lies outside `mem.cis.cmd` -/

/-- The registers outside `mem.cis.cmd`, which a command writes as it starts, are in `n` what they are in `m`. -/
def SameBesideCmd (m n : Mach) : Prop := ∀ f : Fld, f.off ≠ R.mem_cis_cmd_op.off → n.get f = m.get f

theorem Mach.modNo_lt (m : Mach) : m.modNo < 4 := Nat.mod_lt _ (by decide)

/-- The registers of the four apertures lie before `mem.cis.cmd`. -/
theorem apOff_ne {n : Nat} (h : n < 4) : 0x901008 + 0x8 * n ≠ R.mem_cis_cmd_op.off := by
  show 0x901008 + 0x8 * n ≠ 0x901070
  omega

/-- The machine in which a command of the given op has been taken and waits for its page (R352). -/
def Mach.cisPend (m : Mach) (op : Nat) : Mach :=
  ({ m.set R.mem_cis_cmd_op op with cis := { m.cis with cmd := some op } } : Mach).set R.mem_cis_cmd_go 1

theorem sameBesideCmd_set_op (m : Mach) (op : Nat) : SameBesideCmd m (m.set R.mem_cis_cmd_op op) :=
  fun f hf => m.get_set_other R.mem_cis_cmd_op f op (.inr hf)

theorem sameBesideCmd_cisPend (m : Mach) (op : Nat) : SameBesideCmd m (m.cisPend op) :=
  fun f hf => (Mach.get_set_other _ R.mem_cis_cmd_go f 1 (.inr hf)).trans (sameBesideCmd_set_op m op f hf)

namespace SameBesideCmd

variable {m n : Mach} (h : SameBesideCmd m n)
include h

theorem cisOn_eq : n.cisOn = m.cisOn := congrArg (· == 1) (h R.mem_cis_stat_cfg (by decide))

theorem on_ready : n.on R.mem_cis_stat_ready = m.on R.mem_cis_stat_ready := congrArg (· != 0) (h R.mem_cis_stat_ready (by decide))

theorem get_addr : n.get R.mem_cis_cmda_addr = m.get R.mem_cis_cmda_addr := h R.mem_cis_cmda_addr (by decide)

theorem modNo_eq : n.modNo = m.modNo := h R.id_place_module (by decide)

theorem apOf_eq (pa : Nat) : n.apOf pa = m.apOf pa := by
  rw [Mach.apOf, Mach.apOf, h.cisOn_eq]
  refine congrArg (if m.cisOn = true then · else none) ?_
  rw [← List.head?_filter, ← List.head?_filter]
  refine congrArg List.head? (List.filter_congr fun i hi => ?_)
  have hoff := apOff_ne (List.mem_range.mp hi)
  rw [Mach.on, h (R.mem_cis_ap_en i) hoff, h (R.mem_cis_ap_base i) hoff, h (R.mem_cis_ap_size i) hoff, Mach.on]

theorem myPage_eq (pf : Nat) : n.myPage pf = m.myPage pf := by
  rw [Mach.myPage, Mach.myPage, h.apOf_eq, h.modNo_eq]

theorem rdDesc_eq (hmem : n.mem = m.mem) (pf : Nat) : n.rdDesc pf = m.rdDesc pf := by
  have haddr : n.descAddr pf = m.descAddr pf := by
    rw [Mach.descAddr, h R.mem_cis_pool_base (by decide), h.modNo_eq, h (R.mem_cis_ap_base m.modNo) (apOff_ne m.modNo_lt), Mach.descAddr]
  rw [Mach.rdDesc, hmem, haddr, Mach.rdDesc]

end SameBesideCmd

/-! ### The counting registers leave the homes -/

section
variable (m : Mach)

@[simp] theorem Mach.stage_home (queue : Nat) (r : RillRec) : (m.stage queue r).home = m.home := by
  simp only [Mach.stage, Mach.drop, Mach.countSat, apply_ite Mach.home, Mach.count_home, Mach.set_home, ite_self]

@[simp] theorem Mach.cisError_home (code pf : Nat) : (m.cisError code pf).home = m.home := by
  simp only [Mach.cisError, apply_ite Mach.home, Mach.stage_home, Mach.raise_home, Mach.sets_home, ite_self]

@[simp] theorem Mach.cisShow_home : m.cisShow.home = m.home := by
  simp only [Mach.cisShow, apply_ite Mach.home, Mach.cisError_home, Mach.sets_home, ite_self]

end

section
variable {m : Mach}

/-! ### Commands (R352) -/

/-- The Cistern takes a command, of which none is pending, on a page of this module that is compressed and that nothing holds up. -/
abbrev CisternTakes (m : Mach) : Prop :=
  m.frozen = false ∧ m.cis.cmd = none ∧ m.cisOn = true ∧ m.on R.mem_cis_stat_ready = true ∧ m.myPage (m.get R.mem_cis_cmda_addr) = true ∧
    m.pageBusy (m.get R.mem_cis_cmda_addr) = false ∧ tfind m.cis.exp (m.get R.mem_cis_cmda_addr) = none

theorem Mach.cisGo_of_pending {op : Nat} (hfrozen : m.frozen = false) (hcmd : m.cis.cmd ≠ none) :
    m.cisGo op = m.sets [(R.mem_cis_cmd_done, 1), (R.mem_cis_cmd_result, 3)] := by
  rw [Mach.cisGo, hfrozen, if_neg Bool.false_ne_true, if_pos (Option.isSome_iff_ne_none.mpr hcmd)]

/-- With no command pending, what `go` does turns on whether the Cistern serves and whose page the operand names. -/
theorem Mach.cisGo_of_idle {op : Nat} (hop : op = 1 ∨ op = 2 ∨ op = 3) (hfrozen : m.frozen = false) (hcmd : m.cis.cmd = none) :
    m.cisGo op =
      if !m.cisOn || !m.on R.mem_cis_stat_ready then (m.set R.mem_cis_cmd_op op).cisEnd 4
      else if !m.myPage (m.get R.mem_cis_cmda_addr) then (m.set R.mem_cis_cmd_op op).cisEnd 2 else (m.cisPend op).cisRun := by
  have h := sameBesideCmd_set_op m op
  have hknown : (op == 1 || op == 2 || op == 3) = true := by simpa [or_assoc] using hop
  rw [Mach.cisGo, hfrozen, hcmd, if_neg Bool.false_ne_true, if_neg (by decide)]
  dsimp only
  rw [h.cisOn_eq, h.on_ready, h.get_addr, h.myPage_eq, hknown]
  rfl

/-- A query of a compressed page reports its descriptor. -/
def Mach.cisReport (m : Mach) (d : Desc) : Mach :=
  (m.sets [(R.mem_cis_cmd_qclass, d.cls), (R.mem_cis_cmd_qexp, 0), (R.mem_cis_cmd_qdirty, b2n d.dirty), (R.mem_cis_cmd_qpsn, b2n (d.psn != 0))]).cisEnd 1

/-- The end of a command on a compressed page by its op: a query reports, an evict has nothing to do, a discard clears the descriptor. -/
def Mach.endCompressed (m : Mach) (pf : Nat) : Nat → Mach
  | 3 => m.cisReport (m.rdDesc pf)
  | 2 => m.cisEnd 1
  | _ => (m.discardPage pf).cisEnd 1

theorem Mach.cisRun_of_compressed {op pf : Nat} (hcmd : m.cis.cmd = some op) (hpf : m.get R.mem_cis_cmda_addr = pf)
    (hbusy : m.pageBusy pf = false) (hexp : tfind m.cis.exp pf = none) : m.cisRun = m.endCompressed pf op := by
  rw [Mach.cisRun, hcmd]
  dsimp only
  rw [hpf, hbusy, hexp]
  rfl

/-- A command that is taken ends at once: its page does not hold it up. -/
theorem Mach.cisGo_of_takes {op : Nat} (hop : op = 1 ∨ op = 2 ∨ op = 3) (h : CisternTakes m) :
    m.cisGo op = (m.cisPend op).endCompressed (m.get R.mem_cis_cmda_addr) op := by
  obtain ⟨hfrozen, hcmd, hon, hready, hmine, hbusy, hexp⟩ := h
  rw [Mach.cisGo_of_idle hop hfrozen hcmd, hon, hready, hmine]
  exact Mach.cisRun_of_compressed rfl (sameBesideCmd_cisPend m op).get_addr hbusy hexp

theorem does_cisternDiscard_pending :
    Does m .cisternDiscard (m.frozen = false ∧ m.cis.cmd ≠ none) fun m' => m' = m.sets [(R.mem_cis_cmd_done, 1), (R.mem_cis_cmd_result, 3)] := by
  refine does_of_ans _ _ execCisternDiscard.eq_def id ?_
  rintro ⟨hfrozen, hcmd⟩
  exact Mach.cisGo_of_pending hfrozen hcmd

theorem does_cisternDiscard :
    Does m .cisternDiscard (CisternTakes m) fun m' => m' = ((m.cisPend 1).discardPage (m.get R.mem_cis_cmda_addr)).cisEnd 1 :=
  does_of_ans _ _ execCisternDiscard.eq_def id (Mach.cisGo_of_takes (by decide))

theorem does_cisternEvict : Does m .cisternEvict (CisternTakes m) fun m' => m' = (m.cisPend 2).cisEnd 1 :=
  does_of_ans _ _ execCisternEvict.eq_def id (Mach.cisGo_of_takes (by decide))

theorem does_cisternEvict_disabled :
    Does m .cisternEvict (m.frozen = false ∧ m.cis.cmd = none ∧ m.cisOn = false) fun m' => m' = (m.set R.mem_cis_cmd_op 2).cisEnd 4 := by
  refine does_of_ans _ _ execCisternEvict.eq_def id ?_
  rintro ⟨hfrozen, hcmd, hoff⟩
  rw [Mach.cisGo_of_idle (by decide) hfrozen hcmd, hoff]
  rfl

theorem does_cisternQuery :
    Does m .cisternQuery (CisternTakes m) fun m' => m' = (m.cisPend 3).cisReport (m.rdDesc (m.get R.mem_cis_cmda_addr)) := by
  refine does_of_ans _ _ execCisternQuery.eq_def id fun h => ?_
  rw [← (sameBesideCmd_cisPend m 3).rdDesc_eq rfl]
  exact Mach.cisGo_of_takes (by decide) h

theorem does_cisternQuery_elsewhere :
    Does m .cisternQuery (m.frozen = false ∧ m.cis.cmd = none ∧ m.cisOn = true ∧ m.on R.mem_cis_stat_ready = true ∧
        m.myPage (m.get R.mem_cis_cmda_addr) = false) fun m' =>
      m' = (m.set R.mem_cis_cmd_op 3).cisEnd 2 := by
  refine does_of_ans _ _ execCisternQuery.eq_def id ?_
  rintro ⟨hfrozen, hcmd, hon, hready, helsewhere⟩
  rw [Mach.cisGo_of_idle (by decide) hfrozen hcmd, hon, hready, helsewhere]
  rfl

/-! ### Events (R331, R344 to R346, R349) -/

theorem does_mapScanComplete :
    Does m .mapScanComplete (m.frozen = false ∧ m.cisOn = true ∧ m.on R.mem_cis_stat_ready = false ∧ m.mapPages = [] ∧ m.home.waitq = []) fun m' =>
      m' = (m.set R.mem_cis_stat_ready 1).cisShow := by
  refine does_of_ans _ _ execMapScanComplete.eq_def id ?_
  rintro ⟨hfrozen, hon, hready, hmap, hwait⟩
  have hserve : (m.set R.mem_cis_stat_ready 1).cisShow.home.waitq = [] := by rw [Mach.cisShow_home, Mach.set_home, hwait]
  rw [hfrozen, hon, hready, if_neg (by decide), hmap]
  dsimp only [List.foldl_nil]
  rw [hserve, List.map_nil, List.filter_nil, List.eraseDups_nil, List.foldl_nil]

variable {page : Nat} {x : ExpPage}

theorem does_expansionComplete :
    Does m (.expansionComplete page) (m.frozen = false ∧ tfind m.cis.exp page = some x ∧ x.busy = 1) fun m' =>
      m' = ((m.installPage page x).servePage page).cisRun := by
  refine does_of_ans _ _ (execExpansionComplete.eq_def page) (fun _ => rfl) ?_
  rintro ⟨hfrozen, hexp, hbusy⟩
  rw [hexp]
  exact if_neg (by simp [hfrozen, hbusy])

theorem does_expansionWaitEnd {age : Nat} {m1 : Mach} :
    Does m (.expansionWaitEnd page) (m.frozen = false ∧ m.cis.waits = [(page, age)] ∧
        ({ m with cis := { m.cis with waits := [] } } : Mach).chooseWay page age = some m1) fun m' =>
      m' = m1 := by
  refine does_of_ans _ _ (execExpansionWaitEnd.eq_def page) (fun _ => rfl) ?_
  rintro ⟨hfrozen, hwaits, hway⟩
  rw [takeFirst_cons hwaits (beq_self_eq_true page)]
  exact (if_neg (by simp [hfrozen])).trans (congrArg (·.getD m) hway)

theorem does_pageEvictionComplete_command :
    Does m (.pageEvictionComplete page) (m.frozen = false ∧ tfind m.cis.exp page = some x ∧ x.busy = 2 ∧
        (m.home.txn.any fun y => y.1 / 16 == page) = false ∧ x.why = 1) fun m' =>
      m' = (((m.endEvict page x).1.cisEnd (if (m.endEvict page x).2 then 1 else 5)).servePage page).cisRun := by
  refine does_of_ans _ _ (execPageEvictionComplete.eq_def page) (fun _ => rfl) ?_
  rintro ⟨hfrozen, hexp, hbusy, hanswered, hwhy⟩
  rw [hexp]
  dsimp only
  rw [if_neg (by simp [hfrozen, hbusy, hanswered]), hwhy]
  rfl

theorem does_pageEvictionComplete_way {q age : Nat} :
    Does m (.pageEvictionComplete page) (m.frozen = false ∧ tfind m.cis.exp page = some x ∧ x.busy = 2 ∧
        (m.home.txn.any fun y => y.1 / 16 == page) = false ∧ x.why = 0 ∧ x.next = some (q, age) ∧ (m.endEvict page x).2 = true) fun m' =>
      m' = (({ (m.endEvict page x).1 with cis := { (m.endEvict page x).1.cis with
        exp := tset (m.endEvict page x).1.cis.exp q ⟨x.way, age, 1, 0, none⟩ } } : Mach).servePage page).cisRun := by
  refine does_of_ans _ _ (execPageEvictionComplete.eq_def page) (fun _ => rfl) ?_
  rintro ⟨hfrozen, hexp, hbusy, hanswered, hwhy, hnext, hleft⟩
  rw [hexp]
  dsimp only
  rw [if_neg (by simp [hfrozen, hbusy, hanswered]), hwhy, hnext, hleft]
  rfl

end

/-! ### O29 -/

/-- Settles O29, command by command: a command ends at once, with the result that its operand and the Cistern's state give, and an event goes on to
what it was awaited for. -/
theorem cisternCommands : Obligations.CisternCommands := by
  unfold Obligations.CisternCommands
  intro m
  exact ⟨does_cisternDiscard_pending, does_cisternDiscard, does_cisternEvict, does_cisternEvict_disabled, does_cisternQuery,
    does_cisternQuery_elsewhere, does_mapScanComplete, fun _ _ => does_expansionComplete, fun _ _ _ => does_expansionWaitEnd,
    fun _ _ => does_pageEvictionComplete_command, fun _ _ _ _ => does_pageEvictionComplete_way⟩

end Sys2Proof.Machine
end

section
/-! The Grotto's monitor (R358 to R361), its watchdog and isolation (R372 to R374), debug certificates (R370, R371), and O30.  With the monitor
running and its block readable, a command is what its meaning says of the block. -/

namespace Sys2Proof.Machine

open Sys2Proof.Safety

/-! ### The monitor's commands -/

/-- The machine after a command of the monitor by what the command does. -/
def Mach.afterCmd (m : Mach) : GCmd → Mach
  | .refuse r => m.grottoEnd r
  | .waits => m
  | .did m' => m'.grottoEnd 1

section
variable {m : Mach} {a e : Nat} {b : List Nat}

theorem Mach.grottoCmd_of_monitor {op : Nat} {body : Mach → Nat → List Nat → GCmd} (h : Monitor m op a b) :
    m.grottoCmd op body = m.afterCmd (body m a b) := by
  obtain ⟨hfrozen, hgo, hop, hstate, rfl, hblock, hrange, rfl⟩ := h
  rw [Mach.grottoCmd, if_neg (by simp [hfrozen, Mach.on, hgo, hop]), if_neg (not_not_intro hstate)]
  dsimp only
  rw [if_neg (by simp [hblock, hrange])]
  rfl

theorem Mach.grottoCmd_unavailable {op : Nat} {body : Mach → Nat → List Nat → GCmd} (hfrozen : m.frozen = false) (hgo : m.get R.grotto_cmd_go = 1)
    (hop : m.get R.grotto_cmd_op = op) (hstate : m.get R.grotto_stat_state ≠ 2) : m.grottoCmd op body = m.grottoEnd 7 := by
  rw [Mach.grottoCmd, if_neg (by simp [hfrozen, Mach.on, hgo, hop]), if_pos hstate]

/-- A command of the monitor does what its meaning makes of the block. -/
theorem does_of_grottoCmd {c : Instr} {op : Nat} {body : Mach → Nat → List Nat → GCmd} {h : Prop} {g : GCmd}
    (hexec : ∀ s, exec c s = ans true s fun m => m.grottoCmd op body) (hbody : h → body m a b = g) :
    Does m c (Monitor m op a b ∧ h) fun m' => m' = m.afterCmd g :=
  does_of_ans _ _ hexec (fun _ => rfl) fun ⟨hm, hh⟩ => (Mach.grottoCmd_of_monitor hm).trans (congrArg m.afterCmd (hbody hh))

theorem does_grottoCreate_unavailable :
    Does m .grottoCreate (m.frozen = false ∧ m.get R.grotto_cmd_go = 1 ∧ m.get R.grotto_cmd_op = 1 ∧ m.get R.grotto_stat_state ≠ 2) fun m' =>
      m' = m.sets [(R.grotto_cmd_done, 1), (R.grotto_cmd_result, 7), (R.grotto_cmd_go, 0)] :=
  does_of_ans _ _ execGrottoCreate.eq_def id fun ⟨hfrozen, hgo, hop, hstate⟩ => Mach.grottoCmd_unavailable hfrozen hgo hop hstate

/-- The enclave that a create makes from its block, under the key `k` (R358, R360). -/
def builtEnclave (b : List Nat) (k : Nat) : Enclave :=
  ⟨1, blkF b 8 8, blkF b 0x10 4 * 65536, blkF b 0x14 4 * 65536, blkF b 0x18 8, blkF b 0x20 8, blkF b 2 1, [],
    ofBytes (sha384 ([0, 0] ++ (b.drop 2).take 62)), k⟩

/-- A range reads as zero, and no cache holds a line of it (R359). -/
def Mach.zeroRange (m : Mach) (lo n : Nat) : Mach := { m.dropRange lo n with mem := (m.dropRange lo n).mem.zero lo n }

theorem does_grottoCreate :
    Does m .grottoCreate (Monitor m 1 a b ∧ blkF b 0 2 = e ∧ e < 4096 ∧ blkF b 2 1 ≠ 0 ∧ blkF b 2 1 ≤ 16 ∧ (m.enclave e).st = 0 ∧
        m.createOk (blkF b 8 8) (blkF b 0x10 4 * 65536) (blkF b 0x14 4 * 65536) (blkF b 0x18 8) (blkF b 0x20 8) = true ∧ m.rng = .ready) fun m' =>
      m' = (((m.draw.2.zeroRange (blkF b 8 8) (blkF b 0x10 4 * 65536)).setEnclave e (builtEnclave b m.draw.1)).devWrite a
        (toBytes 2 e)).grottoEnd 1 := by
  refine does_of_grottoCmd execGrottoCreate.eq_def (g := .did _) ?_
  rintro ⟨rfl, hnum, hctx0, hctx, hfree, hok, hrng⟩
  dsimp only
  rw [if_neg (by omega)]
  dsimp only
  rw [if_neg (by simpa [hctx0, hctx] using Nat.le_of_lt_succ hnum), if_neg (not_not_intro hfree), if_neg (by rw [hok]; decide), hrng]
  rfl

theorem does_grottoAdd_wrongState :
    Does m .grottoAdd (Monitor m 2 a b ∧ blkF b 0 2 = e ∧ e < 4096 ∧ (m.enclave e).st ≠ 1) fun m' => m' = m.grottoEnd 4 := by
  refine does_of_grottoCmd execGrottoAdd.eq_def (g := .refuse 4) ?_
  rintro ⟨rfl, hnum, hstate⟩
  dsimp only
  rw [if_neg (by omega), if_pos hstate]

/-- The pages of an add are copied into enclave `e`, line by line (R359). -/
def Mach.copyPages (m : Mach) (e src doff n : Nat) : Mach :=
  (List.range (16 * n)).foldl (fun x i => x.copyLine (src + 256 * i) ((m.enclave e).base + 4096 * doff + 256 * i)) m

/-- An enclave whose measurement an add has extended by the bytes copied (R360). -/
def Enclave.extended (x : Enclave) (doff : Nat) (bytes : List Nat) : Enclave :=
  { x with meas := ofBytes (sha384 (toBytes 48 x.meas ++ toBytes 8 doff ++ bytes)) }

theorem does_grottoAdd {src doff n : Nat} :
    Does m .grottoAdd (Monitor m 2 a b ∧ blkF b 0 2 = e ∧ e < 4096 ∧ (m.enclave e).st = 1 ∧ blkF b 0x28 8 = src ∧ blkF b 0x30 4 = doff ∧
        blkF b 0x34 4 = n ∧ src % 4096 = 0 ∧ (doff + n) * 4096 ≤ (m.enclave e).size ∧ m.meetsRegion src (4096 * n) = false ∧
        m.devRange .hub src (4096 * n) = none) fun m' =>
      m' = ((m.copyPages e src doff n).setEnclave e ((m.enclave e).extended doff (m.devRead src (4096 * n)))).grottoEnd 1 := by
  refine does_of_grottoCmd execGrottoAdd.eq_def (g := .did _) ?_
  rintro ⟨rfl, hnum, hstate, rfl, rfl, rfl, halign, hfits, hregion, hrange⟩
  dsimp only
  rw [if_neg (by omega), if_neg (not_not_intro hstate), if_neg (by omega), if_neg (by rw [hregion]; decide), if_neg (by rw [hrange]; decide)]
  rfl

theorem does_grottoSeal :
    Does m .grottoSeal (Monitor m 3 a b ∧ blkF b 0 2 = e ∧ e < 4096 ∧ (m.enclave e).st = 1) fun m' =>
      m' = ((m.devWrite (a + 0x40) (toBytes 48 (m.enclave e).meas)).setEnclave e { m.enclave e with st := 2, ctxs := [] }).grottoEnd 1 := by
  refine does_of_grottoCmd execGrottoSeal.eq_def (g := .did _) ?_
  rintro ⟨rfl, hnum, hstate⟩
  dsimp only
  rw [if_neg (by omega), if_neg (not_not_intro hstate)]

theorem does_grottoTeardown :
    Does m .grottoTeardown (Monitor m 4 a b ∧ blkF b 0 2 = e ∧ e < 4096 ∧ ((m.enclave e).st = 1 ∨ (m.enclave e).st = 2) ∧
        ((m.enclave e).ctxs.any fun c => c.2.1 == .running) = false ∧ m.rng = .ready) fun m' =>
      m' = (((m.draw.2.dropRange (m.enclave e).base (m.enclave e).size).scramble (m.enclave e).base (m.enclave e).size).setEnclave e
        { Enclave.init with key := m.draw.1 }).grottoEnd 1 := by
  refine does_of_grottoCmd execGrottoTeardown.eq_def (g := .did _) ?_
  rintro ⟨rfl, hnum, hstate, hidle, hrng⟩
  dsimp only
  rw [if_neg (by omega), if_neg (by omega), if_neg (by rw [hidle]; decide), hrng]

theorem does_grottoQuery_unsealed :
    Does m .grottoQuery (Monitor m 5 a b ∧ blkF b 0 2 = e ∧ e < 4096 ∧ (m.enclave e).st < 2) fun m' =>
      m' = (m.devWrite (a + 2) [(m.enclave e).nctx, (m.enclave e).st]).grottoEnd 1 := by
  refine does_of_grottoCmd execGrottoQuery.eq_def (g := .did _) ?_
  rintro ⟨rfl, hnum, hstate⟩
  dsimp only
  rw [if_neg (by omega), if_neg (by omega)]

theorem does_grottoQuery_sealed :
    Does m .grottoQuery (Monitor m 5 a b ∧ blkF b 0 2 = e ∧ e < 4096 ∧ 2 ≤ (m.enclave e).st) fun m' =>
      m' = ((m.devWrite (a + 2) [(m.enclave e).nctx, (m.enclave e).st]).devWrite (a + 0x40) (toBytes 48 (m.enclave e).meas)).grottoEnd 1 := by
  refine does_of_grottoCmd execGrottoQuery.eq_def (g := .did _) ?_
  rintro ⟨rfl, hnum, hstate⟩
  dsimp only
  rw [if_neg (by omega), if_pos hstate]

end

/-! ### The watchdog and isolation (R372 to R374) -/

section
variable {m : Mach}

/-- A Grotto error is recorded in its own register (R375). -/
theorem Mach.get_grottoError (code encl : Nat) {f : Fld} (h : f.off ≠ R.grotto_err_code.off) : (m.grottoError code encl).get f = m.get f :=
  calc (m.grottoError code encl).get f
    _ = (m.sets [(R.grotto_err_encl, encl), (R.grotto_err_new, 1), (R.grotto_err_code, code)]).get f := Mach.get_congr _ _ f (Mach.raise_regs ..)
    _ = ((m.set R.grotto_err_encl encl).set R.grotto_err_new 1).get f := Mach.get_set_other _ R.grotto_err_code f _ (.inr h)
    _ = (m.set R.grotto_err_encl encl).get f := Mach.get_set_other _ R.grotto_err_new f _ (.inr h)
    _ = m.get f := m.get_set_other R.grotto_err_encl f _ (.inr h)

@[simp] theorem Mach.grottoError_thr (code encl : Nat) : (m.grottoError code encl).thr = m.thr := by
  rw [Mach.grottoError, Mach.raise_thr, Mach.sets_thr]

theorem does_watchdogKick_monitor :
    Does m (.watchdogKick true) (m.frozen = false ∧ m.get R.grotto_stat_state = 2) fun m' => m' = m.set R.grotto_wd_left 0x7D0 := by
  refine does_of_ans _ _ (execWatchdogKick.eq_def true) id ?_
  rintro ⟨hfrozen, hstate⟩
  rw [hfrozen, if_neg (by decide), if_neg (by decide), if_pos hstate]

theorem does_watchdogKick_other : Does m (.watchdogKick false) (m.frozen = false) fun m' => m' = m.grottoError 0x85 0 := by
  refine does_of_ans _ _ (execWatchdogKick.eq_def false) id fun hfrozen => ?_
  rw [hfrozen, if_neg (by decide), if_pos (by decide)]

/-- The expiry as it is shown: code 0x80, the state isolating, no time left (R373). -/
abbrev Mach.expired (m : Mach) : Mach :=
  (m.grottoError 0x80 0).sets [(R.grotto_stat_state, 3), (R.grotto_stat_cause, 6), (R.grotto_wd_left, 0)]

theorem Mach.get_expired_go : m.expired.get R.grotto_cmd_go = m.get R.grotto_cmd_go := by
  rw [Mach.expired, Mach.sets_cons, Mach.sets_cons, Mach.sets_cons, Mach.sets_nil, Mach.get_set_other _ _ _ _ (.inr (by decide)),
    Mach.get_set_other _ _ _ _ (.inr (by decide)), Mach.get_set_other _ _ _ _ (.inr (by decide)), Mach.get_grottoError _ _ (by decide)]

theorem does_watchdogExpiry :
    Does m .watchdogExpiry (m.frozen = false ∧ m.get R.grotto_stat_state = 2 ∧ m.get R.grotto_cmd_go = 0) fun m' =>
      m' = (m.thr.map Prod.fst).foldl (fun (x : Mach) th => x.isolationExit th) m.expired := by
  refine does_of_ans _ _ execWatchdogExpiry.eq_def id ?_
  rintro ⟨hfrozen, hstate, hgo⟩
  have hidle : m.expired.on R.grotto_cmd_go = false := by rw [Mach.on, Mach.get_expired_go, hgo]; rfl
  have hthr : m.expired.thr = m.thr := by rw [Mach.expired, Mach.sets_thr, Mach.grottoError_thr]
  rw [hfrozen, hstate, if_neg (by decide)]
  dsimp only
  rw [if_neg (by rw [hidle]; decide), hthr]

theorem does_isolationComplete :
    Does m .isolationComplete (m.frozen = false ∧ (m.get R.grotto_stat_state = 3 ∨ m.get R.grotto_stat_state = 5)) fun m' =>
      m' = (({ m.dropRange m.pool.1 m.pool.2 with grotto := { m.grotto with monKey := 0, encl := m.grotto.encl.map fun (x : Nat × Enclave) =>
        (x.1, { x.2 with key := 0 }) } } : Mach).set R.grotto_stat_state 4).grottoError 0x81 0 := by
  refine does_of_ans _ _ execIsolationComplete.eq_def id ?_
  rintro ⟨hfrozen, hstate⟩
  have hmay : (m.get R.grotto_stat_state == 3 || m.get R.grotto_stat_state == 5) = true := by simpa using hstate
  exact if_neg (by rw [hfrozen, hmay]; decide)

/-- Isolation too late, by whether `noesc` keeps the module from its reset (R374). -/
def Mach.isolationLate (m : Mach) (noesc : Bool) : Mach :=
  if noesc then (m.grottoError 0x82 0).sets [(R.grotto_stat_state, 5), (R.grotto_stat_cause, 7)]
  else (m.grottoError 0x82 0).set R.grotto_stat_cause 7

theorem does_isolationTimeout (noesc : Bool) :
    Does m .isolationTimeout (m.frozen = false ∧ m.get R.grotto_stat_state = 3 ∧ m.on R.grotto_ctl_noesc = noesc) fun m' =>
      m' = m.isolationLate noesc := by
  refine does_of_ans _ _ execIsolationTimeout.eq_def id ?_
  rintro ⟨hfrozen, hstate, rfl⟩
  have hnoesc : (m.grottoError 0x82 0).on R.grotto_ctl_noesc = m.on R.grotto_ctl_noesc := by
    rw [Mach.on, Mach.on, Mach.get_grottoError _ _ (by decide)]
  rw [hfrozen, hstate, if_neg (by decide)]
  dsimp only
  rw [hnoesc]
  rfl

/-! ### Debug certificates (R370, R371) -/

theorem does_debugCertificate_refused {cert : List Nat} :
    Does m (.debugCertificate cert) (m.frozen = false ∧ m.certResult cert ≠ 1) fun m' =>
      m' = (m.sets [(R.grotto_dbgst_done, 1), (R.grotto_dbgst_result, m.certResult cert)]).grottoError 0x83 0 := by
  refine does_of_ans _ _ (execDebugCertificate.eq_def cert) (fun _ => rfl) ?_
  rintro ⟨hfrozen, hfails⟩
  rw [hfrozen, if_neg (by decide)]
  exact if_neg hfails

theorem does_debugEnablesClear : Does m .debugEnablesClear (m.frozen = false) fun m' => m' = m.dbgClear :=
  does_of_ans _ _ execDebugEnablesClear.eq_def id fun hfrozen => if_neg (by rw [hfrozen]; decide)

end

/-! ### O30 -/

/-- Settles O30, command by command: each condition leads past the checks that the command makes. -/
theorem grottoMonitor : Obligations.GrottoMonitor := by
  unfold Obligations.GrottoMonitor
  intro m
  exact ⟨does_grottoCreate_unavailable, fun _ _ _ => does_grottoCreate, fun _ _ _ => does_grottoAdd_wrongState,
    fun _ _ _ _ _ _ => does_grottoAdd, fun _ _ _ => does_grottoSeal, fun _ _ _ => does_grottoTeardown, fun _ _ _ => does_grottoQuery_unsealed,
    fun _ _ _ => does_grottoQuery_sealed, does_watchdogKick_monitor, does_watchdogKick_other, does_watchdogExpiry, does_isolationComplete,
    does_isolationTimeout true, does_isolationTimeout false, fun _ => does_debugCertificate_refused, does_debugEnablesClear⟩

end Sys2Proof.Machine
end

section
/-! The Grotto's functions `genter`, `gexit`, `gdetach` and `gquery` (R362 to R364, R366, R368), and O31.  A body sets the registers of its thread and
changes what its enclave and its resume link are; the two commute, so that the machine it leaves is that of the second with other registers. -/

namespace Sys2Proof.Machine

open Sys2Proof.Safety

/-! ### The current registers play no part in enclaves -/

section
variable (m : Mach) (th : Nat) (b : Arch)

theorem Mach.onTh_putCur {g : Thread → Thread} (hg : ∀ t, g { t with cur := b } = { g t with cur := b }) :
    (m.putCur th b).onTh th g = (m.onTh th g).putCur th b := by
  show (m.setTh th _).setTh th (g ((m.putCur th b).th th)) = (m.setTh th _).setTh th { (m.onTh th g).th th with cur := b }
  rw [Mach.setTh_setTh, Mach.setTh_setTh, Mach.th_putCur, hg, Mach.th_onTh_same]

theorem Mach.frozenThread_putCur (u : Nat) : (m.putCur th b).frozenThread u = m.frozenThread u := by
  have hencl : ((m.putCur th b).th u).encl = (m.th u).encl := by
    by_cases hu : u = th
    · rw [hu, Mach.th_putCur]
    · rw [(m.setsCur_putCur th b).others u hu]
  rw [Mach.frozenThread, Mach.frozenThread, hencl]

theorem Mach.coreFrozen_putCur : (m.putCur th b).coreFrozen = m.coreFrozen := by
  funext c
  rw [Mach.coreFrozen, Mach.coreFrozen, Mach.frozenThread_putCur, Mach.frozenThread_putCur]

theorem Mach.updFrz_putCur : (m.putCur th b).updFrz = m.updFrz.putCur th b := by
  unfold Mach.updFrz
  rw [Mach.coreFrozen_putCur]
  rfl

/-- A change of a context and of the thread's enclave, with the freeze that it brings (R368), on a thread with other registers. -/
theorem Mach.updFrz_onTh_onCtx_putCur (e c : Nat) (f : CtxSt × SaveFrame → CtxSt × SaveFrame) {g : Thread → Thread}
    (hg : ∀ t, g { t with cur := b } = { g t with cur := b }) :
    (((m.putCur th b).onCtx e c f).onTh th g).updFrz = ((m.onCtx e c f).onTh th g).updFrz.putCur th b := by
  rw [← Mach.updFrz_putCur, ← Mach.onTh_putCur _ _ _ hg]
  rfl

end

/-- Thread `th` of `m2` is that of `m1` but for its enclave and its resume link, and can take in an instruction as it could. -/
structure Mach.MovesEnclave (m1 m2 : Mach) (th : Nat) : Prop where
  own : m2.th th = { m1.th th with encl := (m2.th th).encl, link := (m2.th th).link }
  others : ∀ u, u ≠ th → m2.th u = m1.th u
  patch : m2.patchIn = m1.patchIn

section
variable {m1 m2 : Mach} {th : Nat}

/-- A machine whose threads are those of `m1` after a change `g` of the enclave and the resume link of one. -/
theorem movesEnclave_onTh {g : Thread → Thread} (hg : ∀ t, g t = { t with encl := (g t).encl, link := (g t).link })
    (hthr : m2.thr = (m1.onTh th g).thr) (hpatch : m2.patchIn = m1.patchIn) : m1.MovesEnclave m2 th where
  own := by
    rw [Mach.th, hthr]
    exact (m1.th_onTh_same th g).trans ((hg _).trans (by rw [← m1.th_onTh_same th g]; rfl))
  others u hu := by
    rw [Mach.th, hthr]
    exact m1.th_onTh_ne th u g hu
  patch := hpatch

theorem movesEnclave_refl : m1.MovesEnclave m1 th := ⟨rfl, fun _ _ => rfl, rfl⟩

theorem Mach.MovesEnclave.takeIn (h : m1.MovesEnclave m2 th) (sh : Shape) : m2.takeIn th sh = m1.takeIn th sh := by
  have hne : 2 * (th / 2) + 1 - th % 2 ≠ th := by omega
  unfold Mach.takeIn Mach.share
  rw [h.own, h.others _ hne, h.patch]

theorem Mach.MovesEnclave.served {sh : Shape} {a : Arch} (h : m1.MovesEnclave m2 th) (hv : Served m1 th sh a) : Served m2 th sh a where
  noSync := by rw [h.own]; exact hv.noSync
  noDbg := by rw [h.own]; exact hv.noDbg
  room := by rw [h.takeIn]; exact hv.room
  keeps := by rw [h.own]; exact hv.keeps

end

/-! ### An instruction of R154 that transfers control -/

/-- An empty window takes an instruction as its first. -/
theorem takeIn_first {m : Mach} {th : Nat} {sh : Shape} (hwin : (m.th th).win = []) (hroom : (m.takeIn th sh).isSome = true) :
    m.takeIn th sh = some (none, []) := by
  obtain ⟨p, htake⟩ := Option.isSome_iff_exists.1 hroom
  rw [htake]
  simp only [Mach.takeIn, hwin, List.getLast?_nil] at htake
  split at htake
  · cases htake
  · split at htake
    · exact htake.symm
    · cases htake

/-- As `complete_sync_eq`, for a transfer of control. -/
theorem complete_sync_jump {m : Mach} {th : Nat} {sh : Shape} {a0 : Arch} {x : W64} (hfresh : (m.th th).nowSync = false) (hs : sh.sync = true)
    (hstep : a0.pswF 6 6 = 0) (hroom : (m.takeIn th sh).isSome = true) (hwin : (m.th th).win = []) (hep : (m.th th).ep = none)
    (hbuf : (m.th th).sbuf.length ≤ 64) :
    m.complete th sh a0 ⟨.jump x, [], none⟩ = some (m.setTh th { m.th th with
      nowSync := false, got := [], seen := [], cur := { (m.th th).cur with ia := x }, com := { (m.th th).cur with ia := x }, win := [] }) := by
  unfold Mach.complete
  simp only [hfresh, hstep, takeIn_first hwin hroom, hs, Bool.false_eq_true, if_false, if_true, List.nil_append]
  rw [if_neg (by simp), commitAll_one _ _ _ (by rw [Mach.th_setTh_same]) (by rw [Mach.th_setTh_same]; exact hep) rfl
    (by rw [Mach.th_setTh_same]; exact hbuf), Mach.th_setTh_same, Mach.setTh_setTh]

/-! ### A Grotto function -/

/-- The body of a Grotto function with its checks (R91, R362). -/
def grottoBody (o : FS) (fn : Nat) (enc : Option Bool) (ok : Bool) (body : X Done) : X Done := do
  sysCheck o fn 0 (o.sr == 0 && ok)
  let r ← X.regs o.th
  X.oper (sysWord o fn) (enc.elim true fun v => (r.pswF 2 2 == 1) == v)
  body

theorem grottoInsn_eq (o : FS) (fn : Nat) (enc : Option Bool) (ok : Bool) (body : X Done) (s : State) :
    grottoInsn o fn enc ok body s = sysInsn o (Shape.micro_ (sysWord o fn)) (grottoBody o fn enc ok body) s := by
  cases enc <;> rfl

/-- No Grotto function needs a level: its checks pass when its fields and `psw.enc` are as they must be. -/
theorem grottoBody_ok {m : Mach} {o : FS} {fn : Nat} {enc : Option Bool} {ok : Bool} (body : X Done) (hsr : o.sr = 0) (hok : ok = true)
    (henc : (enc.elim true fun v => ((m.th o.th).cur.pswF 2 2 == 1) == v) = true) : grottoBody o fn enc ok body m = body m := by
  rw [grottoBody, bind_ok _ _ _ _ _ (sysCheck_ok (Nat.zero_le _) (by simp [hsr, hok])), X.regs_bind, henc]
  rfl

/-- What a Grotto function leaves whose body has brought the enclave state to `m2`, sets the registers `b` and goes on at `x`. -/
theorem leavesGrotto_of_body {i : Instr} {s : State} {o : FS} {m1 m2 m3 : Mach} {fn : Nat} {enc : Option Bool} {ok : Bool} {body : X Done}
    {b : Arch} {x : W64} (hwf : o.wf = true) (hsr : o.sr = 0) (hr : Ready s.m o.th (Shape.micro_ 0) m1)
    (e : Host.Outcome State Fault Refusal) (hx : exec i s = e) (he : e = grottoInsn o fn enc ok body s) (hok : ok = true)
    (henc : (enc.elim true fun v => ((s.m.th o.th).cur.pswF 2 2 == 1) == v) = true) (hb : body m1 = .ok ⟨.jump x, [], none⟩ m3)
    (hm : m1.MovesEnclave m2 o.th) (hc : m2.SetsCur o.th b m3) : LeavesGrotto i s o.th m2 { b with ia := x } := by
  have hr' : Ready s.m o.th (Shape.micro_ (sysWord o fn)) m1 := ready_word _ hr
  have hv := hc.served (hm.served (served_of_ready hr'))
  obtain ⟨-, hwin, hep, hbuf⟩ := hr.sync rfl
  have hcomp := complete_sync_jump (x := x) hv.noSync rfl hr.noStep hv.room (by rw [hc.own, hm.own]; exact hwin)
    (by rw [hc.own, hm.own]; exact hep) (by rw [hc.own, hm.own]; exact hbuf)
  have hbody := (grottoBody_ok (fn := fn) body hsr hok (by rw [hr.keeps]; exact henc)).trans hb
  have hexec := exec_sysInsn e hx (he.trans (grottoInsn_eq ..)) hwf
  rw [runInsn_ready hr' hbody hcomp, Mach.stepEnd_idle _ _ (by rw [Mach.th_setTh_same]; exact hv.noDbg)] at hexec
  refine ⟨_, hexec, rfl, ?_, ?_, ?_, ?_, hc.frame (fun u hu => Mach.th_setTh_ne _ _ _ _ hu) rfl⟩ <;> rw [Mach.th_setTh_same, hc.own]

/-! ### The four functions -/

/-- The machine in which the thread that runs enclave context `x` has left it by `gexit` (R366). -/
def Mach.exited (m : Mach) (th : Nat) (x : EnclCtx) : Mach :=
  ((m.onCtx x.encl x.ctx fun y => (.idle, y.2)).onTh th fun t => { t with encl := none }).updFrz

/-- The machine in which the thread of `o`, with the registers `a`, has entered context `c` of enclave `e` (R364). -/
def Mach.entered (m : Mach) (o : FS) (a : Arch) (e c : Nat) : Mach :=
  ((m.onCtx e c fun y => (.running, y.2)).onTh o.th fun t => { t with encl := some ⟨e, c, a.ia, o.t, a.psw,
    m.on R.grotto_dbg_e_ni && m.inScope e, m.on R.grotto_dbg_e_inv && m.inScope e⟩ }).updFrz

/-- The registers with which a context in state `st` and with save frame `f` is entered or resumed (R364). -/
def Arch.entering (a : Arch) (st : CtxSt) (f : SaveFrame) : Arch :=
  let b : Arch := if st = .suspended then { a with g := f.g, f := f.f, lsa := f.lsa, lea := f.lea, lct := f.lct, psw := f.psw, fpsr := f.fpsr } else a
  (b.setPsw 2 2 1).setPsw 23 20 (if st = .suspended then b.pswF 23 20 else 0)

/-- Where execution goes on in a context of enclave `x` (R364). -/
def Enclave.entryOf (x : Enclave) (st : CtxSt) (f : SaveFrame) : W64 :=
  if st = .suspended then f.ia else BitVec.ofNat 64 (x.vbase + x.entry)

@[simp] theorem Arch.setG_ia (a : Arch) (r : Nat) (v : W64) : (a.setG r v).ia = a.ia := by
  rw [Arch.setG, apply_ite Arch.ia, ite_self]

section
variable {m : Mach} {o : FS} {a : Arch}

theorem grottoNext_run (hcur : (m.th o.th).cur = a) : grottoNext o m = .ok ⟨.jump (a.ia + 4), [], none⟩ m := by
  subst hcur
  rfl

/-- A Grotto function that has put `v` into g[t] goes on after itself. -/
theorem grottoNext_putCur_setG (v : W64) :
    grottoNext o (m.putCur o.th (a.setG o.t v)) = .ok ⟨.jump (a.ia + 4), [], none⟩ (m.putCur o.th (a.setG o.t v)) := by
  rw [grottoNext_run (congrArg Thread.cur (m.th_putCur o.th _)), Arch.setG_ia]

theorem genterRefuse_run (hcur : (m.th o.th).cur = a) (reason : Nat) :
    genterRefuse o reason true m = .ok ⟨.jump (a.ia + 4), [], none⟩
      ((m.onTh o.th fun t => { t with link := none }).putCur o.th ((a.setCc 3).setG o.t (BitVec.ofNat 64 reason))) := by
  rw [genterRefuse, X.upd_bind, if_pos rfl, X.modify_bind, Mach.onTh_putCur _ _ _ fun _ => rfl, hcur]
  exact grottoNext_putCur_setG (a := a.setCc 3) _

theorem genterGo_run {e c : Nat} {st : CtxSt} {f : SaveFrame} (hcur : (m.th o.th).cur = a) (hctx : (m.enclave e).ctx c = (st, f)) :
    genterGo o e c false m = .ok ⟨.jump ((m.enclave e).entryOf st f), [], none⟩ ((m.entered o a e c).putCur o.th (a.entering st f)) := by
  subst hcur
  unfold genterGo
  rw [X.mach_bind]
  dsimp only
  rw [hctx, X.upd_bind, X.modify_bind]
  exact congrArg (EStateM.Result.ok _) (Mach.updFrz_onTh_onCtx_putCur m o.th _ e c _ fun _ => rfl)

end

section
variable {s : State} {o : FS} {m1 : Mach} {a : Arch} (hwf : o.wf = true) (hsr : o.sr = 0) (hr : Ready s.m o.th (Shape.micro_ 0) m1)
  (hcur : (s.m.th o.th).cur = a)
include hwf hsr hr hcur

theorem leavesGrotto_gdetach (ht : o.t = 0) (ha : o.a = 0) (hout : a.pswF 2 2 = 0) :
    LeavesGrotto (.gdetach o) s o.th (m1.onTh o.th fun t => { t with link := none }) { a with ia := a.ia + 4 } := by
  subst hcur
  refine leavesGrotto_of_body hwf hsr hr (execGdetach o s) rfl rfl (by simp [ht, ha]) (by rw [hout]; rfl) ?_
    (movesEnclave_onTh (fun _ => rfl) rfl rfl) (Mach.setsCur_refl (by rw [Mach.th_onTh_same]; exact hr.keeps))
  exact grottoNext_run (by rw [Mach.th_onTh_same, hr.keeps])

theorem leavesGrotto_gquery :
    LeavesGrotto (.gquery o) s o.th m1 { a.setG o.t (BitVec.ofNat 64 (m1.gquery o.th (a.gr o.a).toNat)) with ia := a.ia + 4 } := by
  subst hcur
  refine leavesGrotto_of_body hwf hsr hr (execGquery o s) rfl rfl rfl rfl ?_ movesEnclave_refl (m1.setsCur_putCur o.th _)
  rw [X.mach_bind, X.upd_bind, hr.keeps]
  exact grottoNext_putCur_setG _

theorem leavesGrotto_gexit {x : EnclCtx} (ht : o.t = 0) (ha : o.a = 0) (hin : a.pswF 2 2 = 1) (hencl : (m1.th o.th).encl = some x) :
    LeavesGrotto (.gexit o) s o.th (m1.exited o.th x) { ({ a with psw := x.psw } : Arch).setCc 0 with ia := x.gaddr + 4 } := by
  subst hcur
  refine leavesGrotto_of_body hwf hsr hr (execGexit o s) rfl rfl (by simp [ht, ha]) (by rw [hin]; rfl) ?_
    (movesEnclave_onTh (g := fun t => { t with encl := none }) (fun _ => rfl) rfl rfl) (Mach.setsCur_putCur _ o.th _)
  rw [X.mach_bind, hencl]
  dsimp only
  rw [X.upd_bind, X.modify_bind, hr.keeps]
  exact congrArg (EStateM.Result.ok _) (Mach.updFrz_onTh_onCtx_putCur m1 o.th _ x.encl x.ctx _ fun _ => rfl)

/-- `genter` with the monitor not running (reason 1 of Table 12.4). -/
theorem leavesGrotto_genter_unavailable (hout : a.pswF 2 2 = 0) (hstate : m1.get R.grotto_stat_state ≠ 2) :
    LeavesGrotto (.genter o) s o.th (m1.onTh o.th fun t => { t with link := none }) { (a.setCc 3).setG o.t 1 with ia := a.ia + 4 } := by
  subst hcur
  refine leavesGrotto_of_body hwf hsr hr (execGenter o s) rfl rfl rfl (by rw [hout]; rfl) ?_
    (movesEnclave_onTh (fun _ => rfl) rfl rfl) (Mach.setsCur_putCur _ o.th _)
  rw [X.mach_bind, if_pos hstate]
  exact genterRefuse_run hr.keeps 1

/-- `genter` of a context that nothing keeps from running. -/
theorem leavesGrotto_genter {e c d : Nat} {st : CtxSt} {f : SaveFrame} (hout : a.pswF 2 2 = 0) (hstate : m1.get R.grotto_stat_state = 2)
    (hlink : (m1.th o.th).link = none) (he : e = bits (a.gr o.a).toNat 11 0) (hc : c = bits (a.gr o.a).toNat 19 16)
    (hsealed : (m1.enclave e).st = 2) (hlt : c < (m1.enclave e).nctx) (hctx : (m1.enclave e).ctx c = (st, f)) (hst : st ≠ .running)
    (hpl : a.pl < 3) (htr : a.pswF 4 4 = 1) (hd : d = lvDepth (bits (if a.pl ≤ 1 then a.ttr1 else a.ttrh).toNat 1 0))
    (hlo : canonical (m1.enclave e).vbase (vaBits d) = true)
    (hhi : canonical ((m1.enclave e).vbase + (m1.enclave e).size - 1) (vaBits d) = true) :
    LeavesGrotto (.genter o) s o.th (m1.entered o a e c) { a.entering st f with ia := (m1.enclave e).entryOf st f } := by
  subst hcur he hc hd
  refine leavesGrotto_of_body hwf hsr hr (execGenter o s) rfl rfl rfl (by rw [hout]; rfl) ?_
    (movesEnclave_onTh (g := fun t => { t with encl := some _ }) (fun _ => rfl) rfl rfl) (Mach.setsCur_putCur _ o.th _)
  rw [X.mach_bind, hr.keeps, hlink, if_neg (not_not_intro hstate), if_neg (by simp [hsealed]), if_neg (Nat.not_le_of_lt hlt),
    if_neg (by rw [hctx]; exact hst), if_neg (by omega), if_neg (by rw [hlo, hhi]; decide)]
  exact genterGo_run hr.keeps hctx

end

/-! ### O31 -/

/-- Settles O31: one lemma for each function; a context is idle or suspended when it is entered or resumed. -/
theorem grottoInstructions : Obligations.GrottoInstructions := by
  unfold Obligations.GrottoInstructions
  intro s o m1 hwf hsr hr
  refine ⟨leavesGrotto_gdetach hwf hsr hr rfl, leavesGrotto_gquery hwf hsr hr rfl, fun _ => leavesGrotto_gexit hwf hsr hr rfl,
    leavesGrotto_genter_unavailable hwf hsr hr rfl, fun e c f st hout hstate hlink he hc hsealed hlt hctx hpl htr ⟨hlo, hhi⟩ => ?_⟩
  have hgo (hst : st ≠ .running) := leavesGrotto_genter hwf hsr hr rfl hout hstate hlink he hc hsealed hlt hctx hst hpl htr rfl hlo hhi
  constructor <;> rintro rfl
  · exact hgo (by decide)
  · exact hgo (by decide)

end Sys2Proof.Machine
end

section
/-! The queue and the step (log entry 5), every command of the table (log entry 59), and O58, O60 and O1.  A command answers a fault only where
its operands are out of range. -/

namespace Sys2Proof.Machine

open Sys2Proof.Safety

/-! ### O1 -/

/-- Settles O1: the step takes its command from the front of the queue by definition. -/
theorem queueOrder : Obligations.QueueOrder := by
  unfold Obligations.QueueOrder
  intro c rest m
  rfl

/-! ### Operands in range -/

theorem right_of_and {a b : Bool} (h : (a && b) = true) : b = true := (Bool.and_eq_true_iff.1 h).2

/-- A command that changes the machine when its operands are in range completes when they are, and leaves the queue alone. -/
theorem completes_of_answer {c : Instr} {s : State} {ok : Bool} {m' : Mach}
    (hexec : exec c s = if ok then .next { s with m := m' } else .fault .noSuchUnit) (hok : ok = true) :
    ∃ t, exec c s = .next t ∧ t.pending = s.pending :=
  ⟨_, hexec.trans (if_pos hok), rfl⟩

/-- The operands that a slot of kind LIVE leaves open are 0. -/
theorem live_operands {ring num vote : Nat} {peers : List Nat} (h : (Instr.live ring num vote peers).wf = true) :
    (decide (ring < 2) && decide (num < 256) && decide (0 < 4) && decide (vote < 16) && decide (0 < 2 ^ 48)) = true := by
  have hcarried : (decide (ring < 2) && decide (num < 256) && decide (vote < 16)) = true := left_of_and h
  simpa using hcarried

/-- A slot of kind CHK leaves its vote open. -/
theorem chk_operands {ring num orig pay : Nat} (h : (Instr.chk ring num orig pay).wf = true) :
    (decide (ring < 2) && decide (num < 256) && decide (orig < 4) && decide (0 < 16) && decide (pay < 2 ^ 48)) = true := by
  change (decide (ring < 2) && decide (num < 256) && decide (orig < 4) && decide (pay < 2 ^ 48)) = true at h
  simpa using h

/-! ### O58 -/

/-- Settles O58, command by command: a meaning asks for no more than that some of its operands are in range, and most ask for all of them or for
none. -/
theorem everyCommandCompletes : Obligations.EveryCommandCompletes := by
  unfold Obligations.EveryCommandCompletes
  intro c s hwf
  cases c with
  -- commands that ask for nothing
  | epochDrainStep2 | epochDrainStep3 | epochDrainStep4 | epochDrainStep5 | drainTimeout | concurrentRepairButton | sluiceSlotOriginate
  | patchApplied | mapScanComplete | expansionComplete | expansionWaitEnd | pageEvictionComplete | cisternDiscard | cisternEvict
  | cisternQuery | grottoCreate | grottoAdd | grottoSeal | grottoTeardown | grottoQuery | watchdogKick | watchdogExpiry | isolationComplete
  | isolationTimeout | debugCertificate | debugEnablesClear | mtuRemoval | recordConfirmed | holdExpired | deviceBusyWaitEnd | cmd | wdata
  | halt | close | targetWrite | targetRead | rillWriterSlot | cascadeSelection | spillwayEvent | errnClear | hubLost | nmtStart | nmtStop
  | nmtEnterPreOperational | nmtResetNode | nmtResetCommunication | bootUpMessage | heartbeat | emcy | tpdo1 | tpdo2 | canErrorPassive
  | busOffRecovery | imageWrite | imageVerified | debugStop | debugResume | debugStep | debugMemoryAccess | readoutItem | powerOnReset
  | mainenAssert | pwrgdRise | pwrgdFall | resetNChange | referenceClockLoss | moduleReset | pllLock | bootRomStart | bootAreaChecked
  | directorySweep | directorySweepComplete | bootSeal | supplyExcursion | vAoLoss | faultIndicatorTimeout =>
    exact ⟨_, rfl, rfl⟩
  -- commands that ask for all their operands
  | mcsRegisterWrite | mcsReservedAccess | modeRequest | modeCancel | epochBoundary | qreq | qdrain | qpoll | qcommit | qabort
  | quiesceBoundarySlot | sluiceSlotForward | missedLiveSlots | sluiceInputLost | domainCheckstop | add | addl | sub | subl | andI | orI
  | xorI | andc | sll | srl | sra | rotl | cmp | cmpl | mul | mulh | mulhu | div | divu | rem | remu | addi | addis | andi | ori | xori
  | cmpi | cmpli | lb | lh | lw | ld | lq | lbs | lhs | lws | stb | sth | stw | std | stq | lfs | lfd | stfs | stfd | indexedAccess
  | nonTemporalStore | br | brl | brc | bgr | loop | mfsr | mtsr | svc | hvc | fwc | rfi | fenceL | fenceS | fenceF | isync | wait
  | waitWake | rdtod | brk | undefinedInstruction | lres | scond | cas8 | cas16 | lcpy | lcmp | lmap | dadd | dsub | dcmp | dmul | ddiv
  | dset | zdec | dzon | bcpy | bcmp | bmap | bxor | bfil | fadd | fsub | fmul | fdiv | fsqrt | fmadd | fmsub | fcmp | fcvtSD | fcvtDS
  | fcfi | fcti | fctiz | fmov | fneg | fabs | mffs | mtfs | fmgf | fmfg | externalInterruption | machineCheck | checkpointCommit
  | runAheadEnter | runAheadEnd | coreCheckError | hangTimerExpiry | capsuleRead | swapResumption | l2FlushComplete | spareWarmed
  | plannedSwap | patchGo | ldtt | sttt | tlbiva | tlbiasid | tlbip1 | tlbigpa | tlbipart | tlbihva | tlbihall | tlbsync | tlbsyncComplete
  | adBitUpdate | shootdownReceive | shootdownAck | tlbShootdownTimeout | storePerform | combiningLineTimeout | prefetchRequest | l2Eviction
  | upg | own | wrf | wrm | evc | evd | mov | tlbi | prs | prx | pri | prw | ack | cmpGrant | done | pra | eva | evp | wra | tlba | err
  | dataMsg | dath | wdat | holdExpiry | probeTimeout | fabricLaneFailure | fabricLanemap | fabricTrainingStart | fabricCrdinit
  | memLaneFailure | memLanemap | memCrdinit | memReady | memTrainingStart | memPortDown | memPortUp | rebuildLine | groupInit
  | groupInitComplete | genter | gexit | gdetach | gquery | cmpSubmit | rotationSlot | cmpAbort | crySubmit | cryAbort | wrappingKeyLoad
  | entropyHealthFailure | entropyRestartEnd | instanceAssign | instanceEnable | instanceQuiesce | instanceQuiesced | instanceResume
  | instanceReset | instanceRemove | instanceSave | instanceRestore | instanceRootWrite | logCacheWriteback | varyOffline | varyOnline
  | pathProbeInterval | identCmd | jlReplayTimeout | jlLaneFailure | jlTrainingStart | jlLinkDown | jlPortDown | jlPortUp | reservoirAdopt
  | reservoirRelease | reservoirQuery | attentionButtonPressed | presenceDetectChanged | mrlSensorChanged | powerFault | slotPowerOn
  | slotPowerOff | perstRelease | noLinkTimeout | pcieLinkDown | containmentRelease | cp2Stop | partnerSilent | mirrorRelease
  | couplingPortDown | couplingPortUp | groupTimeLimit | consumerWordRead | vpDefine | vpReady | vpStop | vpUndefine | sliceEnd | vpLeave
  | vpTimerWrite | vpTimerExpiry | partitionStall | budgetInterval | powerSample | sensorReading | thermalPark | shallowPark | deepPark
  | coreUnpark | bucketUnitEnd | severeClear | blockResetRequest | fenceLimit | blockResetComplete | blockResetTimeout
  | consequentialMarkExpiry | faultInjection | usdoTimeout | odRead | activate | moduleResetObject | debugRegisterAccess
  | resetSequenceStart | threadStart | fabricRetrainAtX8Done | jlNarrowingDone | pcieLinkError | sluiceReceiverLock =>
    refine completes_of_answer rfl ?_
    exact hwf
  -- commands that ask for their first operands
  | fabricFlit | fabricEqualisationEnd | memRd | memWr | memCrd | memWra | memRerr | memResponseTimeout | memIdent | memEqualisationEnd
  | patrolScrubLine | rdata | endCmd | busy | free | halta | cleara | identr | rej | keep | jlTs | jlEqualisationEnd | pcieCompletionTimeout
  | sreq | srsp | areq | arsp | rbusy | rrej | mupd | mack | mnak | couplingRequestTimeout | groupLimitWrite | rillEnable | rillPost
  | usdoRequest | odWrite | fabricPortControlWrite | memoryLinkFlit =>
    refine completes_of_answer rfl ?_
    exact left_of_and hwf
  | rds | rdx | memCwr | memCra | channelSubmit | jlLanemap | pcieCompletion | pcieErrorMessage | indicatorChange | couplingSubmit | cp2Init
  | pcieLinkUp =>
    refine completes_of_answer rfl ?_
    exact left_of_and (left_of_and hwf)
  | fabricIdent | pcieInboundMemoryWrite | pcieInboundUnsupported | doorbellRing =>
    refine completes_of_answer rfl ?_
    exact left_of_and (left_of_and (left_of_and hwf))
  | memRdd | pcieInboundMemoryRead =>
    refine completes_of_answer rfl ?_
    exact left_of_and (left_of_and (left_of_and (left_of_and hwf)))
  | jlInit =>
    refine completes_of_answer rfl ?_
    exact left_of_and (left_of_and (left_of_and (left_of_and (left_of_and hwf))))
  | pcieInboundAtomicop =>
    refine completes_of_answer rfl ?_
    exact left_of_and (left_of_and (left_of_and (left_of_and (left_of_and (left_of_and (left_of_and hwf))))))
  -- commands that ask for their last operand, or for the first and the last
  | exchangeTimeout | clear =>
    refine completes_of_answer rfl ?_
    exact right_of_and hwf
  | jlCodeword =>
    refine completes_of_answer rfl ?_
    exact Bool.and_eq_true_iff.2 ⟨left_of_and (left_of_and (left_of_and hwf)), right_of_and hwf⟩
  | inboundMcsAccess => exact completes_of_answer rfl (inboundMcsAccess_operands hwf)
  -- commands of `chan.scmd` that name no path, and slots of the Sluice ring that leave operands open
  | subchannelDefine | subchannelEnable | subchannelDisable | subchannelQuery | subchannelUndefine =>
    refine completes_of_answer rfl ?_
    exact Bool.and_eq_true_iff.2 ⟨hwf, rfl⟩
  | tod => exact completes_of_answer rfl (tod_operands hwf)
  | live => exact completes_of_answer rfl (live_operands hwf)
  | chk => exact completes_of_answer rfl (chk_operands hwf)

/-! ### O60 -/

/-- Settles O60: every waiting command completes and leaves the others alone (O58); with none waiting, the time of day advances. -/
theorem queueStaysGood : Obligations.QueueStaysGood := by
  unfold Obligations.QueueStaysGood
  intro s hgood
  cases hqueue : s.pending with
  | nil =>
    refine ⟨{ s with m := s.m.tick }, by rw [step, hqueue], by simp [hqueue], hgood, fun _ => ?_⟩
    by_cases hvao : s.m.boot.vao = true <;> simp [Mach.tick, hvao]
  | cons c rest =>
    rw [queueOk, hqueue, List.all_cons, Bool.and_eq_true] at hgood
    obtain ⟨hwf, hrest⟩ := hgood
    obtain ⟨t, hexec, hpending⟩ := everyCommandCompletes c { s with pending := rest } hwf
    refine ⟨t, by rw [step, hqueue]; exact hexec, hpending, by rw [queueOk, hpending]; exact hrest, nofun⟩

end Sys2Proof.Machine
end

section
/-! Memory as a list of cells, and O56.  A line reads back byte by byte; a memory in canonical form lists exactly the bytes that are not 0, so what
it reads says what it is. -/

namespace Sys2Proof.Machine

/-! ### Bytes and lines -/

theorem ofBytes_append_singleton (bs : List Nat) (b : Nat) : ofBytes (bs ++ [b]) = ofBytes bs * 256 + b % 256 := by simp [ofBytes]

/-- The first `k` of the `n` bytes of a number spell the number without its lower bytes. -/
theorem ofBytes_leadingBytes (x n k : Nat) (hk : k ≤ n) :
    ofBytes ((List.range k).map fun i => (x >>> (8 * (n - 1 - i))) % 256) = (x >>> (8 * (n - k))) % 256 ^ k := by
  induction k with
  | zero => simp [ofBytes, Nat.mod_one]
  | succ k ih =>
    have hshift : x >>> (8 * (n - k)) = x >>> (8 * (n - (k + 1))) / 256 := by
      rw [show 8 * (n - k) = 8 * (n - (k + 1)) + 8 by omega, Nat.shiftRight_add, Nat.shiftRight_eq_div_pow _ 8]
    have hlast : n - 1 - k = n - (k + 1) := by omega
    rw [List.range_succ, List.map_append, List.map_singleton, ofBytes_append_singleton, ih (by omega), hshift, hlast, Nat.mod_mod,
      Nat.pow_succ', Nat.mod_mul, Nat.mul_comm _ 256, Nat.add_comm]

theorem toNat_lt_pow_bytes {n : Nat} (x : BitVec (8 * n)) : x.toNat < 256 ^ n := Nat.lt_of_lt_of_eq x.isLt (Nat.pow_mul 2 8 n)

/-- A line is spelled by its 256 bytes (R10, R229). -/
theorem ofNat_ofBytes_lineByte (d : Line) : BitVec.ofNat 2048 (ofBytes ((List.range 256).map (lineByte d))) = d := by
  have hspelled : ofBytes ((List.range 256).map (lineByte d)) = d.toNat >>> 0 % 256 ^ 256 := ofBytes_leadingBytes d.toNat 256 256 (Nat.le_refl _)
  have hlt : d.toNat < 256 ^ 256 := toNat_lt_pow_bytes (n := 256) d
  rw [hspelled, Nat.shiftRight_zero, Nat.mod_eq_of_lt hlt, BitVec.ofNat_toNat, BitVec.setWidth_eq]

namespace Memory

theorem rd_wrs_at (bs : List Nat) (mem : Memory) (a : Nat) (hmem : mem.wf = true) (i : Nat) (hi : i < bs.length) :
    (mem.wrs a bs).rd (a + i) = BitVec.ofNat 8 bs[i] := by
  induction bs generalizing mem a i with
  | nil => exact absurd hi (Nat.not_lt_zero i)
  | cons b r ih =>
    cases i with
    | zero => exact (rd_wrs_ne r _ (a + 1) a (.inl (Nat.lt_succ_self a))).trans (mem.rd_wr_same a _ hmem)
    | succ i =>
      rw [show a + (i + 1) = a + 1 + i by omega]
      exact ih (mem.wr a _) (a + 1) (mem.wf_wr a _ hmem) i (Nat.lt_of_succ_lt_succ hi)

theorem rdLine_wrLine (mem : Memory) (l : Nat) (d : Line) (hmem : mem.wf = true) : (mem.wrLine l d).rdLine l = d := by
  have hbytes : (mem.wrLine l d).rds (256 * l) 256 = (List.range 256).map (lineByte d) := by
    refine List.map_congr_left fun i hi => ?_
    have hlt : i < ((List.range 256).map (lineByte d)).length := by simpa using hi
    rw [wrLine, rd_wrs_at _ mem (256 * l) hmem i hlt, List.getElem_map, List.getElem_range, BitVec.toNat_ofNat]
    exact Nat.mod_mod ..
  rw [rdLine, hbytes, ofNat_ofBytes_lineByte]

/-! ### The canonical form is unique -/

theorem rd_head (k : Nat) (v : Byte) (r : Memory) : rd ((k, v) :: r) k = v := by simp [rd]

/-- Below the first listed address every byte reads 0. -/
theorem rd_below {k a : Nat} {v : Byte} {r : Memory} (hwf : Memory.wf ((k, v) :: r) = true) (ha : a < k) : rd ((k, v) :: r) a = 0 := by
  obtain ⟨-, habove, -⟩ := (wf_cons k v r).1 hwf
  refine rd_above _ k a (fun x hx => ?_) ha
  obtain rfl | hx := List.mem_cons.1 hx
  · exact Nat.le_refl k
  · exact Nat.le_of_succ_le (habove x hx)

/-- Two memories in canonical form that read the same begin at the same address. -/
theorem head_le_of_rd_eq {k k' : Nat} {v v' : Byte} {r r' : Memory} (hwf : Memory.wf ((k, v) :: r) = true) (hwf' : Memory.wf ((k', v') :: r') = true)
    (hrd : ∀ a, rd ((k', v') :: r') a = rd ((k, v) :: r) a) : k' ≤ k := by
  obtain ⟨hv, -, -⟩ := (wf_cons k v r).1 hwf
  refine Nat.le_of_not_lt fun hlt => hv ?_
  rw [← rd_head k v r, ← hrd k, rd_below hwf' hlt]

theorem eq_of_rd_eq (mem mem' : Memory) (hwf : mem.wf = true) (hwf' : mem'.wf = true) (hrd : ∀ a, mem'.rd a = mem.rd a) : mem' = mem := by
  induction mem generalizing mem' with
  | nil =>
    cases mem' with
    | nil => rfl
    | cons y r' =>
      obtain ⟨k', v'⟩ := y
      obtain ⟨hv', -, -⟩ := (wf_cons k' v' r').1 hwf'
      exact absurd ((rd_head k' v' r').symm.trans (hrd k')) hv'
  | cons x r ih =>
    obtain ⟨k, v⟩ := x
    obtain ⟨hv, habove, hr⟩ := (wf_cons k v r).1 hwf
    cases mem' with
    | nil => exact absurd ((rd_head k v r).symm.trans (hrd k).symm) hv
    | cons y r' =>
      obtain ⟨k', v'⟩ := y
      obtain ⟨-, habove', hr'⟩ := (wf_cons k' v' r').1 hwf'
      obtain rfl : k' = k := Nat.le_antisymm (head_le_of_rd_eq hwf hwf' hrd) (head_le_of_rd_eq hwf' hwf fun a => (hrd a).symm)
      obtain rfl : v' = v := by simpa [rd] using hrd k'
      have htail : r' = r := ih r' hr hr' fun a => by
        by_cases ha : a = k'
        · rw [ha, rd_above r' (k' + 1) k' habove' (Nat.lt_succ_self k'), rd_above r (k' + 1) k' habove (Nat.lt_succ_self k')]
        · simpa [rd, ha] using hrd a
      rw [htail]

end Memory

/-! ### O56 -/

/-- Settles O56: the laws of a byte, of bytes, of a line and of a zeroed range, and uniqueness by the least address at which two memories differ. -/
theorem memoryCells : Obligations.MemoryCells := by
  unfold Obligations.MemoryCells
  intro mem hwf
  refine ⟨fun a v => ⟨mem.wf_wr a v hwf, mem.rd_wr_same a v hwf, fun b hb => mem.rd_wr_ne a b v hb⟩,
    fun a bs => ⟨Memory.wf_wrs bs mem a hwf, fun b => Memory.rd_wrs_ne bs mem a b⟩,
    fun l d => ⟨mem.wf_wrLine l d hwf, mem.rdLine_wrLine l d hwf⟩,
    fun lo n => ⟨mem.wf_zero lo n hwf, fun b hlo hhi => ?_, fun b hout => ?_⟩, fun mem' hwf' hrd => Memory.eq_of_rd_eq mem mem' hwf hwf' hrd⟩
  · rw [mem.rd_zero lo n b hwf, if_neg (by omega)]
  · rw [mem.rd_zero lo n b hwf, if_pos hout]

end Sys2Proof.Machine
end

section
/-! Commands of accelerator instances (R426 to R428, R435), and O32.  A command that finds no other unfinished is shown in `u.ictl` and then does
what its op says. -/

namespace Sys2Proof.Machine

open Sys2Proof.Safety

section
variable {m : Mach} {u i : Nat}

/-! ### A command is taken -/

theorem Mach.instGo_busy {op : Nat} {f : Mach → Mach} (hfrozen : m.frozen = false) (hgo : m.get (R.u_ictl_go u i) = 1) :
    m.instGo u i op f = m.sets [(R.u_ictl_result u i, 5), (R.u_ictl_done u i, 1)] := by
  have hon : m.on (R.u_ictl_go u i) = true := by rw [Mach.on, hgo]; rfl
  rw [Mach.instGo, hfrozen, if_neg Bool.false_ne_true, if_pos hon]

theorem Mach.instGo_taken {op : Nat} {f : Mach → Mach} (hfrozen : m.frozen = false) (hgo : m.get (R.u_ictl_go u i) = 0) :
    m.instGo u i op f = f (instTaken m u i op) := by
  have hoff : m.on (R.u_ictl_go u i) = false := by rw [Mach.on, hgo]; rfl
  rw [Mach.instGo, hfrozen, hoff, if_neg Bool.false_ne_true, if_neg Bool.false_ne_true]

/-- A command that is taken does what its op says. -/
theorem does_of_instGo {c : Instr} {op : Nat} {h : Prop} {P : Mach → Prop} (f : Mach → Mach)
    (hexec : ∀ s, exec c s = ans (decide (u < 4) && decide (i < 64)) s fun m => m.instGo u i op f)
    (hwf : c.wf = true → (decide (u < 4) && decide (i < 64)) = true) (hP : h → P (f (instTaken m u i op))) :
    Does m c (m.frozen = false ∧ m.get (R.u_ictl_go u i) = 0 ∧ h) P := by
  refine does_of_ans _ _ hexec hwf ?_
  rintro ⟨hfrozen, hgo, hh⟩
  rw [Mach.instGo_taken hfrozen hgo]
  exact hP hh

/-! ### What each op does (Table 15.2) -/

theorem Mach.cmdAssign_free (hasg : m.iAsg u i = false)
    (hpart : ((List.range 64).any fun j => j != i && m.iAsg u j && m.get (R.u_ittr2_part u j) == m.get (R.u_ittr2_part u i)) = false) :
    m.cmdAssign u i = (m.set (R.u_ictl_asg u i) 1).cmdDone u i 1 := by
  rw [Mach.cmdAssign, hasg, hpart, if_neg Bool.false_ne_true, if_neg Bool.false_ne_true]

/-- An instance that is enabled takes up what its unit keeps for it: a compression instance its held stream, a cryptographic one its wrapping key. -/
def Mach.takesUp (m : Mach) (u i : Nat) : Mach :=
  if u < 2 then m.onInst u i fun x => { x with stream := x.held, held := none }
  else if m.on (R.cryu_kpol_wkset (u - 2) i) then m.onInst u i fun x => { x with drbg := true }
  else (m.drawBytes 32).2.onInst u i fun x => { x with wkey := some (m.drawBytes 32).1, drbg := true }

theorem Mach.cmdEnable_disabled (hasg : m.iAsg u i = true) (hstate : m.iState u i = 0) (hstage : m.mode.stage < 3) :
    m.cmdEnable u i = ((m.set (R.u_ictl_state u i) 1).takesUp u i).cmdDone u i 1 := by
  have hstart : ¬ (m.iAsg u i = false ∨ m.iState u i ≠ 0) := by simp [hasg, hstate]
  rw [Mach.cmdEnable, if_neg hstart, if_neg (Nat.not_le_of_lt hstage)]
  rfl

theorem Mach.cmdRemove_disabled (hcmp : u < 2) (hstate : m.iState u i = 0) (hasg : m.iAsg u i = true) :
    m.cmdRemove u i = ((m.sets [(R.u_ictl_asg u i, 0), (R.u_ittr2 u i, 0), (R.u_idlog u i, 0), (R.u_idlim u i, 0), (R.u_i_ttr1 u i, 0),
      (R.cmpu_irill u i, 0)]).onInst u i fun x => { x with held := none, wkey := none, wpart := [] }).cmdDone u i 1 := by
  have hstart : ¬ (m.iState u i ≠ 0 ∨ m.iAsg u i = false) := by simp [hasg, hstate]
  simp only [Mach.cmdRemove, if_neg hstart, if_pos hcmp]

theorem Mach.cmdSave_quiesced (hcmp : u < 2) (hstate : m.iState u i = 3) :
    m.cmdSave u i = (m.inst u i).stream.elim (m.cmdDone u i 9) fun x =>
      if (m.devRange .acc (m.get (R.u_isave_addr u i) * 256) 40960).isSome then m.cmdDone u i 8
      else ((m.streamRecord x).1.devWrite (m.get (R.u_isave_addr u i) * 256) (m.streamRecord x).2).cmdDone u i 1 := by
  rw [Mach.cmdSave, if_neg (Nat.not_le_of_lt hcmp), if_neg (not_not_intro hstate)]
  cases (m.inst u i).stream <;> rfl

theorem Mach.cmdRestore_disabled (hcmp : u < 2) (hstate : m.iState u i = 0) (hasg : m.iAsg u i = true)
    (hrange : m.devRange .acc (m.get (R.u_isave_addr u i) * 256) 40960 = none)
    (hpoison : m.devPoison (m.get (R.u_isave_addr u i) * 256) 40960 = false) :
    m.cmdRestore u i = (m.readRecord (m.devRead (m.get (R.u_isave_addr u i) * 256) 40960)).elim (m.cmdDone u i 7)
      fun x => (m.onInst u i fun y => { y with held := some x }).cmdDone u i 1 := by
  have hstart : ¬ (m.iState u i ≠ 0 ∨ m.iAsg u i = false) := by simp [hasg, hstate]
  have hread : ((m.devRange .acc (m.get (R.u_isave_addr u i) * 256) 40960).isSome || m.devPoison (m.get (R.u_isave_addr u i) * 256) 40960) = false := by
    rw [hrange, hpoison]
    rfl
  rw [Mach.cmdRestore, if_neg (Nat.not_le_of_lt hcmp), if_neg hstart]
  simp only [hread, Bool.false_eq_true, if_false]
  cases m.readRecord (m.devRead (m.get (R.u_isave_addr u i) * 256) 40960) <;> rfl

/-! ### A reset forgets -/

section
variable (m u i) (r : Nat) (x : AccInst)

@[simp] theorem Mach.cmdDone_acc : (m.cmdDone u i r).acc = m.acc := m.sets_acc _

@[simp] theorem Mach.get_cmdDone_result : (m.cmdDone u i r).get (R.u_ictl_result u i) = r % 16 := by simp [Mach.cmdDone, Mach.sets, Mach.get_set]

@[simp] theorem Mach.get_cmdDone_done : (m.cmdDone u i r).get (R.u_ictl_done u i) = 1 := by simp [Mach.cmdDone, Mach.sets, Mach.get_set]

@[simp] theorem Mach.get_cmdDone_go : (m.cmdDone u i r).get (R.u_ictl_go u i) = 0 := by simp [Mach.cmdDone, Mach.sets, Mach.get_set]

@[simp] theorem Mach.iState_cmdDone : (m.cmdDone u i r).iState u i = m.iState u i := by
  simp [Mach.iState, Mach.cmdDone, Mach.sets, Mach.get_set]

theorem Mach.setInst_acc : (m.setInst u i x).acc = { m.acc with inst := tset m.acc.inst (64 * u + i) x } := by
  unfold Mach.setInst
  rw [apply_ite Mach.acc, Mach.set_acc, Mach.set_acc, ite_self]

/-- `u.ictl` of an instance lies before the registers of its page. -/
theorem ictl_off_ne_page {u i k : Nat} (hk : 0x610000 ≤ k) : 0x602000 + 0x80000 * u + 0x40 * i ≠ k + 0x80000 * u + 0x1000 * i := by omega

theorem Mach.iState_setInst : (m.setInst u i x).iState u i = m.iState u i := by
  have hoff : 0x602000 + 0x80000 * u + 0x40 * i ≠ 0x610008 + 0x80000 * u + 0x1000 * i := ictl_off_ne_page (by decide)
  unfold Mach.setInst Mach.iState
  rw [apply_ite (fun n : Mach => n.get (R.u_ictl_state u i)), Mach.get_set_other _ _ _ _ (.inr hoff), Mach.get_set_other _ _ _ _ (.inr hoff), ite_self]
  exact Mach.get_congr _ _ _ rfl

theorem Mach.inst_setInst : (m.setInst u i x).inst u i = x := by rw [Mach.inst, Mach.setInst_acc, tget_tset_same]

end

/-- The machine in which a reset has forgotten the translations of an instance and disabled it (R428). -/
def Mach.instCleared (m : Mach) (u i : Nat) : Mach :=
  ({ m with acc := { m.acc with
      tlb := m.acc.tlb.filter fun x => x.1 != 64 * u + i
      walk1 := m.acc.walk1.filter fun x => x.1 != 64 * u + i
      walk2 := m.acc.walk2.filter fun x => x.1 != 64 * u + i } } : Mach).sets
    [(R.u_ictl_state u i, 0), (R.cmpu_i_stat u i, 0), (R.cmpu_i_last u i, 0), (R.cmpu_i_cnt u i, 0), (R.u_i_flt u i, 0), (R.u_i_fta u i, 0),
      (R.u_i_ttr1 u i, 0)]

theorem Mach.cmdReset_quiesced (hcmp : u < 2) (hstate : m.iState u i = 3) :
    m.cmdReset u i = ((m.instCleared u i).setInst u i AccInst.init).cmdDone u i 1 := by
  simp only [Mach.cmdReset, if_neg (not_not_intro hstate), if_pos hcmp]
  rfl

theorem Mach.iState_instCleared : (m.instCleared u i).iState u i = 0 := by
  simp [Mach.instCleared, Mach.iState, Mach.sets, Mach.get_set, ictl_off_ne_page]

theorem does_instanceReset :
    Does m (.instanceReset u i) (m.frozen = false ∧ m.get (R.u_ictl_go u i) = 0 ∧ u < 2 ∧ (instTaken m u i 5).iState u i = 3) fun m' =>
      (m'.inst u i) = AccInst.init ∧ m'.iState u i = 0 ∧ m'.get (R.u_ictl_result u i) = 1 ∧ m'.get (R.u_ictl_done u i) = 1 ∧
      m'.get (R.u_ictl_go u i) = 0 ∧ m'.acc.tlb = m.acc.tlb.filter (fun (x : Nat × TlbE) => x.1 != 64 * u + i) ∧
      m'.acc.walk1 = m.acc.walk1.filter (fun (x : Nat × WalkE) => x.1 != 64 * u + i) ∧
      m'.acc.walk2 = m.acc.walk2.filter (fun (x : Nat × WalkE) => x.1 != 64 * u + i) := by
  refine does_of_instGo (·.cmdReset u i) (fun _ => rfl) id ?_
  rintro ⟨hcmp, hstate⟩
  rw [Mach.cmdReset_quiesced hcmp hstate]
  refine ⟨?_, ?_, Mach.get_cmdDone_result .., Mach.get_cmdDone_done .., Mach.get_cmdDone_go .., ?_, ?_, ?_⟩
  · exact Mach.inst_setInst ..
  · rw [Mach.iState_cmdDone, Mach.iState_setInst, Mach.iState_instCleared]
  all_goals
    rw [Mach.cmdDone_acc, Mach.setInst_acc]
    rfl

/-! ### The other commands -/

theorem does_instanceAssign_busy :
    Does m (.instanceAssign u i) (m.frozen = false ∧ m.get (R.u_ictl_go u i) = 1) fun m' =>
      m' = m.sets [(R.u_ictl_result u i, 5), (R.u_ictl_done u i, 1)] :=
  does_of_ans _ _ (execInstanceAssign.eq_def u i) id fun h => Mach.instGo_busy h.1 h.2

theorem does_instanceQuiesced :
    Does m (.instanceQuiesced u i) (m.frozen = false ∧ m.iState u i = 2 ∧ (m.inst u i).q = [] ∧ m.recWaits u i = false) fun m' =>
      m' = (m.set (R.u_ictl_state u i) 3).cmdDone u i 1 := by
  refine does_of_ans _ _ (execInstanceQuiesced.eq_def u i) id ?_
  rintro ⟨hfrozen, hstate, hqueue, hwaits⟩
  rw [hfrozen, hstate, hqueue, hwaits]
  rfl

theorem does_instanceRootWrite {one : Bool} {val : Nat} {h : Prop} {P : Mach → Prop} (hP : h → P (m.rootWrite u i one val)) :
    Does m (.instanceRootWrite u i one val) (m.frozen = false ∧ h) P := by
  refine does_of_ans _ _ (execInstanceRootWrite.eq_def u i one val) id ?_
  rintro ⟨hfrozen, hh⟩
  rw [hfrozen, if_neg Bool.false_ne_true]
  exact hP hh

end

/-! ### O32 -/

/-- Settles O32, command by command: a command is taken, and the lemma on its op says what follows. -/
theorem instanceCommands : Obligations.InstanceCommands := by
  unfold Obligations.InstanceCommands
  intro m
  refine ⟨fun u i => does_instanceAssign_busy, fun u i => does_of_instGo (·.cmdAssign u i) (fun _ => rfl) id ?_,
    fun u i => does_of_instGo (·.cmdEnable u i) (fun _ => rfl) id ?_, fun u i => does_of_instGo (·.cmdEnable u i) (fun _ => rfl) id ?_,
    fun u i => does_of_instGo (·.cmdQuiesce u i) (fun _ => rfl) id ?_, fun u i => does_of_instGo (·.cmdQuiesce u i) (fun _ => rfl) id ?_,
    fun u i => does_instanceQuiesced, fun u i => does_of_instGo (·.cmdResume u i) (fun _ => rfl) id ?_, fun u i => does_instanceReset,
    fun u i => does_of_instGo (·.cmdRemove u i) (fun _ => rfl) id ?_, fun u i x => does_of_instGo (·.cmdSave u i) (fun _ => rfl) id ?_,
    fun u i => does_of_instGo (·.cmdSave u i) (fun _ => rfl) id ?_, fun u i => does_of_instGo (·.cmdRestore u i) (fun _ => rfl) id ?_,
    fun u i => does_of_instGo (·.cmdRestore u i) (fun _ => rfl) id ?_, fun u i val => does_instanceRootWrite ?_,
    fun u i val => does_instanceRootWrite ?_, fun u i val => does_instanceRootWrite ?_⟩
  case refine_1 => exact fun ⟨hasg, hpart⟩ => Mach.cmdAssign_free hasg hpart
  case refine_2 =>
    rintro ⟨hcmp, hasg, hstate, hstage⟩
    rw [Mach.cmdEnable_disabled hasg hstate hstage, Mach.takesUp, if_pos hcmp]
  case refine_3 =>
    rintro ⟨hcry, hasg, hstate, hstage, -, hkey⟩
    rw [Mach.cmdEnable_disabled hasg hstate hstage, Mach.takesUp, if_neg (Nat.not_lt_of_le hcry), if_pos hkey]
  case refine_4 => exact fun hstate => if_pos hstate
  case refine_5 => exact fun hstate => if_neg hstate
  case refine_6 => exact fun hstate => if_pos hstate
  case refine_7 => exact fun ⟨hcmp, hstate, hasg⟩ => Mach.cmdRemove_disabled hcmp hstate hasg
  case refine_8 =>
    rintro ⟨hcmp, hstate, hstream, hrange⟩
    rw [Mach.cmdSave_quiesced hcmp hstate, hstream, Option.elim_some, hrange]
    rfl
  case refine_9 =>
    rintro ⟨hcmp, hstate, hstream⟩
    rw [Mach.cmdSave_quiesced hcmp hstate, hstream, Option.elim_none]
  case refine_10 => exact fun ⟨hcmp, hstate, hasg, hrange, hpoison⟩ => Mach.cmdRestore_disabled hcmp hstate hasg hrange hpoison
  case refine_11 => exact fun hcry => if_pos hcry
  case refine_12 =>
    rintro ⟨hqueued, hlv⟩
    simp [Mach.rootWrite, hqueued, hlv]
  case refine_13 => exact fun hqueued => (if_pos rfl).trans (if_pos (.inl hqueued))
  case refine_14 =>
    rintro ⟨hstate, hlv⟩
    simp [Mach.rootWrite, hstate, hlv]

end Sys2Proof.Machine
end

section
/-! Requests to the accelerator units, their slots, aborts and keys, and the events of the translation unit (R379, R385, R387, R409, R415, R421,
R436, R438), and O33. -/

namespace Sys2Proof.Machine

open Sys2Proof.Safety

section
variable {m : Mach} {u i : Nat}

/-! ### Submissions (R379) -/

section
variable {addr : Nat} {m1 m2 : Mach} {hdr : List Nat} {bad : Mach → List Nat → Mach × Option Nat}
  (hm : (m.accRead u i (addr / 128 * 128) 64).1 = m1) (hhdr : (m.accRead u i (addr / 128 * 128) 64).2.1 = hdr)
  (hread : (m.accRead u i (addr / 128 * 128) 64).2.2.isNone = true)
include hm hhdr hread

theorem Mach.accRead_of_readable : m.accRead u i (addr / 128 * 128) 64 = (m1, hdr, none) := by
  rw [Option.isNone_iff_eq_none] at hread
  rw [← hm, ← hhdr, ← hread]

theorem Mach.submit_accepted (href : m1.submitRefusal u i = none) (hbad : bad m1 hdr = (m2, none)) :
    m.submit u i addr bad = m2.onInst u i fun x => { x with q := x.q ++ [⟨addr / 128 * 128, hdr, none⟩] } := by
  unfold Mach.submit
  simp only [Mach.accRead_of_readable hm hhdr hread, href, hbad]

theorem Mach.submit_badBlock {st : Nat} (href : m1.submitRefusal u i = none) (hbad : bad m1 hdr = (m2, some st)) :
    m.submit u i addr bad = m2.refuse u i (addr / 128 * 128) hdr st := by
  unfold Mach.submit
  simp only [Mach.accRead_of_readable hm hhdr hread, href, hbad]

theorem Mach.submit_refused {st : Nat} (href : m1.submitRefusal u i = some st) :
    m.submit u i addr bad = m1.refuse u i (addr / 128 * 128) hdr st := by
  unfold Mach.submit
  simp only [Mach.accRead_of_readable hm hhdr hread, href]

end

theorem does_cmpSubmit {addr : Nat} {h : Prop} {P : Mach → Prop} (hP : h → P (m.submit u i addr fun n b => (n, if cmpBad b then some 0x13 else none))) :
    Does m (.cmpSubmit u i addr) (m.frozen = false ∧ h) P :=
  does_of_unlessFrozen _ _ (execCmpSubmit.eq_def u i addr) id hP

theorem does_crySubmit {addr : Nat} {h : Prop} {P : Mach → Prop} (hP : h → P (m.submit (2 + u) i addr fun n b => n.cryAccept (2 + u) i b)) :
    Does m (.crySubmit u i addr) (m.frozen = false ∧ h) P :=
  does_of_unlessFrozen _ _ (execCrySubmit.eq_def u i addr) id hP

/-! ### The rotation and aborts (R385, R387, R415) -/

theorem Mach.onInst_congr {f g : AccInst → AccInst} (h : f (m.inst u i) = g (m.inst u i)) : m.onInst u i f = m.onInst u i g := by
  rw [Mach.onInst, h, Mach.onInst]

/-- A slot of a compression instance, whose oldest request has work left: it takes no draw and no engine. -/
theorem Mach.slotRun_started {n left k : Nat} {r : AccReq} {rest : List AccReq} (hcmp : u < 2) (hqueue : (m.inst u i).q = r :: rest)
    (hleft : r.left = some k) :
    Mach.slotRun u i (n + 1) m left none = if k ≤ left then Mach.slotRun u i n (m.cmpFinish u i r) (left - k) (some false)
      else m.onInst u i fun x => { x with q := { r with left := some (k - left) } :: rest } := by
  have hengine : (decide (2 ≤ u) && onPk r.hdr) = false := by rw [decide_eq_false (Nat.not_le_of_lt hcmp), Bool.false_and]
  have hrest : (m.onInst u i fun x => { x with q := { r with left := some (k - left) } :: x.q.drop 1 }) =
      m.onInst u i fun x => { x with q := { r with left := some (k - left) } :: rest } := Mach.onInst_congr (by rw [hqueue]; rfl)
  rw [Mach.slotRun]
  simp only [hqueue, List.head?_cons, hengine, hleft, if_pos hcmp, ← hrest]
  rfl

theorem does_rotationSlot_started {k : Nat} {r : AccReq} {rest : List AccReq} :
    Does m (.rotationSlot u i 0) (m.frozen = false ∧ u < 2 ∧ m.verdict (2175 + 16 * u) 2 0 = (m, 0) ∧ (m.inst u i).q = r :: rest ∧ r.left = some k)
      fun m' => m' = if k ≤ 24576 then Mach.slotRun u i 16 (m.cmpFinish u i r) (24576 - k) (some false)
        else m.onInst u i fun x => { x with q := { r with left := some (k - 24576) } :: rest } := by
  refine does_of_ans _ _ (execRotationSlot.eq_def u i 0) id ?_
  rintro ⟨hfrozen, hcmp, hverdict, hqueue, hleft⟩
  simp only [hfrozen, Bool.false_eq_true, if_false, if_pos hcmp, Nat.add_zero, hverdict, if_true]
  exact Mach.slotRun_started hcmp hqueue hleft

theorem does_rotationSlot_uncorrectable :
    Does m (.rotationSlot u i 2) (m.frozen = false ∧ 2 ≤ u ∧ m.verdict (2175 + 16 * u + 4) 2 2 = (m, 2)) fun m' =>
      m' = (Mach.endAll 0x3F u i 16 (m.unitError u 0x95 i)).onInst u i fun x => { x with stream := none } := by
  refine does_of_ans _ _ (execRotationSlot.eq_def u i 2) id ?_
  rintro ⟨hfrozen, hcry, hverdict⟩
  simp only [hfrozen, Bool.false_eq_true, if_false, if_neg (Nat.not_lt_of_le hcry), hverdict]
  rfl

/-! ### Wrapping keys and the entropy source (R409, R421) -/

theorem does_wrappingKeyLoad {val : Nat} {h : Prop} {P : Mach → Prop} (hP : h → P (m.wkeyWrite u i 3 val)) :
    Does m (.wrappingKeyLoad u i val) (m.frozen = false ∧ h) P :=
  does_of_unlessFrozen _ _ (execWrappingKeyLoad.eq_def u i val) id hP

theorem Mach.wkeyWrite_last {val : Nat} (hstate : m.get (R.u_ictl_state (2 + u) i) = 0) :
    ((m.wkeyWrite u i 3 val).inst (2 + u) i).wkey =
        some ((List.range 4).flatMap fun j => toBytes 8 (tget (tset (m.inst (2 + u) i).wpart 3 val) j 0)) ∧
      (m.wkeyWrite u i 3 val).get (R.cryu_kpol_wkset u i) = 1 := by
  rw [Mach.wkeyWrite, if_neg (not_not_intro hstate)]
  dsimp only
  rw [if_pos rfl]
  refine ⟨?_, by simp [Mach.get_set]⟩
  rw [Mach.inst, Mach.set_acc, ← Mach.inst, Mach.onInst, Mach.inst_setInst, Mach.onInst, Mach.inst_setInst]

theorem does_entropyHealthFailure :
    Does m (.entropyHealthFailure u) (m.frozen = false ∧ m.get (R.cryu_rbg_state u) ≠ 3) fun m' =>
      m' = ((m.count (R.cryu_rbg_fails u)).set (R.cryu_rbg_state u) 2).unitError (2 + u) 0x97 0 := by
  refine does_of_ans _ _ (execEntropyHealthFailure.eq_def u) id ?_
  rintro ⟨hfrozen, hstate⟩
  exact if_neg (by simp [hfrozen, hstate])

/-- The source is in its start-up tests, the first or those of a restart. -/
theorem does_entropyRestartEnd {pass : Bool} :
    Does m (.entropyRestartEnd u pass) (m.frozen = false ∧ (m.get (R.cryu_rbg_state u) = 0 ∨ m.get (R.cryu_rbg_state u) = 2)) fun m' =>
      m' = if pass then ({ m with acc := { m.acc with rbgFails := tset m.acc.rbgFails u 0 } } : Mach).set (R.cryu_rbg_state u) 1
        else if 3 ≤ tget m.acc.rbgFails u 0 + 1 then
          (({ m with acc := { m.acc with rbgFails := tset m.acc.rbgFails u (tget m.acc.rbgFails u 0 + 1) } } : Mach).set (R.cryu_rbg_state u) 3).unitError
            (2 + u) 0x98 0
        else ({ m with acc := { m.acc with rbgFails := tset m.acc.rbgFails u (tget m.acc.rbgFails u 0 + 1) } } : Mach).set (R.cryu_rbg_state u) 2 := by
  refine does_of_ans _ _ (execEntropyRestartEnd.eq_def u pass) id ?_
  rintro ⟨hfrozen, hstate⟩
  refine if_neg ?_
  obtain hstate | hstate := hstate <;> simp [hfrozen, hstate]

/-! ### The translation unit (R436, R438) -/

theorem does_mtuRemoval {id : Nat} {r : Removal} {rest : List Removal} :
    Does m (.mtuRemoval id) (m.frozen = false ∧ m.shoot.mtu = r :: rest ∧ r.id = id) fun m' =>
      m' = ({ m with
        shoot := { m.shoot with mtu := rest }
        acc := { m.acc with
          tlb := m.acc.tlb.filter fun x => !r.hits x.2
          walk1 := m.acc.walk1.filter fun x => x.2.tag != r.tag
          walk2 := m.acc.walk2.filter fun x => x.2.tag != r.tag } } : Mach).ackRemoval id 48 := by
  refine does_of_ans _ _ (execMtuRemoval.eq_def id) (fun _ => rfl) ?_
  rintro ⟨hfrozen, hmtu, hid⟩
  rw [hmtu]
  exact if_neg (by simp [hfrozen, hid])

theorem does_logCacheWriteback {line : Nat} {y : LogLine} :
    Does m (.logCacheWriteback u line) (m.frozen = false ∧ ((tget m.acc.log u []).find? fun y => y.line == line) = some y) fun m' =>
      m' = m.logOut u y := by
  refine does_of_ans _ _ (execLogCacheWriteback.eq_def u line) id ?_
  rintro ⟨hfrozen, hfind⟩
  rw [hfind]
  exact if_neg (by simp [hfrozen])

end

/-! ### O33 -/

/-- Settles O33: a submission by what its block earns, a slot by the work that its oldest request has left, and the other events one by one. -/
theorem acceleratorRequests : Obligations.AcceleratorRequests := by
  unfold Obligations.AcceleratorRequests
  intro m
  refine ⟨fun u i addr m1 hdr => does_cmpSubmit ?_, fun u i addr st m1 hdr => does_cmpSubmit ?_, fun u i addr m1 hdr => does_cmpSubmit ?_,
    fun u i addr m1 m2 hdr => does_crySubmit ?_, fun u i addr st m1 m2 hdr => does_crySubmit ?_, fun u i k r rest hwf h => ?_,
    fun u i k r rest hwf h => ?_, fun u i => does_rotationSlot_uncorrectable,
    fun u i => does_of_ans _ _ (execCmpAbort.eq_def u i) id fun hfrozen => if_neg (by simp [hfrozen]),
    fun u i => does_of_ans _ _ (execCryAbort.eq_def u i) id fun hfrozen => if_neg (by simp [hfrozen]),
    fun u i val => does_wrappingKeyLoad Mach.wkeyWrite_last, fun u i val => does_wrappingKeyLoad fun hstate => if_pos hstate,
    fun u => does_entropyHealthFailure, fun u => does_entropyRestartEnd, fun u hwf h => ?_, fun id r rest => does_mtuRemoval,
    fun u line y => does_logCacheWriteback⟩
  case refine_1 =>
    rintro ⟨hm, hhdr, hread, href, hbad⟩
    exact Mach.submit_accepted hm hhdr hread href (by rw [hbad]; rfl)
  case refine_2 =>
    rintro ⟨hm, hhdr, hread, href⟩
    exact Mach.submit_refused hm hhdr hread href
  case refine_3 =>
    rintro ⟨hm, hhdr, hread, href, hbad⟩
    exact Mach.submit_badBlock hm hhdr hread href (by rw [hbad]; rfl)
  case refine_4 =>
    rintro ⟨hm, hhdr, hread, href, hbad⟩
    exact Mach.submit_accepted hm hhdr hread href hbad
  case refine_5 =>
    rintro ⟨hm, hhdr, hread, href, hbad⟩
    exact Mach.submit_badBlock hm hhdr hread href hbad
  case refine_6 =>
    obtain ⟨hfrozen, hcmp, hverdict, hqueue, hleft, hmore⟩ := h
    have hslot := does_rotationSlot_started hwf ⟨hfrozen, hcmp, hverdict, hqueue, hleft⟩
    rwa [if_neg (Nat.not_le_of_lt hmore)] at hslot
  case refine_7 =>
    obtain ⟨hfrozen, hcmp, hverdict, hqueue, hleft, hfits⟩ := h
    have hslot := does_rotationSlot_started hwf ⟨hfrozen, hcmp, hverdict, hqueue, hleft⟩
    rwa [if_pos hfits] at hslot
  case refine_8 =>
    obtain ⟨hfrozen, hstate, hfails⟩ := h
    have hend := does_entropyRestartEnd (pass := false) hwf ⟨hfrozen, hstate⟩
    rwa [if_neg Bool.false_ne_true, if_pos (by omega)] at hend

end Sys2Proof.Machine
end

section
/-! Frames to and from a device (R455, R456, R464, R469, R484, R485), the commands of the Reservoir (R493), and O35.  A frame of a device acts through
the operation whose exchange it names. -/

namespace Sys2Proof.Machine

open Sys2Proof.Safety

section
variable {m : Mach} {slot : Nat} {x : ChOp} {w : ChWord}

/-! ### Frames to a device (Table 17.3) -/

/-- A command of an operation does what it does to that operation. -/
theorem does_of_opCmd {c : Instr} {h : Prop} {P : Mach → Prop} (f : Mach → ChOp → Mach) (hexec : ∀ s, exec c s = opCmd slot s f)
    (hP : h → P (f m x)) : Does m c (m.frozen = false ∧ m.opOf slot = some x ∧ h) P := by
  refine does_of_ans true _ hexec (fun _ => rfl) ?_
  rintro ⟨hfrozen, hop, hh⟩
  rw [hop]
  simp only [hfrozen, Bool.false_eq_true, if_false]
  exact hP hh

theorem does_cmd :
    Does m (.cmd slot) (m.frozen = false ∧ m.opOf slot = some x ∧ x.word = some w ∧ w.mark = false ∧ x.st = 1 ∧ x.run = .cmd ∧ x.path < 8 ∧
        m.jlUp (pathPort x.paths x.path) = true) fun m' =>
      m' = ((m.opFrame x x.path 1 { XFrame.zero with pos := x.ended, a := w.total, b := w.kind, dcmd := w.dcmd, flags := b2n x.redrive }).setSub x.scid
        { (m.opFrame x x.path 1 { XFrame.zero with pos := x.ended, a := w.total, b := w.kind, dcmd := w.dcmd, flags := b2n x.redrive }).sub x.scid with
          last := x.path }).setOp { x with run := .busy, moved := 0 } := by
  refine does_of_opCmd _ (execCmd.eq_def slot) ?_
  rintro ⟨hword, hmark, hst, hrun, hpath, hup⟩
  have hdue : ¬ (x.st ≠ 1 ∨ x.run ≠ .cmd ∨ 8 ≤ x.path ∨ m.jlUp (pathPort x.paths x.path) = false) := by
    simp [hst, hrun, hup, Nat.not_le_of_lt hpath]
  simp only [hword, if_neg hdue, hmark, Bool.false_and, Bool.false_eq_true, if_false]

/-- The bytes of a write that its next frame takes. -/
abbrev nextPieces (x : ChOp) (w : ChWord) : List (Nat × Nat × Bool) := extPieces w.exts x.moved (min 4096 (w.total - x.moved))

theorem does_wdata {m1 : Mach} {b : List Nat} :
    Does m (.wdata slot) (m.frozen = false ∧ m.opOf slot = some x ∧ x.word = some w ∧ w.kind = 2 ∧ x.moved < w.total ∧ x.st = 1 ∧ x.run = .busy ∧
        m.jlUp (pathPort x.paths x.path) = true ∧ (m.readPieces x.part (nextPieces x w)).2.2.isNone = true ∧
        (m.readPieces x.part (nextPieces x w)).1 = m1 ∧ (m.readPieces x.part (nextPieces x w)).2.1 = b) fun m' =>
      m' = (m1.opFrame x x.path 2 { XFrame.zero with
          pos := x.ended, a := x.moved, flags := if w.total ≤ x.moved + min 4096 (w.total - x.moved) then 4 else 0, data := b }).setOp
        { x with moved := x.moved + min 4096 (w.total - x.moved) } := by
  refine does_of_opCmd _ (execWdata.eq_def slot) ?_
  rintro ⟨hword, hkind, hmore, hst, hrun, hup, hread, hm, hb⟩
  have hdue : ¬ (x.st ≠ 1 ∨ x.run ≠ .busy ∨ w.kind ≠ 2 ∨ w.total ≤ x.moved ∨ m.jlUp (pathPort x.paths x.path) = false) := by
    simp [hst, hrun, hkind, hup, Nat.not_le_of_lt hmore]
  have hpieces : m.readPieces x.part (nextPieces x w) = (m1, b, none) := by
    rw [Option.isNone_iff_eq_none] at hread
    rw [← hm, ← hb, ← hread]
  simp only [hword, if_neg hdue, hpieces]

theorem does_halt :
    Does m (.halt slot) (m.frozen = false ∧ m.opOf slot = some x ∧ x.run = .halt ∧ x.unconf = false ∧ x.st = 1 ∧ x.path < 8 ∧
        m.jlUp (pathPort x.paths x.path) = true) fun m' =>
      m' = (m.opFrame x x.path 3 { XFrame.zero with pos := x.ended }).setOp { x with run := .halta } := by
  refine does_of_opCmd _ (execHalt.eq_def slot) ?_
  rintro ⟨hrun, hconf, hst, hpath, hup⟩
  have hdue : ¬ (x.run ≠ .halt ∨ x.unconf = true) := by simp [hrun, hconf]
  have hlive : ¬ x.st = 4 := by omega
  simp only [if_neg hdue, if_neg hlive, if_pos hpath, hup, if_true]

theorem does_close {k : Nat} :
    Does m (.close slot false) (m.frozen = false ∧ m.opOf slot = some x ∧ x.st = 4 ∧ x.run = .close ∧ x.owedClear = false ∧ x.owedHalt = false ∧
        x.unconf = false ∧ m.closePath x = some k ∧ m.jlUp (pathPort x.paths k) = true) fun m' =>
      m' = (m.opFrame x k 6 { XFrame.zero with pos := x.ended }).setOp { x with run := .closed, path := k } := by
  refine does_of_opCmd _ (execClose.eq_def slot false) ?_
  rintro ⟨hst, hrun, hclear, hhalt, hconf, hpath, hup⟩
  have hdue : ¬ (x.st ≠ 4 ∨ x.run ≠ .close ∨ x.owedClear = true ∨ x.owedHalt = true ∨ x.unconf = true) := by
    simp [hst, hrun, hclear, hhalt, hconf]
  simp only [Bool.not_false, if_true, Mach.sendClose, if_neg hdue, hpath, hup]

/-- A clear without an operation goes out on its path for slot 0. -/
theorem does_clear {scid k : Nat} {d : ChDesc} :
    Does m (.clear 0 scid) (m.frozen = false ∧ (m.sub scid).clrPath = some (k, 0, false) ∧ m.desc scid = some d ∧ (m.pathSt scid k).st = 1 ∧
        m.jlUp (pathPort d.paths k) = true) fun m' =>
      m' = (m.jlSend (pathPort d.paths k) 4 { XFrame.zero with addr := pathAddr d.paths k }).setSub scid
        { m.sub scid with clrPath := some (k, 0, true) } := by
  refine does_of_ans _ _ (execClear.eq_def 0 scid) id ?_
  rintro ⟨hfrozen, hclear, hdesc, hst, hup⟩
  rw [hfrozen, if_neg Bool.false_ne_true, if_pos rfl, hclear, hdesc]
  exact if_pos (by simp [hst, hup])

theorem does_identCmd {scid k : Nat} {d : ChDesc} :
    Does m (.identCmd scid k) (m.frozen = false ∧ m.desc scid = some d ∧ d.valid = true ∧ d.enabled = true ∧ (m.pathSt scid k).st = 2 ∧
        (m.pathSt scid k).due = true ∧ m.jlChan (pathPort d.paths k) = true ∧ m.jlUp (pathPort d.paths k) = true) fun m' =>
      m' = (m.jlSend (pathPort d.paths k) 5 { XFrame.zero with addr := pathAddr d.paths k }).setPath scid k
        { m.pathSt scid k with due := false } := by
  refine does_of_ans _ _ (execIdentCmd.eq_def scid k) id ?_
  rintro ⟨hfrozen, hdesc, hvalid, henabled, hst, hdue, hchan, hup⟩
  dsimp only
  rw [hdesc]
  exact if_neg (by simp [hfrozen, hvalid, henabled, hst, hdue, hchan, hup])

/-! ### Frames from a device (R484) -/

section
variable {port : Nat} {f : XFrame}

/-- A frame that reaches a port that is up. -/
theorem does_of_ioRow {c : Instr} {h : Prop} {P : Mach → Prop} (g : Mach → Mach)
    (hexec : ∀ s, exec c s = ans (decide (port < 32)) s fun m => if m.frozen || !m.jlUp port then m else g m)
    (hwf : c.wf = true → decide (port < 32) = true) (hP : h → P (g m)) : Does m c (m.frozen = false ∧ m.jlUp port = true ∧ h) P := by
  refine does_of_ans _ _ hexec hwf ?_
  rintro ⟨hfrozen, hup, hh⟩
  rw [hfrozen, hup, if_neg (by decide)]
  exact hP hh

theorem does_rdata :
    Does m (.rdata port f) (m.frozen = false ∧ m.jlUp port = true ∧ m.xchg port f = some x ∧ x.word = some w ∧ w.kind = 3 ∧ x.onDevice = true ∧
        f.pos = x.ended ∧ f.a = x.moved ∧ f.data ≠ [] ∧
        (m.writePieces x.part (extPieces w.exts x.moved (min f.data.length (w.total - x.moved))) f.data).2.isNone = true) fun m' =>
      m' = (m.writePieces x.part (extPieces w.exts x.moved (min f.data.length (w.total - x.moved))) f.data).1.setOp
        { x with moved := x.moved + f.data.length } := by
  refine does_of_ioRow (·.rxRdata port f) (fun _ => rfl) left_of_and ?_
  rintro ⟨hxchg, hword, hkind, hdevice, hpos, hoff, hdata, hwritten⟩
  have hnew : ¬ (w.kind ≠ 3 ∨ f.a ≠ x.moved ∨ f.data = []) := by simp [hkind, hoff, hdata]
  rcases hwrite : m.writePieces x.part (extPieces w.exts x.moved (min f.data.length (w.total - x.moved))) f.data with ⟨n, _ | e⟩
  · simp only [Mach.rxRdata, hxchg, hword, hdevice, hpos, bne_self_eq_false, Bool.not_true, Bool.or_self, Bool.false_eq_true, if_false, if_neg hnew,
      hwrite]
  · simp [hwrite] at hwritten

theorem does_endCmd_unitCheck :
    Does m (.endCmd port f) (m.frozen = false ∧ m.jlUp port = true ∧ m.xchg port f = some x ∧ x.word = some w ∧ w.kind = 1 ∧ x.onDevice = true ∧
        f.pos = x.ended ∧ x.run = .busy ∧ bit x.flags 1 = false ∧ bit f.dstat 6 = true) fun m' =>
      m' = m.finish { x with
        dev := f.dstat, sense := f.sense.take 16, resid := 0, ended := x.ended + 1, pos := x.ended + 1, next := w.at_ + 16, word := none
        redrive := false, detail := 0 } 1 := by
  refine does_of_ioRow (·.rxEnd port f) (fun _ => rfl) left_of_and ?_
  rintro ⟨hxchg, hword, hkind, hdevice, hpos, hrun, hhalted, hcheck⟩
  have hgoes : ¬ (x.run ≠ .busy ∨ bit x.flags 1 = true) := by simp [hrun, hhalted]
  simp only [Mach.rxEnd, hxchg, hword, hdevice, hpos, bne_self_eq_false, Bool.not_true, Bool.or_self, Bool.false_eq_true, if_false, if_neg hgoes,
    hcheck, if_true, hkind]

theorem does_busy_waits :
    Does m (.busy port f) (m.frozen = false ∧ m.jlUp port = true ∧ m.xchg port f = some x ∧ x.st = 1 ∧ x.run = .busy ∧ f.pos = x.ended ∧
        m.pickPath x (x.busy ++ [x.path]) = none) fun m' => m' = m.setOp { x with busy := x.busy ++ [x.path], run := .wait } := by
  refine does_of_ioRow (·.rxBusy port f) (fun _ => rfl) left_of_and ?_
  rintro ⟨hxchg, hst, hrun, hpos, hpick⟩
  have hoffered : ¬ (x.st ≠ 1 ∨ x.run ≠ .busy ∨ f.pos ≠ x.ended) := by simp [hst, hrun, hpos]
  simp only [Mach.rxBusy, hxchg, if_neg hoffered, hpick]

theorem does_free :
    Does m (.free port f) (m.frozen = false ∧ m.jlUp port = true ∧ m.chan.ops = [(x.slot, x)] ∧ x.run = .wait ∧ (m.pathSt x.scid 0).st ≠ 0 ∧
        pathPort x.paths 0 = port ∧ pathAddr x.paths 0 = f.addr) fun m' => m' = m.retryBusy x := by
  refine does_of_ioRow (·.rxFree port f) (fun _ => rfl) left_of_and ?_
  rintro ⟨hops, hrun, hst, hport, haddr⟩
  have hhere : ((List.range 8).any fun k => (m.pathSt x.scid k).st != 0 && pathPort x.paths k == port && pathAddr x.paths k == f.addr) = true :=
    List.any_eq_true.2 ⟨0, by decide, by simp [hst, hport, haddr]⟩
  simp only [Mach.rxFree, hops, List.filter_cons, hrun, beq_self_eq_true, hhere, Bool.and_self, if_true, List.filter_nil, List.foldl_cons,
    List.foldl_nil]

theorem does_halta :
    Does m (.halta port f) (m.frozen = false ∧ m.jlUp port = true ∧ m.xchg port f = some x ∧ x.run = .halta ∧ x.st = 1 ∧ x.word = none ∧ x.stop = 0)
      fun m' => m' = m.finish { x with detail := 0 } 2 := by
  refine does_of_ioRow (·.rxHalta port f) (fun _ => rfl) left_of_and ?_
  rintro ⟨hxchg, hrun, hst, hword, hstop⟩
  have hlive : ¬ x.st = 4 := by omega
  simp only [Mach.rxHalta, hxchg, if_neg (not_not_intro hrun), if_neg hlive, hword, if_neg (not_not_intro hstop)]

theorem does_cleara {c : ChSub} {k : Nat} {d : ChDesc} :
    Does m (.cleara port f) (m.frozen = false ∧ m.jlUp port = true ∧ m.chan.subs = [(0, c)] ∧ c.clear.isSome = true ∧
        c.clrPath = some (k, f.xid, true) ∧ m.desc 0 = some d ∧ pathPort d.paths k = port ∧ pathAddr d.paths k = f.addr)
      fun m' => m' = m.clearDone 0 := by
  refine does_of_ioRow (·.rxCleara port f) (fun _ => rfl) left_of_and ?_
  rintro ⟨hsubs, hclear, hpath, hdesc, hport, haddr⟩
  simp only [Mach.rxCleara, hsubs, List.find?_cons, hclear, hpath, hdesc, hport, haddr, beq_self_eq_true, Bool.and_self]

theorem does_identr {sc k : Nat} :
    Does m (.identr port f) (m.frozen = false ∧ m.jlUp port = true ∧ m.pathsAt port f.addr = [(sc, k)]) fun m' => m' = m.pathUp sc k := by
  refine does_of_ioRow (·.rxIdentr port f) (fun _ => rfl) left_of_and fun hpaths => ?_
  rw [Mach.rxIdentr, hpaths]
  rfl

theorem does_rej :
    Does m (.rej port f) (m.frozen = false ∧ m.jlUp port = true ∧ m.xchg port f = some x ∧ (m.pathSt x.scid x.path).st = 1)
      fun m' => m' = m.failPath x.scid x.path 3 := by
  refine does_of_ioRow (·.rxRej port f) (fun _ => rfl) left_of_and ?_
  rintro ⟨hxchg, hst⟩
  rw [Mach.rxRej, hxchg]
  exact if_pos hst

/-- KEEP changes nothing, whether or not its port is up (R465). -/
theorem does_keep : Does m (.keep port f) True fun m' => m' = m :=
  does_of_ans _ (fun n => if n.frozen || !n.jlUp port then n else n) (fun _ => rfl) left_of_and fun _ => ite_self _

end

/-! ### Commands of the Reservoir (R493) -/

/-- A command of the Reservoir is taken and does what its op says. -/
theorem does_of_rsvRow {c : Instr} {op : Nat} {h : Prop} {P : Mach → Prop} (g : Mach → Mach)
    (hexec : ∀ s, exec c s = ans (decide (slot < 2 ^ 32)) s fun m => if m.frozen then m else g (rsvTaken m slot op))
    (hwf : c.wf = true → decide (slot < 2 ^ 32) = true) (hP : h → P (g (rsvTaken m slot op))) : Does m c (m.frozen = false ∧ h) P :=
  does_of_unlessFrozen _ (fun n => g (rsvTaken n slot op)) hexec hwf hP

/-- An op that names a slot is refused with result 6 where the Reservoir has no such slot. -/
def Mach.rsvNamed (slot : Nat) (g : Mach → Mach) (n : Mach) : Mach := if n.rsvOk && decide (n.rsvSlots ≤ slot) then n.rcmdDone 6 else g n

theorem Mach.rsvNamed_of_lt {n : Mach} {g : Mach → Mach} (hslot : slot < n.rsvSlots) : Mach.rsvNamed slot g n = g n := by
  rw [Mach.rsvNamed, decide_eq_false (Nat.not_le_of_lt hslot), Bool.and_false, if_neg Bool.false_ne_true]

theorem Mach.rsvNamed_of_off {n : Mach} {g : Mach → Mach} (hoff : n.rsvOk = false) : Mach.rsvNamed slot g n = g n := by
  rw [Mach.rsvNamed, hoff, Bool.false_and, if_neg Bool.false_ne_true]

/-- Taking a command leaves the status of the Reservoir as it is. -/
theorem rsvOk_rsvTaken (op : Nat) : (rsvTaken m slot op).rsvOk = m.rsvOk := by simp [Mach.rsvOk, Mach.sets, Mach.get_set_other]

theorem does_reservoirAdopt {h : Prop} {P : Mach → Prop} (hP : h → P (Mach.rsvNamed slot (·.rsvAdopt slot) (rsvTaken m slot 1))) :
    Does m (.reservoirAdopt slot) (m.frozen = false ∧ h) P :=
  does_of_rsvRow _ (fun _ => rfl) id hP

theorem does_reservoirAdopt_none :
    Does m (.reservoirAdopt slot) (m.frozen = false ∧ m.rsvOk = false ∧ tfind m.chan.slots slot = none)
      fun m' => m' = (rsvTaken m slot 1).rcmdDone 2 := by
  refine does_reservoirAdopt ?_
  rintro ⟨hoff, hnone⟩
  have hnone' : tfind (rsvTaken m slot 1).chan.slots slot = none := hnone
  rw [Mach.rsvNamed_of_off (by rw [rsvOk_rsvTaken, hoff]), Mach.rsvAdopt, hnone']

theorem does_reservoirRelease :
    Does m (.reservoirRelease slot) (m.frozen = false ∧ (rsvTaken m slot 2).rsvOk = true ∧ slot < (rsvTaken m slot 2).rsvSlots ∧
        (tfind m.chan.slots slot = some 5 ∨ tfind m.chan.slots slot = some 6)) fun m' =>
      m' = ((rsvTaken m slot 2).freeRec (recOp slot 0 ((rsvTaken m slot 2).slotBytes slot))).rcmdDone 1 := by
  refine does_of_rsvRow (Mach.rsvNamed slot (·.rsvRelease slot)) (fun _ => rfl) id ?_
  rintro ⟨-, hslot, hst⟩
  have hst' : tfind (rsvTaken m slot 2).chan.slots slot = some 5 ∨ tfind (rsvTaken m slot 2).chan.slots slot = some 6 := hst
  rw [Mach.rsvNamed_of_lt hslot, Mach.rsvRelease]
  obtain hst' | hst' := hst' <;> rw [hst'] <;> rfl

theorem does_reservoirQuery {a : Nat} :
    Does m (.reservoirQuery slot) (m.frozen = false ∧ (rsvTaken m slot 3).rsvOk = true ∧ slot < (rsvTaken m slot 3).rsvSlots ∧
        a = (rsvTaken m slot 3).get R.chan_rsv_cmda_addr * 256 ∧ (rsvTaken m slot 3).devCheck .chan a = none) fun m' =>
      m' = ((rsvTaken m slot 3).devWrite a ((rsvTaken m slot 3).slotBytes slot)).rcmdDone 1 := by
  refine does_of_rsvRow (·.rsvQuery slot) (fun _ => rfl) id ?_
  rintro ⟨hok, hslot, rfl, hcheck⟩
  have hnamed : ¬ (!(rsvTaken m slot 3).rsvOk || decide ((rsvTaken m slot 3).rsvSlots ≤ slot)) = true := by
    rw [hok, decide_eq_false (Nat.not_le_of_lt hslot)]
    decide
  simp only [Mach.rsvQuery, if_neg hnamed, hcheck, Option.isSome_none, Bool.false_eq_true, if_false]

end

/-! ### O35 -/

/-- Settles O35, frame by frame and command by command. -/
theorem channelFrames : Obligations.ChannelFrames := by
  unfold Obligations.ChannelFrames
  intro m
  exact ⟨fun _ _ _ => does_cmd, fun _ _ _ _ _ => does_wdata, fun _ _ => does_halt, fun _ _ _ => does_clear, fun _ _ _ => does_identCmd,
    fun _ _ _ => does_close, fun _ _ _ _ => does_rdata, fun _ _ _ _ => does_endCmd_unitCheck, fun _ _ _ => does_busy_waits, fun _ _ _ => does_free,
    fun _ _ _ => does_halta, fun _ _ _ _ _ => does_cleara, fun _ _ _ _ => does_identr, fun _ _ _ => does_rej, fun _ _ => does_keep,
    fun _ => does_reservoirAdopt_none, fun _ => does_reservoirAdopt fun ⟨_, hslot, _⟩ => Mach.rsvNamed_of_lt hslot, fun _ => does_reservoirRelease,
    fun _ _ => does_reservoirQuery⟩

end Sys2Proof.Machine
end

section
/-! Training of Jalper and coupling links (R473, R480, R486, R487, R488) and O36; codewords, replay and lanes (R475, R476, R478, R479, R481, R486)
and O37.  A port is an I/O port (0 to 31) or a coupling port (32 + p); its registers are named once for both. -/

namespace Sys2Proof.Machine

open Sys2Proof.Safety

section
variable {m : Mach} {port : Nat}

/-! ### What each operation of a link leaves of a port -/

@[simp] theorem Mach.jlP_setJlP (m : Mach) (q : Nat) (x : JlPort) : (m.setJlP q x).jlP q = x := tget_tset_same _ _ _ _
@[simp] theorem Mach.jlP_onJlP (m : Mach) (q : Nat) (f : JlPort → JlPort) : (m.onJlP q f).jlP q = f (m.jlP q) := Mach.jlP_setJlP _ _ _
@[simp] theorem Mach.jlP_set (m : Mach) (q : Nat) (f : Fld) (v : Nat) : (m.set f v).jlP q = m.jlP q := rfl
@[simp] theorem Mach.jlP_emit (m : Mach) (q : Nat) (o : Out) : (m.emit o).jlP q = m.jlP q := rfl
@[simp] theorem Mach.jlP_count (m : Mach) (q : Nat) (f : Fld) : (m.count f).jlP q = m.jlP q := rfl
@[simp] theorem Mach.get_setJlP (m : Mach) (q : Nat) (x : JlPort) (f : Fld) : (m.setJlP q x).get f = m.get f := rfl
@[simp] theorem Mach.get_onJlP (m : Mach) (q : Nat) (g : JlPort → JlPort) (f : Fld) : (m.onJlP q g).get f = m.get f := rfl
@[simp] theorem Mach.get_emit (m : Mach) (o : Out) (f : Fld) : (m.emit o).get f = m.get f := rfl
@[simp] theorem Mach.jlState_setJlP (m : Mach) (q : Nat) (x : JlPort) : (m.setJlP q x).jlState q = m.jlState q := rfl
@[simp] theorem Mach.jlState_onJlP (m : Mach) (q : Nat) (g : JlPort → JlPort) : (m.onJlP q g).jlState q = m.jlState q := rfl
@[simp] theorem Mach.jlState_emit (m : Mach) (q : Nat) (o : Out) : (m.emit o).jlState q = m.jlState q := rfl

theorem Mach.jlP_sets (m : Mach) (q : Nat) (l : List (Fld × Nat)) : (m.sets l).jlP q = m.jlP q := by rw [Mach.jlP, Mach.jlP, Mach.sets_jl]

@[simp] theorem Mach.jlP_jlError (m : Mach) (q code : Nat) : (m.jlError q code).jlP q = m.jlP q := by
  unfold Mach.jlError
  split
  · rfl
  · split <;> rfl

@[simp] theorem Mach.jlP_jlSetWidth (m : Mach) (q w first : Nat) : (m.jlSetWidth q w first).jlP q = m.jlP q := by
  unfold Mach.jlSetWidth
  split <;> rfl

@[simp] theorem Mach.jlP_jlShow (m : Mach) (q : Nat) (up : Bool) : (m.jlShow q up).jlP q = m.jlP q := by
  unfold Mach.jlShow
  split <;> rfl

@[simp] theorem Mach.jlP_jlTrain (m : Mach) (q g : Nat) :
    (m.jlTrain q g).jlP q = { m.jlP q with cap := g, far := 0, target := 0, gap := false } := by
  simp [Mach.jlTrain]

/-- The state shown takes four bits. -/
theorem Mach.jlState_set (m : Mach) (q v : Nat) : (m.set (jlStateF q) v).jlState q = v % 16 := by
  unfold Mach.jlState jlStateF
  split <;> exact Mach.get_set_same _ _ _ (by simp) (by simp)

/-- An error of a port changes the error register alone, which is none of the port's own. -/
theorem Mach.get_jlError (m : Mach) (q code : Nat) (f : Fld) (hchan : f.blk = .chan → f.off ≠ 0x803040) (hcpl : f.blk = .cpl → f.off ≠ 0xc00010) :
    (m.jlError q code).get f = m.get f := by
  have hlerr : ∀ n : Mach, ∀ hi lo v, (n.set ⟨.chan, 0x803040, hi, lo⟩ v).get f = n.get f := fun n hi lo v =>
    n.get_set_other _ _ _ (Decidable.or_iff_not_imp_left.2 fun h => hchan (not_not.1 h))
  have herr : ∀ n : Mach, ∀ hi lo v, (n.set ⟨.cpl, 0xc00010, hi, lo⟩ v).get f = n.get f := fun n hi lo v =>
    n.get_set_other _ _ _ (Decidable.or_iff_not_imp_left.2 fun h => hcpl (not_not.1 h))
  unfold Mach.jlError
  split
  · exact (Mach.get_congr _ (m.sets _) f (Mach.raise_regs ..)).trans (by simp only [Mach.sets_cons, Mach.sets_nil, hlerr])
  · split
    · rfl
    · exact (Mach.get_congr _ (m.sets _) f (Mach.raise_regs ..)).trans (by simp only [Mach.sets_cons, Mach.sets_nil, herr])

@[simp] theorem Mach.jlState_jlError (m : Mach) (q code : Nat) : (m.jlError q code).jlState q = m.jlState q := by
  unfold Mach.jlState jlStateF
  split <;> exact m.get_jlError q code _ (fun _ => by simp; omega) (fun _ => by simp; omega)

/-- A count of resends is in another register than the state. -/
@[simp] theorem Mach.jlState_count_resend (m : Mach) (q : Nat) : (m.count (jlResendF q)).jlState q = m.jlState q := by
  unfold Mach.jlState jlStateF jlResendF Mach.count
  split <;> exact Mach.get_set_other _ _ _ _ (.inr (by simp))

/-- The state, the failed lanes and the request bits stand beside the width. -/
theorem Mach.get_jlSetWidth (m : Mach) (q w first : Nat) {f : Fld} (hf : f = jlStateF q ∨ f = jlFailedF q ∨ f = jlUpF q) :
    (m.jlSetWidth q w first).get f = m.get f := by
  unfold Mach.jlSetWidth
  simp only [jlStateF, jlFailedF, jlUpF, jlFirstF] at *
  by_cases hq : q < 32
  · simp only [hq, if_true] at hf ⊢
    obtain rfl | rfl | rfl := hf <;> simp [Nat.not_le_of_lt hq, Mach.get_set]
  · simp only [hq, if_false] at hf ⊢
    obtain rfl | rfl | rfl := hf <;> simp [Nat.le_of_not_lt hq, Mach.get_set]

@[simp] theorem Mach.jlState_jlSetWidth (m : Mach) (q w first : Nat) : (m.jlSetWidth q w first).jlState q = m.jlState q :=
  m.get_jlSetWidth q w first (.inl rfl)

theorem Mach.jlWidth_jlSetWidth_zero (m : Mach) (q : Nat) : (m.jlSetWidth q 0 0).jlWidth q = 0 := by
  unfold Mach.jlWidth Mach.jlSetWidth
  split
  · exact Mach.get_set_same _ _ _ (by simp) (by simp)
  · simp [Mach.get_set]

/-- Showing the port up or down is in a register of the identification block. -/
@[simp] theorem Mach.jlState_jlShow (m : Mach) (q : Nat) (up : Bool) : (m.jlShow q up).jlState q = m.jlState q := by
  unfold Mach.jlShow Mach.jlState jlStateF
  by_cases hq : q < 32 <;> simp only [hq, if_true, if_false] <;> exact Mach.get_set_other _ _ _ _ (.inl (by simp))

@[simp] theorem Mach.jlState_jlUpDone (m : Mach) (q : Nat) : (m.jlUpDone q).jlState q = m.jlState q := by
  unfold Mach.jlUpDone
  split
  · simp only [Mach.jlState, jlStateF, jlUpF, jlResF]
    split <;> simp [Mach.get_set]
  · rfl

theorem Mach.jlP_jlUpDone (m : Mach) (q : Nat) : (m.jlUpDone q).jlP q = { m.jlP q with upReq := false } := by
  unfold Mach.jlUpDone
  split
  · simp
  · rename_i hreq
    rw [← Bool.not_eq_true _ |>.mp hreq]

theorem Mach.jlUpDone_of_not_upReq {q : Nat} (h : (m.jlP q).upReq = false) : m.jlUpDone q = m := by
  rw [Mach.jlUpDone, h, if_neg Bool.false_ne_true]

@[simp] theorem Mach.jlState_jlTrain (m : Mach) (q g : Nat) : (m.jlTrain q g).jlState q = 1 := by
  unfold Mach.jlTrain
  rw [Mach.jlState_jlSetWidth]
  simp only [Mach.jlState, jlStateF, jlFailedF]
  split <;> simp [Mach.get_set]

theorem Mach.jlFailed_jlTrain (m : Mach) (q g : Nat) : (m.jlTrain q g).get (jlFailedF q) = 0 := by
  unfold Mach.jlTrain
  rw [Mach.get_jlSetWidth _ _ _ _ (.inr (.inl rfl))]
  simp only [jlStateF, jlFailedF]
  split <;> simp [Mach.get_set]

/-- Training leaves the request bits. -/
theorem Mach.jlUp_jlTrain (m : Mach) (q g : Nat) : (m.jlTrain q g).get (jlUpF q) = m.get (jlUpF q) := by
  unfold Mach.jlTrain
  rw [Mach.get_jlSetWidth _ _ _ _ (.inr (.inr rfl))]
  simp only [jlStateF, jlFailedF, jlUpF]
  split <;> simp [Mach.get_set]

theorem Mach.jlUp_set (m : Mach) (q : Nat) : (m.set (jlUpF q) 1).get (jlUpF q) = 1 := by
  unfold jlUpF
  split <;> exact Mach.get_set_same _ _ _ (by simp) (by simp)

/-- A port that is up for a link of either kind. -/
theorem Mach.jlUp_of_state {q : Nat} (h : m.jlState q = 6 ∨ m.jlState q = 7) : m.jlUp q = true := by simpa [Mach.jlUp] using h

/-! ### Training (R486, R487) -/

/-- A port that does not train does nothing of a training. -/
theorem does_jlTrainingStart :
    Does m (.jlTrainingStart port) (m.jlMayTrain port = true) fun m' =>
      m'.jlState port = 1 ∧ m'.get (jlFailedF port) = 0 ∧ m'.jlP port = { m.jlP port with cap := m.jlTop port, far := 0, target := 0, gap := false } := by
  refine does_of_ans _ _ (execJlTrainingStart.eq_def port) id fun htrain => ?_
  rw [if_pos htrain]
  exact ⟨Mach.jlState_jlTrain _ _ _, Mach.jlFailed_jlTrain _ _ _, Mach.jlP_jlTrain _ _ _⟩

theorem does_jlTrainingStart_off : Does m (.jlTrainingStart port) (m.jlMayTrain port = false) fun m' => m' = m :=
  does_of_ans _ _ (execJlTrainingStart.eq_def port) id fun htrain => if_neg (by simp [htrain])

/-- The lanes that did not lock are failed; a group of the others is taken. -/
theorem does_jlEqualisationEnd {locked w first st next : Nat} (hst : st = 1 ∧ next = 2 ∨ st = 4 ∧ next = 5) :
    Does m (.jlEqualisationEnd port locked) (m.jlMayTrain port = true ∧ m.jlState port = st ∧
        widthOf ((2 ^ m.jlFull port - 1) ^^^ (locked % 2 ^ m.jlFull port)) (m.jlFull port) (m.jlFull port) = some (w, first)) fun m' =>
      m' = ((m.set (jlFailedF port) ((2 ^ m.jlFull port - 1) ^^^ (locked % 2 ^ m.jlFull port))).jlSetWidth port w first).set (jlStateF port) next := by
  refine does_of_ans _ _ (execJlEqualisationEnd.eq_def port locked) left_of_and ?_
  rintro ⟨htrain, hstate, hwidth⟩
  obtain ⟨rfl, rfl⟩ | ⟨rfl, rfl⟩ := hst <;> simp [htrain, hstate, hwidth]

/-- With no lane locked there is no group. -/
theorem widthOf_none_locked : widthOf (2 ^ m.jlFull port - 1) (m.jlFull port) (m.jlFull port) = none := by
  unfold Mach.jlFull
  split <;> decide

theorem does_jlEqualisationEnd_lost :
    Does m (.jlEqualisationEnd port 0) (m.jlMayTrain port = true ∧ m.jlState port = 1) fun m' =>
      m' = (m.set (jlFailedF port) (2 ^ m.jlFull port - 1)).jlNoLink port 9 := by
  refine does_of_ans _ _ (execJlEqualisationEnd.eq_def port 0) left_of_and ?_
  rintro ⟨htrain, hstate⟩
  simp [htrain, hstate, widthOf_none_locked]

theorem does_jlEqualisationEnd_again :
    Does m (.jlEqualisationEnd port 0) (m.jlMayTrain port = true ∧ port < 32 ∧ m.jlState port = 4 ∧ 1 < (m.jlP port).target) fun m' =>
      m'.jlState port = 1 ∧ (m'.jlP port).cap = (m.jlP port).target - 1 := by
  refine does_of_ans _ _ (execJlEqualisationEnd.eq_def port 0) left_of_and ?_
  rintro ⟨htrain, hport, hstate, htarget⟩
  simp [htrain, hstate, widthOf_none_locked, hport, htarget]

/-- The far side's highest generation in its TS cells. -/
abbrev farGen (gens : Nat) : Nat := if bit gens 2 then 3 else if bit gens 1 then 2 else 1

theorem does_jlTs {gens : Nat} :
    Does m (.jlTs port gens) (m.jlMayTrain port = true ∧ port < 32 ∧ m.jlState port = 2) fun m' =>
      (m'.jlP port).far = farGen gens ∧ (m'.jlP port).target = min (m.jlP port).cap (farGen gens) ∧
        m'.jlState port = if (m'.jlP port).target = 1 then 5 else 3 := by
  refine does_of_ans _ _ (execJlTs.eq_def port gens) left_of_and ?_
  rintro ⟨htrain, hport, hstate⟩
  have hcpl : ¬ (32 ≤ port) := Nat.not_le_of_lt hport
  have hshown : ∀ t : Nat, (if t = 1 then 5 else 3) % 16 = if t = 1 then 5 else 3 := fun t => by split <;> rfl
  simp only [htrain, Bool.not_true, Bool.false_eq_true, if_false, hstate, hcpl, false_and, hport, if_true, Mach.jlP_set, Mach.jlP_setJlP,
    Mach.jlState_set, Nat.reduceEqDiff, ne_eq, not_true_eq_false, true_and, hshown]

theorem does_jlTs_switch {gens : Nat} :
    Does m (.jlTs port gens) (m.jlMayTrain port = true ∧ m.jlState port = 3) fun m' => m' = m.set (jlStateF port) 4 := by
  refine does_of_ans _ _ (execJlTs.eq_def port gens) left_of_and ?_
  rintro ⟨htrain, hstate⟩
  simp only [htrain, Bool.not_true, Bool.false_eq_true, if_false, hstate, if_true]

theorem jlInit_port {vendor part maxx frames cells : Nat} (hwf : (Instr.jlInit port vendor part maxx frames cells).wf = true) :
    decide (port < 32) = true :=
  left_of_and (left_of_and (left_of_and (left_of_and (left_of_and hwf))))

/-- No subchannel has a path to probe. -/
theorem Mach.chanLinkUp_of_no_subs {p : Nat} (h : m.chan.subs = []) : m.chanLinkUp p = m := by rw [Mach.chanLinkUp, h, List.foldl_nil]

@[simp] theorem Mach.chan_jlError (m : Mach) (q code : Nat) : (m.jlError q code).chan = m.chan := by
  unfold Mach.jlError
  split
  · rfl
  · split <;> rfl

@[simp] theorem Mach.chan_jlShow (m : Mach) (q : Nat) (up : Bool) : (m.jlShow q up).chan = m.chan := by
  unfold Mach.jlShow
  split <;> rfl

@[simp] theorem Mach.chan_jlUpDone (m : Mach) (q : Nat) : (m.jlUpDone q).chan = m.chan := by
  unfold Mach.jlUpDone
  split <;> rfl

/-- A port of state 6 is shown up, its events are reported, and a waiting request is answered: the state stays, the request does not. -/
theorem Mach.jl_shownUp {n : Mach} {q : Nat} {c : Prop} [Decidable c] (hsubs : n.chan.subs = []) {r : Mach}
    (hr : r = ((if c then ((n.jlShow q true).jlError q 0xB2).jlError q 0xB5 else (n.jlShow q true).jlError q 0xB2).jlUpDone q).chanLinkUp q) :
    r.jlState q = n.jlState q ∧ r.jlP q = { n.jlP q with upReq := false } := by
  subst hr
  split <;> rw [Mach.chanLinkUp_of_no_subs (by simpa using hsubs)] <;> exact ⟨by simp, by simp [Mach.jlP_jlUpDone]⟩

theorem does_jlInit {vendor part maxx frames cells : Nat} :
    Does m (.jlInit port vendor part maxx frames cells) (m.jlMayTrain port = true ∧ m.jlState port = 5 ∧ 32 ≤ frames ∧ 1024 ≤ cells ∧
        m.chan.subs = [] ∧ (m.jlP port).far ≤ (m.jlP port).target) fun m' =>
      m'.jlState port = 6 ∧ (m'.jlP port).link = (⟨0, 0, [], [], [frames, cells], false, []⟩ : LinkSt TFrame) ∧
        (m'.jlP port).grant = (frames, cells) ∧ (m'.jlP port).upReq = false := by
  intro hwf
  have hport : port < 32 := of_decide_eq_true (jlInit_port hwf)
  revert hwf
  refine does_of_ans _ _ (execJlInit.eq_def port vendor part maxx frames cells) jlInit_port ?_
  rintro ⟨htrain, hstate, hframes, hcells, hsubs, -⟩
  have henough : ¬ (frames < 32 ∨ cells < 1024) := by omega
  simp only [htrain, hstate, bne_self_eq_false, Bool.not_true, Bool.or_self, Bool.false_eq_true, if_false, if_neg henough]
  generalize hr : Mach.chanLinkUp _ port = r
  obtain ⟨hst, hp⟩ := Mach.jl_shownUp (by exact hsubs) hr.symm
  rw [hst, hp]
  refine ⟨?_, by simp, by simp, rfl⟩
  simp [Mach.jlState, jlStateF, hport, Mach.get_set]

theorem does_jlInit_refused {vendor part maxx frames cells : Nat} :
    Does m (.jlInit port vendor part maxx frames cells) (m.jlMayTrain port = true ∧ m.jlState port = 5 ∧ (frames < 32 ∨ cells < 1024) ∧
        (m.jlP port).upReq = false) fun m' => m'.jlState port = 8 ∧ m'.jlWidth port = 0 := by
  refine does_of_ans _ _ (execJlInit.eq_def port vendor part maxx frames cells) jlInit_port ?_
  rintro ⟨htrain, hstate, hless, hreq⟩
  simp only [htrain, hstate, bne_self_eq_false, Bool.not_true, Bool.or_self, Bool.false_eq_true, if_false, if_pos hless, Mach.jlNoLink]
  rw [Mach.jlUpDone_of_not_upReq (by simp [Mach.jlControl, hreq])]
  exact ⟨by rw [Mach.jlState_jlSetWidth, Mach.jlState_set], Mach.jlWidth_jlSetWidth_zero _ _⟩

/-! ### Narrowing, and the port requests (R486, R488) -/

theorem does_jlNarrowingDone :
    Does m (.jlNarrowingDone port) (m.frozen = false ∧ m.jlState port = 7 ∧ (m.jlP port).link.waiting = []) fun m' =>
      m'.jlState port = 6 ∧ (m'.jlP port).link = (m.jlP port).link ∧ (m.jlP port).link.replay.length + m.sent.length = m'.sent.length := by
  refine does_of_ans _ _ (execJlNarrowingDone.eq_def port) id ?_
  rintro ⟨hfrozen, hstate, hwaiting⟩
  have hresent : ∀ (l : List (Nat × Nat × TFrame)) (n : Mach),
      (l.foldl (fun m x => m.emit (.frame 7 port (frameBytes x.1 x.2.2))) n).sent.length = l.length + n.sent.length := by
    intro l
    induction l with
    | nil => simp
    | cons x l ih =>
      intro n
      rw [List.foldl_cons, ih]
      simp [Mach.emit]
      omega
  have hport := foldl_keeps (f := fun (m : Mach) (x : Nat × Nat × TFrame) => m.emit (.frame 7 port (frameBytes x.1 x.2.2)))
    (·.jlP port) (fun _ _ => rfl) (m.jlP port).link.replay (m.set (jlStateF port) 6)
  have hshown := foldl_keeps (f := fun (m : Mach) (x : Nat × Nat × TFrame) => m.emit (.frame 7 port (frameBytes x.1 x.2.2)))
    (·.jlState port) (fun _ _ => rfl) (m.jlP port).link.replay (m.set (jlStateF port) 6)
  simp only [Mach.jlP_set] at hport
  simp only [hfrozen, hstate, bne_self_eq_false, Bool.or_self, Bool.false_eq_true, if_false, Mach.jlP_set, hport, hwaiting, List.length_nil,
    Mach.jlFlush]
  exact ⟨by rw [hshown, Mach.jlState_set], trivial, by rw [hresent, Mach.set_sent]⟩

section
variable {q : Nat}

theorem Mach.portDown_M6 (hchan : m.jlChan q = true) (hmode : m.mode_ = 6) (hreq : (m.jlP q).upReq = false) (hblk : m.blkDown (80 + q) = false) :
    m.portDown q = m.portOff q := by
  have hblk' : m.blkDown (jlBlk q) = false := hblk
  simp [Mach.portDown, hchan, hmode, hreq, hblk']

theorem Mach.portUp_M6 (hchan : m.jlChan q = true) (hmode : m.mode_ = 6) (hreq : (m.jlP q).upReq = false) (hblk : m.blkDown (80 + q) = false)
    (hfenced : (m.jlP q).fenced = true) {r : Mach} (hr : r = m.portUp q) :
    r.jlState q = 1 ∧ (r.jlP q).fenced = false ∧ (r.jlP q).upReq = true ∧ r.get (jlUpF q) = 1 ∧ (32 ≤ q → (r.jlP q).cap = 3) := by
  have hblk' : m.blkDown (jlBlk q) = false := hblk
  subst hr
  simp only [Mach.portUp, hchan, hmode, hreq, hblk', hfenced, Bool.not_true, Bool.false_and, Bool.false_eq_true, if_false, ne_eq, not_true_eq_false]
  refine ⟨Mach.jlState_jlTrain _ _ _, by simp, by simp, by rw [Mach.jlUp_jlTrain, Mach.jlUp_set], fun hcpl => ?_⟩
  simp [Mach.jlTop, hcpl]

end

/-- Coupling ports always carry a coupling link. -/
theorem Mach.jlChan_coupling : m.jlChan (32 + port) = true := by rw [Mach.jlChan, if_pos (Nat.le_add_right 32 port)]

theorem does_jlPortDown :
    Does m (.jlPortDown port) (m.frozen = false ∧ m.jlChan port = true ∧ m.mode_ = 6 ∧ (m.jlP port).upReq = false ∧
        m.blkDown (80 + port) = false) fun m' => m' = m.portOff port :=
  does_of_unlessFrozen _ _ (execJlPortDown.eq_def port) id fun ⟨hchan, hmode, hreq, hblk⟩ => Mach.portDown_M6 hchan hmode hreq hblk

/-- A register of an I/O port, for a port number in range. -/
theorem jlFields_io (hport : port < 32) :
    jlDownF port = R.chan_jl_ctl_down port ∧ jlUpF port = R.chan_jl_ctl_up port ∧ jlResF port = R.chan_jl_stat_res port :=
  ⟨if_pos hport, if_pos hport, if_pos hport⟩

theorem does_jlPortDown_refused :
    Does m (.jlPortDown port) (m.frozen = false ∧ m.jlChan port = true ∧ m.mode_ ≠ 6) fun m' =>
      m' = m.sets [(R.chan_jl_ctl_down port, 0), (R.chan_jl_stat_res port, 2)] := by
  intro hwf
  obtain ⟨hdown, -, hres⟩ := jlFields_io (of_decide_eq_true hwf)
  revert hwf
  refine does_of_unlessFrozen _ _ (execJlPortDown.eq_def port) id ?_
  rintro ⟨hchan, hmode⟩
  rw [Mach.portDown, if_neg (by simp [hchan]), if_pos hmode, hdown, hres]

theorem does_jlPortUp :
    Does m (.jlPortUp port) (m.frozen = false ∧ m.jlChan port = true ∧ m.mode_ = 6 ∧ (m.jlP port).upReq = false ∧
        m.blkDown (80 + port) = false ∧ (m.jlP port).fenced = true) fun m' =>
      m'.jlState port = 1 ∧ (m'.jlP port).fenced = false ∧ (m'.jlP port).upReq = true ∧ m'.get (R.chan_jl_ctl_up port) = 1 := by
  intro hwf
  obtain ⟨-, hup, -⟩ := jlFields_io (of_decide_eq_true hwf)
  revert hwf
  refine does_of_unlessFrozen _ _ (execJlPortUp.eq_def port) id ?_
  rintro ⟨hchan, hmode, hreq, hblk, hfenced⟩
  obtain ⟨hstate, hfence, hwait, hbit, -⟩ := Mach.portUp_M6 hchan hmode hreq hblk hfenced rfl
  exact ⟨hstate, hfence, hwait, hup ▸ hbit⟩

theorem does_jlPortUp_refused :
    Does m (.jlPortUp port) (m.frozen = false ∧ m.jlChan port = true ∧ m.mode_ = 6 ∧ (m.jlP port).upReq = false ∧
        m.blkDown (80 + port) = false ∧ (m.jlP port).fenced = false) fun m' =>
      m' = m.sets [(R.chan_jl_ctl_up port, 0), (R.chan_jl_stat_res port, 3)] := by
  intro hwf
  obtain ⟨-, hup, hres⟩ := jlFields_io (of_decide_eq_true hwf)
  revert hwf
  refine does_of_unlessFrozen _ _ (execJlPortUp.eq_def port) id ?_
  rintro ⟨hchan, hmode, hreq, hblk, hfenced⟩
  have hblk' : m.blkDown (jlBlk port) = false := hblk
  simp only [Mach.portUp, hchan, hmode, hreq, hblk', hfenced, Bool.not_true, Bool.not_false, Bool.false_and, Bool.false_eq_true, if_false, if_true,
    ne_eq, not_true_eq_false, hup, hres]

theorem does_couplingPortDown :
    Does m (.couplingPortDown port) (m.frozen = false ∧ m.mode_ = 6 ∧ (m.jlP (32 + port)).upReq = false ∧
        m.blkDown (80 + (32 + port)) = false) fun m' => m' = m.portOff (32 + port) :=
  does_of_unlessFrozen _ _ (execCouplingPortDown.eq_def port) id fun ⟨hmode, hreq, hblk⟩ =>
    Mach.portDown_M6 Mach.jlChan_coupling hmode hreq hblk

theorem does_couplingPortUp :
    Does m (.couplingPortUp port) (m.frozen = false ∧ m.mode_ = 6 ∧ (m.jlP (32 + port)).upReq = false ∧
        m.blkDown (80 + (32 + port)) = false ∧ (m.jlP (32 + port)).fenced = true) fun m' =>
      m'.jlState (32 + port) = 1 ∧ (m'.jlP (32 + port)).fenced = false ∧ (m'.jlP (32 + port)).cap = 3 ∧ m'.get (R.cpl_p_ctl_up port) = 1 := by
  refine does_of_unlessFrozen _ _ (execCouplingPortUp.eq_def port) id ?_
  rintro ⟨hmode, hreq, hblk, hfenced⟩
  obtain ⟨hstate, hfence, -, hbit, hcap⟩ := Mach.portUp_M6 Mach.jlChan_coupling hmode hreq hblk hfenced rfl
  have hup : jlUpF (32 + port) = R.cpl_p_ctl_up port := by simp [jlUpF]
  exact ⟨hstate, hfence, hcap (Nat.le_add_right 32 port), hup ▸ hbit⟩

/-- Settles O36, command by command. -/
theorem jalperTraining : Obligations.JalperTraining := by
  unfold Obligations.JalperTraining
  intro m
  exact ⟨fun _ => does_jlTrainingStart, fun _ => does_jlTrainingStart_off, fun _ _ _ _ => does_jlEqualisationEnd (.inl ⟨rfl, rfl⟩),
    fun _ _ _ _ => does_jlEqualisationEnd (.inr ⟨rfl, rfl⟩), fun _ => does_jlEqualisationEnd_lost, fun _ => does_jlEqualisationEnd_again,
    fun _ _ => does_jlTs, fun _ _ => does_jlTs_switch, fun _ _ _ _ _ _ => does_jlInit, fun _ _ _ _ _ _ => does_jlInit_refused,
    fun _ => does_jlNarrowingDone, fun _ => does_jlPortDown, fun _ => does_jlPortDown_refused, fun _ => does_jlPortUp,
    fun _ => does_jlPortUp_refused, fun _ => does_couplingPortDown, fun _ => does_couplingPortUp⟩

/-! ### Codewords, replay and lanes (R475, R476, R479, R486) -/

section
variable {hdr : Nat} {bytes : List Nat}

/-- A codeword on a link that is up is taken up. -/
theorem does_of_jlCodeword {fixed ok : Bool} {h : Prop} {P : Mach → Prop} (hP : m.frozen = false → m.jlUp port = true → h →
    P (m.jlCodeword port hdr bytes fixed ok)) :
    Does m (.jlCodeword port hdr bytes fixed ok) (m.frozen = false ∧ m.jlUp port = true ∧ h) P := by
  refine does_of_ans _ _ (execJlCodeword.eq_def port hdr bytes fixed ok) ?_ fun ⟨hfrozen, hup, hh⟩ => hP hfrozen hup hh
  intro hwf
  rw [left_of_and (left_of_and (left_of_and hwf)), right_of_and hwf]
  rfl

theorem does_jlCodeword_lost {fixed : Bool} :
    Does m (.jlCodeword port hdr bytes fixed false) (m.frozen = false ∧ m.jlUp port = true) fun m' =>
      m' = m.onJlP port fun x => { x with gap := true, link := { x.link with rx := [] } } := fun hwf ⟨hfrozen, hup⟩ =>
  does_of_jlCodeword (h := True) (fun hfrozen hup _ => by simp [Mach.jlCodeword, hfrozen, hup]) hwf ⟨hfrozen, hup, trivial⟩

theorem does_jlCodeword_fixed :
    Does m (.jlCodeword port hdr bytes true true) (m.frozen = false ∧ m.jlUp port = true ∧ (m.jlP port).gap = false) fun m' =>
      m' = (m.count (jlFeccF port)).jlCells port 10 (descramble bytes) :=
  does_of_jlCodeword fun hfrozen hup hgap => by simp [Mach.jlCodeword, hfrozen, hup, hgap]

theorem does_jlCodeword_noHeader :
    Does m (.jlCodeword port hdr bytes true true) (m.frozen = false ∧ m.jlUp port = true ∧ ((m.count (jlFeccF port)).jlP port).gap = true ∧
        9 < bits hdr 7 4) fun m' => m' = m.count (jlFeccF port) :=
  does_of_jlCodeword fun hfrozen hup ⟨hgap, hfsp⟩ => by
    rw [Mach.jlP_count] at hgap
    simp [Mach.jlCodeword, hfrozen, hup, hgap, hfsp]

end

/-- The resends of a replay, each counted and reported, leave the port's link and state. -/
theorem Mach.jlResend_events (m : Mach) (q : Nat) (l : List (Nat × Nat × TFrame)) :
    let r := l.foldl (fun m x => ((m.count (jlResendF q)).jlError q 0xB3).emit (.frame 7 q (frameBytes x.1 x.2.2))) m
    r.jlP q = m.jlP q ∧ r.jlState q = m.jlState q :=
  ⟨foldl_keeps (·.jlP q) (fun _ _ => by simp) l m, foldl_keeps (·.jlState q) (fun _ _ => by simp) l m⟩

/-- What is unacknowledged after a resend. -/
def resent (l : List (Nat × Nat × TFrame)) : List (Nat × Nat × TFrame) := l.map fun y => (y.1, y.2.1 + 1, y.2.2)

theorem Mach.jlResend_few {q : Nat} (hfew : ((m.jlP q).link.replay.all fun (y : Nat × Nat × TFrame) => decide (y.2.1 < 7)) = true) :
    ((m.jlResend q).jlP q).link = { (m.jlP q).link with replay := resent (m.jlP q).link.replay } ∧ (m.jlResend q).jlState q = m.jlState q := by
  obtain ⟨hp, hst⟩ := m.jlResend_events q (m.jlP q).link.replay
  have hnone : ¬ ((m.jlP q).link.replay.any fun x => 8 ≤ x.2.1 + 1) = true := by
    simp only [List.all_eq_true, decide_eq_true_eq, List.any_eq_true, not_exists, not_and, Nat.not_le] at hfew ⊢
    exact fun y hy => Nat.succ_lt_succ (hfew y hy)
  simp only [Mach.jlResend, if_neg hnone, Mach.jlP_onJlP, Mach.jlState_onJlP, hp, hst, resent, and_self]

theorem Mach.jlResend_eighth {q : Nat} (hmany : ((m.jlP q).link.replay.any fun (y : Nat × Nat × TFrame) => decide (8 ≤ y.2.1 + 1)) = true) :
    (m.jlResend q).jlState q = 7 := by
  simp only [Mach.jlResend, if_pos hmany, Mach.jlState_jlError, Mach.jlState_set]

theorem does_jlReplayTimeout {h : Prop} {P : Mach → Prop} (hP : h → P (m.jlResend port)) :
    Does m (.jlReplayTimeout port) (m.frozen = false ∧ m.jlState port = 6 ∧ (m.jlP port).link.replay ≠ [] ∧ h) P := by
  refine does_of_ans _ _ (execJlReplayTimeout.eq_def port) id ?_
  rintro ⟨hfrozen, hstate, hreplay, hh⟩
  rw [if_neg (by simp [hfrozen, hstate, hreplay])]
  exact hP hh

theorem does_jlReplayTimeout_none :
    Does m (.jlReplayTimeout port) (m.jlState port = 6 ∧ (m.jlP port).link.replay = []) fun m' => m' = m :=
  does_of_ans _ _ (execJlReplayTimeout.eq_def port) id fun ⟨_, hreplay⟩ => if_pos (by simp [hreplay])

section
variable {lane : Nat}

/-- The failed lanes with one more. -/
abbrev withLane (m : Mach) (port lane : Nat) : Nat := m.get (jlFailedF port) ||| 2 ^ lane

/-- The lanes of a port are no matter of which failed. -/
theorem Mach.jlFull_set_failed (m : Mach) (q v : Nat) : (m.set (jlFailedF q) v).jlFull q = m.jlFull q := by
  have hbonded : (m.set (jlFailedF q) v).jlBonded q = m.jlBonded q := by
    unfold Mach.jlBonded Mach.on jlFailedF
    split
    · rw [Mach.get_set_other _ _ _ _ (.inr (by simp only [ne_eq]; omega))]
    · rw [Mach.get_set_other _ _ _ _ (.inl (by simp))]
  rw [Mach.jlFull, Mach.jlFull, hbonded]

/-- A lane that newly fails on a link that is up: a narrower group is taken, or the link goes down. -/
theorem does_of_jlLaneFailure {h : Prop} {P : Mach → Prop} (hP : m.frozen = false → m.jlUp port = true → lane < m.jlFull port →
    bit (m.get (jlFailedF port)) lane = false → h → P (m.laneFail port lane)) :
    Does m (.jlLaneFailure port lane) (m.frozen = false ∧ m.jlUp port = true ∧ lane < m.jlFull port ∧ bit (m.get (jlFailedF port)) lane = false ∧ h)
      P :=
  does_of_ans _ _ (execJlLaneFailure.eq_def port lane) id fun ⟨hfrozen, hup, hlane, hbit, hh⟩ => hP hfrozen hup hlane hbit hh

theorem does_jlLaneFailure_narrows {w first : Nat} :
    Does m (.jlLaneFailure port lane) (m.frozen = false ∧ m.jlUp port = true ∧ lane < m.jlFull port ∧ bit (m.get (jlFailedF port)) lane = false ∧
        widthOf (withLane m port lane) (m.jlFull port) ((m.set (jlFailedF port) (withLane m port lane)).jlWidth port) = some (w, first) ∧
        w < (m.set (jlFailedF port) (withLane m port lane)).jlWidth port) fun m' =>
      m' = ((((m.set (jlFailedF port) (withLane m port lane)).jlSetWidth port w first).set (jlStateF port) 7).jlControl port 0x03 [w, first]).jlError
        port 0xB0 := by
  refine does_of_jlLaneFailure fun hfrozen hup hlane hbit ⟨hwidth, hless⟩ => ?_
  have hnew : ¬ (m.frozen || !m.jlUp port || decide (m.jlFull port ≤ lane) || bit (m.get (jlFailedF port)) lane) = true := by
    simp [hfrozen, hup, hbit, Nat.not_le_of_lt hlane]
  simp only [Mach.laneFail, if_neg hnew, Mach.jlFull_set_failed, hwidth, Nat.ne_of_lt hless, false_and, if_false]

theorem does_jlLaneFailure_down :
    Does m (.jlLaneFailure port lane) (m.frozen = false ∧ m.jlUp port = true ∧ lane < m.jlFull port ∧ bit (m.get (jlFailedF port)) lane = false ∧
        widthOf (withLane m port lane) (m.jlFull port) ((m.set (jlFailedF port) (withLane m port lane)).jlWidth port) = none) fun m' =>
      m' = (m.set (jlFailedF port) (withLane m port lane)).linkDown port 0 := by
  refine does_of_jlLaneFailure fun hfrozen hup hlane hbit hwidth => ?_
  have hnew : ¬ (m.frozen || !m.jlUp port || decide (m.jlFull port ≤ lane) || bit (m.get (jlFailedF port)) lane) = true := by
    simp [hfrozen, hup, hbit, Nat.not_le_of_lt hlane]
  simp only [Mach.laneFail, if_neg hnew, Mach.jlFull_set_failed, hwidth]

end

theorem does_jlLanemap {w first : Nat} :
    Does m (.jlLanemap port w first) (m.frozen = false ∧ m.jlUp port = true ∧ (w = 1 ∨ w = 2 ∨ w = 4 ∨ w = 8) ∧ first % w = 0 ∧
        first + w ≤ m.jlFull port ∧ w ≤ m.jlWidth port) fun m' =>
      m' = ((m.jlSetWidth port w first).set (jlStateF port) 7).jlError port 0xB0 := by
  refine does_of_ans _ _ (execJlLanemap.eq_def port w first) (fun hwf => left_of_and (left_of_and hwf)) ?_
  rintro ⟨hfrozen, hup, hw, hfirst, hfull, hwidth⟩
  have hpow : (w == 1 || w == 2 || w == 4 || w == 8) = true := by simp [hw, or_assoc]
  have hone : max 1 w = w := by omega
  exact if_neg (by simp [hfrozen, hup, hpow, hone, hfirst, hfull, hwidth])

theorem does_jlLinkDown :
    Does m (.jlLinkDown port) (m.frozen = false ∧ m.jlUp port = true) fun m' => m' = m.linkDown port 0 :=
  does_of_ans _ _ (execJlLinkDown.eq_def port) id fun ⟨hfrozen, hup⟩ => if_neg (by simp [hfrozen, hup])

/-- Settles O37, command by command. -/
theorem jalperLinks : Obligations.JalperLinks := by
  unfold Obligations.JalperLinks
  intro m
  refine ⟨fun _ _ _ _ => does_jlCodeword_lost, fun _ _ _ => does_jlCodeword_fixed, fun _ _ _ => does_jlCodeword_noHeader, ?_, ?_,
    fun _ => does_jlReplayTimeout_none, fun _ _ _ _ => does_jlLaneFailure_narrows, fun _ _ => does_jlLaneFailure_down,
    fun _ _ _ => does_jlLanemap, fun _ => does_jlLinkDown⟩
  · intro port hwf hh
    refine does_jlReplayTimeout (fun hfew => ?_) hwf hh
    obtain ⟨-, hstate, -, -⟩ := hh
    obtain ⟨hlink, hst⟩ := Mach.jlResend_few hfew
    exact ⟨hlink, hst.trans hstate⟩
  · intro port hwf ⟨hfrozen, hstate, hmany⟩
    refine does_jlReplayTimeout (fun _ => Mach.jlResend_eighth hmany) hwf ⟨hfrozen, hstate, ?_, trivial⟩
    rintro hnil
    simp [hnil] at hmany

end

end Sys2Proof.Machine
end

section
/-! Requests, completions and messages at a PCIe root port (R499, R503 to R507, R515), and O38. -/

namespace Sys2Proof.Machine

open Sys2Proof.Safety

section
variable {m : Mach} {port : Nat}

/-- A command of a root port after boot seal. -/
theorem does_of_rootRow {c : Instr} {h : Prop} {P : Mach → Prop} (f : Mach → Mach) (hexec : ∀ s, exec c s = rootRow port s f)
    (hwf : c.wf = true → decide (port < 32) = true) (hP : h → P (f m)) :
    Does m c (m.frozen = false ∧ m.sealed = true ∧ m.isRoot port = true ∧ h) P := by
  refine does_of_ans _ _ hexec hwf ?_
  rintro ⟨hfrozen, hsealed, hroot, hh⟩
  rw [hfrozen, hsealed, hroot, if_neg (by decide)]
  exact hP hh

/-- A request or message that reaches a root port which is up, not contained, and whose block is not down. -/
theorem does_of_inRow {c : Instr} {h : Prop} {P : Mach → Prop} (f : Mach → Mach) (hexec : ∀ s, exec c s = inRow port s f)
    (hwf : c.wf = true → decide (port < 32) = true) (hP : h → P (f m)) :
    Does m c (m.frozen = false ∧ m.sealed = true ∧ m.isRoot port = true ∧ m.pcieUp port = true ∧ m.blkDown (80 + port) = false ∧ h) P := by
  refine does_of_rootRow _ hexec hwf ?_
  rintro ⟨hup, hblk, hh⟩
  rw [hup, hblk, if_pos (by decide)]
  exact hP hh

/-! ### Completions (R503, R504) -/

section
variable {tag data : Nat} {l : PcieLoad}

/-- The load that a completion's tag names. -/
abbrev Mach.loadOf (m : Mach) (port tag : Nat) : Option PcieLoad := (m.pport port).loads.find? fun (x : PcieLoad) => x.tag == tag

/-- An answered load waits no more. -/
theorem Mach.loadOf_pcieAnswer (v : Nat) (hload : m.loadOf port tag = some l) : (m.pcieAnswer port tag v).loadOf port tag = none := by
  have hport : (m.pcieAnswer port tag v).pport port = { m.pport port with loads := (m.pport port).loads.filter fun y => y.tag != tag } := by
    rw [Mach.pcieAnswer, show List.find? _ _ = some l from hload]
    exact tget_tset_same _ _ _ _
  rw [Mach.loadOf, hport, List.find?_eq_none]
  intro y hy
  simpa using (List.mem_filter.1 hy).2

theorem Mach.pcieFail_eq (hload : m.loadOf port tag = some l) :
    m.pcieFail port tag = (m.pcieAnswer port tag (2 ^ (8 * l.len) - 1)).pcieError port 0xC4 l.addr := by
  rw [Mach.pcieFail, show List.find? _ _ = some l from hload]

/-- A completion of a load that waits. -/
theorem does_of_pcieCompletion {ok ep : Bool} {P : Mach → Prop}
    (hP : m.loadOf port tag = some l → P (if !ok then m.pcieFail port tag
      else if ep then (m.pcieError port 0xC7 l.addr).pcieAnswer port tag poisonMark else m.pcieAnswer port tag (data % 2 ^ (8 * l.len)))) :
    Does m (.pcieCompletion port tag data ok ep) (m.frozen = false ∧ m.sealed = true ∧ m.isRoot port = true ∧ m.pcieUp port = true ∧
        m.loadOf port tag = some l) P := by
  refine does_of_rootRow _ (execPcieCompletion.eq_def port tag data ok ep) (fun hwf => left_of_and (left_of_and hwf)) ?_
  rintro ⟨hup, hload⟩
  simp only [hup, Bool.not_true, Bool.false_eq_true, if_false, hload]
  exact hP hload

theorem does_pcieCompletionTimeout :
    Does m (.pcieCompletionTimeout port tag) (m.frozen = false ∧ m.sealed = true ∧ m.isRoot port = true ∧ m.loadOf port tag = some l) fun m' =>
      m' = (m.pcieAnswer port tag (2 ^ (8 * l.len) - 1)).pcieError port 0xC4 l.addr :=
  does_of_rootRow _ (execPcieCompletionTimeout.eq_def port tag) left_of_and Mach.pcieFail_eq

end

/-! ### Requests (R499, R505 to R507) -/

section
variable {rid tag addr len pa : Nat} {m1 : Mach}

theorem pcieInboundMemoryRead_port (hwf : (Instr.pcieInboundMemoryRead port rid tag addr len).wf = true) : decide (port < 32) = true :=
  left_of_and (left_of_and (left_of_and (left_of_and hwf)))

/-- A read that stays within its 4 KiB page. -/
theorem Mach.read_wellFormed (hlen : 0 < len) (hpage : addr % 4096 + len ≤ 4096) : ¬ (len = 0 ∨ 4096 < addr % 4096 + len) := by omega

theorem does_pcieRead :
    Does m (.pcieInboundMemoryRead port rid tag addr len) (m.frozen = false ∧ m.sealed = true ∧ m.isRoot port = true ∧ m.pcieUp port = true ∧
        m.blkDown (80 + port) = false ∧ 0 < len ∧ addr % 4096 + len ≤ 4096 ∧ m.decodeIn port addr false false = (m1, .at_ pa) ∧
        m1.devPoison pa len = false) fun m' => m' = m1.sendCpl port tag 0 false (m1.devRead pa len) := by
  refine does_of_inRow _ (execPcieInboundMemoryRead.eq_def port rid tag addr len) pcieInboundMemoryRead_port ?_
  rintro ⟨hlen, hpage, hplace, hclean⟩
  simp only [if_neg (Mach.read_wellFormed hlen hpage), hplace, hclean, Bool.false_eq_true, if_false]

theorem does_pcieRead_unsupported {c : Nat} :
    Does m (.pcieInboundMemoryRead port rid tag addr len) (m.frozen = false ∧ m.sealed = true ∧ m.isRoot port = true ∧ m.pcieUp port = true ∧
        m.blkDown (80 + port) = false ∧ 0 < len ∧ addr % 4096 + len ≤ 4096 ∧ m.decodeIn port addr false false = (m1, .ur c)) fun m' =>
      m' = (m1.pcieError port c addr rid).sendCpl port tag 1 false [] := by
  refine does_of_inRow _ (execPcieInboundMemoryRead.eq_def port rid tag addr len) pcieInboundMemoryRead_port ?_
  rintro ⟨hlen, hpage, hplace⟩
  simp only [if_neg (Mach.read_wellFormed hlen hpage), hplace]

theorem does_pcieRead_malformed :
    Does m (.pcieInboundMemoryRead port rid tag addr len) (m.frozen = false ∧ m.sealed = true ∧ m.isRoot port = true ∧ m.pcieUp port = true ∧
        m.blkDown (80 + port) = false ∧ 4096 < addr % 4096 + len ∧ m.on (R.pcie_p_stat_pwr port) = true) fun m' =>
      m' = m.contain port 0xC9 := by
  refine does_of_inRow _ (execPcieInboundMemoryRead.eq_def port rid tag addr len) pcieInboundMemoryRead_port ?_
  rintro ⟨hcross, hpower⟩
  simp only [if_pos (Or.inr hcross : len = 0 ∨ 4096 < addr % 4096 + len), Mach.malformed, hpower, if_true]

section
variable {bytes : List Nat}

/-- A write that stays within its 4 KiB page, without poison, acts as its address decodes. -/
theorem does_of_pcieWrite {h : Prop} {P : Mach → Prop}
    (hP : bytes ≠ [] → bytes.length ≤ 512 → addr % 4096 + bytes.length ≤ 4096 → h → P (match m.decodeIn port addr true true with
      | (m, .ring) => m.ringPage ((addr - 0x000fe00000100000) / 4096) (addr % 4096) bytes.length (ofBytes bytes)
      | (m, .control) => m.dbellError 0xE5 0xFF 0
      | (m, .ur c) => m.pcieError port c addr rid
      | (m, .ca) => m.pcieError port 0xC6 addr rid
      | (m, .at_ pa) => m.devWrite pa bytes)) :
    Does m (.pcieInboundMemoryWrite port rid addr bytes false) (m.frozen = false ∧ m.sealed = true ∧ m.isRoot port = true ∧ m.pcieUp port = true ∧
        m.blkDown (80 + port) = false ∧ bytes ≠ [] ∧ bytes.length ≤ 512 ∧ addr % 4096 + bytes.length ≤ 4096 ∧ h) P := by
  refine does_of_inRow _ (execPcieInboundMemoryWrite.eq_def port rid addr bytes false)
    (fun hwf => left_of_and (left_of_and (left_of_and hwf))) ?_
  rintro ⟨hsome, hlen, hpage, hh⟩
  have hwell : ¬ (bytes = [] ∨ 512 < bytes.length ∨ 4096 < addr % 4096 + bytes.length) := by
    rintro (hnil | hlong | hcross)
    · exact hsome hnil
    · omega
    · omega
  have hP' := hP hsome hlen hpage hh
  simp only [if_neg hwell, Bool.false_eq_true, if_false]
  generalize m.decodeIn port addr true true = d at hP' ⊢
  obtain ⟨n, _ | _ | _ | _ | _⟩ := d <;> exact hP'

theorem does_pcieWrite :
    Does m (.pcieInboundMemoryWrite port rid addr bytes false) (m.frozen = false ∧ m.sealed = true ∧ m.isRoot port = true ∧ m.pcieUp port = true ∧
        m.blkDown (80 + port) = false ∧ bytes ≠ [] ∧ bytes.length ≤ 512 ∧ addr % 4096 + bytes.length ≤ 4096 ∧
        m.decodeIn port addr true true = (m1, .at_ pa)) fun m' => m' = m1.devWrite pa bytes :=
  does_of_pcieWrite fun _ _ _ hplace => by rw [hplace]

/-- A write into the doorbell area is a ring, or a write of its control area (Table 18.2). -/
theorem Mach.decodeIn_doorbell (hlo : 0x000fe00000100000 ≤ addr) (hhi : addr < 0x000fe00000200000) :
    m.decodeIn port addr true true = (m, if addr < 0x000fe000001f0000 then .ring else .control) := by
  rw [Mach.decodeIn, if_pos (by simp [hlo, hhi])]

theorem does_pcieWrite_ring :
    Does m (.pcieInboundMemoryWrite port rid addr bytes false) (m.frozen = false ∧ m.sealed = true ∧ m.isRoot port = true ∧ m.pcieUp port = true ∧
        m.blkDown (80 + port) = false ∧ bytes ≠ [] ∧ bytes.length ≤ 512 ∧ addr % 4096 + bytes.length ≤ 4096 ∧ 0x000fe00000100000 ≤ addr ∧
        addr < 0x000fe000001f0000) fun m' =>
      m' = m.ringPage ((addr - 0x000fe00000100000) / 4096) (addr % 4096) bytes.length (ofBytes bytes) :=
  does_of_pcieWrite fun _ _ _ ⟨hlo, hhi⟩ => by rw [Mach.decodeIn_doorbell hlo (by omega), if_pos hhi]

theorem does_pcieWrite_control :
    Does m (.pcieInboundMemoryWrite port rid addr bytes false) (m.frozen = false ∧ m.sealed = true ∧ m.isRoot port = true ∧ m.pcieUp port = true ∧
        m.blkDown (80 + port) = false ∧ bytes ≠ [] ∧ bytes.length ≤ 512 ∧ addr % 4096 + bytes.length ≤ 4096 ∧ 0x000fe000001f0000 ≤ addr ∧
        addr < 0x000fe00000200000) fun m' => m' = m.dbellError 0xE5 0xFF 0 :=
  does_of_pcieWrite fun _ _ _ ⟨hlo, hhi⟩ => by rw [Mach.decodeIn_doorbell (by omega) hhi, if_neg (Nat.not_lt_of_le hlo)]

end

theorem does_pcieAtomicop {op n a b : Nat} :
    Does m (.pcieInboundAtomicop port rid tag addr op n a b) (m.frozen = false ∧ m.sealed = true ∧ m.isRoot port = true ∧ m.pcieUp port = true ∧
        m.blkDown (80 + port) = false ∧ (n = 4 ∨ n = 8 ∨ (n = 16 ∧ op = 2)) ∧ addr % n = 0 ∧ m.decodeIn port addr true false = (m1, .at_ pa) ∧
        m1.devPoison pa n = false) fun m' =>
      m' = (m1.devWrite pa (toBytes n (atomicResult op n (ofBytes (m1.devRead pa n)) (a % 2 ^ (8 * n)) (b % 2 ^ (8 * n))))).sendCpl port tag 0 false
        (m1.devRead pa n) := by
  refine does_of_inRow _ (execPcieInboundAtomicop.eq_def port rid tag addr op n a b)
    (fun hwf => left_of_and (left_of_and (left_of_and (left_of_and (left_of_and (left_of_and (left_of_and hwf))))))) ?_
  rintro ⟨hn, haligned, hplace, hclean⟩
  have hwell : ¬ (!(n == 4 || n == 8 || (n == 16 && op == 2)) || addr % n != 0) = true := by
    simp [haligned]
    omega
  simp only [if_neg hwell, hplace, hclean, Bool.false_eq_true, if_false]

theorem does_pcieUnsupported :
    Does m (.pcieInboundUnsupported port rid tag addr) (m.frozen = false ∧ m.sealed = true ∧ m.isRoot port = true ∧ m.pcieUp port = true ∧
        m.blkDown (80 + port) = false) fun m' => m' = (m.pcieError port 0xC5 addr rid).sendCpl port tag 1 false [] := fun hwf ⟨hf, hs, hr, hu, hb⟩ =>
  does_of_inRow (h := True) _ (execPcieInboundUnsupported.eq_def port rid tag addr) (fun hwf => left_of_and (left_of_and (left_of_and hwf)))
    (fun _ => rfl) hwf ⟨hf, hs, hr, hu, hb, trivial⟩

/-- An error message acts by its kind (R515). -/
theorem does_of_pcieErrorMessage {kind : Nat} {P : Mach → Prop} (hP : P (match kind with
      | 0 => (m.count (R.pcie_p_cnt_corr port)).pcieError port 0xC0 0 rid
      | 1 => m.pcieError port 0xCA 0 rid
      | _ => m.contain port 0xC9)) :
    Does m (.pcieErrorMessage port rid kind) (m.frozen = false ∧ m.sealed = true ∧ m.isRoot port = true ∧ m.pcieUp port = true ∧
        m.blkDown (80 + port) = false) P := fun hwf ⟨hf, hs, hr, hu, hb⟩ =>
  does_of_inRow (h := True) _ (execPcieErrorMessage.eq_def port rid kind) (fun hwf => left_of_and (left_of_and hwf))
    (fun _ => by rcases kind with _ | _ | _ <;> exact hP) hwf ⟨hf, hs, hr, hu, hb, trivial⟩

end
end

/-- Settles O38, request by request. -/
theorem pcieTransactions : Obligations.PcieTransactions := by
  unfold Obligations.PcieTransactions
  intro m
  exact ⟨fun _ _ _ _ => does_of_pcieCompletion fun hload => ⟨rfl, Mach.loadOf_pcieAnswer _ hload⟩,
    fun _ _ _ _ => does_of_pcieCompletion fun _ => rfl, fun _ _ _ _ => does_of_pcieCompletion Mach.pcieFail_eq,
    fun _ _ _ => does_pcieCompletionTimeout, fun _ _ _ _ _ _ _ => does_pcieRead, fun _ _ _ _ _ _ _ => does_pcieRead_unsupported,
    fun _ _ _ _ _ => does_pcieRead_malformed, fun _ _ _ _ _ _ => does_pcieWrite, fun _ _ _ _ => does_pcieWrite_ring,
    fun _ _ _ _ => does_pcieWrite_control, fun _ _ _ _ _ _ _ _ _ _ => does_pcieAtomicop, fun _ _ _ _ => does_pcieUnsupported,
    fun _ _ => does_of_pcieErrorMessage rfl, fun _ _ => does_of_pcieErrorMessage rfl, fun _ _ => does_of_pcieErrorMessage rfl⟩

end Sys2Proof.Machine
end

section
/-! Supplies, the frame's signals and module resets (R617 to R620, R636, R638) and O50; the reset sequence, boot seal and thread starts (R620 to R629)
and O51. -/

namespace Sys2Proof.Machine

open Sys2Proof.Safety

section
variable {m : Mach}

/-! ### Supplies and the frame's signals -/

theorem does_powerOnReset :
    Does m .powerOnReset True fun m' =>
      m' = ({ Mach.reset with
        seed := m.seed
        sent := m.sent
        boot := { Mach.reset.boot with pwrgd := m.boot.pwrgd, resetN := m.boot.resetN, flash := m.boot.flash } } : Mach) :=
  does_of_ans _ _ execPowerOnReset.eq_def id fun _ => rfl

theorem does_vAoLoss :
    Does m .vAoLoss True fun m' => m'.frozen = true ∧ m'.boot.vao = false ∧ m'.boot.mainen = false ∧ m'.boot.phase = 0 :=
  does_of_ans _ _ execVAoLoss.eq_def id fun _ => ⟨rfl, rfl, rfl, rfl⟩

theorem does_mainenAssert :
    Does m .mainenAssert (m.boot.vao = true ∧ m.boot.mainen = false) fun m' =>
      m' = ({ m with boot := { m.boot with mainen := true } } : Mach).emit (.pin pinMainEn true) :=
  does_of_ans _ _ execMainenAssert.eq_def id fun ⟨hvao, hmainen⟩ => if_pos (by simp [hvao, hmainen])

theorem does_mainenAssert_again : Does m .mainenAssert (m.boot.mainen = true) fun m' => m' = m :=
  does_of_ans _ _ execMainenAssert.eq_def id fun hmainen => if_neg (by simp [hmainen])

/-- An external reset of a module that runs has cause 1. -/
theorem Mach.externalReset_of_running (hphase : 2 ≤ m.boot.phase) (hrun : m.frozen = false) : m.externalReset = m.callReset 1 0xFFF := by
  simp [Mach.externalReset, Mach.begun, hphase, hrun]

/-- An external reset that ends a checkstop has cause 3. -/
theorem Mach.externalReset_of_checkstop (hphase : 2 ≤ m.boot.phase) (hstop : m.frozen = true) (hhub : m.od.hubLost = false) :
    m.externalReset = m.callReset 3 (m.get R.aq_dom_chk_src) := by
  simp [Mach.externalReset, Mach.begun, hphase, hstop, hhub]

theorem does_pwrgdFall :
    Does m .pwrgdFall (2 ≤ m.boot.phase ∧ m.frozen = false) fun m' =>
      m' = ({ m with boot := { m.boot with pwrgd := false } } : Mach).callReset 1 0xFFF :=
  does_of_ans _ _ execPwrgdFall.eq_def id fun ⟨hphase, hrun⟩ => Mach.externalReset_of_running hphase hrun

theorem does_pwrgdFall_checkstop :
    Does m .pwrgdFall (2 ≤ m.boot.phase ∧ m.frozen = true ∧ m.od.hubLost = false) fun m' =>
      m' = ({ m with boot := { m.boot with pwrgd := false } } : Mach).callReset 3 (m.get R.aq_dom_chk_src) :=
  does_of_ans _ _ execPwrgdFall.eq_def id fun ⟨hphase, hstop, hhub⟩ => Mach.externalReset_of_checkstop hphase hstop hhub

theorem does_resetN_low :
    Does m (.resetNChange false) (2 ≤ m.boot.phase ∧ m.frozen = false) fun m' =>
      m' = ({ m with boot := { m.boot with resetN := false } } : Mach).callReset 1 0xFFF :=
  does_of_ans _ _ (execResetNChange.eq_def false) id fun ⟨hphase, hrun⟩ => Mach.externalReset_of_running hphase hrun

/-! ### Module resets -/

/-- What no announcement of a reset touches: memory, the time of day, and the state of the boot. -/
def Mach.lasting (m : Mach) : Memory × Nat × BootSt := (m.mem, m.tod, m.boot)

theorem Mach.lasting_sendStops (cause : Nat) : (m.sendStops cause).lasting = m.lasting :=
  foldl_keeps Mach.lasting (fun n p => by split <;> rfl) _ _

theorem Mach.lasting_slotsOff : m.slotsOff.lasting = m.lasting :=
  foldl_keeps Mach.lasting (fun n p => by split <;> rfl) _ _

/-- What a module reset keeps and clears (Table 24.1). -/
theorem Mach.moduleReset_parts (m : Mach) :
    m.moduleReset.mem = m.mem ∧ m.moduleReset.tod = m.tod ∧ m.moduleReset.boot.flash = m.boot.flash ∧ m.moduleReset.thr = [] ∧
      m.moduleReset.cores = [] ∧ m.moduleReset.frozen = false ∧ m.moduleReset.boot.pendReset = none ∧
      m.moduleReset.boot.phase = Mach.reset.boot.phase ∧ m.moduleReset.od = Mach.reset.od := by
  refine ⟨rfl, rfl, rfl, rfl, rfl, rfl, rfl, rfl, rfl⟩

theorem does_moduleReset {cause src : Nat} :
    Does m .moduleReset (m.boot.pendReset = some (cause, src)) fun m' =>
      m'.mem = m.mem ∧ m'.tod = m.tod ∧ m'.boot.flash = m.boot.flash ∧ m'.thr = [] ∧ m'.cores = [] ∧ m'.frozen = false ∧
        m'.boot.pendReset = none ∧ m'.boot.phase = Mach.reset.boot.phase ∧ m'.od = Mach.reset.od := by
  refine does_of_ans _ _ execModuleReset.eq_def id fun hcalled => ?_
  rw [hcalled]
  dsimp only
  generalize hsends : (if cause = 4 then m else _) = n
  have hstops : ∀ x : Mach, x.lasting = m.lasting → (if x.frozen = true then x else x.sendStops 2).lasting = m.lasting := by
    intro x hx
    split
    · exact hx
    · rw [Mach.lasting_sendStops, hx]
  have hlasting : n.lasting = m.lasting := by
    subst hsends
    split
    · rfl
    · rw [Mach.lasting_slotsOff]
      exact hstops _ (by split <;> rfl)
  simp only [Mach.lasting, Prod.mk.injEq] at hlasting
  obtain ⟨hmem, htod, hboot⟩ := hlasting
  rw [← hmem, ← htod, ← hboot]
  exact n.moduleReset_parts

theorem does_moduleReset_uncalled : Does m .moduleReset (m.boot.pendReset = none) fun m' => m' = m :=
  does_of_ans _ _ execModuleReset.eq_def id fun hnone => by rw [hnone]

/-! ### Samples of a rail (R636) -/

/-- A rail without samples. -/
abbrev noExcursion : Excursion := ⟨0, 0, 0, false, false⟩

/-- One sample, of the first rail. -/
theorem does_supplySample {mv : Nat} {h : Prop} {P : Mach → Prop} (hP : h → P (m.railSample 0 mv)) :
    Does m (.supplyExcursion [mv]) (m.frozen = false ∧ m.boot.vao = true ∧ h) P := by
  refine does_of_ans _ _ (execSupplyExcursion.eq_def [mv]) (fun _ => rfl) ?_
  rintro ⟨hfrozen, hvao, hh⟩
  rw [hfrozen, hvao, if_neg (by decide)]
  exact hP hh

/-- A report of the supplies shows what it reports. -/
theorem Mach.get_supplyReport {rail kind mv : Nat} (hrail : rail < 256) (hkind : kind < 4) (hmv : mv < 65536) :
    (m.supplyReport rail kind mv).get R.weir_supply_kind = kind ∧ (m.supplyReport rail kind mv).get R.weir_supply_rail = rail ∧
      (m.supplyReport rail kind mv).get R.weir_supply_mv = mv ∧ (m.supplyReport rail kind mv).get R.weir_supply_new = 1 := by
  have hregs : ∀ f : Fld, (m.supplyReport rail kind mv).get f =
      (m.sets [(R.weir_supply_mv, mv), (R.weir_supply_rail, rail), (R.weir_supply_kind, kind), (R.weir_supply_new, 1)]).get f :=
    fun f => Mach.get_congr _ _ _ rfl
  simp only [hregs]
  simp [Mach.get_set]
  omega

theorem does_supplyExcursion {mv : Nat} {x : Excursion} :
    Does m (.supplyExcursion [mv]) (m.frozen = false ∧ m.boot.vao = true ∧ tget m.boot.rails 0 noExcursion = x ∧ x.now = false ∧ x.outRun = 9 ∧
        mv < 11400 ∧ 10800 ≤ mv) fun m' =>
      (tget m'.boot.rails 0 noExcursion).now = true ∧ m'.get R.weir_supply_kind = 1 ∧ m'.get R.weir_supply_rail = 0 ∧
        m'.get R.weir_supply_mv = mv ∧ m'.get R.weir_supply_new = 1 := by
  refine does_supplySample ?_
  rintro ⟨rfl, hnow, hrun, hlow, habs⟩
  have hout : (decide (11400 ≤ mv) && decide (mv ≤ 12600)) = false := by simp; omega
  have hin : (decide (10800 ≤ mv) && decide (mv ≤ 13200)) = true := by simp; omega
  simp only [Mach.railSample, Mach.inRange, hout, hin, hnow, hrun]
  refine ⟨?_, Mach.get_supplyReport (by decide) (by decide) (by omega)⟩
  exact congrArg Excursion.now (tget_tset_same _ _ _ _)

theorem does_supplySample_inRange {mv : Nat} :
    Does m (.supplyExcursion [mv]) (m.frozen = false ∧ m.boot.vao = true ∧ 11400 ≤ mv ∧ mv ≤ 12600 ∧
        (tget m.boot.rails 0 noExcursion).now = false) fun m' =>
      m' = ({ m with boot := { m.boot with rails := tset m.boot.rails 0 { tget m.boot.rails 0 noExcursion with
        outRun := 0
        absRun := 0
        inRun := min ((tget m.boot.rails 0 noExcursion).inRun + 1) 100 } } } : Mach) := by
  refine does_supplySample ?_
  rintro ⟨hlow, hhigh, hnow⟩
  have hop : (decide (11400 ≤ mv) && decide (mv ≤ 12600)) = true := by simp; omega
  have hin : (decide (10800 ≤ mv) && decide (mv ≤ 13200)) = true := by simp; omega
  simp [Mach.railSample, Mach.inRange, hop, hin, hnow]

/-- Settles O50, command by command. -/
theorem powerAndReset : Obligations.PowerAndReset := by
  unfold Obligations.PowerAndReset
  intro m
  exact ⟨does_powerOnReset, does_vAoLoss, does_mainenAssert, does_mainenAssert_again, does_of_ans _ _ execPwrgdRise.eq_def id fun _ => rfl,
    does_pwrgdFall, does_pwrgdFall_checkstop, does_resetN_low, does_of_ans _ _ (execResetNChange.eq_def true) id fun _ => rfl,
    does_of_ans _ _ execReferenceClockLoss.eq_def id fun hpwrgd => if_pos hpwrgd,
    does_of_ans _ _ execReferenceClockLoss.eq_def id fun hpwrgd => if_neg (by simp [hpwrgd]), fun _ _ => does_moduleReset,
    does_moduleReset_uncalled, fun _ _ => does_supplyExcursion, fun _ => does_supplySample_inRange⟩

/-! ### The reset sequence (Table 24.2) -/

theorem does_resetSequenceStart {module dsz node : Nat} {ftestN : Bool} :
    Does m (.resetSequenceStart module dsz node ftestN) (m.boot.phase = 1 ∧ m.boot.pwrgd = true ∧ m.boot.resetN = true ∧ module < 4 ∧ dsz < 4 ∧
        node < 128) fun m' =>
      m' = ({ m with boot := { m.boot with ftestN := ftestN, phase := 2 } } : Mach).sets
        [(R.id_place_module, module), (R.id_place_dsize, dsz + 1), (R.id_place_can_node, node)] :=
  does_of_ans _ _ (execResetSequenceStart.eq_def module dsz node ftestN) id fun ⟨hphase, hpwrgd, hreset, _⟩ =>
    if_neg (by simp [hphase, hpwrgd, hreset])

theorem does_resetSequenceStart_again {module dsz node : Nat} {ftestN : Bool} :
    Does m (.resetSequenceStart module dsz node ftestN) (m.boot.phase ≠ 1) fun m' => m' = m :=
  does_of_ans _ _ (execResetSequenceStart.eq_def module dsz node ftestN) id fun hphase => if_pos (.inl hphase)

/-- The straps stand in a register of their own. -/
theorem Mach.dsize_set (f : Fld) (v : Nat) (h : f.blk ≠ .id ∨ f.off ≠ 0x20) : (m.set f v).dsize = m.dsize :=
  Mach.get_set_other _ _ _ _ (h.imp Ne.symm Ne.symm)

theorem Mach.dsize_sets (l : List (Fld × Nat)) (h : ∀ x ∈ l, x.1.blk ≠ .id ∨ x.1.off ≠ 0x20) (n : Mach) : (n.sets l).dsize = n.dsize := by
  induction l generalizing n with
  | nil => rfl
  | cons x l ih => rw [Mach.sets_cons, ih (fun y hy => h y (List.mem_cons_of_mem _ hy)), n.dsize_set _ _ (h x List.mem_cons_self)]

theorem Mach.dsize_memTrain (p : Nat) : (m.memTrain p).dsize = m.dsize := by
  unfold Mach.memTrain Mach.memBit
  rw [Mach.dsize_sets _ (by simp), Mach.dsize_set _ _ (.inr (by decide))]
  rfl

theorem Mach.dsize_assignCores (mask : Nat) : (m.assignCores mask).dsize = m.dsize := by
  unfold Mach.assignCores
  rw [Mach.dsize_sets _ (by simp)]
  refine foldl_keeps Mach.dsize (fun n c => ?_) _ _
  split
  · rfl
  · exact n.dsize_set _ _ (.inl (by simp))

theorem Mach.dsize_applyCarry : m.applyCarry.dsize = m.dsize := by
  have hroles : ∀ l : List Nat, ∀ x ∈ l.map fun c => (R.core_state_role c, 2), x.1.blk ≠ .id ∨ x.1.off ≠ 0x20 := by
    intro l x hx
    obtain ⟨c, -, rfl⟩ := List.mem_map.1 hx
    exact .inl (by simp)
  unfold Mach.applyCarry
  rw [Mach.dsize_assignCores, foldl_keeps Mach.dsize (fun n c => ?_) _ _, Mach.dsize_sets _ (hroles _)]
  split
  · exact n.dsize_set _ _ (.inl (by simp))
  · rfl

theorem does_pllLock :
    Does m .pllLock (m.boot.phase = 2 ∧ m.dsize = 1) fun m' =>
      m' = (List.range 20).foldl (fun (x : Mach) p => x.memTrain p) (({ m with boot := { m.boot with phase := 3 } } : Mach).applyCarry) := by
  refine does_of_ans _ _ execPllLock.eq_def id ?_
  rintro ⟨hphase, hone⟩
  have hsize : ((List.range 20).foldl (fun (x : Mach) p => x.memTrain p)
      (({ m with boot := { m.boot with phase := 3 } } : Mach).applyCarry)).dsize = 1 := by
    rw [foldl_keeps Mach.dsize (fun _ _ => Mach.dsize_memTrain _), Mach.dsize_applyCarry]
    exact hone
  simp only [hphase, ne_eq, not_true_eq_false, if_false, hsize, Nat.lt_irrefl]

theorem does_bootRomStart :
    Does m .bootRomStart (m.boot.phase = 3) fun m' =>
      m' = ({ m with boot := { m.boot with phase := 4 }, od := { m.od with nmt := 0 } } : Mach) :=
  does_of_ans _ _ execBootRomStart.eq_def id fun hphase => if_neg (not_not_intro hphase)

/-! ### The boot image (R627) -/

/-- The result of a boot area. -/
abbrev areaResult (a : Nat) : Fld := if a = 0 then R.mode_boot_resa else R.mode_boot_resb

theorem does_bootAreaChecked_first :
    Does m (.bootAreaChecked true) (m.boot.phase = 4 ∧ m.on (areaResult m.selArea) = false) fun m' =>
      m' = m.sets [(areaResult m.selArea, 7), (R.mode_boot_fb, 1)] := by
  refine does_of_ans _ _ (execBootAreaChecked.eq_def true) id ?_
  rintro ⟨hphase, hfirst⟩
  simp [hphase, hfirst]

theorem does_bootAreaChecked_second :
    Does m (.bootAreaChecked true) (m.boot.phase = 4 ∧ m.on (areaResult m.selArea) = true) fun m' =>
      m'.boot.phase = 5 ∧ m'.get R.mode_boot_area = 3 := by
  refine does_of_ans _ _ (execBootAreaChecked.eq_def true) id ?_
  rintro ⟨hphase, hfirst⟩
  simp only [hphase, hfirst, ne_eq, not_true_eq_false, if_false, if_true, OfNat.ofNat_ne_zero]
  have hshown : (m.sets [(areaResult (1 - m.selArea), 7), (R.mode_boot_area, 3)]).get R.mode_boot_area = 3 :=
    Mach.get_set_same _ _ _ (by decide) (by decide)
  split <;> exact ⟨rfl, (Mach.get_congr _ _ _ rfl).trans hshown⟩

/-! ### The directory sweep (R622) -/

/-- The groups' states are set one by one. -/
theorem Mach.get_groupStates (n : Mach) (v : Nat → Nat) (hv : ∀ g, v g < 16) :
    ((List.range 4).all fun g =>
      (n.sets ((List.range 4).map fun g => (R.mem_grp_stat_state g, v g))).get (R.mem_grp_stat_state g) == v g) = true := by
  have hmod : ∀ g, v g % 16 = v g := fun g => Nat.mod_eq_of_lt (hv g)
  simp [List.range, List.range.loop, Mach.get_set, hmod]

theorem does_directorySweep :
    Does m .directorySweep (m.frozen = false ∧ 3 ≤ m.boot.phase ∧ m.sealed = false ∧ m.on R.mode_boot_sweep = false ∧ m.home.sweeping = false ∧
        m.groupsReady = true) fun m' =>
      m'.home = { m.home with sweeping := true } ∧ ((List.range 4).all fun g => m'.get (R.mem_grp_stat_state g) == 1) = true := by
  refine does_of_ans _ _ execDirectorySweep.eq_def id ?_
  rintro ⟨hfrozen, hphase, hsealed, hsweep, hsweeping, hready⟩
  dsimp only
  rw [if_neg (by simp [hfrozen, Nat.not_lt_of_le hphase, hsealed, hsweep, hsweeping, hready])]
  exact ⟨Mach.sets_home _ _, Mach.get_groupStates _ (fun _ => 1) (fun _ => by decide)⟩

theorem does_directorySweepComplete :
    Does m .directorySweepComplete (m.frozen = false ∧ m.home.sweeping = true ∧ m.home.waitq = []) fun m' =>
      m'.home.sweeping = false ∧ m'.on R.mode_boot_sweep = true ∧
        ((List.range 4).all fun g => m'.get (R.mem_grp_stat_state g) == (if m.get (R.mem_grp_stat_lost g) = 7 then 2 else 3)) = true := by
  refine does_of_ans _ _ execDirectorySweepComplete.eq_def id ?_
  rintro ⟨hfrozen, hsweeping, hwaitq⟩
  dsimp only
  rw [if_neg (by simp [hfrozen, hsweeping])]
  simp only [Mach.sets_home, hwaitq, List.map_nil, List.eraseDups_nil, List.foldl_nil]
  refine ⟨trivial, ?_, ?_⟩
  · simp [Mach.on, List.range, List.range.loop, Mach.get_set]
  · rw [Mach.sets_cons]
    exact Mach.get_groupStates _ (fun g => if m.get (R.mem_grp_stat_lost g) = 7 then 2 else 3) (fun g => by split <;> decide)

/-! ### Boot seal, and the start of a held thread (R628, R629) -/

theorem does_bootSeal {h : Prop} {P : Mach → Prop} (hP : h → P m.bootSeal) : Does m .bootSeal (m.frozen = false ∧ m.boot.phase = 5 ∧ h) P := by
  refine does_of_ans _ _ execBootSeal.eq_def id ?_
  rintro ⟨hfrozen, hphase, hh⟩
  rw [hfrozen, hphase, if_neg (by decide)]
  exact hP hh

/-- A second seal is refused. -/
theorem Mach.bootSeal_sealed (hsealed : m.sealed = true) :
    m.bootSeal = m.sets [(R.mode_seal_result, 7), (R.mode_seal_done, 1), (R.mode_seal_go, 0)] := by
  have hcheck : m.sealCheck = 7 := by rw [Mach.sealCheck, if_pos hsealed]
  simp only [Mach.bootSeal, hcheck, hsealed, if_true, ne_eq, OfNat.ofNat_ne_one, not_false_eq_true]

theorem Mach.bootSeal_badRegions (hsealed : m.sealed = false) (hregions : m.rgnCheck.1 ≠ 1) :
    m.bootSeal = (m.sets [(R.mem_rgnst_result, m.rgnCheck.1), (R.mem_rgnst_bad, m.rgnCheck.2)]).sets
      [(R.mode_seal_result, 2), (R.mode_seal_done, 1), (R.mode_seal_go, 0)] := by
  have hcheck : m.sealCheck = 2 := by simp only [Mach.sealCheck, hsealed, Bool.false_eq_true, if_false, if_pos hregions]
  simp only [Mach.bootSeal, hcheck, hsealed, Bool.false_eq_true, if_false, if_true, ne_eq, OfNat.ofNat_ne_one, not_false_eq_true]

section
variable {thread addr : Nat}

theorem does_threadStart {h : Prop} {P : Mach → Prop} (hP : h → P (m.threadStart thread addr)) :
    Does m (.threadStart thread addr) (m.frozen = false ∧ h) P :=
  does_of_unlessFrozen _ _ (execThreadStart.eq_def thread addr) id hP

theorem Mach.threadStart_unsealed (hseal : m.get R.mode_seal_state ≠ 2) :
    m.threadStart thread addr =
      m.sets [(R.mode_tstart_thread, thread), (R.mode_tstart_addr, addr / 4), (R.mode_tstart_result, 3), (R.mode_tstart_done, 1),
        (R.mode_tstart_go, 0)] := by
  simp only [Mach.threadStart, if_pos hseal, ne_eq, OfNat.ofNat_ne_one, not_false_eq_true, if_true]

/-- A resumed core leaves every register outside its own and its state of parking. -/
theorem Mach.get_unpark (c : Nat) (f : Fld) (hweir : f.blk ≠ .weir) (hcore : f.blk ≠ .core) : (m.unpark c).get f = m.get f := by
  unfold Mach.unpark
  split
  · rfl
  · simp only [Mach.sets_cons, Mach.sets_nil]
    rw [Mach.get_set_other _ _ _ _ (.inl hcore), Mach.get_set_other _ _ _ _ (.inl hweir)]
    rfl

theorem does_threadStart_starts :
    Does m (.threadStart thread addr) (m.frozen = false ∧ thread < 96 ∧ addr < 2 ^ 52 ∧ addr % 4 = 0 ∧ m.get R.mode_seal_state = 2 ∧
        m.on (R.casc_thr_held thread) = true ∧ (m.th thread).run = Run.vacant ∧ m.inKind1 addr (addr + 3) = true) fun m' =>
      (m'.th thread).run = Run.physical ∧ (m'.th thread).cur.ia = BitVec.ofNat 64 addr ∧ (m'.th thread).cur.gr 1 = BitVec.ofNat 64 thread ∧
        (m'.th thread).com = (m'.th thread).cur ∧ m'.get R.mode_tstart_result = 1 ∧ m'.get R.mode_tstart_done = 1 := by
  refine does_threadStart ?_
  rintro ⟨hthread, -, -, hseal, hheld, hvacant, hplace⟩
  have hthere : ¬ (95 < thread ∨ (!m.on (R.casc_thr_held thread)) = true ∨ (m.th thread).run ≠ .vacant) := by
    simp [hheld, hvacant]
    omega
  simp only [Mach.threadStart, hseal, ne_eq, not_true_eq_false, if_false, hthere, hplace, Bool.not_true, Bool.false_eq_true, Mach.th_onTh_same]
  refine ⟨trivial, Arch.setG_ia _ _ _, Arch.gr_setG_same _ _ (by decide), trivial, ?_, ?_⟩
  · refine (Mach.get_congr _ _ _ rfl).trans ((Mach.get_unpark _ _ (by decide) (by decide)).trans ?_)
    simp [Mach.get_set]
  · refine (Mach.get_congr _ _ _ rfl).trans ((Mach.get_unpark _ _ (by decide) (by decide)).trans ?_)
    simp [Mach.get_set]

end

/-- Settles O51, command by command. -/
theorem bootSequence : Obligations.BootSequence := by
  unfold Obligations.BootSequence
  intro m
  exact ⟨fun _ _ _ _ => does_resetSequenceStart, fun _ _ _ _ => does_resetSequenceStart_again, does_pllLock, does_bootRomStart,
    does_bootAreaChecked_first, does_bootAreaChecked_second, does_directorySweep, does_directorySweepComplete,
    does_bootSeal Mach.bootSeal_sealed, does_bootSeal fun ⟨hsealed, hregions⟩ => Mach.bootSeal_badRegions hsealed hregions,
    fun _ _ => does_threadStart fun ⟨_, _, _, hseal⟩ => Mach.threadStart_unsealed hseal, fun _ _ => does_threadStart_starts⟩

end

end Sys2Proof.Machine
end

section
/-! Coupling requests (R518 to R522), and O40. -/

namespace Sys2Proof.Machine

open Sys2Proof.Safety

section
variable {m : Mach}

/-! ### Submission (R518, R519) -/

section
variable {part addr th : Nat}

theorem does_couplingSubmit {h : Prop} {P : Mach → Prop}
    (hP : h → P (m.cplSubmit part addr (if th < 96 then some th else none))) : Does m (.couplingSubmit part addr th) (m.frozen = false ∧ h) P :=
  does_of_unlessFrozen _ _ (execCouplingSubmit.eq_def part addr th) (fun hwf => left_of_and (left_of_and hwf)) hP

/-- The block of a submit store has been read. -/
theorem subRead_readable (hread : (subRead m part addr).2.2.isNone = true) :
    subRead m part addr = ((subRead m part addr).1, (subRead m part addr).2.1, none) := by
  rw [Option.isNone_iff_eq_none] at hread
  rw [← hread]

theorem Mach.cplSubmit_refused {who : Option Nat} {st : Nat} {m1 : Mach} {hdr : List Nat} (hread : subRead m part addr = (m1, hdr, none))
    (href : m1.cplRefusal part hdr = some st) :
    m.cplSubmit part addr who = (m1.count (R.cpl_q_stat_refused part)).cplWrite part (addr / 128 * 128) hdr st 0 0 := by
  simp only [Mach.cplSubmit, hread, href]

theorem Mach.cplSubmit_unreadable {who : Option Nat} (hread : (subRead m part addr).2.2.isSome = true) :
    m.cplSubmit part addr who = (subRead m part addr).1.cplFail part 0 := by
  rcases hd : subRead m part addr with ⟨n, hdr, _ | e⟩
  · rw [hd] at hread
    cases hread
  · simp only [Mach.cplSubmit, hd]

/-- A synchronous request from no thread is outstanding under the next identifier of its port. -/
theorem Mach.cplSubmit_accepted {m1 : Mach} {hdr : List Nat} {port n : Nat} (hread : subRead m part addr = (m1, hdr, none))
    (href : m1.cplRefusal part hdr = none) (hop : hdrF hdr 0 1 = 1) (hport : hdrF hdr 2 1 = port) (hn : n = tget m1.cpl.cnt port 0) :
    m.cplSubmit part addr none =
      ({ m1 with
        cpl := { m1.cpl with
          cnt := tset m1.cpl.cnt port ((n + 1) % 2 ^ 41)
          reqs := m1.cpl.reqs ++
            [(⟨port, m1.modNo * 2 ^ 46 + port * 2 ^ 41 + n, part, addr / 128 * 128, hdr, none⟩ : CplReq)] } } : Mach).cplStart
        (⟨port, m1.modNo * 2 ^ 46 + port * 2 ^ 41 + n, part, addr / 128 * 128, hdr, none⟩ : CplReq) := by
  subst hn hport
  simp only [Mach.cplSubmit, hread, href, hop]
  rfl

end

/-! ### Frames of the far side (R520 to R522) -/

section
variable {port : Nat} {f : XFrame}

/-- A frame that reaches a coupling port which is up. -/
theorem does_of_cplRow {c : Instr} {h : Prop} {P : Mach → Prop} (typ : Nat) (hexec : ∀ s, exec c s = cplRow port s fun m => m.cplFrame port typ f)
    (hwf : c.wf = true → decide (port < 18) = true) (hP : h → P (m.cplFrame port typ f)) :
    Does m c (m.frozen = false ∧ m.jlUp (32 + port) = true ∧ h) P := by
  refine does_of_ans _ _ hexec hwf ?_
  rintro ⟨hfrozen, hup, hh⟩
  rw [hfrozen, hup, if_neg (by decide)]
  exact hP hh

theorem does_sreq {h : Prop} {P : Mach → Prop} (hP : h → P (m.cplInbound port 1 f)) :
    Does m (.sreq port f) (m.frozen = false ∧ m.jlUp (32 + port) = true ∧ h) P := does_of_cplRow 0x41 (execSreq.eq_def port f) left_of_and hP
theorem does_areq {h : Prop} {P : Mach → Prop} (hP : h → P (m.cplInbound port 2 f)) :
    Does m (.areq port f) (m.frozen = false ∧ m.jlUp (32 + port) = true ∧ h) P := does_of_cplRow 0x43 (execAreq.eq_def port f) left_of_and hP
theorem does_srsp {h : Prop} {P : Mach → Prop} (hP : h → P (m.cplAnswer port 1 f)) :
    Does m (.srsp port f) (m.frozen = false ∧ m.jlUp (32 + port) = true ∧ h) P := does_of_cplRow 0x42 (execSrsp.eq_def port f) left_of_and hP
theorem does_arsp {h : Prop} {P : Mach → Prop} (hP : h → P (m.cplAnswer port 2 f)) :
    Does m (.arsp port f) (m.frozen = false ∧ m.jlUp (32 + port) = true ∧ h) P := does_of_cplRow 0x44 (execArsp.eq_def port f) left_of_and hP

/-- A write that is performed. -/
theorem whoWrite_ok {n : Mach} {who : AccWho} {a : Nat} {bs : List Nat} (h : (n.whoWrite who a bs).2.2.isNone = true) :
    n.whoWrite who a bs = ((n.whoWrite who a bs).1, (n.whoWrite who a bs).2.1, none) := by
  rw [Option.isNone_iff_eq_none] at h
  rw [← h]

/-- An inbound request for a channel that is enabled and not full is stored, and its source rings. -/
theorem Mach.cplInbound_stored {kind a : Nat} (hchan : f.addr < 64) (hon : m.on (R.cpl_rq_en f.addr) = true)
    (hroom : (m.get (R.cpl_rqi_prod f.addr) + 65536 - m.get (R.cpl_rqi_cons f.addr)) % 65536 < 2 ^ m.get (R.cpl_rq_lsize f.addr))
    (ha : a = m.get (R.cpl_rq_base f.addr) * 8192 + 8192 * (m.get (R.cpl_rqi_prod f.addr) % 2 ^ m.get (R.cpl_rq_lsize f.addr)))
    (hput : (cplPut m f.addr a (cplHead m port kind f)).2.2.isNone = true) (hstore : (cplStore m port kind a f).2.2.isNone = true) :
    m.cplInbound port kind f =
      ({ ((cplStore m port kind a f).1).set (R.cpl_rqi_prod f.addr) ((m.get (R.cpl_rqi_prod f.addr) + 1) % 65536) with
        cpl := { ((cplStore m port kind a f).1).cpl with
          inb := ((cplStore m port kind a f).1).cpl.inb ++ [(port, f.xid, kind)] } } : Mach).ring
        ((((cplStore m port kind a f).1).set (R.cpl_rqi_prod f.addr) ((m.get (R.cpl_rqi_prod f.addr) + 1) % 65536)).get
          (R.cpl_rqi_src f.addr)) := by
  subst ha
  have hopen : ¬ (64 ≤ f.addr ∨ (!m.on (R.cpl_rq_en f.addr)) = true) := by simp [hon, Nat.not_le_of_lt hchan]
  simp only [Mach.cplInbound, if_neg hopen, if_neg (Nat.ne_of_lt hroom)]
  rw [whoWrite_ok hput]
  dsimp only
  rw [whoWrite_ok hstore]
  rfl

theorem Mach.cplInbound_closed {kind : Nat} (hclosed : 64 ≤ f.addr ∨ m.on (R.cpl_rq_en f.addr) = false) :
    m.cplInbound port kind f = m.cplTurnAway port 0x46 f := by
  rw [Mach.cplInbound]
  exact if_pos (by simpa using hclosed)

theorem Mach.cplInbound_full {kind : Nat} (hchan : f.addr < 64) (hon : m.on (R.cpl_rq_en f.addr) = true)
    (hfull : (m.get (R.cpl_rqi_prod f.addr) + 65536 - m.get (R.cpl_rqi_cons f.addr)) % 65536 = 2 ^ m.get (R.cpl_rq_lsize f.addr)) :
    m.cplInbound port kind f = m.cplTurnAway port 0x45 f := by
  have hopen : ¬ (64 ≤ f.addr ∨ (!m.on (R.cpl_rq_en f.addr)) = true) := by simp [hon, Nat.not_le_of_lt hchan]
  simp only [Mach.cplInbound, if_neg hopen, if_pos hfull]

/-- A response is stored up to the response area, and completes its request. -/
theorem Mach.cplAnswer_stored {op : Nat} {r : CplReq} (hreq : m.cplReq port f.xid op = some r)
    (hstore : (m.whoWrite (m.cplWho r.part) (hdrF r.hdr 24 8) (f.data.take (hdrF r.hdr 20 4))).2.2.isNone = true) :
    m.cplAnswer port op f = (m.whoWrite (m.cplWho r.part) (hdrF r.hdr 24 8) (f.data.take (hdrF r.hdr 20 4))).1.cplEnd r
      (if hdrF r.hdr 20 4 < f.data.length then 1 else 0) f.data.length := by
  simp only [Mach.cplAnswer, hreq]
  generalize m.whoWrite (m.cplWho r.part) (hdrF r.hdr 24 8) (f.data.take (hdrF r.hdr 20 4)) = d at hstore ⊢
  obtain ⟨n, k, _ | e⟩ := d
  · rfl
  · simp at hstore

theorem Mach.cplAnswer_unknown {op : Nat} (hnone : m.cplReq port f.xid op = none) : m.cplAnswer port op f = m := by rw [Mach.cplAnswer, hnone]

/-- The outstanding request of an identifier on a port. -/
abbrev Mach.outstanding (m : Mach) (port xid : Nat) : Option CplReq :=
  m.cpl.reqs.find? fun (x : CplReq) => x.port == port && x.xid == xid && hdrF x.hdr 0 1 != 3

theorem Mach.cplNoAnswer_eq {xid status : Nat} {r : CplReq} (hreq : m.outstanding port xid = some r) :
    m.cplNoAnswer port xid status = (if status = 0x22 then m.cplError 0xD7 port (hdrF r.hdr 3 1) else m).cplEnd r status 0 := by
  rw [Mach.cplNoAnswer, show List.find? _ _ = some r from hreq]

theorem does_couplingRequestTimeout {xid : Nat} {r : CplReq} :
    Does m (.couplingRequestTimeout port xid) (m.frozen = false ∧ m.outstanding port xid = some r) fun m' =>
      m' = (m.cplError 0xD7 port (hdrF r.hdr 3 1)).cplEnd r 0x22 0 :=
  does_of_unlessFrozen _ _ (execCouplingRequestTimeout.eq_def port xid) left_of_and Mach.cplNoAnswer_eq

end
end

/-- Settles O40, command by command. -/
theorem couplingRequests : Obligations.CouplingRequests := by
  unfold Obligations.CouplingRequests
  intro m
  refine ⟨fun _ _ _ _ => does_couplingSubmit fun ⟨hread, href⟩ => Mach.cplSubmit_refused (subRead_readable hread) href,
    fun _ _ _ => does_couplingSubmit Mach.cplSubmit_unreadable, ?_,
    fun _ _ _ => does_sreq fun ⟨hchan, hon, hroom, ha, hput, hstore⟩ => Mach.cplInbound_stored hchan hon hroom ha hput hstore,
    fun _ _ _ => does_areq fun ⟨hchan, hon, hroom, ha, hput, hstore⟩ => Mach.cplInbound_stored hchan hon hroom ha hput hstore,
    fun _ _ => does_sreq Mach.cplInbound_closed, fun _ _ => does_areq fun ⟨hchan, hon, hfull⟩ => Mach.cplInbound_full hchan hon hfull,
    fun _ _ _ => does_srsp fun ⟨hreq, hstore⟩ => Mach.cplAnswer_stored hreq hstore,
    fun _ _ _ => does_arsp fun ⟨hreq, hstore⟩ => Mach.cplAnswer_stored hreq hstore, fun _ _ => does_srsp Mach.cplAnswer_unknown,
    fun _ f _ => does_of_cplRow 0x45 (execRbusy.eq_def _ f) left_of_and Mach.cplNoAnswer_eq,
    fun _ f _ => does_of_cplRow 0x46 (execRrej.eq_def _ f) left_of_and Mach.cplNoAnswer_eq, fun _ _ _ => does_couplingRequestTimeout⟩
  intro part addr th n
  refine does_couplingSubmit ?_
  rintro ⟨hread, href, hop, hth, hn⟩
  rw [if_neg (Nat.not_lt_of_le hth)]
  exact Mach.cplSubmit_accepted (subRead_readable hread) href hop rfl hn

end Sys2Proof.Machine
end

section
/-! Doorbell rings, coalescing and target entries (R529 to R538) and O42; Rills (R539 to R546, R653) and O43. -/

namespace Sys2Proof.Machine

open Sys2Proof.Safety

section
variable {m : Mach}

/-! ### Rings (R529 to R536) -/

section
variable {page off n val e : Nat}

theorem does_doorbellRing {h : Prop} {P : Mach → Prop} (hP : h → P (m.ringPage page off n val)) :
    Does m (.doorbellRing page off n val) (m.frozen = false ∧ h) P :=
  does_of_unlessFrozen _ _ (execDoorbellRing.eq_def page off n val) (fun hwf => left_of_and (left_of_and (left_of_and hwf))) hP

/-- Not 4 or 8 aligned bytes, or a value with bits above the source number. -/
theorem ringPage_malformed_iff :
    (!(n == 4 || n == 8) || off % n != 0 || val / 2 ^ 20 != 0) = true ↔ (n ≠ 4 ∧ n ≠ 8) ∨ off % n ≠ 0 ∨ 2 ^ 20 ≤ val := by
  simp [or_assoc]

theorem Mach.ringPage_malformed (h : (n ≠ 4 ∧ n ≠ 8) ∨ off % n ≠ 0 ∨ 2 ^ 20 ≤ val) :
    m.ringPage page off n val = m.dbellError 0xE0 page (val % 2 ^ 20) := by
  rw [Mach.ringPage, if_pos (ringPage_malformed_iff.2 h)]

theorem ringPage_wellFormed (hn : n = 4 ∨ n = 8) (hoff : off % n = 0) (hval : val < 2 ^ 20) :
    ¬ (!(n == 4 || n == 8) || off % n != 0 || val / 2 ^ 20 != 0) = true := by
  rw [ringPage_malformed_iff]
  omega

theorem Mach.ringPage_notAllowed (hn : n = 4 ∨ n = 8) (hoff : off % n = 0) (hval : val < 2 ^ 20)
    (hpage : m.on (R.dbell_pg_en page) = false ∨ val < m.get (R.dbell_pg_first page) ∨ m.get (R.dbell_pg_last page) < val) :
    m.ringPage page off n val = m.dbellError 0xE1 page val := by
  rw [Mach.ringPage, if_neg (ringPage_wellFormed hn hoff hval), if_pos (by simpa [or_assoc] using hpage)]

theorem Mach.ringPage_allowed (h : pageOk m page off n val) : m.ringPage page off n val = m.ring val page := by
  obtain ⟨hn, hoff, hval, hon, hfirst, hlast⟩ := h
  rw [Mach.ringPage, if_neg (ringPage_wellFormed hn hoff hval), if_neg (by simp [hon, hfirst, hlast])]

theorem Mach.ring_noTable (htable : (m.count R.dbell_cnt_rings).get R.dbell_ttab_res ≠ 1) :
    m.ring val page = (m.count R.dbell_cnt_rings).dbellError 0xE2 page val := by
  simp only [Mach.ring, if_pos htable]

section
variable (htable : (m.count R.dbell_cnt_rings).get R.dbell_ttab_res = 1) (hentry : (m.count R.dbell_cnt_rings).targetEntry val = some e)
include htable hentry

theorem Mach.ring_invalid (hinvalid : (m.count R.dbell_cnt_rings).targetOk e = false) :
    m.ring val page = (m.count R.dbell_cnt_rings).dbellError 0xE2 page val := by
  simp only [Mach.ring, if_neg (not_not_intro htable), hentry, hinvalid, Bool.not_false, if_true]

theorem Mach.ring_valid (hvalid : (m.count R.dbell_cnt_rings).targetOk e = true)
    (hcounts : ((m.count R.dbell_cnt_rings).setSummary page val e).db.holding = false) :
    m.ring val page = if (rung m page val e).grpFull (val / 256) then (rung m page val e).fireGroup (val / 256) else rung m page val e := by
  simp only [Mach.ring, if_neg (not_not_intro htable), hentry, hvalid, Bool.not_true, Bool.false_eq_true, if_false, hcounts]

end

/-- A ring opens its group and is counted in it. -/
theorem Mach.grp_addRing (src : Nat) (t : Bool × Nat) :
    ((m.addRing src t).grp (src / 256)).isOpen = true ∧ ((m.addRing src t).grp (src / 256)).count = (m.grp (src / 256)).count + 1 := by
  have hgrp : ∀ x : GrpSt, (m.setGrp (src / 256) x).grp (src / 256) = x := fun x => tget_tset_same _ _ _ _
  rw [Mach.addRing, hgrp]
  exact ⟨rfl, rfl⟩

theorem does_doorbellRing_noTable :
    Does m (.doorbellRing page off n val) (m.frozen = false ∧ pageOk m page off n val ∧ (m.count R.dbell_cnt_rings).get R.dbell_ttab_res ≠ 1)
      fun m' => m' = (m.count R.dbell_cnt_rings).dbellError 0xE2 page val :=
  does_doorbellRing fun ⟨hpage, htable⟩ => by rw [Mach.ringPage_allowed hpage, Mach.ring_noTable htable]

theorem does_doorbellRing_invalid :
    Does m (.doorbellRing page off n val) (m.frozen = false ∧ pageOk m page off n val ∧ (m.count R.dbell_cnt_rings).get R.dbell_ttab_res = 1 ∧
        (m.count R.dbell_cnt_rings).targetEntry val = some e ∧ (m.count R.dbell_cnt_rings).targetOk e = false) fun m' =>
      m' = (m.count R.dbell_cnt_rings).dbellError 0xE2 page val :=
  does_doorbellRing fun ⟨hpage, htable, hentry, hinvalid⟩ => by rw [Mach.ringPage_allowed hpage, Mach.ring_invalid htable hentry hinvalid]

theorem does_doorbellRing_counted :
    Does m (.doorbellRing page off n val) (m.frozen = false ∧ pageOk m page off n val ∧ (m.count R.dbell_cnt_rings).get R.dbell_ttab_res = 1 ∧
        (m.count R.dbell_cnt_rings).targetEntry val = some e ∧ (m.count R.dbell_cnt_rings).targetOk e = true ∧
        ((m.count R.dbell_cnt_rings).setSummary page val e).db.holding = false ∧ (rung m page val e).grpFull (val / 256) = false) fun m' =>
      m' = rung m page val e ∧ (m'.grp (val / 256)).isOpen = true ∧
        (m'.grp (val / 256)).count = (((m.count R.dbell_cnt_rings).setSummary page val e).grp (val / 256)).count + 1 := by
  refine does_doorbellRing ?_
  rintro ⟨hpage, htable, hentry, hvalid, hcounts, hroom⟩
  rw [Mach.ringPage_allowed hpage, Mach.ring_valid htable hentry hvalid hcounts, hroom, if_neg Bool.false_ne_true]
  exact ⟨rfl, Mach.grp_addRing _ _⟩

theorem does_doorbellRing_fires :
    Does m (.doorbellRing page off n val) (m.frozen = false ∧ pageOk m page off n val ∧ (m.count R.dbell_cnt_rings).get R.dbell_ttab_res = 1 ∧
        (m.count R.dbell_cnt_rings).targetEntry val = some e ∧ (m.count R.dbell_cnt_rings).targetOk e = true ∧
        ((m.count R.dbell_cnt_rings).setSummary page val e).db.holding = false ∧ (rung m page val e).grpFull (val / 256) = true) fun m' =>
      m' = (rung m page val e).fireGroup (val / 256) := by
  refine does_doorbellRing ?_
  rintro ⟨hpage, htable, hentry, hvalid, hcounts, hfull⟩
  rw [Mach.ringPage_allowed hpage, Mach.ring_valid htable hentry hvalid hcounts, hfull, if_pos rfl]

end

/-! ### Coalescing limits (R536 to R538) -/

section
variable {g : Nat}

theorem does_groupTimeLimit {t : Nat} :
    Does m (.groupTimeLimit g) (m.frozen = false ∧ (m.grp g).isOpen = true ∧ (m.grp g).targets = [(true, t)]) fun m' =>
      m' = ((m.setGrp g GrpSt.init).count R.dbell_cnt_fires).onTh t fun x => { x with pendPhys := true } := by
  refine does_of_ans _ _ (execGroupTimeLimit.eq_def g) id ?_
  rintro ⟨hfrozen, hopen, htargets⟩
  simp only [hfrozen, hopen, Bool.not_true, Bool.or_self, Bool.false_eq_true, if_false, Mach.fireGroup, htargets, List.foldl_cons, List.foldl_nil,
    Mach.pendTarget, if_true]

theorem does_groupTimeLimit_closed : Does m (.groupTimeLimit g) (m.frozen = false ∧ (m.grp g).isOpen = false) fun m' => m' = m :=
  does_of_ans _ _ (execGroupTimeLimit.eq_def g) id fun ⟨_, hclosed⟩ => if_pos (by simp [hclosed])

theorem clampTo_eq {lo hi v : Nat} (h : lo ≤ hi) : clampTo lo hi v = max lo (min hi v) := by
  unfold clampTo
  split
  · omega
  · split <;> omega

/-- The machine with a group's limits as written. -/
abbrev limited (m : Mach) (g val : Nat) : Mach :=
  m.sets [(R.dbell_grp_tlim g, max 1 (min 2000 (bits val 26 16))), (R.dbell_grp_climit g, max 1 (bits val 7 0))]

theorem does_groupLimitWrite {val : Nat} {h : Prop} {P : Mach → Prop} (hP : h → P ((limited m g val).grpWritten g)) :
    Does m (.groupLimitWrite g val) (m.frozen = false ∧ h) P := by
  refine does_of_unlessFrozen _ _ (execGroupLimitWrite.eq_def g val) left_of_and ?_
  rw [clampTo_eq (by decide)]
  exact hP

/-- Writing the limits of a group changes no group. -/
theorem Mach.grp_limited (val : Nat) : (limited m g val).grp g = m.grp g := rfl

theorem does_groupLimitWrite_closed {val : Nat} :
    Does m (.groupLimitWrite g val) (m.frozen = false ∧ (m.grp g).isOpen = false) fun m' => m' = limited m g val :=
  does_groupLimitWrite fun hclosed => by rw [Mach.grpWritten, Mach.grp_limited, hclosed, Bool.false_and, if_neg Bool.false_ne_true]

theorem does_groupLimitWrite_fires {val : Nat} :
    Does m (.groupLimitWrite g val) (m.frozen = false ∧ (m.grp g).isOpen = true ∧ (limited m g val).grpFull g = true) fun m' =>
      m' = (limited m g val).fireGroup g :=
  does_groupLimitWrite fun ⟨hopen, hfull⟩ => by rw [Mach.grpWritten, Mach.grp_limited, hopen, hfull, Bool.true_or, Bool.and_self, if_pos rfl]

end

/-! ### Target entries (R533) -/

section
variable {src : Nat}

theorem does_targetWrite {h : Prop} {P : Mach → Prop} (hP : (tgtTaken m 1 src).frozen = false → h → P ((tgtTaken m 1 src).tcmd 1 src)) :
    Does m (.targetWrite src) (m.frozen = false ∧ h) P :=
  fun hwf ⟨hfrozen, hh⟩ => does_of_unlessFrozen (h := h) true _ (execTargetWrite.eq_def src) (fun _ => rfl) (fun hh => hP hfrozen hh) hwf ⟨hfrozen, hh⟩

theorem does_targetRead {h : Prop} {P : Mach → Prop} (hP : (tgtTaken m 2 src).frozen = false → h → P ((tgtTaken m 2 src).tcmd 2 src)) :
    Does m (.targetRead src) (m.frozen = false ∧ h) P :=
  fun hwf ⟨hfrozen, hh⟩ => does_of_unlessFrozen (h := h) true _ (execTargetRead.eq_def src) (fun _ => rfl) (fun hh => hP hfrozen hh) hwf ⟨hfrozen, hh⟩

theorem does_targetWrite_performed :
    Does m (.targetWrite src) (m.frozen = false ∧ (tgtTaken m 1 src).get R.dbell_ttab_res = 1 ∧
        badTarget ((tgtTaken m 1 src).get R.dbell_tdata_value) = false ∧ ((tgtTaken m 1 src).grp (src / 256)).isOpen = false ∧
        (tgtTaken m 1 src).devCheck .hub ((tgtTaken m 1 src).targetAddr src) = none) fun m' =>
      m' = ((tgtTaken m 1 src).devWrite ((tgtTaken m 1 src).targetAddr src)
        (toBytes 8 ((tgtTaken m 1 src).get R.dbell_tdata_value))).tcmdEnd 1 := by
  refine does_targetWrite fun hfrozen ⟨htable, hgood, hclosed, hcheck⟩ => ?_
  have hop : ¬ ((1 : Nat) ≠ 1 ∧ (1 : Nat) ≠ 2) := by decide
  simp only [Mach.tcmd, hfrozen, Bool.false_eq_true, if_false, if_neg hop, if_neg (not_not_intro htable), OfNat.one_ne_ofNat, hgood, hclosed, hcheck,
    Option.isSome_none]

theorem does_targetWrite_bad :
    Does m (.targetWrite src) (m.frozen = false ∧ (tgtTaken m 1 src).get R.dbell_ttab_res = 1 ∧
        badTarget ((tgtTaken m 1 src).get R.dbell_tdata_value) = true) fun m' => m' = (tgtTaken m 1 src).tcmdEnd 2 := by
  refine does_targetWrite fun hfrozen ⟨htable, hbad⟩ => ?_
  have hop : ¬ ((1 : Nat) ≠ 1 ∧ (1 : Nat) ≠ 2) := by decide
  simp only [Mach.tcmd, hfrozen, Bool.false_eq_true, if_false, if_neg hop, if_neg (not_not_intro htable), OfNat.one_ne_ofNat, hbad, if_true]

theorem does_targetRead_shown {e : Nat} :
    Does m (.targetRead src) (m.frozen = false ∧ (tgtTaken m 2 src).get R.dbell_ttab_res = 1 ∧ (tgtTaken m 2 src).targetEntry src = some e) fun m' =>
      m' = ((tgtTaken m 2 src).set R.dbell_tdata_value e).tcmdEnd 1 := by
  refine does_targetRead fun hfrozen ⟨htable, hentry⟩ => ?_
  have hop : ¬ ((2 : Nat) ≠ 1 ∧ (2 : Nat) ≠ 2) := by decide
  simp only [Mach.tcmd, hfrozen, Bool.false_eq_true, if_false, if_neg hop, if_neg (not_not_intro htable), if_true, hentry]

theorem does_targetRead_noTable :
    Does m (.targetRead src) (m.frozen = false ∧ (tgtTaken m 2 src).get R.dbell_ttab_res ≠ 1) fun m' => m' = (tgtTaken m 2 src).tcmdEnd 4 := by
  refine does_targetRead fun hfrozen htable => ?_
  have hop : ¬ ((2 : Nat) ≠ 1 ∧ (2 : Nat) ≠ 2) := by decide
  simp only [Mach.tcmd, hfrozen, Bool.false_eq_true, if_false, if_neg hop, if_pos htable]

end

/-- Settles O42, command by command. -/
theorem doorbells : Obligations.Doorbells := by
  unfold Obligations.Doorbells
  intro m
  exact ⟨fun _ _ _ _ => does_doorbellRing Mach.ringPage_malformed,
    fun _ _ _ _ => does_doorbellRing fun ⟨hn, hoff, hval, hpage⟩ => Mach.ringPage_notAllowed hn hoff hval hpage,
    fun _ _ _ _ => does_doorbellRing_noTable, fun _ _ _ _ _ => does_doorbellRing_invalid, fun _ _ _ _ _ => does_doorbellRing_counted,
    fun _ _ _ _ _ => does_doorbellRing_fires, fun _ _ => does_groupTimeLimit, fun _ => does_groupTimeLimit_closed,
    fun _ _ => does_groupLimitWrite_closed, fun _ _ => does_groupLimitWrite_fires, fun _ => does_targetWrite_performed,
    fun _ => does_targetWrite_bad, fun _ _ => does_targetRead_shown, fun _ => does_targetRead_noTable⟩

/-! ### A write of a Rill's base (R539, R546) -/

section
variable {r val : Nat}

/-- The base, the length and the enable bit as written. -/
abbrev based (m : Mach) (r val en : Nat) : Mach :=
  m.sets [(R.rill_r_base_base r, bits val 51 12), (R.rill_r_base_lsize r, max 6 (min 16 (bits val 4 0))), (R.rill_r_base_en r, en)]

theorem bits_single (x i : Nat) : bits x i i = b2n (bit x i) := by
  rw [bits, bit, b2n, Nat.testBit_eq_decide_div_mod_eq, Nat.shiftRight_eq_div_pow, Nat.add_sub_cancel_left, pow_one]
  by_cases h : x / 2 ^ i % 2 = 1
  · simp [h]
  · simp [Nat.mod_two_ne_one.1 h]

/-- A write that is not ignored. -/
theorem Mach.rillEnable_written (h : m.on (R.rill_r_base_en r) = false ∨ bit val 63 = false) :
    m.rillEnable r val = if m.on (R.rill_r_base_en r) then ((based m r val (b2n (bit val 63))).discardRill r).rillFresh r
      else if bit val 63 then ((based m r val (b2n (bit val 63))).rillFresh r).set (R.rill_r_ring_prod r) 0
      else based m r val (b2n (bit val 63)) := by
  have hwritten : ¬ (m.on (R.rill_r_base_en r) && bit val 63) = true := by
    obtain h | h := h <;> simp [h]
  simp only [Mach.rillEnable, if_neg hwritten, clampTo_eq (by decide : 6 ≤ 16), bits_single]

theorem does_rillEnable {h : Prop} {P : Mach → Prop} (hP : h → P (m.rillEnable r val)) :
    Does m (.rillEnable r val) (m.frozen = false ∧ h) P :=
  does_of_unlessFrozen _ _ (execRillEnable.eq_def r val) left_of_and hP

theorem does_rillEnable_enables :
    Does m (.rillEnable r val) (m.frozen = false ∧ m.on (R.rill_r_base_en r) = false ∧ bit val 63 = true) fun m' =>
      m' = ((based m r val 1).rillFresh r).set (R.rill_r_ring_prod r) 0 ∧ m'.get (R.rill_r_ring_prod r) = 0 := by
  refine does_rillEnable ?_
  rintro ⟨hoff, hen⟩
  rw [Mach.rillEnable_written (.inl hoff), hoff, hen, if_neg Bool.false_ne_true, if_pos rfl]
  exact ⟨rfl, Mach.get_set_same _ _ _ (by simp) (by simp)⟩

theorem does_rillEnable_sets :
    Does m (.rillEnable r val) (m.frozen = false ∧ m.on (R.rill_r_base_en r) = false ∧ bit val 63 = false) fun m' => m' = based m r val 0 := by
  refine does_rillEnable ?_
  rintro ⟨hoff, hen⟩
  rw [Mach.rillEnable_written (.inl hoff), hoff, hen, if_neg Bool.false_ne_true, if_neg Bool.false_ne_true]
  rfl

theorem does_rillEnable_ignored :
    Does m (.rillEnable r val) (m.frozen = false ∧ m.on (R.rill_r_base_en r) = true ∧ bit val 63 = true) fun m' => m' = m :=
  does_rillEnable fun ⟨hon, hen⟩ => by rw [Mach.rillEnable, hon, hen]; rfl

theorem does_rillEnable_disables :
    Does m (.rillEnable r val) (m.frozen = false ∧ m.on (R.rill_r_base_en r) = true ∧ bit val 63 = false) fun m' =>
      (m'.rill.q.all fun (x : Nat × List RillRec) => x.2.all fun y => y.rill != r) = true ∧ m'.get (R.rill_r_base_en r) = 0 ∧
        m'.get (R.rill_r_stat_full r) = 0 := by
  refine does_rillEnable ?_
  rintro ⟨hon, hen⟩
  rw [Mach.rillEnable_written (.inr hen), hon, hen, if_pos rfl]
  refine ⟨?_, ?_, Mach.get_set_same _ _ _ (by simp) (by simp)⟩
  · simp [Mach.rillFresh, Mach.discardRill]
  · rw [Mach.rillFresh, Mach.get_set_other _ _ _ _ (.inr (by simp))]
    exact (Mach.get_congr _ (based m r val 0) _ rfl).trans (Mach.get_set_same _ (R.rill_r_base_en r) _ (by simp) (by simp))

end

/-! ### Posts, and the writer (R542, R544, R545) -/

theorem does_rillPost {th val : Nat} :
    Does m (.rillPost th val) (m.frozen = false ∧ (tget m.rill.q (th / 24) []).length < 64) fun m' =>
      m' = m.stage (th / 24) ⟨bits val 11 0, 0x08, m.tod, [(0x10, 1, th), (0x14, 4, bits val 63 32)], 1000 + th, true, false⟩ :=
  does_of_unlessFrozen _ _ (execRillPost.eq_def th val) left_of_and fun hroom => by rw [Mach.rillPost, if_pos hroom, Option.getD_some]

theorem does_rillPost_waits {th val : Nat} :
    Does m (.rillPost th val) (m.frozen = false ∧ 64 ≤ (tget m.rill.q (th / 24) []).length) fun m' => m' = m :=
  does_of_unlessFrozen _ _ (execRillPost.eq_def th val) left_of_and fun hfull => by
    rw [Mach.rillPost, if_neg (Nat.not_lt_of_le hfull), Option.getD_none]

/-- A full hub queue admits none of the records kept. -/
theorem Mach.admitKept_full (n : Nat) (hfull : 64 ≤ (tget m.rill.q 4 []).length) : m.admitKept n = m := by
  cases n with
  | zero => rfl
  | succ n => rw [Mach.admitKept, if_pos hfull]

theorem does_rillWriterSlot {q : Nat} {x : RillRec} {rest : List RillRec} :
    Does m .rillWriterSlot (m.frozen = false ∧ 64 ≤ (tget m.rill.q 4 []).length ∧
        (m.rill.q.flatMap fun (y : Nat × List RillRec) => y.2.map (·.rill)).eraseDups = [x.rill] ∧
        (((List.range 5).map fun i => (m.rill.nextQ + i) % 5).findSome? fun k =>
          (takeFirst (m.lookCons x.rill).mayWrite (tget (m.lookCons x.rill).rill.q k [])).map fun y => (k, y)) = some (q, x, rest) ∧
        (m.lookCons x.rill).rill.nextQ = m.rill.nextQ) fun m' =>
      m' = ({ m.lookCons x.rill with
        rill := { (m.lookCons x.rill).rill with q := tset (m.lookCons x.rill).rill.q q rest, nextQ := (q + 1) % 5 } } : Mach).writeRecord x := by
  refine does_of_unlessFrozen true _ execRillWriterSlot.eq_def (fun _ => rfl) ?_
  rintro ⟨hfull, hrills, hpick, hnext⟩
  rw [← hnext] at hpick
  simp only [Mach.rillSlot, Mach.admitKept_full 512 hfull, hrills, List.foldl_cons, List.foldl_nil, hpick]

theorem does_rillWriterSlot_idle : Does m .rillWriterSlot (m.frozen = false ∧ m.rill.q = [] ∧ m.rill.kept = []) fun m' => m' = m := by
  refine does_of_unlessFrozen true _ execRillWriterSlot.eq_def (fun _ => rfl) ?_
  rintro ⟨hq, hkept⟩
  have hkeep : m.admitKept 512 = m := by simp [Mach.admitKept, hq, hkept, tget, tfind]
  have hpick : ∀ l : List Nat, (l.findSome? fun q => (takeFirst m.mayWrite (tget ([] : Tab (List RillRec)) q [])).map fun x => (q, x)) = none :=
    fun l => List.findSome?_eq_none_iff.2 fun _ _ => rfl
  simp only [Mach.rillSlot, hkeep, hq, List.flatMap_nil, List.eraseDups_nil, List.foldl_nil, hpick]

/-! ### The consumer word (R541) -/

section
variable {r a : Nat}

theorem does_consumerWordRead {h : Prop} {P : Mach → Prop} (hP : h → P (m.readCons r)) :
    Does m (.consumerWordRead r) (m.frozen = false ∧ m.on (R.rill_r_base_en r) = true ∧ h) P := by
  refine does_of_ans _ _ (execConsumerWordRead.eq_def r) id ?_
  rintro ⟨hfrozen, hon, hh⟩
  rw [hfrozen, hon, if_neg (by decide)]
  exact hP hh

theorem does_consumerWordRead_shown :
    Does m (.consumerWordRead r) (m.frozen = false ∧ m.on (R.rill_r_base_en r) = true ∧ a = m.get (R.rill_r_ci_addr r) * 8 ∧
        m.devCheck .hub a = none ∧ m.devPoison a 8 = false) fun m' => m' = m.rillLevel r (ofBytes (m.devRead a 8) % 2 ^ 32) := by
  refine does_consumerWordRead ?_
  rintro ⟨rfl, hcheck, hclean⟩
  simp only [Mach.readCons, hcheck, hclean, Option.isSome_none, Bool.or_self, Bool.false_eq_true, if_false]

/-- A Rill code is shown in `rill.err`, beside every Rill's own registers. -/
theorem Mach.rillError_shows (code : Nat) (hcode : code < 256) :
    (m.rillError code r).get R.rill_err_code = code ∧ (m.rillError code r).get R.rill_err_rill = r % 4096 ∧
      (m.rillError code r).get (R.rill_r_stat_full r) = m.get (R.rill_r_stat_full r) := by
  have hregs : ∀ f : Fld, (m.rillError code r).get f =
      (m.sets [(R.rill_err_rill, r), (R.rill_err_new, 1), (R.rill_err_code, code)]).get f := fun f => Mach.get_congr _ _ _ rfl
  simp only [hregs, Mach.sets_cons, Mach.sets_nil]
  refine ⟨?_, ?_, ?_⟩
  · simp [Mach.get_set, Nat.mod_eq_of_lt hcode]
  · simp [Mach.get_set]
  · have hbeside : ∀ (n : Mach) (hi lo v : Nat), (n.set ⟨.rill, 0x200008, hi, lo⟩ v).get (R.rill_r_stat_full r) = n.get (R.rill_r_stat_full r) :=
      fun n hi lo v => n.get_set_other _ _ _ (.inr (by simp only [ne_eq]; omega))
    simp only [hbeside]

theorem does_consumerWordRead_unreadable :
    Does m (.consumerWordRead r) (m.frozen = false ∧ m.on (R.rill_r_base_en r) = true ∧ a = m.get (R.rill_r_ci_addr r) * 8 ∧
        (m.devCheck .hub a).isSome = true) fun m' =>
      m'.get (R.rill_r_stat_full r) = 1 ∧ m'.get R.rill_err_code = 0xEC ∧ m'.get R.rill_err_rill = r % 4096 := by
  refine does_consumerWordRead ?_
  rintro ⟨rfl, hcheck⟩
  rw [Mach.readCons, hcheck, Bool.true_or, if_pos rfl]
  obtain ⟨hcode, hrill, hfull⟩ := Mach.rillError_shows (m := Mach.set _ _ _) (r := r) 0xEC (by decide)
  exact ⟨hfull.trans (Mach.get_set_same _ _ _ (by simp) (by simp)), hcode, hrill⟩

end

/-- Settles O43, command by command. -/
theorem rills : Obligations.Rills := by
  unfold Obligations.Rills
  intro m
  exact ⟨fun _ _ => does_rillEnable_enables, fun _ _ => does_rillEnable_sets, fun _ _ => does_rillEnable_ignored,
    fun _ _ => does_rillEnable_disables, fun _ _ => does_rillPost, fun _ _ => does_rillPost_waits, fun _ _ _ => does_rillWriterSlot,
    does_rillWriterSlot_idle, fun _ _ => does_consumerWordRead_shown, fun _ _ => does_consumerWordRead_unreadable⟩

end

end Sys2Proof.Machine
end

section
/-! Virtual processor commands, selection, slices, timers and stalls (R551 to R560), and O44. -/

namespace Sys2Proof.Machine

open Sys2Proof.Safety

section
variable {m : Mach} {vp : Nat}

/-! ### The state shown of a virtual processor -/

theorem Mach.vpSt_setVp (st reason : Nat) : (m.setVp vp st reason).vpSt vp = st % 16 := by
  unfold Mach.setVp Mach.vpSt
  simp [Mach.get_set]

/-- The end of a command is shown in the command register alone. -/
theorem Mach.vpSt_vcmdDone (result : Nat) : (m.vcmdDone result).vpSt vp = m.vpSt vp := by
  unfold Mach.vcmdDone Mach.vpSt
  have hbeside : ∀ (n : Mach) (hi lo v : Nat), (n.set ⟨.casc, 0x300010, hi, lo⟩ v).get (R.casc_vp_st_state vp) = n.get (R.casc_vp_st_state vp) :=
    fun n hi lo v => n.get_set_other _ _ _ (.inr (by simp only [ne_eq]; omega))
  simp only [Mach.sets_cons, Mach.sets_nil, hbeside]

theorem Mach.get_result_vcmdDone {result : Nat} (h : result < 16) : (m.vcmdDone result).get R.casc_vcmd_result = result := by
  simp [Mach.vcmdDone, Mach.get_set, Nat.mod_eq_of_lt h]

theorem Mach.vpX_setVp (v st reason : Nat) : (m.setVp v st reason).vpX vp = m.vpX vp := rfl

/-! ### Commands (R551) -/

section
variable {op : Nat}

/-- A command of a virtual processor is taken. -/
theorem does_vcmd {c : Instr} {h : Prop} {P : Mach → Prop} (hexec : ∀ s, exec c s = vcmdWrite op vp s)
    (hwf : c.wf = true → decide (vp < 1024) = true) (hP : (vcTaken m op vp).frozen = false → h → P ((vcTaken m op vp).vcmd op vp)) :
    Does m c (m.frozen = false ∧ h) P :=
  fun hc ⟨hfrozen, hh⟩ => does_of_unlessFrozen (h := h) _ (fun n => (vcTaken n op vp).vcmd op vp) hexec hwf (fun hh => hP hfrozen hh) hc ⟨hfrozen, hh⟩

end

theorem does_vpDefine :
    Does m (.vpDefine vp) (m.frozen = false ∧ (vcTaken m 1 vp).on R.casc_vcmd_go = false ∧ (vcTaken m 1 vp).vpSt vp = 0 ∧
        (vcTaken m 1 vp).rgnKind ((vcTaken m 1 vp).frameAddr vp) = 0) fun m' =>
      m' = ((vcTaken m 1 vp).setVp vp 1 0).vcmdDone 1 ∧ m'.vpSt vp = 1 ∧ m'.get R.casc_vcmd_result = 1 := by
  refine does_vcmd (execVpDefine.eq_def vp) id fun hfrozen ⟨hgo, hst, hkind⟩ => ?_
  have hcmd : (vcTaken m 1 vp).vcmd 1 vp = ((vcTaken m 1 vp).setVp vp 1 0).vcmdDone 1 := by
    simp only [Mach.vcmd, hfrozen, hgo, hst, hkind, Bool.false_eq_true, if_false, ne_eq, not_true_eq_false]
  rw [hcmd]
  exact ⟨rfl, (Mach.vpSt_vcmdDone _).trans (Mach.vpSt_setVp _ _), Mach.get_result_vcmdDone (by decide)⟩

theorem does_vpDefine_unfinished :
    Does m (.vpDefine vp) (m.frozen = false ∧ (vcTaken m 1 vp).on R.casc_vcmd_go = true) fun m' =>
      m' = (vcTaken m 1 vp).sets [(R.casc_vcmd_result, 3), (R.casc_vcmd_done, 1)] :=
  does_vcmd (execVpDefine.eq_def vp) id fun hfrozen hgo => by
    simp only [Mach.vcmd, hfrozen, hgo, Bool.false_eq_true, if_false, if_true]

theorem does_vpReady :
    Does m (.vpReady vp) (m.frozen = false ∧ (vcTaken m 2 vp).on R.casc_vcmd_go = false ∧
        ((vcTaken m 2 vp).vpSt vp = 1 ∨ (vcTaken m 2 vp).vpSt vp = 5)) fun m' =>
      m' = ((vcTaken m 2 vp).becomeReady vp).vcmdDone 1 ∧ m'.vpSt vp = 2 := by
  refine does_vcmd (execVpReady.eq_def vp) id fun hfrozen ⟨hgo, hst⟩ => ?_
  have hcmd : (vcTaken m 2 vp).vcmd 2 vp = ((vcTaken m 2 vp).becomeReady vp).vcmdDone 1 := by
    simp only [Mach.vcmd, hfrozen, hgo, Bool.false_eq_true, if_false, if_pos hst]
  rw [hcmd]
  exact ⟨rfl, (Mach.vpSt_vcmdDone _).trans (Mach.vpSt_setVp _ _)⟩

theorem does_vpReady_refused :
    Does m (.vpReady vp) (m.frozen = false ∧ (vcTaken m 2 vp).on R.casc_vcmd_go = false ∧ (vcTaken m 2 vp).vpSt vp = 0) fun m' =>
      m' = (vcTaken m 2 vp).vcmdDone 2 :=
  does_vcmd (execVpReady.eq_def vp) id fun hfrozen ⟨hgo, hst⟩ => by
    have hno : ¬ ((vcTaken m 2 vp).vpSt vp = 1 ∨ (vcTaken m 2 vp).vpSt vp = 5) := by omega
    simp only [Mach.vcmd, hfrozen, hgo, Bool.false_eq_true, if_false, if_neg hno]

theorem does_vpStop_ready :
    Does m (.vpStop vp) (m.frozen = false ∧ (vcTaken m 3 vp).on R.casc_vcmd_go = false ∧ (vcTaken m 3 vp).vpSt vp = 2) fun m' =>
      m' = ((vcTaken m 3 vp).setVp vp 1 0).vcmdDone 1 :=
  does_vcmd (execVpStop.eq_def vp) id fun hfrozen ⟨hgo, hst⟩ => by
    simp only [Mach.vcmd, hfrozen, hgo, Bool.false_eq_true, if_false, if_pos hst]

theorem does_vpStop_running :
    Does m (.vpStop vp) (m.frozen = false ∧ (vcTaken m 3 vp).on R.casc_vcmd_go = false ∧ (vcTaken m 3 vp).vpSt vp = 3 ∧
        ((vcTaken m 3 vp).vpThread vp).isSome = true) fun m' => m' = ((vcTaken m 3 vp).beginLeave vp 1 0).set R.casc_vcmd_go 1 :=
  does_vcmd (execVpStop.eq_def vp) id fun hfrozen ⟨hgo, hst, hplaced⟩ => by
    have hready : ¬ (vcTaken m 3 vp).vpSt vp = 2 := by omega
    simp only [Mach.vcmd, hfrozen, hgo, Bool.false_eq_true, if_false, if_neg hready, if_pos (Or.inl hst : _ ∨ (vcTaken m 3 vp).vpSt vp = 4), hplaced,
      if_true]

theorem does_vpUndefine :
    Does m (.vpUndefine vp) (m.frozen = false ∧ (vcTaken m 4 vp).on R.casc_vcmd_go = false ∧
        ((vcTaken m 4 vp).vpSt vp = 1 ∨ (vcTaken m 4 vp).vpSt vp = 5)) fun m' =>
      m' = ((((vcTaken m 4 vp).onVpX vp fun _ => VpX.init).sets [(R.casc_vp_st_pend vp, 0), (R.casc_vp_tmr_tod vp, 0)]).setVp vp 0 0).vcmdDone 1 ∧
        m'.vpSt vp = 0 := by
  refine does_vcmd (execVpUndefine.eq_def vp) id fun hfrozen ⟨hgo, hst⟩ => ?_
  have hcmd : (vcTaken m 4 vp).vcmd 4 vp =
      ((((vcTaken m 4 vp).onVpX vp fun _ => VpX.init).sets [(R.casc_vp_st_pend vp, 0), (R.casc_vp_tmr_tod vp, 0)]).setVp vp 0 0).vcmdDone 1 := by
    simp only [Mach.vcmd, hfrozen, hgo, Bool.false_eq_true, if_false, if_pos hst]
  rw [hcmd]
  exact ⟨rfl, (Mach.vpSt_vcmdDone _).trans (Mach.vpSt_setVp _ _)⟩

/-! ### Selection, and the end of a slice (R554, R555) -/

theorem Mach.select_of_no_candidate (hnone : m.candidate = none) : m.select = m := by
  unfold Mach.select
  rw [hnone]

theorem Mach.select_places {v th : Nat} (hbest : m.candidate = some v) (hthread : pick m.betterTh ((List.range 96).filter m.mayPlace) = some th) :
    m.select = (m.unpark (th / 2)).place v th := by
  unfold Mach.select
  rw [hbest]
  dsimp only
  rw [hthread]

theorem does_cascadeSelection {h : Prop} {P : Mach → Prop} (hP : h → P m.select) : Does m .cascadeSelection (m.frozen = false ∧ h) P :=
  does_of_unlessFrozen true (·.select) (fun _ => rfl) (fun _ => rfl) hP

section
variable {th : Nat}

/-- Some eligible ready virtual processor of equal priority has a smaller virtual time. -/
abbrev Mach.waitsBehind (m : Mach) (vp : Nat) : Bool :=
  (List.range 1024).any fun w => m.vpSt w == 2 && m.barred w == 0 && m.get (R.casc_vp_ctl_prio w) == m.get (R.casc_vp_ctl_prio vp) &&
    decide (m.vtNow w < m.vtNow vp)

theorem does_sliceEnd :
    Does m (.sliceEnd th) (m.frozen = false ∧ m.vpOn th = some vp ∧ m.vpSt vp = 3 ∧ m.vpStopped vp = false ∧ m.waitsBehind vp = true) fun m' =>
      m' = m.beginLeave vp 2 4 ∧ m'.vpSt vp = 6 ∧ (m'.vpX vp).after = 2 := by
  refine does_of_ans _ _ (execSliceEnd.eq_def th) id ?_
  rintro ⟨hfrozen, hon, hst, hstop, hwaits⟩
  simp only [hon, hfrozen, hst, hstop, bne_self_eq_false, Bool.or_self, Bool.false_eq_true, if_false, if_pos hwaits, true_and]
  refine ⟨Mach.vpSt_setVp _ _, ?_⟩
  rw [Mach.beginLeave, Mach.vpX_setVp]
  exact congrArg VpX.after (tget_tset_same _ _ _ _)

theorem does_sliceEnd_vacant : Does m (.sliceEnd th) (m.frozen = false ∧ m.vpOn th = none) fun m' => m' = m :=
  does_of_ans _ _ (execSliceEnd.eq_def th) id fun ⟨_, hnone⟩ => by rw [hnone]

theorem does_vpLeave :
    Does m (.vpLeave th) (m.frozen = false ∧ m.vpOn th = some vp ∧ m.vpSt vp = 6 ∧ (m.th th).dbg = 0 ∧ (m.th th).ep.isNone = true ∧
        (m.th th).wait = .none ∧ (m.th th).got = [] ∧ (m.core (th / 2)).swap.isNone = true ∧ (m.toBoundary th).isSome = true) fun m' =>
      m' = ((m.toBoundary th).getD m).vacate th := by
  refine does_of_ans _ _ (execVpLeave.eq_def th) id ?_
  rintro ⟨hfrozen, hon, hst, hdbg, hep, hwait, hgot, hswap, hboundary⟩
  obtain ⟨n, hn⟩ := Option.isSome_iff_exists.1 hboundary
  rw [Option.isNone_iff_eq_none] at hep hswap
  rw [hn, Option.getD_some, Mach.leave, hon]
  dsimp only
  rw [if_neg (by simp [hfrozen, hst, hdbg, hep, hwait, hgot, hswap]), hn]

end

/-! ### Timers and stalls (R559, R560) -/

section
variable {val : Nat}

theorem Mach.get_timer_set (h : val < 2 ^ 64) : (m.set (R.casc_vp_tmr_tod vp) val).get (R.casc_vp_tmr_tod vp) = val := by
  rw [Mach.get_set_same _ _ _ (by simp) (by simp)]
  exact Nat.mod_eq_of_lt h

theorem does_vpTimerWrite {h : Prop} {P : Mach → Prop} (hP : h → P ((m.set (R.casc_vp_tmr_tod vp) val).vpTimer vp)) :
    Does m (.vpTimerWrite vp val) (m.frozen = false ∧ h) P :=
  does_of_unlessFrozen _ _ (execVpTimerWrite.eq_def vp val) id hP

theorem does_vpTimerWrite_future :
    Does m (.vpTimerWrite vp val) (m.frozen = false ∧ m.tod < val ∧ val < 2 ^ 64) fun m' => m' = m.set (R.casc_vp_tmr_tod vp) val := by
  refine does_vpTimerWrite ?_
  rintro ⟨hfuture, hval⟩
  simp only [Mach.vpTimer, Mach.get_timer_set hval, Mach.set_tod]
  exact if_neg fun ⟨_, hreached⟩ => Nat.not_le_of_lt hfuture hreached

theorem does_vpTimerWrite_reached :
    Does m (.vpTimerWrite vp val) (m.frozen = false ∧ val ≠ 0 ∧ val ≤ m.tod ∧ val < 2 ^ 64) fun m' =>
      m' = ((m.set (R.casc_vp_tmr_tod vp) val).set (R.casc_vp_tmr_tod vp) 0).fireVp vp false := by
  refine does_vpTimerWrite ?_
  rintro ⟨hset, hreached, hval⟩
  simp only [Mach.vpTimer, Mach.get_timer_set hval, Mach.set_tod]
  exact if_pos ⟨hset, hreached⟩

theorem does_vpTimerExpiry :
    Does m (.vpTimerExpiry vp) (m.frozen = false ∧ m.get (R.casc_vp_tmr_tod vp) ≠ 0 ∧ m.get (R.casc_vp_tmr_tod vp) ≤ m.tod) fun m' =>
      m' = (m.set (R.casc_vp_tmr_tod vp) 0).fireVp vp false :=
  does_of_unlessFrozen _ _ (execVpTimerExpiry.eq_def vp) id fun hreached => if_pos hreached

end

section
variable {part : Nat}

theorem does_partitionStall :
    Does m (.partitionStall part) (m.frozen = false ∧ m.get (R.casc_part_ctl_stall part) ≠ 0 ∧ m.isStalled part = true ∧
        ((m.set (R.casc_part_st_stalled part) 1).cascError 0xF0 part 0 (m.get (R.casc_part_ctl_stall part))).on (R.casc_part_ctl_wake part) = false)
      fun m' => m' = (m.set (R.casc_part_st_stalled part) 1).cascError 0xF0 part 0 (m.get (R.casc_part_ctl_stall part)) := by
  refine does_of_ans _ _ (execPartitionStall.eq_def part) id ?_
  rintro ⟨hfrozen, hlimit, hstalled, hwake⟩
  have hreports : ¬ (m.frozen || m.get (R.casc_part_ctl_stall part) == 0 || !m.isStalled part) = true := by simp [hfrozen, hlimit, hstalled]
  simp only [if_neg hreports, hwake, Bool.false_eq_true, if_false]

theorem does_partitionStall_not : Does m (.partitionStall part) (m.frozen = false ∧ m.isStalled part = false) fun m' => m' = m :=
  does_of_ans _ _ (execPartitionStall.eq_def part) id fun ⟨_, hnot⟩ => if_pos (by simp [hnot])

end
end

/-- Settles O44, command by command. -/
theorem cascadeCommands : Obligations.CascadeCommands := by
  unfold Obligations.CascadeCommands
  intro m
  exact ⟨fun _ => does_vpDefine, fun _ => does_vpDefine_unfinished, fun _ => does_vpReady, fun _ => does_vpReady_refused,
    fun _ => does_vpStop_ready, fun _ => does_vpStop_running, fun _ => does_vpUndefine, does_cascadeSelection Mach.select_of_no_candidate,
    fun _ _ => does_cascadeSelection fun ⟨hbest, hthread⟩ => Mach.select_places hbest hthread, fun _ _ => does_sliceEnd, fun _ => does_sliceEnd_vacant, fun _ _ => does_vpLeave,
    fun _ _ => does_vpTimerWrite_future, fun _ _ => does_vpTimerWrite_reached, fun _ => does_vpTimerExpiry, fun _ => does_partitionStall,
    fun _ => does_partitionStall_not⟩

end Sys2Proof.Machine
end

section
/-! Budget intervals, power samples, sensors and parking (R49, R561 to R569), and O45. -/

namespace Sys2Proof.Machine

open Sys2Proof.Safety

section
variable {m : Mach}

/-! ### What the Weir's parts leave of its registers -/

/-- A field outside the registers of the cores. -/
def Fld.besideCores (f : Fld) : Prop := f.blk ≠ .weir ∨ f.off < 0x311000 ∨ 0x312000 ≤ f.off

/-- What each step of a fold over the cores leaves, the fold leaves. -/
theorem foldl_cores_keeps {β : Type} {step : Mach → Nat → Mach} (g : Mach → β) (hstep : ∀ n c, c < 48 → g (step n c) = g n) (n : Mach) :
    g ((List.range 48).foldl step n) = g n := by
  have hlist : ∀ l : List Nat, (∀ c ∈ l, c < 48) → ∀ n, g (l.foldl step n) = g n := by
    intro l
    induction l with
    | nil => exact fun _ _ => rfl
    | cons c l ih =>
      intro hl n
      rw [List.foldl_cons, ih (fun d hd => hl d (List.mem_cons_of_mem _ hd)), hstep n c (hl c List.mem_cons_self)]
  exact hlist _ (fun _ => List.mem_range.1) n

/-- A write of a core's register. -/
theorem Mach.get_set_core {f : Fld} (hf : f.besideCores) {c : Nat} (hc : c < 48) (hi lo v : Nat) :
    (m.set ⟨.weir, 0x311000 + 0x8 * c, hi, lo⟩ v).get f = m.get f :=
  m.get_set_other _ _ _ (hf.imp id fun hoff => by simp only [ne_eq]; omega)

theorem Mach.get_drop {f : Fld} (hf : f.blk ≠ .rill) (r : Nat) : (m.drop r).get f = m.get f := by
  unfold Mach.drop Mach.countSat Mach.count
  rw [Mach.get_set_other _ _ _ _ (.inl hf), Mach.get_set_other _ _ _ _ (.inl hf), Mach.get_set_other _ _ _ _ (.inl hf)]

/-- A record that is staged, kept or dropped changes Rill registers alone. -/
theorem Mach.get_stage {f : Fld} (hf : f.blk ≠ .rill) (q : Nat) (r : RillRec) : (m.stage q r).get f = m.get f := by
  unfold Mach.stage
  dsimp only
  split
  · split <;> rfl
  · split
    · rfl
    · exact Mach.get_drop hf _

theorem Mach.cores_stage (q : Nat) (r : RillRec) : (m.stage q r).cores = m.cores := by
  unfold Mach.stage Mach.drop
  dsimp only
  split <;> split <;> rfl

theorem Mach.get_cwRecord {f : Fld} (hf : f.blk ≠ .rill) (code part vp value unit : Nat) : (m.cwRecord code part vp value unit).get f = m.get f := by
  unfold Mach.cwRecord
  split
  · exact Mach.get_stage hf _ _
  · rfl

theorem Mach.cores_cwRecord (code part vp value unit : Nat) : (m.cwRecord code part vp value unit).cores = m.cores := by
  unfold Mach.cwRecord
  split
  · exact Mach.cores_stage _ _
  · rfl

/-- What a Weir code leaves: the error register as written, and the others of the Weir. -/
theorem Mach.get_weirError {f : Fld} (hf : f.blk = .weir) (code sensor core value unit : Nat) :
    (m.weirError code sensor core value unit).get f =
      (m.sets [(R.weir_err_sensor, sensor), (R.weir_err_core, core), (R.weir_err_new, 1), (R.weir_err_code, code)]).get f := by
  unfold Mach.weirError
  rw [Mach.get_cwRecord (by rw [hf]; decide)]
  exact Mach.get_congr _ _ _ (Mach.raise_regs ..)

theorem Mach.get_weirError_shown {code sensor core : Nat} (value unit : Nat) (hcode : code < 256) (hsensor : sensor < 512) (hcore : core < 64) :
    (m.weirError code sensor core value unit).get R.weir_err_code = code ∧ (m.weirError code sensor core value unit).get R.weir_err_core = core ∧
      (m.weirError code sensor core value unit).get R.weir_err_sensor = sensor := by
  rw [Mach.get_weirError rfl, Mach.get_weirError rfl, Mach.get_weirError rfl]
  simp [Mach.get_set, Nat.mod_eq_of_lt hcode, Nat.mod_eq_of_lt hsensor, Nat.mod_eq_of_lt hcore]

theorem Mach.get_weirError_other {f : Fld} (hf : f.blk = .weir) (hoff : f.off ≠ 0x310020) (code sensor core value unit : Nat) :
    (m.weirError code sensor core value unit).get f = m.get f := by
  rw [Mach.get_weirError hf]
  simp only [Mach.sets_cons, Mach.sets_nil]
  rw [Mach.get_set_other _ _ _ _ (.inr hoff), Mach.get_set_other _ _ _ _ (.inr hoff), Mach.get_set_other _ _ _ _ (.inr hoff),
    Mach.get_set_other _ _ _ _ (.inr hoff)]

/-! ### Budget intervals (R561 to R566) -/

theorem Mach.get_setFreqs {f : Fld} (hf : f.besideCores) (room : Nat) : (m.setFreqs room).get f = m.get f := by
  unfold Mach.setFreqs
  refine foldl_cores_keeps (·.get f) (fun n c hc => ?_) _
  dsimp only
  split <;> simp only [Mach.sets_cons, Mach.sets_nil, Mach.get_set_core hf hc]

theorem Mach.weir_setFreqs (room : Nat) : (m.setFreqs room).weir = m.weir := by
  unfold Mach.setFreqs
  refine foldl_keeps Mach.weir (fun n c => ?_) _ _
  dsimp only
  split <;> simp only [Mach.sets_weir]

/-- The limit in force fits its field. -/
theorem Mach.limit_lt : m.limit < 4096 := by
  have hwatts : m.get R.weir_limit_watts < 4096 := Nat.mod_lt _ (by decide)
  unfold Mach.limit
  split
  · omega
  · exact hwatts

/-- Ceilings of cool cores rise (R568). -/
def Mach.riseCeils (m : Mach) : Mach :=
  (List.range 48).foldl (fun m c =>
    if 8 ≤ m.get (R.weir_core_head c) then m.set (R.weir_core_ceil c) (min m.topFreq (m.get (R.weir_core_ceil c) + 1)) else m) m

/-- The credits of the partitions for an interval with limit `L` and non-core power `u` (R562). -/
def Mach.creditParts (m : Mach) (L u : Nat) : Mach :=
  if m.modeM5 then m else
    (List.range 64).foldl (fun m p => m.set (R.casc_part_st_credit p) ((L - u) * 250 * m.get (R.casc_part_ctl_share p) / 1024)) m

theorem Mach.get_riseCeils {f : Fld} (hf : f.besideCores) : m.riseCeils.get f = m.get f := by
  refine foldl_cores_keeps (·.get f) (fun x c hc => ?_) m
  split
  · exact Mach.get_set_core hf hc _ _ _
  · rfl

theorem Mach.weir_riseCeils : m.riseCeils.weir = m.weir := by
  refine foldl_keeps Mach.weir (fun x c => ?_) _ m
  split
  · exact Mach.set_weir _ _ _
  · rfl

theorem Mach.get_creditParts {f : Fld} (hf : f.blk = .weir) (L u : Nat) : (m.creditParts L u).get f = m.get f := by
  unfold Mach.creditParts
  split
  · rfl
  · exact foldl_keeps (·.get f) (fun x p => x.get_set_other _ _ _ (.inl (by rw [hf]; exact Blk.noConfusion))) _ _

theorem Mach.weir_creditParts (L u : Nat) : (m.creditParts L u).weir = m.weir := by
  unfold Mach.creditParts
  split
  · rfl
  · exact foldl_keeps Mach.weir (fun _ _ => Mach.set_weir _ _ _) _ _

/-- The slots of the accelerators and the throttle as an interval leaves them (R388, R566). -/
def Mach.throttleTo (m : Mach) (st off : Nat) : Mach :=
  let m := m.sets ((List.range 4).map fun u => (R.cmpu_rate_slot u, st))
  let m := { m with weir := { m.weir with off := off } }
  m.set R.weir_stat_throttle (b2n (off != 0))

theorem Mach.get_throttleTo {f : Fld} (hf : f.blk = .weir) (hhi : f.hi < 64) (hbit : f.off ≠ 0x310008 ∨ f.hi < 16 ∨ 16 < f.lo) (st off : Nat) :
    (m.throttleTo st off).get f = m.get f := by
  have hslots : (m.sets ((List.range 4).map fun u => (R.cmpu_rate_slot u, st))).get f = m.get f := by
    have hset : ∀ (x : Mach) (i v : Nat), (x.set (R.cmpu_rate_slot i) v).get f = x.get f :=
      fun x i v => x.get_set_other _ _ _ (.inl (by rw [hf]; exact Blk.noConfusion))
    simp only [List.range, List.range.loop, List.map_cons, List.map_nil, Mach.sets_cons, Mach.sets_nil, hset]
  have hregs : ∀ (x : Mach) (w : WeirSt), ({ x with weir := w } : Mach).get f = x.get f := fun x w => Mach.get_congr _ x f rfl
  have hshow : ∀ (x : Mach) (v : Nat), (x.set R.weir_stat_throttle v).get f = x.get f := by
    intro x v
    rw [Mach.get_set _ _ _ _ (by decide) hhi (.inr (hbit.imp id fun hbit => .inr (hbit.imp id id))), if_neg]
    rintro rfl
    revert hbit
    decide
  rw [Mach.throttleTo, hshow, hregs, hslots]

theorem Mach.weir_throttleTo (st off : Nat) : (m.throttleTo st off).weir = { m.weir with off := off } := by
  simp only [Mach.throttleTo, Mach.set_weir, Mach.sets_weir]

/-- What an interval does after it has shown its figures. -/
def Mach.startInterval (m : Mach) (st off L u : Nat) : Mach := (((m.throttleTo st off).riseCeils).creditParts L u).setFreqs (L - u)

theorem Mach.get_startInterval {f : Fld} (hf : f.blk = .weir) (hoff : f.off < 0x311000) (hbit : f.off ≠ 0x310008 ∨ f.hi < 16 ∨ 16 < f.lo)
    (hhi : f.hi < 64) (st off L u : Nat) : (m.startInterval st off L u).get f = m.get f := by
  have hbeside : f.besideCores := .inr (.inl hoff)
  rw [Mach.startInterval, Mach.get_setFreqs hbeside, Mach.get_creditParts hf, Mach.get_riseCeils hbeside, Mach.get_throttleTo hf hhi hbit]

theorem Mach.weir_startInterval (st off L u : Nat) : (m.startInterval st off L u).weir = { m.weir with off := off } := by
  rw [Mach.startInterval, Mach.weir_setFreqs, Mach.weir_creditParts, Mach.weir_riseCeils, Mach.weir_throttleTo]

/-- An interval shows the average, non-core power, peak and limit, and leaves what the Weir shows elsewhere but the throttle bit. -/
theorem does_budgetInterval {u avg peak : Nat} {low : Bool} {h : Prop} {P : Mach → Prop}
    (hP : h → ∀ n : Mach, (n = if m.get R.weir_stat_inforce * 101 < avg * 100 then
          (m.count R.weir_cnt_over).weirError 0xF3 0 0x3F avg 0xFFFF else m) → ∀ st,
        P ((n.sets [(R.weir_stat_avg, avg), (R.weir_stat_noncore, u), (R.weir_stat_peak, peak), (R.weir_stat_inforce, n.limit)]).startInterval
          st (if low then n.weir.off - 1 else n.weir.off) n.limit u)) :
    Does m (.budgetInterval u avg peak low) (m.frozen = false ∧ h) P := by
  refine does_of_unlessFrozen _ _ (execBudgetInterval.eq_def u avg peak low) id fun hh => ?_
  extract_lets oldL n L shown off atFloor slot st
  have hoff : off = if low then n.weir.off - 1 else n.weir.off := by
    simp only [off, shown, Mach.sets_weir]
  have hp := hP hh n rfl st
  rw [← hoff] at hp
  exact hp

theorem does_budgetInterval_within {u avg peak : Nat} {low : Bool} :
    Does m (.budgetInterval u avg peak low) (m.frozen = false ∧ u < 4096 ∧ avg < 4096 ∧ peak < 4096 ∧
        avg * 100 ≤ m.get R.weir_stat_inforce * 101) fun m' =>
      m'.get R.weir_stat_avg = avg ∧ m'.get R.weir_stat_noncore = u ∧ m'.get R.weir_stat_peak = peak ∧ m'.get R.weir_stat_inforce = m.limit ∧
        m'.weir.off = if low then m.weir.off - 1 else m.weir.off := by
  refine does_budgetInterval ?_
  rintro ⟨hu, havg, hpeak, hwithin⟩ n hn st
  rw [if_neg (Nat.not_lt_of_le hwithin)] at hn
  subst hn
  have hlimit : n.limit % 4096 = n.limit := Nat.mod_eq_of_lt Mach.limit_lt
  refine ⟨?_, ?_, ?_, ?_, ?_⟩
  · rw [Mach.get_startInterval rfl (by decide) (by decide) (by decide)]
    simp [Mach.get_set, Nat.mod_eq_of_lt havg]
  · rw [Mach.get_startInterval rfl (by decide) (by decide) (by decide)]
    simp [Mach.get_set, Nat.mod_eq_of_lt hu]
  · rw [Mach.get_startInterval rfl (by decide) (by decide) (by decide)]
    simp [Mach.get_set, Nat.mod_eq_of_lt hpeak]
  · rw [Mach.get_startInterval rfl (by decide) (by decide) (by decide)]
    simp [Mach.get_set, hlimit]
  · rw [Mach.weir_startInterval]

theorem does_budgetInterval_above {u avg peak : Nat} {low : Bool} :
    Does m (.budgetInterval u avg peak low) (m.frozen = false ∧ u < 4096 ∧ avg < 4096 ∧ peak < 4096 ∧
        m.get R.weir_stat_inforce * 101 < avg * 100) fun m' =>
      m'.get R.weir_err_code = 0xF3 ∧ m'.get R.weir_err_core = 0x3F ∧ m'.get R.weir_stat_avg = avg := by
  refine does_budgetInterval ?_
  rintro ⟨-, havg, -, habove⟩ n hn st
  rw [if_pos habove] at hn
  obtain ⟨hcode, hcore, -⟩ := Mach.get_weirError_shown (m := m.count R.weir_cnt_over) (code := 0xF3) (sensor := 0) (core := 0x3F) avg 0xFFFF
    (by decide) (by decide) (by decide)
  rw [← hn] at hcode hcore
  refine ⟨?_, ?_, ?_⟩
  · rw [Mach.get_startInterval rfl (by decide) (by decide) (by decide)]
    simp [Mach.get_set, hcode]
  · rw [Mach.get_startInterval rfl (by decide) (by decide) (by decide)]
    simp [Mach.get_set, hcore]
  · rw [Mach.get_startInterval rfl (by decide) (by decide) (by decide)]
    simp [Mach.get_set, Nat.mod_eq_of_lt havg]

/-! ### Power samples (R566) -/

section
variable {watts noncore : Nat}

theorem Mach.modeM5_of_mode {n : Mach} (h : ∀ f : Fld, f.blk = .mode → n.get f = m.get f) : n.modeM5 = m.modeM5 := by
  unfold Mach.modeM5 Mach.baseMode Mach.mode_
  rw [h _ rfl, h _ rfl]

theorem Mach.modeM5_set {f : Fld} (hf : f.blk = .weir) (v : Nat) : (m.set f v).modeM5 = m.modeM5 :=
  Mach.modeM5_of_mode fun g hg => m.get_set_other _ _ _ (.inl (by rw [hf, hg]; decide))

theorem Mach.modeM5_of_regs {n : Mach} (h : n.regs = m.regs) : n.modeM5 = m.modeM5 :=
  Mach.modeM5_of_mode fun f _ => Mach.get_congr _ _ f h

/-- One step off every frequency. -/
abbrev slowed (m : Mach) : Mach :=
  (List.range 48).foldl (fun m c => m.set (R.weir_core_freq c) (max 80 (m.get (R.weir_core_freq c) - 1))) m

theorem Mach.modeM5_slowed : (slowed m).modeM5 = m.modeM5 := foldl_keeps Mach.modeM5 (fun _ _ => Mach.modeM5_set rfl _) _ _
theorem Mach.weir_slowed : (slowed m).weir = m.weir := foldl_keeps Mach.weir (fun _ _ => Mach.set_weir _ _ _) _ _

/-- The throttle as a sample shows and counts it. -/
def Mach.showThrottle (m : Mach) : Mach :=
  if (m.set R.weir_stat_throttle (b2n (m.weir.off != 0))).weir.off != 0 then (m.set R.weir_stat_throttle (b2n (m.weir.off != 0))).count R.weir_cnt_thr
  else m.set R.weir_stat_throttle (b2n (m.weir.off != 0))

theorem Mach.showThrottle_off (h : m.weir.off = 0) : m.showThrottle = m.set R.weir_stat_throttle 0 := by
  simp only [Mach.showThrottle, Mach.set_weir, h, bne_self_eq_false, b2n, Bool.false_eq_true, if_false]

theorem Mach.showThrottle_on (h : m.weir.off ≠ 0) : m.showThrottle = (m.set R.weir_stat_throttle 1).count R.weir_cnt_thr := by
  simp only [Mach.showThrottle, Mach.set_weir, bne_iff_ne.2 h, b2n, if_true]

/-- A sample without a charge in M5 moves the throttle alone. -/
theorem does_powerSample {h : Prop} {P : Mach → Prop}
    (hP : h → ∀ n : Mach, (n = if m.get R.weir_stat_inforce < watts then slowed { m with weir := { m.weir with lastU := noncore, off := m.weir.off + 1 } }
        else { m with weir := { m.weir with lastU := noncore } }) →
      n.showThrottle.modeM5 = true ∧ P n.showThrottle) :
    Does m (.powerSample watts noncore [] []) (m.frozen = false ∧ h) P := by
  refine does_of_unlessFrozen _ _ (execPowerSample.eq_def watts noncore [] []) id fun hh => ?_
  extract_lets L src old above src' bumped faster shown counted
  have hfaster : faster = if m.get R.weir_stat_inforce < watts then slowed bumped else old := by
    simp only [faster, above, L, decide_eq_true_eq, slowed]
  clear_value faster
  have hcounted : counted = faster.showThrottle := by
    simp only [counted, shown, Mach.showThrottle]
  obtain ⟨hM5, hp⟩ := hP hh _ hfaster
  rw [hcounted, if_pos hM5]
  exact hp

theorem does_powerSample_above :
    Does m (.powerSample watts noncore [] []) (m.frozen = false ∧ watts < 4096 ∧ noncore < 4096 ∧ m.modeM5 = true ∧
        m.get R.weir_stat_inforce < watts) fun m' =>
      m'.weir = { m.weir with lastU := noncore, off := m.weir.off + 1 } ∧ m'.get R.weir_stat_throttle = 1 := by
  refine does_powerSample ?_
  rintro ⟨-, -, hmode, habove⟩ n hn
  rw [if_pos habove] at hn
  have hweir : n.weir = { m.weir with lastU := noncore, off := m.weir.off + 1 } := by rw [hn, Mach.weir_slowed]
  have hM5 : n.modeM5 = true := by
    rw [hn, Mach.modeM5_slowed, ← hmode]
    exact Mach.modeM5_of_regs rfl
  rw [Mach.showThrottle_on (by rw [hweir]; exact Nat.succ_ne_zero _), Mach.count, Mach.set_weir, Mach.set_weir, Mach.modeM5_set rfl, Mach.modeM5_set rfl]
  exact ⟨hM5, hweir, (Mach.get_set_other _ R.weir_cnt_thr _ _ (.inr (by decide))).trans (Mach.get_set_same _ _ _ (by decide) (by decide))⟩

theorem does_powerSample_below :
    Does m (.powerSample watts noncore [] []) (m.frozen = false ∧ watts < 4096 ∧ noncore < 4096 ∧ m.modeM5 = true ∧
        watts ≤ m.get R.weir_stat_inforce ∧ m.weir.off = 0) fun m' =>
      m' = ({ m with weir := { m.weir with lastU := noncore } } : Mach).set R.weir_stat_throttle 0 := by
  refine does_powerSample ?_
  rintro ⟨-, -, hmode, hbelow, hoff⟩ n hn
  rw [if_neg (Nat.not_lt_of_le hbelow)] at hn
  have hweir : n.weir.off = 0 := by rw [hn]; exact hoff
  have hM5 : n.modeM5 = true := by
    rw [hn, ← hmode]
    exact Mach.modeM5_of_regs rfl
  rw [Mach.showThrottle_off hweir, Mach.modeM5_set rfl, hn]
  rw [hn] at hM5
  exact ⟨hM5, rfl⟩

end

/-! ### Sensors (R567, R568) -/

/-- What a reading of the sensors does to one core. -/
def Mach.followCore (m : Mach) (c : Nat) : Mach :=
  let h := m.headroom c
  let m := m.set (R.weir_core_head c) (min h 255)
  let m := if h = 0 then m.set (R.weir_core_ceil c) 80 else if h < 3 then m.lowerCeil [c] else m
  let m := m.set (R.weir_core_freq c)
    (if (m.core c).park == .running then min (m.get (R.weir_core_freq c)) (m.get (R.weir_core_ceil c)) else m.get (R.weir_core_freq c))
  if m.get (R.weir_core_park c) = 3 ∧ 10 ≤ h then m.set (R.weir_core_park c) 2 else m

theorem does_sensorReading {temps stale : List Nat} {h : Prop} {P : Mach → Prop}
    (hP : h → P ((List.range 48).foldl Mach.followCore
      ((temps.take 272).zipIdx.foldl (fun m x => m.readSensor x.2 x.1 (stale.contains x.2)) m))) :
    Does m (.sensorReading temps stale) (m.frozen = false ∧ h) P := by
  refine does_of_unlessFrozen _ _ (execSensorReading.eq_def temps stale) id fun hh => ?_
  exact hP hh

theorem Mach.get_followCore {f : Fld} (hf : f.besideCores) {c : Nat} (hc : c < 48) : (m.followCore c).get f = m.get f := by
  unfold Mach.followCore Mach.lowerCeil
  extract_lets h headed ceiled sped
  have hceiled : ceiled.get f = m.get f := by
    simp only [ceiled, headed, List.foldl_cons, List.foldl_nil]
    split
    · simp only [Mach.get_set_core hf hc]
    · split <;> simp only [Mach.get_set_core hf hc]
  split <;> simp only [sped, Mach.get_set_core hf hc, hceiled]

/-- Machine `n` has the ceilings, frequencies, headrooms and parks of `m`, and its cores. -/
structure Mach.SameCores (m n : Mach) : Prop where
  headroom : ∀ k, n.headroom k = m.headroom k
  core : ∀ k, n.core k = m.core k
  ceil : ∀ k, n.get (R.weir_core_ceil k) = m.get (R.weir_core_ceil k)
  freq : ∀ k, n.get (R.weir_core_freq k) = m.get (R.weir_core_freq k)
  park : ∀ k, n.get (R.weir_core_park k) = m.get (R.weir_core_park k)

/-- A core that runs, cool and within its ceiling. -/
def Mach.coolCore (m : Mach) (c : Nat) : Bool :=
  m.headroom c == 20 && m.get (R.weir_core_park c) == 0 && (m.core c).park == .running && decide (m.get (R.weir_core_freq c) ≤ m.get (R.weir_core_ceil c))

theorem Mach.followCore_cool {n : Mach} {c : Nat} (hsame : m.SameCores n) (hcool : m.coolCore c = true) :
    n.followCore c = (n.set (R.weir_core_head c) 20).set (R.weir_core_freq c) (m.get (R.weir_core_freq c)) := by
  simp only [Mach.coolCore, Bool.and_eq_true, beq_iff_eq, decide_eq_true_eq] at hcool
  obtain ⟨⟨⟨hhead, hpark⟩, hrun⟩, hwithin⟩ := hcool
  have hother : ∀ {f : Fld}, (f = R.weir_core_ceil c ∨ f = R.weir_core_freq c ∨ f = R.weir_core_park c) →
      (n.set (R.weir_core_head c) 20).get f = n.get f := by
    rintro f (rfl | rfl | rfl) <;> simp [Mach.get_set]
  have hparked : ∀ v, ((n.set (R.weir_core_head c) 20).set (R.weir_core_freq c) v).get (R.weir_core_park c) = 0 := by
    intro v
    simp [Mach.get_set, hsame.park, hpark]
  have hrun' : ((n.set (R.weir_core_head c) 20).core c).park = .running := (congrArg Core.park (hsame.core c)).trans hrun
  unfold Mach.followCore
  simp only [hsame.headroom, hhead, show min 20 255 = 20 from rfl, if_neg (show ¬20 = 0 by decide), if_neg (show ¬20 < 3 by decide), hrun',
    beq_self_eq_true, if_true, hother (.inl rfl), hother (.inr (.inl rfl)), hsame.ceil, hsame.freq, Nat.min_eq_left hwithin, hparked,
    if_neg (show ¬((0 : Nat) = 3 ∧ 10 ≤ 20) by decide)]

theorem Mach.headroom_set_core {c : Nat} (hc : c < 48) (hi lo v k : Nat) : (m.set ⟨.weir, 0x311000 + 0x8 * c, hi, lo⟩ v).headroom k = m.headroom k := by
  have hget : ∀ f : Fld, 0x312000 ≤ f.off → (m.set ⟨.weir, 0x311000 + 0x8 * c, hi, lo⟩ v).get f = m.get f :=
    fun f hf => Mach.get_set_core (.inr (.inr hf)) hc _ _ _
  have hfail : ∀ n, (m.set ⟨.weir, 0x311000 + 0x8 * c, hi, lo⟩ v).on (R.weir_temp_fail n) = m.on (R.weir_temp_fail n) := by
    intro n
    rw [Mach.on, Mach.on, hget _ (Nat.le_add_right _ _)]
  have htemp : ∀ n, (m.set ⟨.weir, 0x311000 + 0x8 * c, hi, lo⟩ v).tempOf n = m.tempOf n := by
    intro n
    rw [Mach.tempOf, Mach.tempOf, hget _ (Nat.le_add_right _ _)]
  unfold Mach.headroom
  simp only [hfail, funext htemp]

theorem Mach.SameCores.follow {n : Mach} {c : Nat} (hsame : m.SameCores n) (hc : c < 48) (hcool : m.coolCore c = true) : m.SameCores (n.followCore c) := by
  have hfreq : m.get (R.weir_core_freq c) % 256 = m.get (R.weir_core_freq c) := Nat.mod_eq_of_lt (Nat.mod_lt _ (Nat.two_pow_pos 8))
  rw [Mach.followCore_cool hsame hcool]
  refine ⟨fun k => ?_, fun k => hsame.core k, fun k => ?_, fun k => ?_, fun k => ?_⟩
  · rw [Mach.headroom_set_core hc, Mach.headroom_set_core hc, hsame.headroom]
  · simp [Mach.get_set, hsame.ceil]
  · by_cases hk : k = c
    · simp [Mach.get_set, hk, hfreq]
    · simp [Mach.get_set, hk, hsame.freq]
  · simp [Mach.get_set, hsame.park]

theorem Mach.followCore_head {n : Mach} {c : Nat} (hsame : m.SameCores n) (hcool : m.coolCore c = true) (k : Nat) :
    (n.followCore c).get (R.weir_core_head k) = if k = c then 20 else n.get (R.weir_core_head k) := by
  rw [Mach.followCore_cool hsame hcool]
  by_cases hk : k = c <;> simp [Mach.get_set, hk]

/-- Readings of cool cores show their headroom, and leave the rest of them. -/
theorem Mach.follow_cool (l : List Nat) (hl : ∀ c ∈ l, c < 48 ∧ m.coolCore c = true) (n : Mach) (hsame : m.SameCores n) :
    m.SameCores (l.foldl Mach.followCore n) ∧
      ∀ k, k ∈ l ∨ n.get (R.weir_core_head k) = 20 → (l.foldl Mach.followCore n).get (R.weir_core_head k) = 20 := by
  induction l generalizing n with
  | nil => exact ⟨hsame, fun k hk => hk.resolve_left List.not_mem_nil⟩
  | cons c l ih =>
    obtain ⟨hc, hcool⟩ := hl c List.mem_cons_self
    obtain ⟨hsame', hhead⟩ := ih (fun d hd => hl d (List.mem_cons_of_mem _ hd)) _ (hsame.follow hc hcool)
    refine ⟨hsame', fun k hk => hhead k ?_⟩
    rw [Mach.followCore_head hsame hcool]
    by_cases hkc : k = c
    · exact .inr (if_pos hkc)
    · rw [if_neg hkc]
      exact hk.imp (fun hmem => (List.mem_cons.1 hmem).resolve_left hkc) id

theorem does_sensorReading_cool :
    Does m (.sensorReading [] []) (m.frozen = false ∧ ((List.range 48).all m.coolCore) = true) fun m' =>
      ((List.range 48).all fun c => m'.get (R.weir_core_head c) == 20 && m'.get (R.weir_core_ceil c) == m.get (R.weir_core_ceil c) &&
        m'.get (R.weir_core_freq c) == m.get (R.weir_core_freq c)) = true := by
  refine does_sensorReading fun hcool => ?_
  obtain ⟨hsame, hhead⟩ := Mach.follow_cool (m := m) (List.range 48) (fun c hc => ⟨List.mem_range.1 hc, List.all_eq_true.1 hcool c hc⟩) m
    ⟨fun _ => rfl, fun _ => rfl, fun _ => rfl, fun _ => rfl, fun _ => rfl⟩
  refine List.all_eq_true.2 fun c hc => ?_
  simp only [List.take_nil, List.zipIdx_nil, List.foldl_nil, hhead c (.inl hc), hsame.ceil, hsame.freq, beq_self_eq_true, Bool.and_self]

theorem does_sensorReading_stale {t : Nat} :
    Does m (.sensorReading [t] [0]) (m.frozen = false ∧ t < 65536 ∧ m.on (R.weir_temp_fail 0) = false) fun m' =>
      m'.on (R.weir_temp_fail 0) = true ∧ m'.get (R.weir_temp_temp 0) = t ∧ m'.get R.weir_err_code = 0xF6 ∧ m'.get R.weir_err_sensor = 0 := by
  refine does_sensorReading ?_
  rintro ⟨ht, hworks⟩
  have hread : [t].zipIdx.foldl (fun m x => m.readSensor x.2 x.1 ([0].contains x.2)) m =
      ((m.set (R.weir_temp_temp 0) t).set (R.weir_temp_fail 0) 1).weirError 0xF6 0 0 t 0 := by
    simp [Mach.readSensor, hworks]
  have hfollow : ∀ (f : Fld) (n : Mach), f.besideCores → ((List.range 48).foldl Mach.followCore n).get f = n.get f :=
    fun f n hf => foldl_cores_keeps (·.get f) (fun x c hc => Mach.get_followCore hf hc) n
  obtain ⟨hcode, -, hsensor⟩ := Mach.get_weirError_shown (m := (m.set (R.weir_temp_temp 0) t).set (R.weir_temp_fail 0) 1) (code := 0xF6) (sensor := 0)
    (core := 0) t 0 (by decide) (by decide) (by decide)
  rw [List.take_of_length_le (show 1 ≤ 272 by decide), hread, Mach.on, hfollow _ _ (.inr (.inr (by decide))), hfollow _ _ (.inr (.inr (by decide))),
    hfollow _ _ (.inr (.inl (by decide))), hfollow _ _ (.inr (.inl (by decide))), Mach.get_weirError_other rfl (by decide),
    Mach.get_weirError_other rfl (by decide)]
  refine ⟨?_, ?_, hcode, hsensor⟩
  · simp [Mach.get_set]
  · simp [Mach.get_set, Nat.mod_eq_of_lt ht]

/-! ### Parking (R49, R568, R569) -/

section
variable {core : Nat}

/-- A deep-parked core holds no lines and no translations. -/
theorem Mach.core_deepPark (c code : Nat) : ∃ k : Core,
    (m.deepPark c code).core c = { k with park := .deep, l1i := [], l1d := [], l2 := [], tlb := [], walk1 := [], walk2 := [] } := by
  unfold Mach.deepPark Mach.flushL2
  extract_lets k retired written
  refine ⟨{ written.core c with evb := (written.core c).evb.filter (·.sent), holds := [], pf := [] }, ?_⟩
  rw [Mach.core_congr (Mach.set_cores _ _ _), Mach.core_onCore_same, Mach.core_onCore_same]

theorem Mach.get_deepPark_park (c code : Nat) : (m.deepPark c code).get (R.weir_core_park c) = code % 4 := Mach.get_set_same _ _ _ (by simp) (by simp)

theorem Mach.core_weirError (code sensor core value unit c : Nat) : (m.weirError code sensor core value unit).core c = m.core c := by
  refine Mach.core_congr ?_ _
  unfold Mach.weirError
  rw [Mach.cores_cwRecord, Mach.raise_cores, Mach.sets_cores]

theorem does_thermalPark :
    Does m (.thermalPark core) (m.frozen = false ∧ m.get (R.weir_core_head core) = 0 ∧ m.get (R.weir_core_park core) ≠ 3 ∧ m.busy core = false ∧
        (m.combFlush core).drained core = true) fun m' =>
      (m'.core core).park = Park.deep ∧ m'.get (R.weir_core_park core) = 3 ∧ (m'.core core).l1i = [] ∧ (m'.core core).l1d = [] ∧
        (m'.core core).l2 = [] ∧ (m'.core core).tlb = [] ∧ (m'.core core).walk1 = [] ∧ (m'.core core).walk2 = [] ∧ m'.get R.weir_err_code = 0xF2 := by
  refine does_of_ans _ _ (execThermalPark.eq_def core) id ?_
  rintro ⟨hfrozen, hhead, hpark, hbusy, hdrained⟩
  have hacts : (m.frozen || m.get (R.weir_core_head core) != 0 || m.get (R.weir_core_park core) == 3) = false := by
    simp only [hfrozen, hhead, bne_self_eq_false, Bool.or_self, beq_eq_false_iff_ne.2 hpark]
  simp only [hacts, hbusy, hdrained, Bool.false_eq_true, if_false, if_true]
  obtain ⟨k, hk⟩ := (m.combFlush core).core_deepPark core 3
  rw [Mach.core_weirError, hk, Mach.get_weirError_other rfl (by simp only [ne_eq]; omega), Mach.get_deepPark_park, Mach.get_weirError rfl]
  exact ⟨rfl, rfl, rfl, rfl, rfl, rfl, rfl, rfl, by simp [Mach.get_set]⟩

theorem does_shallowPark :
    Does m (.shallowPark core) (m.frozen = false ∧ m.idle core = true ∧ m.baseMode ≠ 4 ∧ (m.core core).park = Park.running ∧
        (m.combFlush core).drained core = true) fun m' =>
      m' = ((m.combFlush core).onCore core fun k => { k with park := .shallow }).set (R.weir_core_park core) 1 := by
  refine does_of_ans _ _ (execShallowPark.eq_def core) id ?_
  rintro ⟨hfrozen, hidle, hmode, hpark, hdrained⟩
  have hstays : (m.frozen || !m.idle core || m.baseMode == 4 || (m.core core).park != .running) = false := by
    simp only [hfrozen, hidle, hpark, beq_eq_false_iff_ne.2 hmode, Bool.not_true, Bool.or_self, bne_self_eq_false]
  simp only [hstays, Bool.false_eq_true, if_false, hdrained, if_true]

theorem does_shallowPark_mode4 : Does m (.shallowPark core) (m.frozen = false ∧ m.baseMode = 4) fun m' => m' = m := by
  refine does_of_ans _ _ (execShallowPark.eq_def core) id ?_
  rintro ⟨-, hmode⟩
  simp only [hmode, beq_self_eq_true, Bool.or_true, Bool.true_or, if_true]

theorem does_deepPark :
    Does m (.deepPark core) (m.frozen = false ∧ m.idle core = true ∧ (m.core core).park = Park.shallow ∧ m.on (R.core_state_warm core) = false ∧
        (m.combFlush core).drained core = true) fun m' => m' = (m.combFlush core).deepPark core 2 := by
  refine does_of_ans _ _ (execDeepPark.eq_def core) id ?_
  rintro ⟨hfrozen, hidle, hpark, hwarm, hdrained⟩
  simp only [hfrozen, hidle, hpark, hwarm, hdrained, beq_self_eq_true, Bool.true_or, Bool.not_true, Bool.or_self, Bool.false_eq_true, if_false, if_true]

theorem does_coreUnpark :
    Does m (.coreUnpark core) (m.frozen = false ∧ ((m.core core).park = Park.shallow ∨ (m.core core).park = Park.deep) ∧ m.role core = 0 ∧
        m.get (R.weir_core_park core) ≠ 3) fun m' =>
      m' = (m.onCore core fun k => { k with park := .running }).sets [(R.weir_core_park core, 0), (R.core_state_warm core, 0)] := by
  refine does_of_ans _ _ (execCoreUnpark.eq_def core) id ?_
  rintro ⟨hfrozen, hpark, hrole, hhot⟩
  have hstays : (m.frozen || !((m.core core).park == .shallow || (m.core core).park == .deep) || m.role core != 0) = false := by
    rcases hpark with hpark | hpark <;> simp [hfrozen, hpark, hrole]
  simp only [hstays, Bool.false_eq_true, if_false]
  exact if_neg hhot

end

end

/-- Settles O45, command by command: an interval and a sample through the lemmas about the throttle and the credits that they leave aside, a reading by an induction over the cores. -/
theorem weirPower : Obligations.WeirPower := by
  unfold Obligations.WeirPower
  intro m
  exact ⟨fun _ _ _ _ => does_budgetInterval_within, fun _ _ _ _ => does_budgetInterval_above, fun _ _ => does_powerSample_above,
    fun _ _ => does_powerSample_below, does_sensorReading_cool, fun _ => does_sensorReading_stale, fun _ => does_thermalPark,
    fun _ => does_shallowPark, fun _ => does_shallowPark_mode4, fun _ => does_deepPark, fun _ => does_coreUnpark⟩

end Sys2Proof.Machine
end

section
/-! The node on the service network (R595, R598 to R601, R608), and O48. -/

namespace Sys2Proof.Machine

open Sys2Proof.Safety

section
variable {m : Mach}

/-! ### The dictionary under NMT (R598) -/

theorem Mach.od_setNmt (st : Nat) : (m.setNmt st).od = { m.od with nmt := st } := by
  rw [Mach.setNmt, Mach.indShow, Mach.sets_od]

theorem tfind_filter {α : Type} (t : Tab α) (p : Nat → Bool) (k : Nat) : tfind (t.filter fun x => p x.1) k = if p k then tfind t k else none := by
  induction t with
  | nil => simp [tfind]
  | cons x r ih =>
    obtain ⟨q, v⟩ := x
    rw [List.filter_cons, tfind]
    by_cases hq : q = k
    · subst hq
      by_cases hp : p q = true
      · simp [hp, tfind]
      · simp [hp, ih]
    · by_cases hp : p q = true
      · simp [hp, hq, tfind, ih]
      · simp [hp, hq, ih]

/-- A key of a communication object (Table 23.5). -/
def commKey (k : Nat) : Bool := decide (0x100000 ≤ k) && decide (k < 0x200000)

/-- A key of a debug or readout object that a reset of the node restores. -/
def debugKey (k : Nat) : Bool :=
  [odKey 0x2800 1, odKey 0x2802 1, odKey 0x2802 2, odKey 0x2802 3, odKey 0x2900 1, odKey 0x2900 2, odKey 0x2900 3].contains k

theorem tget_filter {α : Type} (t : Tab α) (gone : Nat → Bool) (k : Nat) (d : α) :
    tget (t.filter fun x => !gone x.1) k d = if gone k then d else tget t k d := by
  unfold tget
  rw [tfind_filter t fun k => !gone k]
  cases gone k <;> rfl

/-- Sessions are gone after a reset of the node's communication, and its communication objects with them. -/
theorem Mach.od_nmtReset : m.nmtReset.od = { m.od with nmt := 0, sess := [], objs := m.od.objs.filter fun x => !commKey x.1 } := by
  have hanswered : (if m.usdoServed then m.od.sess.foldl (fun m x => m.usdoAnswer x.id x.index x.sub 8 []) m else m).od = m.od := by
    split
    · exact foldl_keeps (f := fun (m : Mach) (x : Usdo) => m.usdoAnswer x.id x.index x.sub 8 []) Mach.od (fun _ _ => rfl) _ _
    · rfl
  unfold Mach.nmtReset
  rw [Mach.od_setNmt, hanswered]
  rfl

theorem Mach.od_debugDefaults : m.debugDefaults.od = { m.od with objs := m.od.objs.filter fun x => !debugKey x.1 } := rfl

theorem Mach.odObj_nmtReset (index sub dflt : Nat) :
    m.nmtReset.odObj index sub dflt = if commKey (odKey index sub) then dflt else m.odObj index sub dflt := by
  rw [Mach.odObj, Mach.od_nmtReset]
  exact tget_filter m.od.objs commKey _ _

theorem Mach.odObj_debugDefaults (index sub dflt : Nat) :
    m.debugDefaults.odObj index sub dflt = if debugKey (odKey index sub) then dflt else m.odObj index sub dflt := by
  rw [Mach.odObj, Mach.od_debugDefaults]
  exact tget_filter m.od.objs debugKey _ _

theorem Mach.node_congr {n : Mach} (h : n.regs = m.regs) : n.node = m.node := Mach.get_congr _ _ _ h

/-! ### The commands -/

/-- A command that NMT gives the node acts where it is heard. -/
theorem does_nmt {c : Instr} {f : Mach → Mach} {P : Mach → Prop}
    (hexec : ∀ s, exec c s = ans true s fun m => if m.nmtHeard then f m else m) (hP : P (f m)) : Does m c (m.nmtHeard = true) P :=
  does_of_ans _ _ hexec (fun _ => rfl) fun h => by rwa [if_pos h]

theorem does_setNmt {c : Instr} {st : Nat} (hexec : ∀ s, exec c s = ans true s fun m => if m.nmtHeard then m.setNmt st else m) :
    Does m c (m.nmtHeard = true) fun m' => m' = m.setNmt st ∧ m'.od.nmt = st :=
  does_nmt hexec ⟨rfl, by rw [Mach.od_setNmt]⟩

theorem does_nmtStart_unheard : Does m .nmtStart (m.nmtHeard = false) fun m' => m' = m :=
  does_of_ans _ _ execNmtStart.eq_def (fun _ => rfl) fun h => by rw [h, if_neg Bool.false_ne_true]

theorem does_nmtResetNode :
    Does m .nmtResetNode (m.nmtHeard = true) fun m' =>
      m'.od.nmt = 0 ∧ m'.od.sess = [] ∧ (m'.od.objs.all fun (x : Nat × Nat) => decide (x.1 < 0x100000) || decide (0x200000 ≤ x.1)) = true ∧
        m'.odObj 0x2800 1 0 = 0 ∧ m'.odObj 0x2802 3 256 = 256 := by
  refine does_nmt execNmtResetNode.eq_def ⟨?_, ?_, ?_, ?_, ?_⟩
  · rw [Mach.od_debugDefaults, Mach.od_nmtReset]
  · rw [Mach.od_debugDefaults, Mach.od_nmtReset]
  · rw [Mach.od_debugDefaults, Mach.od_nmtReset]
    refine List.all_eq_true.2 fun x hx => ?_
    have hkept := (List.mem_filter.1 (List.mem_filter.1 hx).1).2
    simp only [commKey, Bool.not_eq_true', Bool.and_eq_false_iff, decide_eq_false_iff_not] at hkept
    simp only [Bool.or_eq_true, decide_eq_true_eq]
    omega
  · rw [Mach.odObj_debugDefaults, if_pos (by decide)]
  · rw [Mach.odObj_debugDefaults, if_pos (by decide)]

theorem does_nmtResetCommunication :
    Does m .nmtResetCommunication (m.nmtHeard = true) fun m' =>
      m'.od.nmt = 0 ∧ m'.od.sess = [] ∧ m'.stored 0x1017 0 = 1000 ∧ m'.odObj 0x2800 1 0 = m.odObj 0x2800 1 0 := by
  refine does_nmt execNmtResetCommunication.eq_def ⟨?_, ?_, ?_, ?_⟩
  · rw [Mach.od_nmtReset]
  · rw [Mach.od_nmtReset]
  · rw [Mach.stored, Mach.odObj_nmtReset, if_pos (by decide)]
    rfl
  · rw [Mach.odObj_nmtReset, if_neg (by decide)]

theorem does_bootUpMessage :
    Does m .bootUpMessage (m.onBus = true ∧ m.od.nmt = 0) fun m' => m' = (m.canSend (0x700 + m.node) [0]).setNmt 1 := by
  refine does_of_ans _ _ execBootUpMessage.eq_def (fun _ => rfl) ?_
  rintro ⟨hbus, hnmt⟩
  simp only [hbus, hnmt, beq_self_eq_true, Bool.and_self, if_true]

theorem does_heartbeat :
    Does m .heartbeat (m.nmtHeard = true ∧ m.stored 0x1017 0 ≠ 0) fun m' => m' = m.canSend (0x700 + m.node) [nmtCode m.od.nmt] := by
  refine does_of_ans _ _ execHeartbeat.eq_def (fun _ => rfl) ?_
  rintro ⟨hheard, hperiod⟩
  simp only [hheard, bne_iff_ne.2 hperiod, Bool.and_self, if_true]

theorem does_heartbeat_off : Does m .heartbeat (m.stored 0x1017 0 = 0) fun m' => m' = m := by
  refine does_of_ans _ _ execHeartbeat.eq_def (fun _ => rfl) fun hperiod => ?_
  simp only [hperiod, bne_self_eq_false, Bool.and_false, Bool.false_eq_true, if_false]

theorem does_emcy {e : Emcy} {rest : List Emcy} :
    Does m .emcy (m.usdoServed = true ∧ m.od.emcy = e :: rest) fun m' =>
      m' = ({ m with od := { m.od with emcy := rest, drops := 0 } } : Mach).canSend (m.stored 0x1014 0)
        (leBytes 2 e.code ++ [e.reg] ++ leBytes 2 e.src ++ [e.act, e.flags] ++ leBytes 8 e.tod ++ [m.od.drops]) := by
  refine does_of_ans _ _ execEmcy.eq_def (fun _ => rfl) ?_
  rintro ⟨hserved, hwaits⟩
  simp only [hserved, hwaits, Bool.not_true, Bool.false_eq_true, if_false]

theorem does_canErrorPassive :
    Does m .canErrorPassive (m.onBus = true) fun m' => m' = ({ m with od := { m.od with passive := true } } : Mach).emcy 0x8120 0xFFF 0 0 :=
  does_of_ans _ _ execCanErrorPassive.eq_def (fun _ => rfl) fun hbus => if_pos hbus

theorem does_busOffRecovery :
    Does m .busOffRecovery (m.onBus = true) fun m' => m' = ({ m with od := { m.od with passive := false } } : Mach).emcy 0x8140 0xFFF 0 0 :=
  does_of_ans _ _ execBusOffRecovery.eq_def (fun _ => rfl) fun hbus => if_pos hbus

/-! ### USDO sessions (R601) -/

section
variable {id index sub : Nat} {wr last : Bool} {data : List Nat}

theorem does_usdoRequest_whole :
    Does m (.usdoRequest id wr index sub data true true) (m.usdoServed = true ∧ id < 2 ^ 16 ∧ index < 65536 ∧ sub < 256 ∧
        (m.od.sess.find? fun (x : Usdo) => x.id == id) = none ∧ m.od.sess.length < 8) fun m' =>
      m' = if wr then m.netWrite id index sub data else m.netRead id index sub := by
  refine does_of_ans _ _ (execUsdoRequest.eq_def id wr index sub data true true) left_of_and ?_
  rintro ⟨hserved, -, -, -, hfree, hroom⟩
  simp only [hserved, hfree, if_neg (Nat.not_le_of_lt hroom), Bool.not_true, Bool.false_eq_true, if_false, if_true]

theorem does_usdoRequest_first :
    Does m (.usdoRequest id wr index sub data true false) (m.usdoServed = true ∧ id < 2 ^ 16 ∧ index < 65536 ∧ sub < 256 ∧
        (m.od.sess.find? fun (x : Usdo) => x.id == id) = none ∧ m.od.sess.length < 8) fun m' =>
      m' = ({ m with od := { m.od with sess := m.od.sess ++ [(⟨id, wr, index, sub, data⟩ : Usdo)] } } : Mach) := by
  refine does_of_ans _ _ (execUsdoRequest.eq_def id wr index sub data true false) left_of_and ?_
  rintro ⟨hserved, -, -, -, hfree, hroom⟩
  simp only [hserved, hfree, if_neg (Nat.not_le_of_lt hroom), Bool.not_true, Bool.false_eq_true, if_false]

theorem does_usdoRequest_busy :
    Does m (.usdoRequest id wr index sub data true last) (m.usdoServed = true ∧ id < 2 ^ 16 ∧ index < 65536 ∧ sub < 256 ∧
        ((m.od.sess.find? fun (x : Usdo) => x.id == id).isSome = true ∨ 8 ≤ m.od.sess.length)) fun m' =>
      m' = m.usdoAnswer id index sub 0xA [] := by
  refine does_of_ans _ _ (execUsdoRequest.eq_def id wr index sub data true last) left_of_and ?_
  rintro ⟨hserved, -, -, -, hbusy⟩
  cases hlive : m.od.sess.find? fun (x : Usdo) => x.id == id with
  | some x => simp only [hserved, Bool.not_true, Bool.false_eq_true, if_false]
  | none =>
    rw [hlive] at hbusy
    simp only [hserved, if_pos (hbusy.resolve_left Bool.false_ne_true), Bool.not_true, Bool.false_eq_true, if_false]

theorem does_usdoRequest_unknown :
    Does m (.usdoRequest id wr index sub data false last) (m.usdoServed = true ∧ id < 2 ^ 16 ∧ index < 65536 ∧ sub < 256 ∧
        (m.od.sess.find? fun (x : Usdo) => x.id == id) = none) fun m' =>
      m' = m.usdoAnswer id index sub 8 [] := by
  refine does_of_ans _ _ (execUsdoRequest.eq_def id wr index sub data false last) left_of_and ?_
  rintro ⟨hserved, -, -, -, hnone⟩
  simp only [hserved, hnone, Bool.not_true, Bool.false_eq_true, if_false]

theorem Mach.usdoServed_congr {n : Mach} (hregs : n.regs = m.regs) (hvao : n.boot.vao = m.boot.vao) (hnmt : n.od.nmt = m.od.nmt) :
    n.usdoServed = m.usdoServed := by
  rw [Mach.usdoServed, Mach.usdoServed, Mach.onBus, Mach.onBus, Mach.node_congr hregs, hvao, hnmt]

theorem does_usdoTimeout {x : Usdo} :
    Does m (.usdoTimeout id) (id < 2 ^ 16 ∧ (m.od.sess.find? fun (x : Usdo) => x.id == id) = some x ∧ m.usdoServed = true) fun m' =>
      m' = ({ m with od := { m.od with sess := m.od.sess.filter fun (y : Usdo) => y.id != id } } : Mach).usdoAnswer id x.index x.sub 0x10 [] := by
  refine does_of_ans _ _ (execUsdoTimeout.eq_def id) (fun h => h) ?_
  rintro ⟨-, hlive, hserved⟩
  have hserved' : ({ m with od := { m.od with sess := m.od.sess.filter fun (y : Usdo) => y.id != id } } : Mach).usdoServed = true :=
    (Mach.usdoServed_congr rfl rfl rfl).trans hserved
  simp only [hlive, hserved', if_true]

end

/-! ### TPDOs (R608) -/

theorem does_tpdo1 : Does m .tpdo1 (m.tpdoOn 0x1800 = true) fun m' => m' = m.canSend (m.stored 0x1800 1) (m.telBytes 1 9 ++ [0, 0, 0]) :=
  does_of_ans _ _ execTpdo1.eq_def (fun _ => rfl) fun hon => if_pos hon

theorem does_tpdo1_off : Does m .tpdo1 (m.tpdoOn 0x1800 = false) fun m' => m' = m :=
  does_of_ans _ _ execTpdo1.eq_def (fun _ => rfl) fun hoff => by rw [hoff, if_neg Bool.false_ne_true]

theorem does_tpdo2 {timer : Bool} :
    Does m (.tpdo2 timer) (m.tpdoOn 0x1801 = true ∧ (timer = true ∨ m.od.tpdo2 ≠ m.tpdo2Watch)) fun m' =>
      m' = ({ m with od := { m.od with tpdo2 := m.tpdo2Watch } } : Mach).canSend (m.stored 0x1801 1) (m.telBytes 10 18) := by
  refine does_of_ans _ _ (execTpdo2.eq_def timer) (fun _ => rfl) ?_
  rintro ⟨hon, hdue⟩
  have hsends : (timer || m.od.tpdo2 != m.tpdo2Watch) = true := by
    rw [Bool.or_eq_true, bne_iff_ne]
    exact hdue
  simp only [hon, hsends, Bool.and_self, if_true]

theorem does_tpdo2_unchanged : Does m (.tpdo2 false) (m.od.tpdo2 = m.tpdo2Watch) fun m' => m' = m := by
  refine does_of_ans _ _ (execTpdo2.eq_def false) (fun _ => rfl) fun hsame => ?_
  simp only [hsame, bne_self_eq_false, Bool.or_self, Bool.and_false, Bool.false_eq_true, if_false]

end

/-- Settles O48, command by command: the resets of NMT through what they leave of the table of objects, the others by the branch that they take. -/
theorem serviceNode : Obligations.ServiceNode := by
  unfold Obligations.ServiceNode
  intro m
  exact ⟨does_setNmt execNmtStart.eq_def, does_nmtStart_unheard, does_setNmt execNmtStop.eq_def, does_setNmt execNmtEnterPreOperational.eq_def,
    does_nmtResetNode, does_nmtResetCommunication, does_bootUpMessage, does_heartbeat, does_heartbeat_off, fun _ _ => does_emcy,
    fun _ _ _ _ _ => does_usdoRequest_whole, fun _ _ _ _ _ => does_usdoRequest_first, fun _ _ _ _ _ _ => does_usdoRequest_busy,
    fun _ _ _ _ _ _ => does_usdoRequest_unknown, fun _ _ => does_usdoTimeout, does_tpdo1, does_tpdo1_off, fun _ => does_tpdo2,
    does_tpdo2_unchanged, does_canErrorPassive, does_busOffRecovery⟩

end Sys2Proof.Machine
end

section
/-! Accesses of the object dictionary over the network and through the window (R602, R603, R606, R609 to R615, R625), and O49. -/

namespace Sys2Proof.Machine

open Sys2Proof.Safety

section
variable {m : Mach}

/-! ### Numbers as an access carries them -/

theorem ofBytes_toBytes {n x : Nat} (hx : x < 256 ^ n) : ofBytes (toBytes n x) = x := by
  have hspelled := ofBytes_leadingBytes x n n (Nat.le_refl _)
  rw [Nat.sub_self, Nat.mul_zero, Nat.shiftRight_zero, Nat.mod_eq_of_lt hx] at hspelled
  exact hspelled

theorem ofBytes_leBytes {n x : Nat} (hx : x < 256 ^ n) : ofBytes (leBytes n x).reverse = x := by
  rw [leBytes, List.reverse_reverse, ofBytes_toBytes hx]

theorem length_leBytes (n x : Nat) : (leBytes n x).length = n := by simp [leBytes, toBytes]

/-! ### An access that is open -/

theorem Except.eq_ok_of_toOption {ε α : Type} {x : Except ε α} {a : α} (h : x.toOption = some a) : x = .ok a := by
  cases x with
  | error e => cases h
  | ok b => exact congrArg Except.ok (Option.some.inj h)

section
variable {index sub : Nat} {o : Obj} {bs : List Nat}

theorem Mach.netWrite_of_objWrite {r : Nat} {n : Mach} (h : m.objWrite true index sub bs = (r, n)) (id : Nat) :
    m.netWrite id index sub bs = n.usdoAnswer id index sub r [] := by rw [Mach.netWrite, h]

theorem Mach.netRead_of_objRead {r : Nat} (h : m.objRead true index sub = (r, bs)) (id : Nat) :
    m.netRead id index sub = m.usdoAnswer id index sub r bs := by rw [Mach.netRead, h]

theorem Mach.objWrite_domain (hopen : (m.objOpen true true index sub).toOption = some o) (hkind : o.kind = .own) (hsize : o.size = 0) :
    m.objWrite true index sub bs = m.domWrite index bs := by
  simp only [Mach.objWrite, Except.eq_ok_of_toOption hopen, hkind, hsize, ne_eq, not_true_eq_false, false_and, if_false, if_true]

theorem Mach.objWrite_number (hopen : (m.objOpen true true index sub).toOption = some o) (hkind : o.kind = .own) (hsize : o.size ≠ 0)
    (hlen : bs.length = o.size) : m.objWrite true index sub bs = m.numWrite index sub (ofBytes bs.reverse) := by
  simp only [Mach.objWrite, Except.eq_ok_of_toOption hopen, hkind, hlen, ne_eq, not_true_eq_false, and_false, if_false, if_true, if_neg hsize]

theorem Mach.objRead_domain (hopen : (m.objOpen true false index sub).toOption = some o) (hkind : o.kind = .own) (hsize : o.size = 0) :
    m.objRead true index sub = m.ownBytes index := by
  simp only [Mach.objRead, Except.eq_ok_of_toOption hopen, hkind, hsize, if_true]

theorem Mach.objRead_number (hopen : (m.objOpen true false index sub).toOption = some o) (hkind : o.kind = .own) (hsize : o.size ≠ 0) :
    m.objRead true index sub = ((m.ownNum index sub).1, if (m.ownNum index sub).1 = 1 then leBytes o.size (m.ownNum index sub).2 else []) := by
  simp only [Mach.objRead, Except.eq_ok_of_toOption hopen, hkind, if_true, if_neg hsize, leBytes]

end

/-- A command that makes one access does it where the node serves USDO. -/
theorem does_served {c : Instr} {h : Prop} {P : Mach → Prop} {ok : Bool} {f : Mach → Mach} (hexec : ∀ s, exec c s = ans ok s (·.served f))
    (hok : c.wf = true → ok = true) (hP : h → P (f m)) : Does m c (m.usdoServed = true ∧ h) P :=
  does_of_ans _ _ hexec hok fun ⟨hserved, hh⟩ => by
    rw [Mach.served, if_pos hserved]
    exact hP hh

/-! ### Images (R613, R614, R625) -/

section
variable {bytes : List Nat}

theorem does_imageWrite :
    Does m (.imageWrite bytes) (m.usdoServed = true ∧ (m.objOpen true true 0x2600 2).toOption = some (netWo 0) ∧ m.od.img ≠ 1 ∧ m.od.img ≠ 2) fun m' =>
      m'.od.img = 1 ∧ m'.od.imgLen = bytes.length := by
  refine does_served (execImageWrite.eq_def bytes) (fun _ => rfl) ?_
  rintro ⟨hopen, hone, htwo⟩
  have hwrite : m.objWrite true 0x2600 2 bytes = m.imageWrite bytes := Mach.objWrite_domain hopen rfl rfl
  rw [Mach.imageWrite, if_neg (not_or.2 ⟨hone, htwo⟩)] at hwrite
  rw [Mach.netWrite_of_objWrite hwrite]
  exact ⟨rfl, rfl⟩

theorem does_imageWrite_busy :
    Does m (.imageWrite bytes) (m.usdoServed = true ∧ (m.objOpen true true 0x2600 2).toOption = some (netWo 0) ∧ m.od.img = 1) fun m' =>
      m' = m.usdoAnswer 0 0x2600 2 0xA [] := by
  refine does_served (execImageWrite.eq_def bytes) (fun _ => rfl) ?_
  rintro ⟨hopen, hone⟩
  have hwrite : m.objWrite true 0x2600 2 bytes = m.imageWrite bytes := Mach.objWrite_domain hopen rfl rfl
  rw [Mach.imageWrite, if_pos (.inl hone)] at hwrite
  exact Mach.netWrite_of_objWrite hwrite 0

end

/-- An image whose check ends in a fault shows it, and is not copied. -/
theorem does_imageVerified {flashErr : Bool} {h : Prop} {r : Nat}
    (hr : h → (if areaSize < m.od.imgLen then 6 else if flashErr then 5 else
      if (m.imageCheck (fun o n => m.flashRd (areaBase m.idleArea + o) n) 1).1 = 0 then 3 else 4) = r) (hne : r ≠ 3) :
    Does m (.imageVerified flashErr) (m.frozen = false ∧ m.od.img = 1 ∧ h) fun m' => m' = ({ m with od := { m.od with img := r } } : Mach) := by
  refine does_of_ans _ _ (execImageVerified.eq_def flashErr) (fun _ => rfl) ?_
  rintro ⟨hfrozen, himg, hh⟩
  have hruns : (m.frozen || m.od.img != 1) = false := by simp only [hfrozen, himg, bne_self_eq_false, Bool.or_self]
  simp only [hruns, hr hh, beq_eq_false_iff_ne.2 hne, Bool.false_and, Bool.false_eq_true, if_false]

section
variable {val : Nat}

theorem does_activate_other :
    Does m (.activate val) (m.usdoServed = true ∧ (m.objOpen true true 0x2600 4).toOption = some (netWo 1) ∧ 1 < val ∧ val < 256) fun m' =>
      m' = m.usdoAnswer 0 0x2600 4 7 [] := by
  refine does_served (execActivate.eq_def val) id ?_
  rintro ⟨hopen, hone, hval⟩
  have hwrite : m.objWrite true 0x2600 4 [val] = m.activate (ofBytes [val].reverse) := Mach.objWrite_number hopen rfl (by decide) rfl
  have hspelled : ofBytes [val].reverse = val := by simp [ofBytes, Nat.mod_eq_of_lt hval]
  rw [hspelled, Mach.activate, if_pos (Nat.ne_of_gt hone)] at hwrite
  exact Mach.netWrite_of_objWrite hwrite 0

theorem Mach.od_selWrite (area : Nat) : (m.selWrite area).od = m.od := by
  unfold Mach.selWrite
  split
  rfl

theorem Mach.od_callReset (cause src : Nat) : (m.callReset cause src).od = m.od := by
  unfold Mach.callReset
  split <;> rfl

theorem Mach.pendReset_callReset (cause src : Nat) : (m.callReset cause src).boot.pendReset.isSome = true := by
  unfold Mach.callReset
  split
  case isTrue hpend => exact hpend
  case isFalse => rfl

theorem does_activate :
    Does m (.activate 1) (m.usdoServed = true ∧ (m.objOpen true true 0x2600 4).toOption = some (netWo 1) ∧ m.od.img = 3 ∧ m.get R.mode_boot_area = 3)
      fun m' => m'.od.next = some m.idleArea ∧ m'.boot.pendReset.isSome = true := by
  refine does_served (execActivate.eq_def 1) id ?_
  rintro ⟨hopen, himg, harea⟩
  have hwrite : m.objWrite true 0x2600 4 [1] = m.activate 1 := Mach.objWrite_number hopen rfl (by decide) rfl
  have harea' : ({ m with od := { m.od with next := some m.idleArea } } : Mach).get R.mode_boot_area = 3 := (Mach.get_congr _ _ _ rfl).trans harea
  have hactivate : m.activate 1 =
      (1, (({ m with od := { m.od with next := some m.idleArea } } : Mach).selWrite m.idleArea).callReset 1 0xFFF) := by
    rw [Mach.activate, if_neg (by decide), if_neg (by rw [himg]; decide)]
    exact if_pos harea'
  rw [Mach.netWrite_of_objWrite (hwrite.trans hactivate)]
  refine ⟨?_, Mach.pendReset_callReset _ _⟩
  change ((({ m with od := { m.od with next := some m.idleArea } } : Mach).selWrite m.idleArea).callReset 1 0xFFF).od.next = _
  rw [Mach.od_callReset, Mach.od_selWrite]

/-! ### The module reset object (R603) -/

theorem does_moduleResetObject {h : Prop} {r : Nat} {n : Mach} (hval : val < 65536) (hr : h → m.resetObject val = (r, n)) :
    Does m (.moduleResetObject val) (m.usdoServed = true ∧ (m.objOpen true true 0x2101 0).toOption = some (netWo 2) ∧ h) fun m' =>
      m' = n.usdoAnswer 0 0x2101 0 r [] := by
  refine does_served (execModuleResetObject.eq_def val) id ?_
  rintro ⟨hopen, hh⟩
  have hwrite : m.objWrite true 0x2101 0 (leBytes 2 val) = m.resetObject (ofBytes (leBytes 2 val).reverse) :=
    Mach.objWrite_number hopen rfl (by decide) (length_leBytes 2 val)
  rw [ofBytes_leBytes hval, hr hh] at hwrite
  exact Mach.netWrite_of_objWrite hwrite 0

theorem Mach.resetObject_running (hrun : m.frozen = false) : m.resetObject 0x5253 = (1, m.callReset 1 0xFFF) := by
  simp [Mach.resetObject, hrun]

theorem Mach.resetObject_checkstop (hstop : m.frozen = true ∧ m.od.hubLost = false) :
    m.resetObject 0x5253 = (1, m.callReset 3 (m.get R.aq_dom_chk_src)) := by simp [Mach.resetObject, hstop]

theorem does_moduleResetObject_other :
    Does m (.moduleResetObject val) (m.usdoServed = true ∧ (m.objOpen true true 0x2101 0).toOption = some (netWo 2) ∧ val < 65536 ∧ val ≠ 0x5253)
      fun m' => m' = m.usdoAnswer 0 0x2101 0 7 [] :=
  fun hwf hh => does_moduleResetObject hh.2.2.1 (fun hval : val < 65536 ∧ val ≠ 0x5253 => if_pos hval.2) hwf hh

/-! ### Debug commands (R609, R610) -/

/-- A debug command is a write of 0x2800.2. -/
theorem does_debug {c : Instr} {cmd : Nat} {h : Prop} {n : Mach} {r : Nat}
    (hexec : ∀ s, exec c s = ans true s (·.served (·.netWrite 0 0x2800 2 [cmd]))) (hcmd : cmd < 256) (hr : h → m.debugCmd cmd = (r, n)) :
    Does m c (m.usdoServed = true ∧ (m.objOpen true true 0x2800 2).toOption = some (netWo 1) ∧ h) fun m' => m' = n.usdoAnswer 0 0x2800 2 r [] := by
  refine does_served hexec (fun _ => rfl) ?_
  rintro ⟨hopen, hh⟩
  have hspelled : ofBytes [cmd].reverse = cmd := by simp [ofBytes, Nat.mod_eq_of_lt hcmd]
  have hwrite : m.objWrite true 0x2800 2 [cmd] = m.debugCmd (ofBytes [cmd].reverse) := Mach.objWrite_number hopen rfl (by decide) rfl
  rw [hspelled, hr hh] at hwrite
  exact Mach.netWrite_of_objWrite hwrite 0

theorem Mach.debugCmd_vacant (hvacant : m.dbgVacant = true) : m.debugCmd 1 = (1, m.dbgAnswer 2) := by simp [Mach.debugCmd, hvacant]

theorem Mach.debugCmd_stop (h : m.dbgVacant = false ∧ m.dbgState = 0) :
    m.debugCmd 1 = (1, ((m.onTh m.dbgThread fun x => { x with dbg := 3 }).dbgAnswer 0).tryStop m.dbgThread) := by simp [Mach.debugCmd, h]

theorem Mach.debugCmd_resume (hheld : m.dbgVacant = false) :
    m.debugCmd 2 = (1, (m.onTh m.dbgThread fun x => { x with dbg := 0 }).dbgAnswer 1) := by simp [Mach.debugCmd, hheld]

theorem Mach.debugCmd_step (h : m.dbgVacant = false ∧ m.dbgState = 2 ∧ (m.worldDebug m.dbgThread).2 = true) :
    m.debugCmd 3 = (1, (m.onTh m.dbgThread fun x => { x with dbg := 2 }).dbgAnswer 0) := by simp [Mach.debugCmd, h]

theorem Mach.debugCmd_step_running (h : m.dbgVacant = false ∧ m.dbgState = 0) : m.debugCmd 3 = (8, m) := by simp [Mach.debugCmd, h]

end

/-! ### Registers and memory of a stopped thread (R611) -/

section
variable {sub val : Nat} {bytes : List Nat}

theorem does_debugRegisterWrite :
    Does m (.debugRegisterAccess true sub val) (m.usdoServed = true ∧ sub < 256 ∧ val < 2 ^ 64 ∧
        (m.objOpen true true 0x2801 sub).toOption = some (netRw 8) ∧ m.dbgRegOpen = 1) fun m' =>
      m' = (m.dbgRegPut sub val).usdoAnswer 0 0x2801 sub 1 [] := by
  refine does_served (execDebugRegisterAccess.eq_def true sub val) id ?_
  rintro ⟨-, hval, hopen, hreg⟩
  have hwrite : m.objWrite true 0x2801 sub (leBytes 8 val) = m.numWrite 0x2801 sub (ofBytes (leBytes 8 val).reverse) :=
    Mach.objWrite_number hopen rfl (by decide) (length_leBytes 8 val)
  rw [ofBytes_leBytes hval, Mach.numWrite, if_pos hreg] at hwrite
  exact Mach.netWrite_of_objWrite hwrite 0

theorem does_debugRegisterRead {h : Prop} {r : Nat} {bs : List Nat}
    (hr : h → (m.dbgRegOpen, if m.dbgRegOpen = 1 then leBytes 8 ((m.th m.dbgThread).cur.dbgGet sub) else []) = (r, bs)) :
    Does m (.debugRegisterAccess false sub val) (m.usdoServed = true ∧ sub < 256 ∧ val < 2 ^ 64 ∧
        (m.objOpen true false 0x2801 sub).toOption = some (netRw 8) ∧ h) fun m' => m' = m.usdoAnswer 0 0x2801 sub r bs := by
  refine does_served (execDebugRegisterAccess.eq_def false sub val) id ?_
  rintro ⟨-, -, hopen, hh⟩
  exact Mach.netRead_of_objRead ((Mach.objRead_number hopen rfl (by decide)).trans (hr hh)) 0

theorem does_debugRegisterRead_open :
    Does m (.debugRegisterAccess false sub val) (m.usdoServed = true ∧ sub < 256 ∧ val < 2 ^ 64 ∧
        (m.objOpen true false 0x2801 sub).toOption = some (netRw 8) ∧ m.dbgRegOpen = 1) fun m' =>
      m' = m.usdoAnswer 0 0x2801 sub 1 (leBytes 8 ((m.th m.dbgThread).cur.dbgGet sub)) :=
  does_debugRegisterRead fun hopen => by rw [hopen, if_pos rfl]

theorem does_debugRegisterRead_running :
    Does m (.debugRegisterAccess false sub val) (m.usdoServed = true ∧ sub < 256 ∧ val < 2 ^ 64 ∧
        (m.objOpen true false 0x2801 sub).toOption = some (netRw 8) ∧ m.dbgState ≠ 2) fun m' => m' = m.usdoAnswer 0 0x2801 sub 8 [] :=
  does_debugRegisterRead fun hstate => by
    rw [Mach.dbgRegOpen, if_pos hstate]
    rfl

theorem does_debugMemoryRead {bs : List Nat} :
    Does m (.debugMemoryAccess false []) (m.usdoServed = true ∧ (m.objOpen true false 0x2802 4).toOption = some (netRw 0) ∧ m.dbgMemRead = (1, bs))
      fun m' => m' = m.usdoAnswer 0 0x2802 4 1 bs := by
  refine does_served (execDebugMemoryAccess.eq_def false []) (fun _ => rfl) ?_
  rintro ⟨hopen, hread⟩
  have hbytes : m.ownBytes 0x2802 = m.dbgMemRead := if_pos rfl
  exact Mach.netRead_of_objRead ((Mach.objRead_domain hopen rfl rfl).trans (hbytes.trans hread)) 0

theorem does_debugMemoryWrite :
    Does m (.debugMemoryAccess true bytes) (m.usdoServed = true ∧ (m.objOpen true true 0x2802 4).toOption = some (netRw 0)) fun m' =>
      m' = (m.dbgMemWrite bytes).2.usdoAnswer 0 0x2802 4 (m.dbgMemWrite bytes).1 [] := by
  refine does_served (execDebugMemoryAccess.eq_def true bytes) (fun _ => rfl) fun hopen => ?_
  have hwrite : m.objWrite true 0x2802 4 bytes = m.dbgMemWrite bytes := Mach.objWrite_domain hopen rfl rfl
  exact Mach.netWrite_of_objWrite hwrite 0

end

/-! ### The readout (R612) -/

theorem does_readoutItem {h : Prop} {x : Nat × List Nat} (hr : h → m.ownBytes 0x2900 = x) :
    Does m .readoutItem (m.usdoServed = true ∧ (m.objOpen true false 0x2900 4).toOption = some (netRo 0) ∧ h) fun m' =>
      m' = m.usdoAnswer 0 0x2900 4 x.1 x.2 := by
  refine does_served execReadoutItem.eq_def (fun _ => rfl) ?_
  rintro ⟨hopen, hh⟩
  exact Mach.netRead_of_objRead ((Mach.objRead_domain hopen rfl rfl).trans (hr hh)) 0

theorem Mach.ownBytes_readout : m.ownBytes 0x2900 = if m.frozen then m.readout else (8, []) := by
  rw [Mach.ownBytes, if_neg (by decide), if_pos rfl]

/-! ### The window (R615) -/

theorem Mach.word_setWord (f g : Fld) (w : Nat) (hblk : g.blk = f.blk) (hoff : g.off = f.off) : (m.setWord f w).word g = (BitVec.ofNat 64 w).toNat := by
  simp only [Mach.word, Mach.setWord, hblk, hoff, Regs.tab_setTab_same, tfind_tset_same]

/-- A field of a register that was stored whole. -/
theorem Mach.get_setWord (f g : Fld) (w : Nat) (hblk : g.blk = f.blk) (hoff : g.off = f.off) (hhi : g.hi < 64) :
    (m.setWord f w).get g = bits w g.hi g.lo := by
  rw [Mach.get, Mach.word_setWord f g w hblk hoff, bits_ofNat64 _ _ _ hhi]

theorem Mach.get_setWord_other (f g : Fld) (w : Nat) (hblk : g.blk = f.blk) (hoff : g.off ≠ f.off) : (m.setWord f w).get g = m.get g := by
  simp only [Mach.get, Mach.word, Mach.setWord, hblk, Regs.tab_setTab_same, tfind_tset_ne _ _ _ _ hoff]

/-- A write of `od.cmd`, its `go` aside, holds the object, the operation and `fin` that it names (Table 23.10). -/
theorem od_cmd_apply (isSealed : Bool) (old val : Nat) :
    ∃ done go, RT.od_cmd.apply isSealed old val (2 ^ 64 - 2) =
      setBits (setBits (setBits (setBits (setBits (setBits old 63 48 (bits val 63 48)) 47 40 (bits val 47 40)) 35 34 (bits val 35 34))
        33 33 (bits val 33 33)) 31 31 done) 0 0 go := by
  refine ⟨bits old 31 31 &&& (2 ^ (31 + 1 - 31) - 1 ^^^ bits val 31 31), bits old 0 0 ||| (bits val 0 0 &&& bits (2 ^ 64 - 2) 0 0), ?_⟩
  simp only [RDesc.apply, RT.od_cmd, List.foldl_cons, List.foldl_nil]
  rw [FDesc.apply_of_taken (f := ⟨63, 48, .rw, 0, none⟩) (by decide) (by decide) rfl (.inl rfl),
    FDesc.apply_of_taken (f := ⟨47, 40, .rw, 0, none⟩) (by decide) (by decide) rfl (.inl rfl),
    FDesc.apply_of_taken (f := ⟨35, 34, .rw, 0, none⟩) (by decide) (by decide) rfl (.inl rfl),
    FDesc.apply_of_taken (f := ⟨33, 33, .rw, 0, none⟩) (by decide) (by decide) rfl (.inl rfl),
    FDesc.apply_of_w1c (f := ⟨31, 31, .w1c, 0, none⟩) (by decide) rfl, FDesc.apply_of_readOnly (f := ⟨27, 24, .ro, 0, none⟩) (.inl rfl)]
  rfl

/-- A write of `od.cmd` by the hypervisor holds what it names. -/
theorem Mach.mcsWrite_od_cmd (hrun : m.frozen = false) (val : Nat) :
    m.mcsWrite 0xd00000 0 val none = some (m.setWord R.od_cmd (RT.od_cmd.apply m.sealed (m.word R.od_cmd) val (2 ^ 64 - 2))) := by
  have hreg : regAt .od 0xd00000 = some (RT.od_cmd, []) := by decide
  have hrsl : RT.od_cmd.hitsRsl (partMask 0) = false := by decide
  rw [Mach.mcsWrite, hrun, if_neg Bool.false_ne_true, if_neg (by decide)]
  have hstore : m.regStore 0xd00000 0 val none = some (m.plain ⟨RT.od_cmd, [], ⟨.od, 0xd00000, 63, 0⟩, val, partMask 0, none⟩) := by
    simp only [Mach.regStore, show 0xd00000 / 8 * 8 = 0xd00000 by decide, show blkOf 0xd00000 = some .od by decide, hreg, hrsl, Bool.and_false,
      Bool.false_eq_true, if_false]
    rfl
  have hmask : partMask 0 &&& (2 ^ 64 - 1 ^^^ RT.od_cmd.bitsOf (· == .w1s)) = 2 ^ 64 - 2 := by decide
  rw [hstore, Mach.plain_eq, hmask]

/-- The machine as a request of the window finds it. -/
def Mach.odAsked (m : Mach) (xfer val : Nat) : Mach :=
  (m.setWord R.od_xfer xfer).setWord R.od_cmd
    (RT.od_cmd.apply (m.setWord R.od_xfer xfer).sealed ((m.setWord R.od_xfer xfer).word R.od_cmd) val (2 ^ 64 - 2))

section
variable {xfer val : Nat}

theorem Mach.get_odAsked {f : Fld} (hblk : f.blk = .od) (hoff : f.off = 0xd00000) (hhi : f.hi < 64)
    (hfield : (f.hi = 63 ∧ f.lo = 48) ∨ (f.hi = 47 ∧ f.lo = 40) ∨ (f.hi = 35 ∧ f.lo = 34)) : (m.odAsked xfer val).get f = bits val f.hi f.lo := by
  obtain ⟨done, go, happly⟩ := od_cmd_apply (m.setWord R.od_xfer xfer).sealed ((m.setWord R.od_xfer xfer).word R.od_cmd) val
  rw [Mach.odAsked, Mach.get_setWord R.od_cmd f _ hblk hoff hhi, happly, bits_setBits_ne _ _ _ _ _ _ (by decide) (.inr (by omega)),
    bits_setBits_ne _ _ _ _ _ _ (by decide) (.inr (by omega)), bits_setBits_ne _ _ _ _ _ _ (by decide) (.inr (by omega))]
  rcases hfield with ⟨hhi, hlo⟩ | ⟨hhi, hlo⟩ | ⟨hhi, hlo⟩
  · rw [hhi, hlo, bits_setBits_ne _ _ _ _ _ _ (by decide) (.inr (by decide)), bits_setBits_ne _ _ _ _ _ _ (by decide) (.inr (by decide)),
      bits_setBits_bits _ _ _ _ (by decide)]
  · rw [hhi, hlo, bits_setBits_ne _ _ _ _ _ _ (by decide) (.inr (by decide)), bits_setBits_bits _ _ _ _ (by decide)]
  · rw [hhi, hlo, bits_setBits_bits _ _ _ _ (by decide)]

theorem Mach.get_odAsked_xfer {f : Fld} (hblk : f.blk = .od) (hoff : f.off = 0xd00008) (hhi : f.hi < 64) :
    (m.odAsked xfer val).get f = bits xfer f.hi f.lo := by
  rw [Mach.odAsked, Mach.get_setWord_other R.od_cmd f _ hblk (by rw [hoff]; decide), Mach.get_setWord R.od_xfer f _ hblk hoff hhi]

/-- A write of `od.cmd` with `go` while no request is unfinished makes its request. -/
theorem Mach.odCmdWrite_go (hrun : m.frozen = false) (hidle : m.on R.od_cmd_go = false) (hgo : bit val 0 = true) :
    (m.setWord R.od_xfer xfer).odCmdWrite 0xd00000 0 val none = (m.odAsked xfer val).odGo := by
  have hidle' : (m.setWord R.od_xfer xfer).on R.od_cmd_go = false := by
    rw [Mach.on, Mach.get_setWord_other R.od_xfer R.od_cmd_go _ rfl (by decide)]
    exact hidle
  have hmask : bit (val &&& partMask 0) 0 = true := by
    rw [bit, Nat.testBit_and, show (partMask 0).testBit 0 = true by decide, Bool.and_true]
    exact hgo
  have hrun' : (m.setWord R.od_xfer xfer).frozen = false := hrun
  simp only [Mach.odCmdWrite, hidle', Mach.mcsWrite_od_cmd hrun', Option.getD_some, hmask, Bool.false_eq_true, if_false, if_true]
  rfl

end

/-- The end of a request shows its result. -/
theorem Mach.get_odEnd {r : Nat} (hr : r < 16) : (m.odEnd r).get R.od_cmd_result = r ∧ (m.odEnd r).get R.od_cmd_done = 1 ∧ (m.odEnd r).get R.od_cmd_go = 0 := by
  simp [Mach.odEnd, Mach.get_set, Nat.mod_eq_of_lt hr]

section
variable {index sub off : Nat}

/-- `od.cmd` as a read or a write of the window stores it: operation 1 reads and 2 writes, bit 33 is `fin`. -/
def odCmdWord (index sub op fin : Nat) : Nat := index * 2 ^ 48 + sub * 2 ^ 40 + op * 2 ^ 34 + fin * 2 ^ 33 + 1

theorem odCmdWord_fields {op fin : Nat} (hindex : index < 65536) (hsub : sub < 256) (hop : op < 4) (hfin : fin < 2) :
    bits (odCmdWord index sub op fin) 63 48 = index ∧ bits (odCmdWord index sub op fin) 47 40 = sub ∧ bits (odCmdWord index sub op fin) 35 34 = op ∧
      bit (odCmdWord index sub op fin) 0 = true := by
  simp only [odCmdWord, bits, bit, Nat.shiftRight_eq_div_pow, Nat.testBit_zero, decide_eq_true_eq]
  refine ⟨?_, ?_, ?_, ?_⟩ <;> omega

/-- Machine `n` holds a request of the window over `m`: its object, its operation and its length. -/
structure Mach.WindowAsks (m n : Mach) (index sub op len : Nat) : Prop where
  running : n.frozen = m.frozen
  od : n.od = m.od
  index : n.get R.od_cmd_index = index
  sub : n.get R.od_cmd_sub = sub
  op : n.get R.od_cmd_op = op
  len : n.get R.od_xfer_len = len

theorem Mach.windowAsks_odAsked {op fin len : Nat} (hindex : index < 65536) (hsub : sub < 256) (hop : op < 4) (hfin : fin < 2) (hlen : len < 8192) :
    m.WindowAsks (m.odAsked (off * 2 ^ 32 + len) (odCmdWord index sub op fin)) index sub op len := by
  obtain ⟨hi, hs, ho, -⟩ := odCmdWord_fields hindex hsub hop hfin
  refine ⟨rfl, rfl, ?_, ?_, ?_, ?_⟩
  · rw [Mach.get_odAsked rfl rfl (by decide) (.inl ⟨rfl, rfl⟩), hi]
  · rw [Mach.get_odAsked rfl rfl (by decide) (.inr (.inl ⟨rfl, rfl⟩)), hs]
  · rw [Mach.get_odAsked rfl rfl (by decide) (.inr (.inr ⟨rfl, rfl⟩)), ho]
  · rw [Mach.get_odAsked_xfer rfl rfl (by decide)]
    simp only [bits, Nat.shiftRight_zero]
    omega

theorem does_odRead {len : Nat} {h : Prop} {P : Mach → Prop}
    (hP : h → m.on R.od_cmd_go = false ∧ ∀ n, m.WindowAsks n index sub 1 len → P n.odGo) :
    Does m (.odRead index sub off len) (m.frozen = false ∧ h) P := by
  intro hwf
  have hranges : (decide (index < 65536) && decide (sub < 256) && decide (off < 0x100000000) && decide (len < 8192)) = true := hwf
  simp only [Bool.and_eq_true, decide_eq_true_eq] at hranges
  obtain ⟨⟨⟨hindex, hsub⟩, -⟩, hlen⟩ := hranges
  revert hwf
  refine does_of_ans _ _ (execOdRead.eq_def index sub off len) id ?_
  rintro ⟨hrun, hh⟩
  obtain ⟨hidle, hp⟩ := hP hh
  have hword : index * 2 ^ 48 + sub * 2 ^ 40 + 1 * 2 ^ 34 + 1 = odCmdWord index sub 1 0 := by rw [odCmdWord, Nat.zero_mul, Nat.add_zero]
  obtain ⟨-, -, -, hgo⟩ := odCmdWord_fields (fin := 0) hindex hsub (show 1 < 4 by decide) (by decide)
  rw [hrun, if_neg Bool.false_ne_true, hword, Mach.odCmdWrite_go hrun hidle hgo]
  exact hp _ (Mach.windowAsks_odAsked hindex hsub (by decide) (by decide) hlen)

/-- The bytes of a request go into `od.buf` alone. -/
theorem Mach.odFill_keeps {β : Type} (g : Mach → β) (hg : ∀ (n : Mach) (k v : Nat), g (n.set (R.od_buf k) v) = g n) (bs : List Nat) :
    g (m.odFill bs) = g m := by
  unfold Mach.odFill
  exact foldl_keeps g (fun n k => hg n k _) _ _

theorem does_odWrite {bytes : List Nat} {fin : Bool} {h : Prop} {P : Mach → Prop}
    (hP : h → m.on R.od_cmd_go = false ∧ ∀ n, m.WindowAsks n index sub 2 (min bytes.length 8191) → P n.odGo) :
    Does m (.odWrite index sub off bytes fin) (m.frozen = false ∧ h) P := by
  intro hwf
  have hranges : (decide (index < 65536) && decide (sub < 256) && decide (off < 0x100000000) && bytes.all (· < 256)) = true := hwf
  simp only [Bool.and_eq_true, decide_eq_true_eq] at hranges
  obtain ⟨⟨⟨hindex, hsub⟩, -⟩, -⟩ := hranges
  revert hwf
  refine does_of_ans _ _ (execOdWrite.eq_def index sub off bytes fin) left_of_and ?_
  rintro ⟨hrun, hh⟩
  obtain ⟨hidle, hp⟩ := hP hh
  have hfin : b2n fin < 2 := by cases fin <;> decide
  have hword : index * 2 ^ 48 + sub * 2 ^ 40 + 2 * 2 ^ 34 + b2n fin * 2 ^ 33 + 1 = odCmdWord index sub 2 (b2n fin) := rfl
  obtain ⟨-, -, -, hgo⟩ := odCmdWord_fields (op := 2) hindex hsub (by decide) hfin
  have hrun' : (m.odFill (bytes.take 4096)).frozen = false := (Mach.odFill_keeps Mach.frozen (fun _ _ _ => rfl) _).trans hrun
  have hidle' : (m.odFill (bytes.take 4096)).on R.od_cmd_go = false :=
    (Mach.odFill_keeps (·.on R.od_cmd_go) (fun n k v => by
      rw [Mach.on, Mach.on, Mach.get_set_other _ _ _ _ (.inr (by simp only [ne_eq]; omega))]) _).trans hidle
  rw [hrun, if_neg Bool.false_ne_true, hword, Mach.odCmdWrite_go hrun' hidle' hgo]
  obtain ⟨hrunning, hod, hi, hs, ho, hl⟩ := Mach.windowAsks_odAsked (m := m.odFill (bytes.take 4096)) (off := off) hindex hsub (show 2 < 4 by decide)
    hfin (show min bytes.length 8191 < 8192 by omega)
  exact hp _ ⟨hrunning.trans (Mach.odFill_keeps Mach.frozen (fun _ _ _ => rfl) _), hod.trans (Mach.odFill_keeps Mach.od (fun _ _ _ => rfl) _),
    hi, hs, ho, hl⟩

/-! ### What the window answers -/

theorem Mach.odGo_badLength {n : Mach} {op len : Nat} (hasks : m.WindowAsks n index sub op len) (hlen : len = 0 ∨ 4096 < len) : n.odGo = n.odEnd 6 := by
  rw [Mach.odGo, hasks.len]
  exact if_pos (.inr hlen)

/-- The device type (Table 23.5). -/
def deviceType : Obj := ⟨1, 1, 4, .const 0⟩

theorem Mach.obj_deviceType : m.obj 0x1000 0 = .ok deviceType := rfl

theorem Mach.objOpen_deviceType (hrun : m.frozen = false) (hhub : m.od.hubLost = false) (wr : Bool) :
    m.objOpen false wr 0x1000 0 = if wr then .error 9 else .ok deviceType := by
  have hopen : m.odBarred 0x1000 0 wr = false := by simp [Mach.odBarred, hrun, hhub]
  cases wr <;> simp [Mach.objOpen, Mach.obj_deviceType, hopen, deviceType]

theorem Mach.objRead_deviceType (hrun : m.frozen = false) (hhub : m.od.hubLost = false) : m.objRead false 0x1000 0 = (1, toBytes 4 0) := by
  simp only [Mach.objRead, Mach.objOpen_deviceType hrun hhub, Bool.false_eq_true, if_false]
  rfl

theorem Mach.objWrite_deviceType (hrun : m.frozen = false) (hhub : m.od.hubLost = false) (bs : List Nat) : m.objWrite false 0x1000 0 bs = (9, m) := by
  simp only [Mach.objWrite, Mach.objOpen_deviceType hrun hhub, if_true]

theorem Mach.odGo_readDeviceType {n : Mach} (hasks : m.WindowAsks n 0x1000 0 1 4) (hrun : m.frozen = false) (hhub : m.od.hubLost = false) :
    n.odGo = ((n.odFill (toBytes 4 0)).set R.od_xfer_len 4).odEnd 1 := by
  have hrun' : n.frozen = false := hasks.running.trans hrun
  have hhub' : n.od.hubLost = false := (congrArg OdSt.hubLost hasks.od).trans hhub
  rw [Mach.odGo]
  simp only [hasks.index, hasks.sub, hasks.op, hasks.len, Mach.objRead_deviceType hrun' hhub', Mach.obj_deviceType]
  rfl

theorem Mach.odGo_writeDeviceType {n : Mach} {len : Nat} (hasks : m.WindowAsks n 0x1000 0 2 len) (hrun : m.frozen = false)
    (hhub : m.od.hubLost = false) (hlen : 0 < len ∧ len ≤ 4096) : n.odGo = n.odEnd 9 := by
  have hrun' : n.frozen = false := hasks.running.trans hrun
  have hhub' : n.od.hubLost = false := (congrArg OdSt.hubLost hasks.od).trans hhub
  have hgood : ¬(((2 : Nat) ≠ 1 ∧ (2 : Nat) ≠ 2) ∨ len = 0 ∨ 4096 < len) := by omega
  rw [Mach.odGo]
  simp only [hasks.index, hasks.sub, hasks.op, hasks.len, if_neg hgood, Mach.obj_deviceType, Mach.objWrite_deviceType hrun' hhub']
  rfl

end

section
variable {index sub off : Nat}

theorem does_odRead_badLength {len : Nat} :
    Does m (.odRead index sub off len) (m.frozen = false ∧ index < 65536 ∧ sub < 256 ∧ off < 2 ^ 32 ∧ len < 8192 ∧ m.on R.od_cmd_go = false ∧
        (len = 0 ∨ 4096 < len)) fun m' =>
      m'.get R.od_cmd_result = 6 ∧ m'.get R.od_cmd_done = 1 ∧ m'.get R.od_cmd_go = 0 := by
  refine does_odRead ?_
  rintro ⟨-, -, -, -, hidle, hlen⟩
  refine ⟨hidle, fun n hasks => ?_⟩
  rw [Mach.odGo_badLength hasks hlen]
  exact Mach.get_odEnd (by decide)

theorem does_odRead_deviceType :
    Does m (.odRead index 0 0 4) (m.frozen = false ∧ index = 0x1000 ∧ m.on R.od_cmd_go = false ∧ m.od.hubLost = false) fun m' =>
      m'.get R.od_cmd_result = 1 ∧ m'.get R.od_cmd_done = 1 ∧ m'.get R.od_xfer_len = 4 := by
  rintro hwf ⟨hrun, hindex, hidle, hhub⟩
  refine does_odRead (h := True) (fun _ => ⟨hidle, fun n hasks => ?_⟩) hwf ⟨hrun, trivial⟩
  subst hindex
  rw [Mach.odGo_readDeviceType hasks hrun hhub]
  obtain ⟨hresult, hdone, -⟩ := Mach.get_odEnd (m := (n.odFill (toBytes 4 0)).set R.od_xfer_len 4) (show 1 < 16 by decide)
  exact ⟨hresult, hdone, by simp [Mach.odEnd, Mach.get_set]⟩

theorem does_odWrite_deviceType {bytes : List Nat} {fin : Bool} :
    Does m (.odWrite index sub off bytes fin) (m.frozen = false ∧ index < 65536 ∧ sub < 256 ∧ off < 2 ^ 32 ∧ index = 0x1000 ∧ sub = 0 ∧
        m.on R.od_cmd_go = false ∧ 0 < bytes.length ∧ bytes.length ≤ 4096 ∧ m.od.hubLost = false) fun m' =>
      m'.get R.od_cmd_result = 9 ∧ m'.get R.od_cmd_done = 1 := by
  rintro hwf ⟨hrun, -, -, -, hindex, hsub, hidle, hlo, hhi, hhub⟩
  refine does_odWrite (h := True) (fun _ => ⟨hidle, fun n hasks => ?_⟩) hwf ⟨hrun, trivial⟩
  subst hindex hsub
  rw [Mach.odGo_writeDeviceType hasks hrun hhub (by omega)]
  obtain ⟨hresult, hdone, -⟩ := Mach.get_odEnd (m := n) (show 9 < 16 by decide)
  exact ⟨hresult, hdone⟩

end

end

/-- Settles O49, command by command: an access of the network through what a write and a read of its object come to, a request of the window through the fields that the write of its command register holds. -/
theorem objectAccess : Obligations.ObjectAccess := by
  unfold Obligations.ObjectAccess
  intro m
  refine ⟨fun _ => does_imageWrite, fun _ => does_imageWrite_busy, does_imageVerified (fun hlen => ?_) (by decide),
    fun _ => does_imageVerified (fun hlen => if_pos hlen) (by decide), does_imageVerified ?_ (by decide), fun _ => does_activate_other, does_activate,
    does_moduleResetObject (by decide) Mach.resetObject_running, does_moduleResetObject (by decide) Mach.resetObject_checkstop,
    fun _ => does_moduleResetObject_other, does_debug execDebugStop.eq_def (by decide) Mach.debugCmd_vacant,
    does_debug execDebugStop.eq_def (by decide) Mach.debugCmd_stop, does_debug execDebugResume.eq_def (by decide) Mach.debugCmd_resume,
    does_debug execDebugStep.eq_def (by decide) Mach.debugCmd_step, does_debug execDebugStep.eq_def (by decide) Mach.debugCmd_step_running,
    fun _ _ => does_debugRegisterWrite, fun _ _ => does_debugRegisterRead_open, fun _ _ => does_debugRegisterRead_running,
    fun _ => does_debugMemoryRead, fun _ => does_debugMemoryWrite, does_readoutItem (x := (8, [])) fun hrun => ?_, does_readoutItem (x := m.readout) fun hstop => ?_,
    fun _ _ _ _ => does_odRead_badLength, fun _ => does_odRead_deviceType, fun _ _ _ _ _ => does_odWrite_deviceType⟩
  · rw [if_neg (Nat.not_lt_of_le hlen), if_pos rfl]
  · rintro ⟨hlen, hbad⟩
    rw [if_neg (Nat.not_lt_of_le hlen), if_neg Bool.false_ne_true, if_neg hbad]
  · rw [Mach.ownBytes_readout, hrun, if_neg Bool.false_ne_true]
  · rw [Mach.ownBytes_readout, hstop, if_pos rfl]

end Sys2Proof.Machine
end
